-- ==== Sys2Proof/Word.lean ====
section
/-! DEFINITION. The words and byte lists of the FV9256 model (R5: registers are 32 bits wide), and the
type of a sparse table. Operations over them stand in Machine/Table.lean and Machine/Operands.lean. -/

namespace Sys2Proof

abbrev Byte := BitVec 8
abbrev W16 := BitVec 16
abbrev W32 := BitVec 32
abbrev W64 := BitVec 64
abbrev Bytes := List Byte

/-- Sparse data by key: the entries, keys strictly rising, none equal to what an unlisted key reads as. -/
abbrev Tbl (α : Type) := List (Nat × α)

/-- The units and objects the manual numbers. -/
abbrev LaneId := Fin 64
abbrev PortId := Fin 256
abbrev PipeId := Fin 8
abbrev LinkId := Fin 3
abbrev ChanId := Fin 16
abbrev DmaId := Fin 32
abbrev RingId := Fin 16384
abbrev EqId := Fin 2048
abbrev TgtId := Fin 32
abbrev SrcId := Fin 4096
abbrev CtxId := Fin 40960
abbrev QueueId := Fin 262144
abbrev SpId := Fin 4
abbrev PoolId := Fin 64
abbrev BusId := Fin 8
abbrev ClassId := Fin 8
abbrev GroupId := Fin 40
abbrev DestId := Fin 264
abbrev JobId := Fin 8192
abbrev FltId := Fin 512

end Sys2Proof
end

