-- ==== Sys2Proof/Syntax.lean ====
section
/-! DEFINITION. The commands of the block: one constructor for each row of spec/opcode_table.json, with
the row's operands. What the outside world decides (a frame's bytes, a measurement, the coded content of a
row, what a read of host memory returned) is an operand; what the module decides is not. -/

namespace Sys2Proof

/-- The levels the module samples at a start (R472), and what its parts answer to the tests of the start:
channels whose training fails twice (R361) and lanes whose store readback fails (R109). -/
structure BoardInputs where
  bootSel : BitVec 2
  cascId : BitVec 2
  chanFail : List ChanId
  laneFail : List LaneId
  deriving DecidableEq, Repr

/-- Where a job goes: one lane (or carriageway lead), or the pipe set (R175). -/
inductive DispTarget where
  | lane (l : LaneId)
  | pipes
  deriving DecidableEq, Repr

/-- What decoding one row of the stream came to (R84, R153 to R158): facts of the stream, which is outside. -/
structure DecodeFacts where
  newPicture : Bool           -- row 0 of a picture
  width : W16
  height : W16
  rows : W16
  profile : Byte              -- profile, level, 10-bit samples and DPB size less 1 of the active parameter set (R90)
  level : Byte
  ten : Bool
  dpbLess1 : BitVec 4
  poc : W32
  tools : Bool                -- it uses a tool or a form that the module does not decode (R83)
  refs : List (W32 × Bool)    -- the references of the picture: poc, and whether the stream takes it as long-term; index 0 of list 0 first (R153)
  segments : Nat              -- segments whose damage begins in this row, found in the data (R156)
  syntaxErrors : Nat          -- those of them damaged by a syntax error
  runsOn : Bool               -- a damaged segment runs on into the next row
  concealed : List Nat        -- units concealed in the row
  mvs : List (Option (Int × Int))   -- the vectors of the row's units: none where a unit is intra (R157)
  irap : Bool                 -- an IRAP, IDR or shown key frame ends the CONCEALED state (R158)
  recoverySei : Bool          -- the picture brings a recovery point SEI (R158)
  recoveryReached : Bool      -- the count of a recovery point SEI is reached (R158)
  noReorder : Bool            -- the stream signals no reordering (R150)
  releases : List W32         -- poc of the pictures that the bumping process releases at this row, in output order (R150)
  removed : List W32          -- poc of the references that the stream removes with this picture (R148)
  longs : List W32            -- poc of the held references that the stream marks long-term with this picture (R148)
  asLong : Bool               -- the picture is kept as a long-term reference (R148)
  isRef : Bool                -- the picture is kept as a reference at all
  shown : Bool                -- the picture is to be output
  ranOut : Bool               -- the data ended before the row's last block (R226)
  bytes : Nat                 -- bytes consumed
  deriving DecidableEq, Repr

/-- What coding one row came to: bits, QP, statistics; the coded content is outside the model (R74, R92).
(DESIGN CHOICE, log 10.) -/
structure RowFacts where
  bits : Nat
  durationUs : Nat
  stats : Bytes               -- what coding found for each unit, laid out as the entries of the per-CTU statistics (R91)
  measured : List (Nat × Nat × Nat)   -- events of R96 that the row's work asserted: code, lane cycles, runs of cycles
  deriving DecidableEq, Repr

/-- A machine check's kind and place (R104, R114). -/
inductive MchkKind where
  | parity (nano : Bool) (addr : BitVec 13) (syndrome : Byte)
  | stack (addr : BitVec 13)
  | illegal (addr : BitVec 13)
  deriving DecidableEq, Repr

/-- A power domain that wakes on its first access (R20). -/
inductive Domain where
  | lane (l : LaneId)
  | pipe (p : PipeId)
  | portBlock (b : Fin 32)
  deriving DecidableEq, Repr

/-- What the ECC of a store reports on a read (R94, R364). -/
inductive EccResult where
  | clean
  | single
  | uncorrectable
  deriving DecidableEq, Repr

/-- The ring and sequence of a consumed submission (R376): the host command that runs. -/
structure CmdRef where
  ring : RingId
  sseq : W32
  deriving DecidableEq, Repr

/-- What a read of the command's buffer in host memory returned; `none` when the read failed (R383 HOST_DMA). -/
abbrev HostData := Option Bytes

/-- A submission entry as the module reads it (R376). -/
structure SubEntry where
  sseq : W32
  opcode : W16
  flags : W16
  tag : W64
  target : W32
  addr : W64
  len : W32
  params : Bytes
  deriving DecidableEq, Repr

/-- One packet of an RTP input flow (R160, R225, R226): its numbers, its format, and how far it takes the
current picture's rows. (DESIGN CHOICE, log 78.) -/
structure RtpIn where
  seq : W16
  ts : W32
  ssrc : W32
  bytes : Nat
  accepted : Bool             -- a format the depacketiser accepts (R225)
  rowsDone : Nat              -- rows of the picture whose last block has arrived with this packet (R226, step 1)
  deriving DecidableEq, Repr

/-- What the receiver needs of an Erelm datagram's addressing and header (R232, R233). -/
structure ErelmHdr where
  port : PortId               -- the port it arrived on
  srcAddr : Bytes
  srcUdp : W16
  version : BitVec 4
  session : W16
  seq : W32
  ack : W32
  unrel : Bool
  tag : Option Bytes          -- the 16-byte tag, when the TAG flag is set
  lengthOk : Bool             -- datagram length is 16 + 16 x TAG + length
  payload : Bytes             -- the payload bytes, for the tag (R264)
  deriving DecidableEq, Repr

/-- The payload of HELLO (R241). -/
structure HelloBody where
  endpointId : W64
  nonceE : W64
  width : W16
  height : W16
  totalLines : W16
  rateNum : W16
  rateDen : W16
  caps : W16
  hevcLevel : Byte
  h264Level : Byte
  bufRows : Byte
  decodeUs : W16
  bsBytes : W32
  deriving DecidableEq, Repr

/-- The payload of the endpoint's STATUS (R263). -/
structure StatusBody where
  lateTotal : W32
  decodeErrors : W32
  bsOverruns : W32
  temperature : W16
  panel : Byte
  uptime : W32
  deriving DecidableEq, Repr

/-- A frame a port receives, as the checks of R314, R315 and R224 see it. -/
structure RxFrame where
  length : Nat                -- destination address to FCS
  fcsOk : Bool
  vlan : Option (BitVec 12)   -- VID of a parsed 802.1Q tag
  pcp : BitVec 3
  dstAddr : Bytes
  srcAddr : Bytes
  dstUdp : W16
  ssrc : W32
  erelm : Bool                -- an Erelm datagram for a session's control port, or an ARP, ND or PTP frame
  bytes : Bytes               -- the frame's bytes
  deriving DecidableEq, Repr

/-- A received PAUSE (`pfc` false, one value of quanta for the whole port) or PFC frame (a value for each class; R293, R316, R318). -/
structure PauseFrame where
  pfc : Bool
  classes : Byte
  quanta : List W16
  deriving DecidableEq, Repr

/-- What auto-negotiation found (R311, R312). -/
structure NegResult where
  halfOnly : Bool
  remoteFault : Bool
  pauseOk : Bool
  deriving DecidableEq, Repr

/-- The outcome of one step of an Imnunis bring-up (R327, R331). -/
structure TrainResult where
  ok : Bool
  lanesBad : BitVec 4         -- lanes that fail FEC lock or exceed the error rate in this training
  peerId : BitVec 2
  peerLink : BitVec 2
  peerCasc : Byte
  peerDigest : Bytes
  peerDetourOf : Bool         -- the peer runs the base image of this module's detour, or the reverse (R55)
  deriving DecidableEq, Repr

/-- A link frame as received (R328). -/
structure LinkFrame where
  crcOk : Bool
  vc : BitVec 2
  nak : Bool
  seq : BitVec 12
  ack : BitVec 12
  crVc : BitVec 2
  crCount : BitVec 6
  payload : Bytes
  deriving DecidableEq, Repr

/-- A numbered cell at a resequencer (R283, R284). -/
structure SeqCell where
  group : GroupId
  src : Byte
  seq : W16
  copyId : Nat                -- the frame the cell belongs to
  last : Bool                 -- its last cell
  deriving DecidableEq, Repr

/-- A memory channel's answer to a patrol or agent read (R364). -/
abbrev ReadResult := EccResult

/-- A unit that carries the header of R58. -/
inductive UnitId where
  | block (idx : Fin 17)
  | lane (l : LaneId)
  | port (p : PortId)
  | dma (c : DmaId)
  | chan (c : ChanId)
  | link (l : LinkId)
  deriving DecidableEq, Repr

/-- A window that owns an indirect pair (R67, R68). -/
inductive IndId where
  | msc
  | tmg
  | port (p : PortId)
  | cas
  | lane (l : LaneId)
  | mem
  | hqe
  | evc
  | sec
  deriving DecidableEq, Repr

/-- What the space of a failed DMA access was (R409). -/
inductive DmaSpace where
  | module_
  | host
  deriving DecidableEq, Repr

/-- The commands. -/
inductive Instr where
  -- start, supply and thermal
  | vinRise (b : BoardInputs)
  | resetN (lowUs : Nat) (b : BoardInputs)
  | vinLockout
  | thermalShutdown
  | thermalRestart (b : BoardInputs)
  -- scheduler
  | sourceRowArrival (src : CtxId) (row : Nat)
  | rowJobCreate (sess : CtxId) (pic : Nat) (row : Nat)
  | jobTableEntryFreed
  | jobDispatch (t : DispTarget)
  | sourceRepeat (j : JobId)
  -- lane instructions
  | laneNop (l : LaneId)
  | loadContext (l : LaneId)
  | saveContext (l : LaneId)
  | encodeRow (l : LaneId)
  | decodeRow (l : LaneId) (f : DecodeFacts)
  | flushPicture (l : LaneId)
  | fence (l : LaneId)
  | laneBadJob (l : LaneId)
  | rowComplete (l : LaneId) (f : RowFacts)
  -- microwords
  | issueMw (l : LaneId) (stagesEmpty : Bool)
  | branchMw (l : LaneId) (aboveOut : Bool)
  | callMw (l : LaneId)
  | returnMw (l : LaneId)
  | endJob (l : LaneId)
  | trapReturn (l : LaneId)
  | waitMw (l : LaneId) (aboveOut : Bool)
  | loopLoad (l : LaneId)
  | latchLoad (l : LaneId)
  | postSummary (l : LaneId)
  | nextCtu (l : LaneId)
  | drainMw (l : LaneId) (stagesEmpty : Bool)
  | microTrap (l : LaneId) (cause : Fin 4)
  | machineCheck (l : LaneId) (k : MchkKind)
  | mchkService (l : LaneId) (goldenReadable : Bool) (readbackOk : Bool)
  | goldenRebuildDone (l : LaneId) (flashOk readbackOk : Bool)
  | domainReady (d : Domain)
  -- lane registers with an effect
  | lsfPop (l : LaneId) (ecc : EccResult)
  | lsfClr (l : LaneId) (v : W32)
  | pmcCfgWrite (l : LaneId) (n : Fin 8) (v : W32)
  | pmcWrap (l : LaneId) (n : Fin 8)
  | pmcClr (l : LaneId) (v : W32)
  | tagCfgWrite (l : LaneId) (v : W32)
  | tagRecPop (l : LaneId)
  | mcPatch (h : CmdRef) (d : HostData) (loadFail : List LaneId)
  -- composition and assembly
  | composeRow (p : PipeId) (poisoned : Bool)
  | composeRowComplete (p : PipeId) (parityOk : Bool)
  | asmEnqueue (enc : CtxId)
  | rtpPacketIn (flow : CtxId) (k : RtpIn)
  | dejitterTimeout (flow : CtxId)
  | holdExpire (sess : CtxId) (seq : W16)
  -- Erelm
  | hello (h : ErelmHdr) (b : HelloBody)
  | openAck (h : ErelmHdr) (result : Byte)
  | marker (h : ErelmHdr) (frame : W32) (line : W16) (steer : W16) (time : W64)
  | rowAck (h : ErelmHdr) (pic : W32) (row : W16) (rtpCum : W16) (late : Bool) (lateTotal : W32)
  | loss (h : ErelmHdr) (ranges : List (W16 × W16))
  | refreshReq (h : ErelmHdr) (reason : Byte)
  | keepalive (h : ErelmHdr) (request : Option W64)
  | status (h : ErelmHdr) (b : StatusBody)
  | close (h : ErelmHdr) (reason : Byte)
  | erelmRetransmit (sess : CtxId)
  | ackDue (sess : CtxId)
  | keepaliveDue (sess : CtxId)
  | sessionSilence (sess : CtxId)
  | markerMissing (sess : CtxId)
  | sessionSuspend (sess : CtxId)
  | steerEvaluate (family : CtxId)
  | steerDisable (v : W32)
  | overloadEvaluate
  -- frames, switch and traffic manager
  | frameReceived (p : PortId) (f : RxFrame)
  | pauseFrameReceived (p : PortId) (f : PauseFrame)
  | pauseExpire (p : PortId) (c : ClassId)
  | pauseStorm (p : PortId) (c : ClassId)
  | pswCfgWrite (v : W32)
  | copyArrive (copyId : Nat)
  | laybyAdmit (d : DestId) (c : ClassId)
  | laybyPrune (d : DestId) (c : ClassId)
  | reseqCell (c : SeqCell)
  | reseqGapTimeout (g : GroupId) (src : Byte)
  | gateOpen (p : PortId)
  | frameTxEnd (p : PortId)
  | fitMaxExpire (q : QueueId)
  | tokenCredit
  | queueOpen (h : CmdRef)
  | queueCloseDrain (h : CmdRef)
  | queueCloseFlush (h : CmdRef)
  -- ports
  | signalDetect (p : PortId)
  | pcsSync (p : PortId) (n : NegResult)
  | linkHoldExpire (p : PortId)
  | pcsSyncLoss (p : PortId)
  | linkLossTimeout (p : PortId)
  | eyeMeasurement (p : PortId) (margin : BitVec 6)
  | retrainTimeout (p : PortId)
  | retrainWindowExpire (p : PortId)
  | pfcRefresh (p : PortId)
  | mdioC22Write (b : BusId) (v : W32)
  | mdioC22Read (b : BusId) (v : W32)
  | mdioC45Address (b : BusId) (v : W32)
  | mdioC45Write (b : BusId) (v : W32)
  | mdioC45ReadInc (b : BusId) (v : W32)
  | mdioC45Read (b : BusId) (v : W32)
  | mdioFrameComplete (b : BusId) (response : Option W16)
  | ppsInEdge
  -- cascade
  | casTrainStepComplete (l : LinkId) (r : TrainResult)
  | casPeerRetry (l : LinkId)
  | linkFrameReceived (l : LinkId) (f : LinkFrame)
  | replayTimeout (l : LinkId)
  | casRetrainTimeout (l : LinkId)
  | casTimeExchange (offsetNs : Int)
  -- buffer pool manager
  | alloc (agent : Byte) (pool : PoolId) (n : Nat) (reserved : Bool)
  | inc (agent : Byte) (h : W32)
  | pin (agent : Byte) (h : W32)
  | dec (agent : Byte) (h : W32)
  | free (agent : Byte) (h : W32)
  | xfer (agent : Byte) (h : W32) (newOwner : Byte)
  | setmark (agent : Byte) (h : W32) (m : Fin 5)
  | clrmark (agent : Byte) (h : W32) (m : Fin 5)
  | bpmQuery (v : W32)
  | bpmLogPop
  | bpmLogClr (v : W32)
  -- module memory
  | memRead (agent : Byte) (addr : W64) (r : ReadResult)
  | memRetryRead (c : ChanId) (correct : Bool)
  | memWrite (agent : Byte) (addr : W64) (data : Bytes)
  | refreshWindow
  | rowIdleTimeout (c : ChanId) (bank : Fin 16)
  | tempReadout (dieC : Int) (deviceFast : Bool)
  | oscReadout (drift : List (BitVec 6))
  | channelRetrain (passed : Bool)
  | scrubRead (r : ReadResult)
  -- host link
  | functionLevelReset
  | hotReset
  | pcieLinkLoss
  | perstAssert
  | perstDeassert (refclk : Bool) (gen : BitVec 3) (width : BitVec 4)
  | configRequest (busMaster : Option Bool)
  -- doorbells and queues
  | sqTail (ring : RingId) (v : W32) (entries : List SubEntry)
  | cqHead (ring : RingId) (v : W32)
  | eqDb (q : EqId) (v : W32)
  | eqCoalTimeout (q : EqId)
  | txFrame (h : CmdRef) (d : HostData)
  | rxBuffer (h : CmdRef)
  | excWaitTimeout
  -- host commands
  | nop (h : CmdRef)
  | ringCreate (h : CmdRef)
  | ringDelete (h : CmdRef)
  | ringResync (h : CmdRef)
  | eqCreate (h : CmdRef)
  | eqDelete (h : CmdRef)
  | eqResync (h : CmdRef)
  | attach (h : CmdRef)
  | ctxOpen (h : CmdRef) (d : HostData)
  | ctxChange (h : CmdRef) (d : HostData)
  | ctxClose (h : CmdRef)
  | ctxQuery (h : CmdRef)
  | layoutSet (h : CmdRef) (d : HostData)
  | sessionNet (h : CmdRef) (d : HostData)
  | sessionQuery (h : CmdRef)
  | surfaceCreate (h : CmdRef) (d : HostData)
  | surfaceUpload (h : CmdRef) (d : HostData)
  | surfaceFlip (h : CmdRef) (d : HostData)
  | surfaceDelete (h : CmdRef)
  | layerSet (h : CmdRef) (d : HostData)
  | fbQuery (h : CmdRef)
  | fbPin (h : CmdRef)
  | fbRelease (h : CmdRef)
  | laneDrain (h : CmdRef)
  | laneRelease (h : CmdRef)
  | imageInstall (h : CmdRef) (d : HostData) (flashOk : Bool)
  | imageRatchet (h : CmdRef)
  | waymapInstall (h : CmdRef) (d : HostData)
  | detour (h : CmdRef) (d : HostData)
  | attest (h : CmdRef) (d : HostData)
  | attestCert (h : CmdRef)
  | timeSource (h : CmdRef)
  | ptpCtl (h : CmdRef)
  | powerState (h : CmdRef)
  | faultLogRead (h : CmdRef)
  -- watchdog, events and processors
  | heartbeat (v : W32)
  | heartbeatTimeout
  | eventAssert (src : SrcId) (context : W32) (detail : W64)
  | eventDeassert (src : SrcId)
  | claim (t : TgtId)
  | complete (t : TgtId) (v : W32)
  | thaw (t : TgtId) (v : W32)
  | spReportMissed (sp : SpId)
  | spRestartComplete (sp : SpId)
  | spHoldExpire (sp : SpId)
  | svpWatchdogExpire
  -- DMA
  | dmaGo (c : DmaId) (v : W32)
  | dmaResume (c : DmaId) (v : W32)
  | dmaTransferDone (c : DmaId) (hostData : Bytes)
  | dmaBusError (addr : W64) (space : DmaSpace) (write : Bool)
  | dmaBuserrClear (v : W32)
  -- security
  | debugTokenPresent (image : Bytes)
  | recoveryProgram (v : W32)
  | recoveryVerify (v : W32)
  | recoveryProgramDone (flashOk : Bool)
  -- management bus and power states
  | stateReq (v : Byte)
  | stateRead
  | healthRead
  | mgmtAddressMatch (addr : BitVec 7)
  | smbusTimeout
  | blockStopDone
  | drainTimeout
  | entryRetry
  | wakeN (lowUs : Nat) (b : BoardInputs)
  | wakeTimer
  | laneIdleTimeout (l : LaneId)
  | pipeIdleTimeout (p : PipeId)
  | vinFall (vin : Nat) (holdup : Nat)
  | vinReturn (vin : Nat)
  | holdupExhausted
  | holdupChargeTimeout
  -- fault collector
  | faultRaise (src : FltId) (unit : W16) (particulars : W16)
  | fltSrcForce (src : FltId) (v : W32)
  | fltStickyClear (src : FltId) (v : W32)
  | selfchkInject (v : W32)
  | selfcheckMismatch
  | sliceStallTimeout (l : LaneId)
  | faultLogFlush
  -- register interface
  | ctlEnWrite (u : UnitId) (v : W32)
  | unitStopComplete (u : UnitId)
  | ignwClear (u : UnitId) (v : W32)
  | oobClear (u : UnitId) (v : W32)
  | rwsWrite (addr : W32) (v : W32)
  | bar0BadAccess
  | badaccClear (v : W32)
  | indAddrWrite (w : IndId) (v : W32)
  | indDataRead (w : IndId)
  | indDataWrite (w : IndId) (v : W32)
  | indPrefetchDone (w : IndId)
  | indErrClear (w : IndId) (v : W32)
  | snapshot (v : W32)
  | snapshotComplete
  | timeRead
  | registerWrite (addr : W32) (v : W32)
  | sgmiiControlWordChange (p : PortId) (linkUp : Bool) (speed : BitVec 2) (fullDuplex : Bool)
  deriving DecidableEq, Repr

end Sys2Proof
end

