-- ==== Sys2Proof/Decode.lean ====
section
/-! DEFINITION. The words of the command table. spec/opcode_table.json gives no row any bits: a command is an
event at the module's boundary, and no word spells one. -/

namespace Sys2Proof

/-- The command that a word spells by the table's bits: none, since the table gives no row bits. -/
def decodeTableWord (_nbits _w : Nat) : Option Instr := none

end Sys2Proof
end

