-- ==== Sys2Proof/Config.lean ====
section
/-! DEFINITION. What the manual leaves open: constants without a body, so that no proof can see a value of
them. Each is named in the assumption log. A value the module draws, or that the manual does not state, is one
of these applied to the count `State.free` or to its operands. -/

namespace Sys2Proof

/-- What SESSION_NET gives a session (R215, R230). -/
structure Net where
  ipv6 : Bool := false
  modAddr : Bytes := []
  modUdp : Nat := 0
  epAddr : Bytes := []
  epUdp : Nat := 0
  rtpPort : Nat := 0
  pt : Nat := 96
  ssrc : W32 := 0
  tsBase : W32 := 0
  vlan : Option Nat := none
  keyId : W32 := 0
  deriving DecidableEq, Repr, Inhabited

/-- What a SURFACE_CREATE buffer says of a surface (R186). -/
structure SurfaceDesc where
  base : Nat := 0
  width : Nat := 0
  height : Nat := 0
  pitch : Nat := 0
  format : Nat := 0
  deriving DecidableEq, Repr, Inhabited

/-- What a LAYER_SET buffer says (R194, R198): slots with their descriptors, the number of slots, global alpha, and
background. -/
structure LayerCmd where
  slots : List (Nat × Bytes) := []
  globalAlpha : Option Nat := none
  background : Option Nat := none
  deriving DecidableEq, Repr, Inhabited

/-- What a SURFACE_UPLOAD buffer says (R187): where its samples go in the back buffer, and a palette. -/
structure UploadCmd where
  offset : Nat := 0
  samples : Bytes := []
  palette : Option Bytes := none
  deriving DecidableEq, Repr, Inhabited

/-- What a SERVICES body gives (R27, R49): the services of SP0 to SP3, as EVC_CPUp_STAT numbers them, and the sessions of
each SP: first, last, SP. -/
structure WmServices where
  masks : List Nat := []
  sessions : List (Nat × Nat × Nat) := []
  deriving DecidableEq, Repr, Inhabited

/-- What a SWBUF body gives (R273, R287): mode, limits by destination * 8 + class, caps, thresholds, headroom. -/
structure WmSwbuf where
  gmin : Bool := false
  lim : List (Nat × Nat) := []
  cap : List (Nat × Nat) := []
  sharedSize : Nat := 0
  xoff : Nat := 0
  xon : Nat := 0
  headroom : List (Nat × Nat) := []
  deriving DecidableEq, Repr, Inhabited

/-- What an EVENTS body gives (R397, R403): mode, enabled targets, route words by source. -/
structure WmEvents where
  banked : Bool := false
  targets : List Nat := []
  routes : List (Nat × Nat) := []
  deriving DecidableEq, Repr, Inhabited

/-- A media cell as it crosses a link (R25, R283): where its frame goes, its class and length, the source and number of the cell, the frame
that it belongs to, whether it is the frame's last, and its bytes. -/
structure MediaCell where
  dest : Nat := 0
  cls : Nat := 0
  len : Nat := 64
  src : Nat := 0
  seq : Nat := 0
  frame : Nat := 0
  last : Bool := false
  bytes : Bytes := []
  deriving DecidableEq, Repr, Inhabited

/-- What modules say to each other over CTRL, REQ and RSP (R24, R26, R46, R55, R330): a waymap digest; a stream to be admitted, or given up, between
two modules, in kb/s, with the answer; a detour to be applied, with its end; and a cell of a class-7 frame (R334). -/
inductive MeshMsg where
  | digest (d : Bytes)
  | stream (opens : Bool) (encoder egress kbps : Nat)
  | admitted (ok : Bool)
  | detour
  | detourDone
  | cell (c : MediaCell)
  | other
  deriving DecidableEq, Repr, Inhabited

/-- A channel of the dependency graph (R45): a switch source's cells to a group in a class, a queue of TMG, or a link's virtual channel. -/
inductive DepChan where
  | cells (unit group cls : Nat)
  | queue (q : Nat)
  | link (l vc : Nat)
  deriving DecidableEq, Repr, Inhabited

/-- A carve-out of a MEMMAP body: base, size, flags. The flags are the model's own: bit 0 the host may access it, bit 1
host surfaces lie in it, bit 2 it is retained in DEEP_SLEEP, bit 3 it holds the golden copies of the microcode (R109, R186, R369, R405). -/
abbrev WmCarve := Nat × Nat × Nat

end Sys2Proof

namespace Sys2Proof.Config

/-- Media cells and messages as payloads of link frames, whose layout the manual does not give (R25, R330); and the image of a detour that
module 0 leads on another module (R55). (DESIGN CHOICE, log 115.) -/
opaque mediaOut : MediaCell → Bytes
opaque mediaIn : Bytes → MediaCell
opaque meshOut : MeshMsg → Bytes
opaque meshIn : Bytes → MeshMsg
opaque ledImage : Nat → Bytes

open Sys2Proof

/-- The 16-bit code of an event or fault name in an event record (R381: no code is given). (DESIGN CHOICE, log 14.) -/
opaque eventCode : Nat → BitVec 16

/-- Which free buffer an ALLOC takes (R342 names none): the place in the pool from which it searches. (DESIGN CHOICE, log 13.) -/
opaque allocFrom : Nat → Nat

/-- Whether a merged delivery carries the later edge's particulars or the earlier's (R396 says only that the two
edges are merged). (DESIGN CHOICE, log 13.) -/
opaque mergeLater : Nat → Bool

/-- The bank and the row of an offset within a channel (R353: the row layout is private to the module). (DESIGN CHOICE, log 15.) -/
opaque dramBank : Nat → Nat
opaque dramRow : Nat → Nat

/-- The times between activates that R356 names and gives no value: tRRD between two, tFAW over five, in ns; and the time that a retrain takes,
of which R362 gives only the bound. (DESIGN CHOICE, log 117.) -/
opaque tRRD : Nat
opaque tFAW : Nat
opaque retrainNs : Nat → Nat

/-- The slew that the time servo takes for an offset in ns, in parts per 10^9 (R322, R333: only its bound is given).
(DESIGN CHOICE, log 16.) -/
opaque servo : Int → Int

/-- The offset in ns that an exchange of PTP messages measures (R322: the exchange is that of IEEE 1588). (PRESUMED, log 102.) -/
opaque ptpOffset : Nat → Int

/-- The ASM unit that serves a context (R271, R275: four units, no rule of choice). (DESIGN CHOICE, log 17.) -/
opaque asmUnit : Nat → Nat

/-- The row target where the weights of the remaining rows sum to 0 (R127 divides by that sum). (DESIGN CHOICE, log 18.) -/
opaque rowShare : Nat → Int

/-- The QP step of R128 for a row target that is not positive (the logarithm has no value there). (DESIGN CHOICE, log 18.) -/
opaque qpStep : Nat → Int

/-- Bits of a row that FLUSH_PICTURE codes as skip (R86; R142 says about 48 + 2 x units). (DESIGN CHOICE, log 18.) -/
opaque skipRowBits : Nat → Nat

/-- What a nanoword's sequencer field does to flags, loop counters and latches, given the sequencer field with the microword's immediate
above it (R104, R107: its encodings are private).
(DESIGN CHOICE, log 19.) -/
opaque seqFlags : Nat → Nat → Nat
opaque seqLoop0 : Nat → Nat → Nat
opaque seqLoop1 : Nat → Nat → Nat
opaque seqLatch : Nat → Nat → Nat → BitVec 32

/-- The measured words 3 to 6 of a tag record (R98): cycles and slots, which are timing. (DESIGN CHOICE, log 28.) -/
opaque tagWord : Nat → Nat → BitVec 32

/-- The words of a microcode image (R101 gives the stores, not their places in an image), with their parity, and its
version word. (DESIGN CHOICE, log 20.) -/
opaque mcMicro : Bytes → Nat → Nat
opaque mcNano : Bytes → Nat → Nat
opaque mcVersion : Bytes → Nat

/-- The contents of the command buffers whose layout no rule gives (R384, R481): SESSION_NET, SURFACE_CREATE, the
dirty rectangle of SURFACE_FLIP, SURFACE_UPLOAD, LAYER_SET, and the tile that an entry of LAYOUT_SET names.
(DESIGN CHOICE, log 21.) -/
opaque netOf : Bytes → Net
opaque surfaceOf : Bytes → SurfaceDesc
opaque flipRect : Bytes → Nat × Nat × Nat × Nat
opaque uploadOf : Bytes → UploadCmd
opaque layerCmd : Bytes → LayerCmd
opaque layoutTile : Bytes → Nat

/-- The bytes that SESSION_QUERY writes for a session's counters and status words (R266: no layout). (DESIGN CHOICE, log 21.) -/
opaque sessionReport : List Nat → Bytes

/-- A session's first RTP sequence number, and the nonce of an OPEN (R215, R243). (DESIGN CHOICE, log 12.) -/
opaque rtpStart : Nat → BitVec 16
opaque nonce : Nat → BitVec 64

/-- How many bytes a DMA channel had written when it was stopped, and the bytes it had read from the host by then
(R406, R409: no rule gives the pace of a transfer). (DESIGN CHOICE, log 25.) -/
opaque dmaMoved : Nat → Nat → Nat
opaque dmaBytes : Nat → Bytes

/-- What module 0 answers over its link to the check of a cascade's streams (R26, R334). (DESIGN CHOICE, log 26.) -/
opaque module0Admits : Nat → Bool

/-- Header bytes of an independent slice segment (R210: its length depends on the shared parameter sets).
(DESIGN CHOICE, log 27.) -/
opaque sliceHdr : Nat → Nat

/-- Bits of the fields that ASM copies in an independent segment's header, and the emulation prevention bytes of the header that it writes at
an address (R210, R211). (DESIGN CHOICE, log 27.) -/
opaque sliceOther : Nat → Nat
opaque sliceEmulation : Nat → Nat → Nat

/-- The decoding-order number with which a session's picture begins (R207, R217). (DESIGN CHOICE, log 27.) -/
opaque donBase : Nat → Nat → Nat

/-- The handle of a row's first input chunk (R85, R226: no pool is named for input chunks). (DESIGN CHOICE, log 27.) -/
opaque inputChunk : Nat → BitVec 32

/-- KMAC256 of NIST SP 800-185: key, data, output bits, customisation (R264). (DESIGN CHOICE, log 11.) -/
opaque kmac : Bytes → Bytes → Nat → String → Bytes

/-- SHAKE256 of FIPS 202: message and output bytes. Ed448ph of RFC 8032 over a prehash: key, prehash, context, signature.
X448 of RFC 7748 (R31, R416, R426). (DESIGN CHOICE, log 11.) -/
opaque shake256 : Bytes → Nat → Bytes
opaque edVerify : Bytes → Bytes → String → Bytes → Bool
opaque edSign : Bytes → Bytes → String → Bytes
opaque x448 : Bytes → Bytes → Bytes

/-- The vendor keys of the boot ROM, their hashes in fuses, and what this module derives from DEV_SECRET (R411, R412,
R423); the identity certificate of the key region. (DESIGN CHOICE, log 11.) -/
opaque vendorKey : Nat → Bytes
opaque vendorHash : Nat → Bytes
opaque identityPriv : Bytes
opaque identityPub : Bytes
opaque provPriv : Bytes
opaque provPub : Bytes
opaque deviceCert : Bytes

/-- The challenges that SEC draws (R425). (DESIGN CHOICE, log 12.) -/
opaque challenge : Nat → BitVec 64

/-- How long a start takes, in ns (R430 bounds it by 743 ms). (DESIGN CHOICE, log 24.) -/
opaque startNs : Nat → Nat

/-- The digests that SEC computes of the retained images on a resume (R443: the model gives those images no address).
(DESIGN CHOICE, log 28.) -/
opaque retainedDigests : Nat → List Bytes

/-- What channels and lanes answer to the tests of a start that no command brings about (R361, R109). (DESIGN CHOICE, log 23.) -/
opaque chanFails : Nat → List (Fin 16)
opaque laneFails : Nat → List (Fin 64)

/-- Waymap bodies whose layout no rule gives: whether a body fits its layout (R33), and what it says. CASCADE gives the
cascade size; DEGRADED a channel, a MEMMAP and a POOLS body; CHANDEP the edges of the graph, from a channel to one that it may wait on, and what
its channels are. (DESIGN CHOICE, log 22.) -/
opaque wmBodyOk : Nat → Bytes → Bool
opaque wmCascade : Bytes → Nat
opaque wmServices : Bytes → WmServices
opaque wmMemmap : Bytes → List WmCarve
opaque wmEdges : Bytes → List (Nat × Nat)
opaque depChan : Nat → DepChan
opaque wmSwbuf : Bytes → WmSwbuf
opaque wmEvents : Bytes → WmEvents
opaque wmDegraded : Bytes → Nat × Bytes × Bytes

/-- A microcode component's store sizes and encodings are right (R120). (DESIGN CHOICE, log 20.) -/
opaque mcLayoutOk : Bytes → Bool

/-- The slot that a REVOKE image names (R411, R419: its body has no layout). (DESIGN CHOICE, log 28.) -/
opaque revokeSlot : Bytes → Nat

/-- A premultiplied R'G'B' colour brought to Y'CbCr of 12 bits, Cb and Cr about zero: OUT_MATRIX, OUT_FULL, alpha, bits of a
component, R', G', B' (R192: the matrices by reference, the rounding to 12 bits not stated). (DESIGN CHOICE, log 10.) -/
opaque yccOf : Nat → Bool → Nat → Nat → Nat × Nat × Nat → Int × Int × Int

/-- A sample of a decoded picture, upsampled and converted to the output's space: the picture's content, the output's matrix and range flags,
x and y (R151, R192: the pictures' content lies outside the model). (DESIGN CHOICE, log 10.) -/
opaque decodedPx : Nat → Nat → Nat → Nat → Int × Int × Int

/-- A byte of coded or compressed content that a lane writes to module memory: a draw and its place (R74, R151). (DESIGN CHOICE, log 10.) -/
opaque codedByte : Nat → Nat → BitVec 8

/-- A decoded sample of 8 or of 10 bits: the picture's content, and the sample's place, the luma plane before the interleaved CbCr plane
(R152). (DESIGN CHOICE, log 10.) -/
opaque sample8 : Nat → Nat → BitVec 8
opaque sample10 : Nat → Nat → BitVec 10

/-- The bytes of a parameter set or SEI NAL unit that heads a picture, and the units that a decoding lane conceals for poisoned data
(R80, R135, R365). (DESIGN CHOICE, log 10.) -/
opaque headNal : Nat → Nat → Nat
opaque poisonUnits : Nat → List Nat

/-- The vector that the lane finds cheapest for a block whose own breaks the restraint window, and which of the allowed references a block
refers to: a draw and the block (R81, R134 name neither). (DESIGN CHOICE, log 106.) -/
opaque cheapMv : Nat → Nat → Int × Int
opaque refPick : Nat → Nat → Nat

/-- Whether an HEVC slice after the IDR picture is B, with both lists referring to earlier pictures, or P (R79 leaves the lane the choice).
(DESIGN CHOICE, log 106.) -/
opaque sliceB : Nat → Bool

/-- The drain lag in ns that a lane sees while its SLICE pool is at BACKPRESSURE (R17, R345: no figure is given). (DESIGN CHOICE, log 107.) -/
opaque sliceLag : Nat → Nat

/-- The unit of a row in progress at which a coast that begins on another lane reaches it (R139). (DEDUCED, log 104.) -/
opaque coastFrom : Nat → Nat

/-- The scaler's filters: coefficient set, phase, and the samples under the 8 horizontal or 6 vertical taps (R190: the coefficients are
not given). (DESIGN CHOICE, log 10.) -/
opaque filterX : Nat → Nat → List Int → Int
opaque filterY : Nat → Nat → List Int → Int

/-- The 12 bytes in which an MC_PATCH completion gives one result for each named lane (R119, R481: no layout).
(DESIGN CHOICE, log 28.) -/
opaque patchResult : List (Nat × Nat) → Bytes

/-- The ports that a PTP_CTL command names (R322, R384: a port mask, with no place for its 256 bits). (DESIGN CHOICE, log 21.) -/
opaque ptpPorts : BitVec 32 → Bytes → List Nat

/-- VIN and the HOLDUP voltage in 0.1 V that the module reads at a time in ns at which no command tells them (R447). (DESIGN CHOICE, log 126.) -/
opaque vinAt : Nat → Nat
opaque holdupAt : Nat → Nat

/-- What a chunk of flash holds after programming that failed (R427). (DESIGN CHOICE, log 28.) -/
opaque badChunk : Nat → Bytes

end Sys2Proof.Config
end

