-- ==== Sys2Proof/Machine/Table.lean ====
section
/-! DEFINITION. Operations over sparse tables. Every table of State lists its keys strictly rising; a key not
listed reads as the table's default. `Tbl.put` lists a key whatever its value; `Tbl.set` is the operation of
the byte memories, in which no entry equals what an unlisted key reads as. -/

namespace Sys2Proof

/-- The entry of key `k`, if one is listed. -/
def Tbl.find {α : Type} : Tbl α → Nat → Option α
  | [], _ => none
  | (k', v) :: r, k => if k = k' then some v else Tbl.find r k

/-- What key `k` reads as, `d` being the default of the unlisted keys. -/
def Tbl.get {α : Type} (d : α) (t : Tbl α) (k : Nat) : α := (Tbl.find t k).getD d

/-- The table without key `k`. -/
def Tbl.del {α : Type} : Tbl α → Nat → Tbl α
  | [], _ => []
  | (k', v) :: r, k => if k = k' then Tbl.del r k else (k', v) :: Tbl.del r k

/-- Entry `k` put before the first greater key. -/
def Tbl.ins {α : Type} : Tbl α → Nat → α → Tbl α
  | [], k, v => [(k, v)]
  | (k', v') :: r, k, v => if k < k' then (k, v) :: (k', v') :: r else (k', v') :: Tbl.ins r k v

/-- Key `k` made to read `v`. -/
def Tbl.put {α : Type} (t : Tbl α) (k : Nat) (v : α) : Tbl α := Tbl.ins (Tbl.del t k) k v

/-- Key `k` made to read `v` in a table in which no entry equals the default `d`. -/
def Tbl.set {α : Type} [DecidableEq α] (d : α) (t : Tbl α) (k : Nat) (v : α) : Tbl α :=
  if v = d then Tbl.del t k else Tbl.ins (Tbl.del t k) k v

/-- Key `k` replaced by `f` of what it reads as. -/
def Tbl.upd {α : Type} (d : α) (t : Tbl α) (k : Nat) (f : α → α) : Tbl α := Tbl.put t k (f (Tbl.get d t k))

/-- The keys listed. -/
def Tbl.keys {α : Type} (t : Tbl α) : List Nat := t.map Prod.fst

/-- The keys rise strictly from above `lo`. -/
def Tbl.risesFrom {α : Type} : Tbl α → Nat → Bool
  | [], _ => true
  | (k, _) :: r, lo => decide (lo ≤ k) && Tbl.risesFrom r (k + 1)

/-- The canonical form: keys strictly rising. -/
def Tbl.wf {α : Type} (t : Tbl α) : Bool := Tbl.risesFrom t 0

/-- The canonical form of a byte memory: keys strictly rising, no entry equal to the default. -/
def Tbl.wfSet {α : Type} [DecidableEq α] (d : α) (t : Tbl α) : Bool :=
  Tbl.wf t && t.all (fun e => decide (e.2 ≠ d))

/-- The smallest number from `n` on, below `n + fuel`, that `p` accepts. -/
def firstFrom (p : Nat → Bool) (n : Nat) : Nat → Option Nat
  | 0 => none
  | fuel + 1 => if p n then some n else firstFrom p (n + 1) fuel

/-- The smallest key that the table does not list (the lowest free number). -/
def Tbl.free {α : Type} (t : Tbl α) (n : Nat) : Option Nat :=
  firstFrom (fun k => (Tbl.find t k).isNone) 0 n

end Sys2Proof
end

