-- ==== Sys2Proof/Machine/Operands.lean ====
section
/-! DEFINITION. Reading operands: bit fields of a register word (R4: bit 0 is the least significant), byte
lists in little-endian order (R5: registers and host memory) and big-endian order (R5: network fields),
fields of a record by offset and size, saturating counts and serial arithmetic. -/

namespace Sys2Proof

/-- Bits [lo + w - 1 : lo] of a word, as a number. -/
def fld (v : Nat) (lo w : Nat) : Nat := v / 2 ^ lo % 2 ^ w

/-- Bit `i` of a word. -/
def tb (v : Nat) (i : Nat) : Bool := fld v i 1 == 1

/-- The word with bits [lo + w - 1 : lo] replaced by `x`. -/
def setFld (v : Nat) (lo w x : Nat) : Nat :=
  v - fld v lo w * 2 ^ lo + x % 2 ^ w * 2 ^ lo

/-- A truth value as a bit. -/
def b2n (b : Bool) : Nat := if b then 1 else 0

/-- A register word from its number. -/
def w32 (n : Nat) : W32 := BitVec.ofNat 32 n

/-- The signed value of the low `w` bits. -/
def sgn (v : Nat) (w : Nat) : Int :=
  if v % 2 ^ w < 2 ^ (w - 1) then Int.ofNat (v % 2 ^ w) else Int.ofNat (v % 2 ^ w) - Int.ofNat (2 ^ w)

/-- The `w`-bit pattern of a signed value (two's complement). -/
def unsgn (x : Int) (w : Nat) : Nat := (x % Int.ofNat (2 ^ w)).toNat

/-- Little-endian bytes of `n`, `k` of them (R5). -/
def leBytes : Nat → Nat → Bytes
  | 0, _ => []
  | k + 1, n => BitVec.ofNat 8 n :: leBytes k (n / 256)

/-- The number that little-endian bytes spell (R5). -/
def leNat : Bytes → Nat
  | [] => 0
  | b :: r => b.toNat + 256 * leNat r

/-- Big-endian bytes of `n`, `k` of them (R5: network fields). -/
def beBytes (k n : Nat) : Bytes := (leBytes k n).reverse

/-- The number that big-endian bytes spell. -/
def beNat (b : Bytes) : Nat := leNat b.reverse

/-- The little-endian field of `size` bytes at `off`; bytes past the end read zero. -/
def rd (b : Bytes) (off size : Nat) : Nat := leNat ((b.drop off).take size)

/-- The big-endian field of `size` bytes at `off`. -/
def rdBe (b : Bytes) (off size : Nat) : Nat := beNat ((b.drop off).take size)

/-- Byte `i`; past the end it reads zero. -/
def byteAt (b : Bytes) (i : Nat) : Byte := (b.drop i).headD 0

/-- `n` zero bytes. -/
def zeros (n : Nat) : Bytes := List.replicate n 0

/-- The list padded with zeros, or cut, to `n` bytes. -/
def padTo (n : Nat) (b : Bytes) : Bytes := (b ++ zeros n).take n

/-- The bytes with those at `off` replaced by `x`. -/
def splice (b : Bytes) (off : Nat) (x : Bytes) : Bytes :=
  padTo off b ++ x ++ b.drop (off + x.length)

/-- A count that saturates at `top`. -/
def satAdd (n k top : Nat) : Nat := min (n + k) top

/-- A count that wraps at 2^w. -/
def wrapAdd (n k w : Nat) : Nat := (n + k) % 2 ^ w

/-- `v - c` modulo 2^32 (R379: serial arithmetic). -/
def serial32 (v c : Nat) : Nat := (v + 2 ^ 32 - c % 2 ^ 32) % 2 ^ 32

/-- `v - c` modulo 2^16. -/
def serial16 (v c : Nat) : Nat := (v + 2 ^ 16 - c % 2 ^ 16) % 2 ^ 16

/-- A power of two between `lo` and `hi`. -/
def isPow2In (n lo hi : Nat) : Bool := decide (lo ≤ n) && decide (n ≤ hi) && decide (2 ^ Nat.log2 n = n)

/-- Rounding up division. -/
def ceilDiv (a b : Nat) : Nat := (a + b - 1) / b

/-- Clamp of a signed value. -/
def clampI (lo hi x : Int) : Int := max lo (min hi x)

/-- The numbers of the set bits of `v` among the low `w`. -/
def bitsOf (v w : Nat) : List Nat := (List.range w).filter (fun i => tb v i)

/-- A word built from a list of bit numbers. -/
def maskOf (l : List Nat) : Nat := l.foldl (fun a i => if tb a i then a else a + 2 ^ i) 0

/-- Position `i` of a list replaced. -/
def setAt {α : Type} (l : List α) (i : Nat) (v : α) : List α :=
  l.take i ++ (match l.drop i with | [] => [] | _ :: r => v :: r)

/-- The element at `i`, or `d`. -/
def getAt {α : Type} (d : α) (l : List α) (i : Nat) : α := (l.drop i).headD d

end Sys2Proof
end

