-- ==== Sys2Proof/Machine/State.lean ====
section
/-! DEFINITION. The state of the block: every register, queue, buffer, counter, mode and contact the manual
gives the module, as plain data; the reasons a step can stop; and the state before and after reset. -/

namespace Sys2Proof.Machine

open Sys2Proof

/-- Why a step can stop with a fault. (DESIGN CHOICE, log 98.) -/
inductive Fault where
  /-- Raised by no command: the manual gives every command of the table an effect, or lets it be ignored. Safe. -/
  | noEffectGiven (rule : Nat)
  deriving DecidableEq, Repr

/-- Why a step can be refused. -/
inductive Refusal where
  /-- Raised by exec's arm of a command that has no meaning yet, with its mnemonic. Safe: the model stops. -/
  | notModelled (mnemonic : String)
  deriving DecidableEq, Repr

/-! ### Common parts (chapter 3) -/

/-- The header of a block or unit (R58): enable, deferred enable, running, and its two counts of rejected writes. -/
structure UnitHdr where
  en : Bool := false
  enPending : Bool := false
  running : Bool := false
  ignwFlag : Bool := false
  ignw : Nat := 0
  oobFlag : Bool := false
  oob : Nat := 0
  deriving DecidableEq, Repr

/-- An indirect pair (R67, R68): address word, prefetched word, status, and the accesses held while BUSY. -/
inductive IndAcc where
  | addr (v : W32)
  | read
  | write (v : W32)
  deriving DecidableEq, Repr

structure IndSt where
  ainc : Bool := false
  space : Nat := 0
  waddr : Nat := 0
  data : W32 := 0
  busy : Bool := false
  post : Option W32 := none
  errf : Bool := false
  err : Nat := 0
  errAddr : Nat := 0
  held : List IndAcc := []
  deriving DecidableEq, Repr

/-- GLB (R72): snapshot, time latches, bad-access count, and the health bits that only module reset clears. -/
structure GlbSt where
  snapBusy : Bool := false
  snapScope : Nat := 255
  snapFor : Nat := 255           -- scope of the copy in progress
  snapLost : Nat := 0
  snapSeq : W32 := 0
  snapTime : Nat := 0
  timeHi : W32 := 0
  timeFrac : Nat := 0
  badFlag : Bool := false
  badCount : Nat := 0
  health : Nat := 0
  cntPages : Nat := 0
  cntCasLanes : Nat := 0
  cntPorts : Nat := 0
  cntLanes : Nat := 0
  fwver : W32 := 0
  fwdig : W32 := 0
  mcver : W32 := 0
  mcdig : W32 := 0
  deriving DecidableEq, Repr

/-! ### Fault collector (chapter 21) -/

/-- The outcome of a fault (R461): none, pending, transient, lasting. -/
inductive FltOut where
  | none
  | pending
  | transient
  | lasting
  deriving DecidableEq, Repr

structure FltSrc where
  sticky : Bool := false
  pinLatch : Bool := false
  forced : Bool := false
  outcome : FltOut := .none
  count : Nat := 0
  detail : W32 := 0
  deriving DecidableEq, Repr

/-- A record of the flash fault log (R457). -/
structure LogRec where
  seq : Nat
  boot : Nat
  time : Nat
  source : Nat
  outcome : Nat
  flags : Nat
  detail : Nat
  deriving DecidableEq, Repr

/-- FLT: sources, the safe state, REPLACE_N, the records not yet in flash, and the reactions that the end of
the command takes (R450: a module reset, units to reset). -/
structure FltSt where
  srcs : Tbl FltSrc := []
  safe : Bool := false
  mismatch : Bool := false
  replaceN : Bool := false
  pendingLog : List LogRec := []
  nextSeq : Nat := 1
  flushDue : Option Nat := none
  resetReq : Bool := false
  capChanged : Bool := false     -- MSC places the affected work again (R179) at the end of the command
  unitResets : List Nat := []
  deriving DecidableEq, Repr

/-! ### Events, processors, DMA (chapter 18) -/

inductive SrcPhase where
  | idle
  | pending
  | inService
  deriving DecidableEq, Repr

/-- An event source (R396): its state, its target, and the particulars of its last assertion. (DEDUCED, log 84.) -/
structure EvSrc where
  ph : SrcPhase := .idle
  rt : Nat := 0               -- the route word taken at its assertion (R403)
  again : Bool := false       -- an edge arrived while in service
  target : Option Nat := none -- assigned or serving
  last : Nat := 31            -- target that received it last (round robin)
  asserted : Bool := false
  unrouted : Bool := false
  merged : Nat := 0
  code : Nat := 0
  context : Nat := 0
  detail : Nat := 0
  time : Nat := 0
  deriving DecidableEq, Repr

/-- An event target (R399 to R402): claim stack (source, threshold before), top first. -/
structure EvTgt where
  frozen : Bool := false
  stackFull : Bool := false
  thr : Nat := 0
  stack : List (Nat × Nat) := []
  deriving DecidableEq, Repr

structure EvcSt where
  banked : Bool := false
  srcs : Tbl EvSrc := []
  tgts : Tbl EvTgt := []
  route : Tbl W32 := []
  deriving DecidableEq, Repr

inductive SpPhase where
  | off
  | run
  | restarting
  | mappedOut
  deriving DecidableEq, Repr

/-- A processor (R393, R394): 0 SVP, 1 to 4 SP0 to SP3. -/
structure Cpu where
  ph : SpPhase := .off
  restarts : Nat := 0
  services : Nat := 0
  restartAt : Option Nat := none   -- when the last restart began
  watched : Bool := false          -- a restart is inside its 60 s window
  deriving DecidableEq, Repr

/-- A DMA channel (R405 to R410); its address, count and control words are in the register table. -/
structure DmaCh where
  busy : Bool := false
  done : Bool := false
  err : Nat := 0
  remain : Nat := 0
  wait : Bool := false
  armed : Bool := false       -- the paced request is asserted
  holds : List W32 := []      -- frame buffers that its transfer counts on (R149)
  deriving DecidableEq, Repr

structure DmaSt where
  chans : Tbl DmaCh := []
  buserr : Bool := false
  errWrite : Bool := false
  errHost : Bool := false
  errAddr : W64 := 0
  deriving DecidableEq, Repr

/-! ### Host interface (chapter 17) -/

inductive RingPh where
  | free
  | run
  | stopped
  | held
  deriving DecidableEq, Repr

/-- A completion entry (R376). -/
structure Cpl where
  cseq : W32
  sseq : W32
  tag : W64
  status : Nat
  detail : Nat
  result : Bytes
  deriving DecidableEq, Repr

/-- A consumed submission that has not completed, with its place in the order of consumption (R385). -/
structure Flight where
  ord : Nat
  e : SubEntry
  deriving DecidableEq, Repr

/-- A ring pair (R375 to R380, R388). -/
structure Ring where
  ph : RingPh := .free
  kind : Nat := 0
  size : Nat := 0
  sqBase : Nat := 0
  cqBase : Nat := 0
  srBase : Nat := 0
  consumed : W32 := 0
  produced : W32 := 0
  tailSeen : W32 := 0
  headSeen : W32 := 0
  flight : List Flight := []
  waiting : List (Option SubEntry) := []   -- named by an accepted SQ_TAIL, not yet consumed; none: its read failed
  reason : Nat := 0
  updates : Nat := 0
  time : Nat := 0
  errEq : Nat := 0xFFFF
  kept : List Cpl := []           -- the last 64 completions, oldest first
  deriving DecidableEq, Repr

/-- An event record (R381). -/
structure EvRec where
  eseq : W32
  source : Nat
  code : Nat
  context : Nat
  time : Nat
  detail : Nat
  deriving DecidableEq, Repr

/-- An event queue (R381, R382). -/
structure EvQ where
  ph : RingPh := .free
  base : Nat := 0
  size : Nat := 0
  srBase : Nat := 0
  posted : W32 := 0
  db : W32 := 0
  lost : Nat := 0
  lostNew : Nat := 0          -- lost since the last EQ_OVERFLOW record
  armed : Bool := false
  firstAt : Option Nat := none
  updates : Nat := 0
  time : Nat := 0
  deriving DecidableEq, Repr

/-- A frame waiting for a buffer of the exception ring (R386). -/
structure ExcFrame where
  port : Nat
  cls : Nat
  length : Nat
  stamp : Nat
  due : Nat
  bytes : Bytes
  deriving DecidableEq, Repr

structure HqeSt where
  rings : Tbl Ring := []
  eqs : Tbl EvQ := []
  attached : Bool := false
  bme : Bool := false
  gen : Nat := 0
  width : Nat := 0
  linkUp : Bool := false
  perst : Bool := true            -- PERST_N asserted
  sris : Bool := false
  readyAt : Nat := 0              -- module time from which configuration requests are answered (R431)
  crs : Nat := 0                  -- requests answered with Retry Status
  hbAt : Nat := 0
  hbTimeout : Nat := 2000
  lostDetached : Nat := 0
  nextOrd : Nat := 0
  exc : List ExcFrame := []
  deriving DecidableEq, Repr

/-! ### Buffer pools (chapter 15) -/

/-- A buffer (R340, R341): the marks are those of a FRAME buffer (R147). -/
structure Buf where
  alloc : Bool := false
  owner : Nat := 0
  count : Nat := 0
  gen : Nat := 0
  marks : Nat := 0
  withheld : Bool := false        -- on a retired page (R366)
  deriving DecidableEq, Repr

/-- A pool's entry in the waymap (R37). -/
structure PoolCfg where
  type : Nat := 0
  resClass : Nat := 0
  carve : Nat := 0
  bufSize : Nat := 0
  count : Nat := 0
  warn : Nat := 0
  bp : Nat := 0
  reserve : Nat := 0
  deriving DecidableEq, Repr

structure Pool where
  cfg : PoolCfg := {}
  free : Nat := 0
  low : Nat := 0
  bpOn : Bool := false
  warnOn : Bool := false          -- raised, not re-armed
  emptyOn : Bool := false
  deriving DecidableEq, Repr

/-- A BPM log entry (R350). -/
structure BpmLog where
  kind : Nat
  op : Nat
  agent : Nat
  owner : Nat
  seq : Nat
  handle : W32
  time : Nat
  gen : Nat
  deriving DecidableEq, Repr

/-- What a picture predicts from (R153): a picture's samples, or mid-grey of one value in every component. -/
inductive PredSrc where
  | samples (content : Nat)
  | grey (v : Nat)
  deriving DecidableEq, Repr

/-- How a concealed unit was made (R157): its vector, what it is predicted from, whether a residual is added, and whether deblocking and SAO
act on it. -/
structure ConcealedUnit where
  row : Nat
  col : Nat
  mv : Int × Int := (0, 0)
  src : PredSrc := .grey 128
  residual : Bool := false
  filters : Bool := false
  deriving DecidableEq, Repr

/-- A frame buffer's descriptor (R147), beside the marks and the count that `Buf` holds. `attr`: 0 SYNTHESIZED,
1 CONCEALED, 2 COMPRESSED, 3 ROWS_PARTIAL. -/
structure FrameD where
  attr : Nat := 0
  context : Nat := 0xFFFF
  width : Nat := 0
  height : Nat := 0
  bitDepth : Nat := 8
  rowsDone : Nat := 0
  alias_ : W32 := 0xFFFFFFFF
  pic : Nat := 0
  poc : W32 := 0
  content : Nat := 0              -- what its samples are: the draw that they are functions of (R151)
  preds : List PredSrc := []      -- what the picture predicts from (R153)
  conceal : List ConcealedUnit := []
  deriving DecidableEq, Repr

structure BpmSt where
  frames : Tbl FrameD := []       -- by buffer key
  pools : Tbl Pool := []
  bufs : Tbl Buf := []            -- key: pool * 2^19 + index
  log : List BpmLog := []
  logLost : Nat := 0
  logSeq : Nat := 0
  latch : List W32 := [0, 0, 0]
  queryRes : W32 := 0
  lastHandle : W32 := 0xFFFFFFFF  -- what the last ALLOC returned (R342)
  lastBank : Nat := 0             -- CELL bank given out first last time (R270)
  lastTime : Nat := 0
  deriving DecidableEq, Repr

/-! ### Module memory (chapter 16) -/

inductive ChanPh where
  | training
  | run
  | selfRefresh
  | excluded
  deriving DecidableEq, Repr

/-- A write waiting in a channel's queue (R357). -/
structure MemWr where
  agent : Byte
  addr : Nat
  data : Bytes
  deriving DecidableEq, Repr

/-- A read that waits for its second attempt (R364). -/
structure MemRetry where
  agent : Byte
  addr : Nat
  scrub : Bool
  data : Bytes := []
  deriving DecidableEq, Repr

/-- What a request in a bank's queue does (R356): a first read, with what its ECC reports, whether the block is poisoned, and whether the patrol
scrubber reads; the second read of R364, and whether it is correct; or a write. -/
inductive MemKind where
  | read (ecc : EccResult) (bad scrub : Bool)
  | again (ok scrub : Bool)
  | write
  deriving DecidableEq, Repr

/-- A request in a bank's queue (R356). -/
structure MemReq where
  agent : Byte
  addr : Nat
  at_ : Nat                        -- when it came
  kind : MemKind
  data : Bytes := []               -- the block as the requests before it leave it
  deriving DecidableEq, Repr

/-- A memory channel (R355 to R363). -/
structure Chan where
  ph : ChanPh := .training
  failed : Bool := false
  drift : Nat := 0
  writes : List MemWr := []        -- the write queue (R357)
  retry : List MemRetry := []
  banks : Tbl (List MemReq) := []  -- one queue per bank, oldest first (R356)
  writing : Bool := false          -- the current direction
  lastBank : Nat := 0              -- the last activated bank
  acts : List Nat := []            -- the last four activates, latest first
  slot : Nat := 0                  -- the next free command slot
  rows : Tbl (Nat × Nat) := []     -- open row of each bank, and when its idle timer ends
  retrainFails : Nat := 0
  retired : Nat := 0
  deriving DecidableEq, Repr

/-- An entry of the page-retirement list (R367). -/
structure RetEntry where
  chan : Nat
  granule : Nat
  time : Nat
  deriving DecidableEq, Repr

structure MemSt where
  dram : Tbl Byte := []
  poison : Tbl Unit := []          -- poisoned 32-byte blocks, by number
  chans : Tbl Chan := []
  degraded : Option Nat := none    -- channel a degraded variant leaves out (R47)
  retire : List RetEntry := []
  retireFull : Bool := false
  nextWindow : Nat := 0            -- module time of the next refresh window, ns
  trefi : Nat := 3904
  hot : Bool := false
  change : Option (Bool × Nat) := none   -- a change of interval: hot, windows until it takes effect
  coolSince : Option Nat := none
  dieC : Int := 0
  retrainQ : List (Nat × Nat) := []      -- channels due for a retrain, with the time scheduled
  lastRetrain : Option Nat := none
  retrainEnd : Nat := 0            -- every channel waits until then for a retrain (R362)
  scrubPos : Nat := 0
  lastRead : Bytes := []           -- what the last read returned (R364)
  lastPoisoned : Bool := false
  deriving DecidableEq, Repr

/-! ### Switch core (chapter 12) -/

/-- Where a copy is on its way through the switch. -/
inductive Place where
  | arriving                     -- written, about to reach SWC
  | held                         -- in its source's arrival hold or ingress account (R279, step 4)
  | layby (since due : Nat)
  | queued
  | tx
  deriving DecidableEq, Repr

/-- What a copy carries. -/
inductive CopyKind where
  | rtp                          -- a packet of a session from ASM
  | erelm                        -- a message of a session
  | host                         -- a frame of a TX ring
  | forward                      -- a received frame on its way to a flow, a handler, the host or a link
  | mirror (session : Nat)
  deriving DecidableEq, Repr

/-- Slice types (R79, R82). -/
inductive SliceType where
  | I
  | P
  | B
  deriving DecidableEq, Repr

/-- The slice segment header of a coded row (R80, R82): a dependent segment or a slice of its own, its type, first unit, QP, and in H.264 its
disable_deblocking_filter_idc. -/
structure SliceHdr where
  dependent : Bool := false
  kind : SliceType := .P
  first : Nat := 0
  qp : Int := 0
  deblockIdc : Nat := 0
  deriving DecidableEq, Repr

/-- A NAL unit that heads a picture (R80, R135): a parameter set with the values of its syntax elements, or a recovery point SEI message. -/
inductive HeadKind where
  | vps (values : List (String × Int))
  | sps (values : List (String × Int))
  | pps (values : List (String × Int))
  | recovery (count : Nat) (exact broken : Bool) (sliceGroupIdc : Nat)
  deriving DecidableEq, Repr

/-- A slice segment header as ASM writes it for one destination (R210): `qpDelta` in an independent segment; and the decoding-order number of
R217 where the stream carries one. slice_pic_parameter_set_id and num_entry_point_offsets are 0; every other field is as the lane coded it. -/
structure SegHdr where
  first : Bool
  pps : Nat := 0
  dependent : Bool
  address : Nat
  addressBits : Nat
  qpDelta : Option Int
  entryPoints : Nat := 0
  donl : Option Nat
  deriving DecidableEq, Repr

/-- What a media packet carries (R209 to R212, R217): a display's own parameter set or SEI message, fragment `frag` of a segment under a
rewritten header, or one of a slice that is left as the lane coded it (H.264). -/
inductive PktNal where
  | none_
  | head (k : HeadKind)
  | segment (h : SegHdr) (frag : Nat)
  | slice (h : SliceHdr) (frag : Nat)
  deriving DecidableEq, Repr

/-- One copy of a frame (R268): its cells, queue, account, and what TMG and ASM need of it. -/
structure Copy where
  kind : CopyKind := .host
  place : Place := .arriving
  dest : Nat := 0
  cls : Nat := 0
  queue : Nat := 0
  head : List W32 := []
  body : List W32 := []
  len : Nat := 64
  milestone : Nat := 0
  src : Nat := 0                 -- source ID (R283)
  fromAsm : Bool := false        -- from ASM or a replication engine (R279, step 3)
  unit : Option Nat := none      -- credit account of the source (0 to 3 ASM, 4 HQE)
  sess : Option Nat := none
  rtpSeq : Nat := 0
  pic : Nat := 0
  row : Nat := 0
  rowEnd : Bool := false
  rtx : Bool := false
  late : Bool := false
  chargeable : Bool := false     -- charged to the accounts of R273
  own : Nat := 0                 -- cells charged to used(d, c)
  shared : Nat := 0              -- cells charged to the shared pool
  port : Option Nat := none      -- ingress port of a received frame
  inCls : Nat := 0               -- its ingress class
  data : Bytes := []             -- its bytes where the model knows them
  made : Nat := 0                -- when ASM made it
  stampTx : Bool := false        -- PRT stamps its departure (R239)
  joined : Nat := 0              -- when it joined its queue
  lane : Nat := 64               -- the lane that coded it; 64 when none did
  read : Nat := 0                -- cells read out to a group that is no port's (R271)
  nal : PktNal := .none_         -- what a media packet carries
  deriving DecidableEq, Repr

/-- A cell's link entry (R268). -/
structure CellLink where
  next : Option W32 := none
  bytes : Nat := 128
  eof : Bool := false
  sharedNext : Bool := false
  deriving DecidableEq, Repr

/-- A resequencer for one source at one group (R284, R285). -/
structure Rsq where
  expect : Nat := 0
  held : List SeqCell := []
  gapAt : Option Nat := none
  heldAt : List (Nat × Nat) := []    -- when the held cells came, by number: each gap has its own timer (R284)
  passed : Tbl Nat := []         -- cells passed on of each frame in progress
  deriving DecidableEq, Repr

structure SwcSt where
  copies : Tbl Copy := []
  nextCopy : Nat := 0
  cells : Tbl CellLink := []
  gmin : Bool := false           -- GMIN_SHARED
  lim : Tbl Nat := []
  cap : Tbl Nat := []
  sharedSize : Nat := 0
  xoffAt : Nat := 0
  xonAt : Nat := 0
  headroom : Tbl Nat := []
  used : Tbl Nat := []           -- key: d * 8 + c
  sused : Tbl Nat := []
  sharedUsed : Nat := 0
  ingUse : Tbl Nat := []         -- key: p * 8 + c
  xoffSent : Tbl Bool := []
  credits : Tbl Nat := []        -- key: (unit * 40 + group) * 8 + class
  laybys : Tbl (List Nat) := []
  laybyUse : Nat := 0
  laybyHigh : Nat := 0
  evstat : Nat := 0
  gptr : Tbl Nat := []
  aptr : Tbl Nat := []
  rsq : Tbl Rsq := []            -- key: group * 256 + source
  outSeq : Tbl Nat := []         -- numbers given to cells, by source * 40 + group
  headroomAt : Tbl Nat := []
  stamps : Tbl Nat := []         -- egress timestamps of copies (R239)
  pruneAt : Tbl Nat := []
  lateRows : List (Nat × Bool × Nat) := []   -- late rows of the last 10 ms: time, held at the port, port or lane (R180)
  deriving DecidableEq, Repr

/-! ### Traffic manager (chapter 13) -/

/-- A queue descriptor (R290, R291, R295, R298, R300). -/
structure QDesc where
  en : Bool := false
  draining : Bool := false
  dest : Nat := 0
  cls : Nat := 0
  limit : Nat := 0
  drr : Nat := 0
  shaper : Nat := 0
  deficit : Int := 0
  rowOpen : Bool := false
  rowLate : Bool := false
  fresh : Bool := true           -- the next frame is the first of a row
  copies : List Nat := []
  cells : Nat := 0
  fitAt : Option Nat := none     -- when the head, refused by the fit, is forced
  closer : Option CmdRef := none
  raw : Tbl Nat := []            -- words 0 to 3 as the host has written them while the queue is not enabled (R68, R291)
  deriving DecidableEq, Repr

/-- A token bucket (R301 to R303): tokens in units of 2^-16 byte. -/
structure Bucket where
  tokens : Int := 0
  exceed : Nat := 0
  asks : List (Nat × Nat) := []  -- port and class for which a PAUSE policer requests XOFF
  deriving DecidableEq, Repr

structure TmgSt where
  queues : Tbl QDesc := []
  psh : Tbl Bucket := []
  qsh : Tbl Bucket := []
  pol : Tbl Bucket := []
  fitAt : Tbl Nat := []          -- last TMG_FIT_FORCED of a port
  rateAt : Tbl Nat := []         -- when a rate's shadow was written, by register address
  creditAt : Nat := 0            -- when the buckets were last credited
  deriving DecidableEq, Repr

/-! ### Stream assembly (chapter 10) -/

inductive HeldSt where
  | queued
  | sent
  | pruned
  deriving DecidableEq, Repr

/-- A packet that the retransmit cache holds for one destination (R218 to R222). -/
structure Held where
  copy : Copy := {}
  body : Option Nat := none
  st : HeldSt := .queued
  rtxN : Nat := 0
  again : Bool := false          -- a retransmitted copy is still queued
  firstTx : Nat := 0
  expiry : Option Nat := none
  prunedAt : Option Nat := none
  deriving DecidableEq, Repr

/-- A body chain and the head holds it waits for (R219). -/
structure BodyRef where
  cells : List W32 := []
  holds : Nat := 0
  deriving DecidableEq, Repr

/-- A NAL unit ahead of a picture, and its length. -/
structure HeadNal where
  kind : HeadKind := .vps []
  len : Nat := 0
  deriving DecidableEq, Repr

/-- A coded row that ASM has been given (R74): its SLICE buffers and size. -/
structure CodedRow where
  hdr : SliceHdr := {}           -- its slice segment header (R80, R82)
  pic : Nat
  row : Nat
  bytes : Nat
  lane : Nat
  last : Bool
  slices : List W32
  at_ : Nat
  heads : List HeadNal := []     -- NAL units ahead of it: parameter sets, and the SEI of a sweep's first picture (R80, R135)
  deriving DecidableEq, Repr

/-- A packet that ASM has built for a destination and not passed on (R208): its shared body, the bytes of its head, and
the frame's length. -/
structure PktD where
  body : Option Nat := none
  head : Nat := 64
  len : Nat := 64
  lost : Bool := false           -- its bytes were read poisoned (R365)
  nal : PktNal := .none_
  payload : Nat := 0             -- bytes of its RTP payload
  deriving DecidableEq, Repr

/-- A segment's packets for one destination, in its place of the transmission order. -/
structure Seg where
  enc : Nat
  tile : Nat := 0xFFFF
  pic : Nat
  row : Nat
  place : Nat                    -- its place in the display row, from the left
  col : Nat
  pkts : List PktD
  at_ : Nat
  lane : Nat
  milestone : Nat
  deriving DecidableEq, Repr

/-- A de-jitter queue (R159, R160, R226). -/
structure DjQ where
  started : Bool := false
  ssrc : W32 := 0
  expect : Nat := 0
  passed : Nat := 0              -- numbers passed on or declared lost since the flow (re)started
  queue : List RtpIn := []
  gapAt : Option Nat := none
  unsupp : Bool := false         -- ASM_IN_UNSUPP has been raised
  ts : Option W32 := none        -- the picture in progress
  bytes : Nat := 0               -- bytes of it received
  rel : Nat := 0                 -- rows of it released
  full : Nat := 0                -- rows of it whose data is complete or declared lost
  short : Nat := 0               -- rows below this number are not released by the guard again
  used : Nat := 0                -- bytes that its decoded rows consumed
  ended : Nat := 0               -- rows of it decoded
  count : Nat := 0               -- pictures ended before it
  largest : Nat := 0             -- the largest row consumed, in this picture and in the previous one
  largestPrev : Nat := 0
  lost : List Nat := []          -- rows of the picture in progress with a chunk marked LOST (R160)
  arrived : List (Nat × Nat) := []   -- when the queued packets arrived, by sequence number: each gap has its own timer
  deriving DecidableEq, Repr

structure AsmSt where
  segs : Tbl (List Seg) := []    -- by session
  next : Tbl (Nat × Nat × Nat) := []   -- next segment of a session: picture, row, place
  seqs : Tbl Nat := []           -- next RTP sequence number of a session
  nets : Tbl Net := []
  lay : Tbl (List (Nat × Bytes)) := []   -- layouts that wait for a picture boundary: tile, destination entry (R204)
  dj : Tbl DjQ := []             -- by input flow
  rows : Tbl (List CodedRow) := []   -- coded rows of an encode context not yet enqueued
  cache : Tbl Held := []         -- key: session * 2^16 + RTP sequence
  bodies : Tbl BodyRef := []
  nextBody : Nat := 0
  pressure : Bool := false
  deriving DecidableEq, Repr

/-! ### Erelm (chapter 11) -/

/-- The module side's states of a session (R245). -/
inductive EPh where
  | waitHello
  | opening
  | open_
  | refused
  | closing
  | shutdown
  deriving DecidableEq, Repr

/-- A reliable message not yet acknowledged (R238). -/
structure EMsg where
  seq : Nat
  type : Nat
  payload : Bytes
  sends : Nat
  at_ : Nat
  deriving DecidableEq, Repr

structure ESess where
  ph : EPh := .waitHello
  last : Nat := 0                -- number of the last reliable message sent
  unacked : List EMsg := []
  queue : List (Nat × Bytes) := []
  expected : Nat := 1
  ackAt : Option Nat := none     -- when an acknowledgement falls due
  lastRx : Nat := 0
  lastTx : Nat := 0
  nonceM : W64 := 0
  nonceE : W64 := 0
  ks : Bytes := []               -- Ks of a keyed session (R264)
  hello : Option HelloBody := none
  cum : Nat := 0                 -- the previous rtp_cum
  prevReq : W64 := 0
  resp : Option Nat := none      -- the copy of the previous time response
  late : W32 := 0
  status : Option StatusBody := none
  counts : List Nat := List.replicate 13 0   -- R266, in its order
  begun : Bool := false          -- the session's first commitment has been sent (R253)
  tagAt : Option Nat := none
  closer : Option CmdRef := none
  deriving DecidableEq, Repr

structure ErelmSt where
  sess : Tbl ESess := []
  helloAt : List (Bytes × Nat) := []   -- when ERELM_HELLO was last raised for a source address
  deriving DecidableEq, Repr

/-! ### Ports and links (chapter 14) -/

inductive LinkPh where
  | down
  | training
  | hold
  | up
  | retrain
  | degraded
  deriving DecidableEq, Repr

/-- A received pause on one class (R277, R293). -/
structure PauseSt where
  ends : Nat := 0
  since : Nat := 0
  ignored : Bool := false
  limitMs : Nat := 100
  deriving DecidableEq, Repr

/-- A frame in transmission: the copy, when it started, when it ends, and its cells not yet read (R271). -/
structure TxSt where
  copy : Nat
  start : Nat
  ends : Nat
  cells : List W32
  readBytes : Nat
  deriving DecidableEq, Repr

structure Port where
  ph : LinkPh := .down
  mapped : Bool := false         -- mapped out
  holdDue : Nat := 0
  lossAt : Option Nat := none
  speed : Nat := 0
  negFail : Bool := false
  pauseOk : Bool := false
  margin : Nat := 0
  lowRaised : Bool := false
  lowCount : Nat := 0
  failAt : Option Nat := none    -- the first failure's time (R325)
  retrainDue : Option Nat := none
  rank : Nat := 0                -- failures inside the window
  pauses : Tbl PauseSt := []
  released : Tbl (Nat × Nat) := []   -- class: when a pause was released, and since when it had held
  xoff : Nat := 0                -- classes for which XOFF is in force
  pfcDue : Nat := 0
  tx : Option TxSt := none
  last7 : Nat := 0
  drrPtr : Nat := 0
  turn : Option Nat := none
  deriving DecidableEq, Repr

structure MdioSt where
  busy : Bool := false
  err : Bool := false
  word : W32 := 0
  deriving DecidableEq, Repr

structure PrtSt where
  ports : Tbl Port := []
  mdio : Tbl MdioSt := []
  serdes : Tbl W32 := []         -- key: port * 4096 + word; links from 2^20 on
  deriving DecidableEq, Repr

inductive CasPh where
  | down
  | training
  | up
  | retrain
  | failed
  deriving DecidableEq, Repr

/-- A frame kept for replay (R329). -/
structure ReplayFrame where
  seq : Nat
  vc : Nat
  payload : Bytes
  sends : Nat
  at_ : Nat
  deriving DecidableEq, Repr

/-- An Imnunis link (R326 to R331). -/
structure CasLink where
  ph : CasPh := .down
  step : Nat := 0
  peer : Nat := 0
  miswire : Bool := false
  inUse : Nat := 0
  out : Nat := 0
  mediaClosed : Bool := false    -- the digests differ (R46)
  excluded : Tbl Nat := []       -- lane: when it was last excluded
  replay : List ReplayFrame := []
  txq : List (Nat × Bytes) := []
  nextSeq : Nat := 0
  expect : Nat := 0
  credits : List Nat := [16, 64, 64, 256]   -- CTRL, RSP, REQ, MEDIA
  returns : List Nat := [0, 0, 0, 0]        -- credits of frames whose buffers are free, to give back
  owed : Nat := 0                -- MEDIA frames received whose cells are not admitted yet
  retrainDue : Option Nat := none
  retryDue : Option Nat := none
  frames : Tbl Nat := []         -- copies of the frames whose cells are arriving (R25)
  rxq : List Bytes := []         -- media payloads received, whose cells wait for buffers (R330)
  deriving DecidableEq, Repr

inductive TimeSrc where
  | free
  | ptp
  | pps
  deriving DecidableEq, Repr

structure CasSt where
  links : Tbl CasLink := []
  locked : Bool := false
  holdover : Bool := false
  path : Nat := 0
  offset : Int := 0
  size : Nat := 1                -- casc_size
  inbox : List (Nat × Bytes) := []   -- payloads of CTRL, RSP and REQ received, by link, that firmware has not served
  loads : List (Nat × Nat × Nat) := []   -- streams that module 0 has admitted for other modules: encoding and egress module, kb/s (R26)
  deriving DecidableEq, Repr

/-! ### Coding lanes and their microsequencers (chapters 4, 5) -/

/-- What a job asks for: a lane instruction of R86, or a composition row (R171). -/
inductive JobOp where
  | nop
  | load
  | save
  | encode
  | decode
  | flush
  | fence
  | reserved (code : Nat)
  | compose
  deriving DecidableEq, Repr

/-- A job: its entry in the row-job table and in a lane's queue (R85, R174). -/
structure Job where
  op : JobOp := .nop
  idx : Nat := 0
  gen : Nat := 0
  ctx : Nat := 0
  sess : Nat := 0xFFFF
  pic : Nat := 0
  row : Nat := 0
  band : Nat := 0
  deadline : Nat := 0
  data : W32 := 0
  retry : Bool := false
  lastRow : Bool := false
  skip : Bool := false
  idr : Bool := false
  restart : Bool := false
  released : Bool := false
  placed : Bool := false         -- in a lane's queue, at a pipe, or in execution
  attempts : Nat := 0
  fromLane : Nat := 64           -- the lane whose check it failed; 64 none
  bias : Option (Nat × Nat) := none   -- drain and overload bias, sampled when the row first starts (R129)
  plan : Option (Int × Int × Bool) := none   -- the row's target, QP and coast, as it first started (R129)
  staged : List (Nat × Byte) := []    -- what a decoded row's start makes of the record, not yet visible (R74)
  noop : Bool := false           -- a decoded row that its start found not to be decoded (R84, R155)
  poison : List Nat := []        -- units that lost or poisoned data damaged, for a retry to conceal alike (R157, R365)
  lost : Bool := false           -- a chunk of the row's data is marked LOST (R156, R160)
  inPic : Nat := 0               -- the number of its picture in the input flow that brings it (R226)
  deriving DecidableEq, Repr

/-- The job a lane executes. -/
structure LaneRun where
  job : Job := {}
  start : Nat := 0
  qp : Int := 0
  target : Int := 0
  coast : Bool := false
  late : Bool := false
  concealed : List Nat := []     -- units concealed in the row
  mvs : List (Option (Int × Int)) := []   -- the vectors of its units
  synth : Bool := false
  abandoned : Bool := false
  segments : Nat := 0            -- segments whose damage begins in the row, and those of them with a syntax error (R156)
  syntaxErrs : Nat := 0
  irap : Bool := false
  runsOn : Bool := false         -- a damaged segment runs on into the next row
  bytes : Nat := 0
  cycle : Nat := 0               -- the lane cycle at which it started (R97)
  stalled : Nat := 0             -- cycles of refresh stall and context switch counted since
  visible : Bool := false        -- its results are visible, and END_JOB has not executed yet (R106)
  deriving DecidableEq, Repr

/-- A trap frame (R112). -/
structure TrapFrame where
  cause : Nat
  upc : Nat
  rep : Nat
  loop0 : Nat
  loop1 : Nat
  latches : List W32
  sp : Nat
  nano : Option Nat := none      -- the nanoword whose read failed (R112)
  boundary : Bool                -- taken at a job boundary: TRAP_RETURN resumes at the next job's vector (R113)
  deriving DecidableEq, Repr

inductive MsState where
  | idle
  | run
  | trap
  | halted
  deriving DecidableEq, Repr

/-- A microcode image in use: version and digest (R117). -/
structure McId where
  ver : W32 := 0
  dig : W32 := 0
  deriving DecidableEq, Repr

structure Lane where
  role : Nat := 0
  cwSize : Nat := 0              -- 0 until a waymap is applied (R8, R100)
  cwLead : Nat := 0
  mapped : Bool := false
  quarantined : Bool := false
  power : Nat := 0
  wakeAt : Option Nat := none
  draining : Bool := false
  loading : Bool := false
  active : Option Nat := none
  prefetch : Option Nat := none
  prefetchAt : Nat := 0          -- when the prefetch has its record loaded (R87)
  gate : Bool := false           -- MSC has issued SAVE_CONTEXT and FENCE ahead of power-gating (R88)
  queue : List Job := []
  run : Option LaneRun := none
  idleAt : Option Nat := none    -- when its idle time ends (R441)
  stallAt : Option Nat := none   -- the SLICE stall's raise (R17, R449)
  -- statistics FIFO (R92 to R94)
  lsf : List (List W32) := []
  lsfSeq : Nat := 0
  lsfLost : Nat := 0
  lsfLatch : List W32 := [0, 0, 0]
  eccCorr : Nat := 0
  eccUncorr : Nat := 0
  -- counters and tagged sampling (R95, R98)
  pmcOvf : Nat := 0
  sig : Nat := 0                 -- level signals of the last lane cycle (R95): cycles, stall, idle, front
  tags : List (List W32) := []
  tagLost : Nat := 0
  tagLatch : List W32 := [0, 0, 0, 0, 0, 0, 0]
  lfsr : Nat := 1
  -- microsequencer (R103 to R113)
  micro : Tbl Nat := []          -- 27 bits: parity above the data
  nano : Tbl Nat := []           -- 200 bits
  ms : MsState := .idle
  upc : Nat := 0
  rep : Option Nat := none       -- issues left of the ISSUE in progress
  stack : List Nat := []
  loop0 : Nat := 0
  loop1 : Nat := 0
  latches : List W32 := [0, 0, 0, 0]
  ctu : Nat := 0
  cflags : Nat := 0
  stages : List Nat := [0, 0, 0, 0, 0, 0, 0]   -- the field group last issued to each stage (R107)
  lastNano : Option Nat := none  -- the nanoword last issued
  memStall : Bool := false       -- a stage of the atomic region waits for MEM's second read (R113)
  asked : Bool := false          -- the neighbour has been asked for its state again (R111)
  atomic : Bool := false
  frames : List TrapFrame := []
  trapActive : Nat := 0
  trapPending : Nat := 0
  trapTaken : Nat := 0
  trapDeferred : Nat := 0
  -- machine checks (R114, R115, R122)
  mc : McId := {}
  copy1 : Bool := false          -- runs golden copy 1
  mchk : Nat := 0                -- the low 30 bits of LMS_MCHK
  outcome : FltOut := .none
  check : Bool := false          -- its machine check waits for SVP's service (R115)
  mchkTotal : Nat := 0
  mchkTransient : Nat := 0
  record : List (Bool × Nat) := []   -- the fault record: store, address
  failed : Option Job := none
  rebuild : Bool := false
  loadResult : Nat := 0
  loads : Nat := 0
  deriving DecidableEq, Repr

/-- Golden copies (R109, R118): where each stands, and which image it holds. -/
structure Golden where
  base : McId := {}
  patch : Option McId := none
  image : Bytes := []
  patchImage : Bytes := []
  svn : Nat := 0                 -- security versions of the two images (R420)
  patchSvn : Nat := 0
  patching : Bool := false
  loads : List Nat := []         -- lanes of the patch command that wait for their load, in ascending order (R119)
  toBase : Bool := false         -- the command's image is the base
  due : Nat := 0                 -- when the load in progress ends
  results : List (Nat × Nat) := []   -- lanes with their result
  failing : List Nat := []       -- lanes whose readback fails
  cmd : Option CmdRef := none
  at0 : Nat := 0                 -- module addresses of golden copies 0 and 1 (R109)
  at1 : Nat := 0
  deriving DecidableEq, Repr

/-! ### Rate control (chapter 6) -/

/-- A row of a picture as rate control keeps it. -/
structure RcRow where
  bits : Nat := 0
  qp : Int := 0
  cost : Option Nat := none      -- complexity, none when invalid (R127)
  target : Int := 0
  done : Bool := false
  topped : Bool := false         -- in progress when the picture's coast began (R139)
  deriving DecidableEq, Repr

/-- A picture as rate control keeps it. -/
structure RcPic where
  pic : Nat := 0
  open_ : Bool := false          -- started and not settled
  bits : Nat := 0
  clip : Nat := 0
  target : Int := 0
  borrow : Int := 0
  avg : Nat := 0
  skip : Bool := false
  idr : Bool := false
  coasted : Bool := false
  forced : Bool := false         -- the deferral limit is reached (R140)
  colStart : Nat := 0            -- its first refresh column, and the column after its last
  colEnd : Nat := 0
  rows : Tbl RcRow := []
  doneRows : Nat := 0
  biased : Bool := false
  take : Int := 0                -- carry that the picture repays (R126)
  counted : Bool := false        -- its outcome has moved the front, or has been noted for its family (R133)
  heads : Nat := 0               -- the sweep's count, as its recovery point SEI signals it (R135)
  deriving DecidableEq, Repr

/-- What rate control and refresh keep of an encode context beside its record. -/
structure EncSt where
  prev : RcPic := {}
  cur : RcPic := {}
  marks : List (Nat × Bool × Bool × Bool) := []   -- pictures started, newest first: index, SKIP_PIC, restart, IDR
  drained : Option Nat := none   -- the picture for which the bucket has drained (R125)
  idrNext : Bool := true         -- the next picture is the IDR picture (R137)
  skipNext : Bool := false
  restartNext : Bool := false
  sweepPic : Nat := 0            -- pictures of the sweep that advanced the front
  sweeping : Bool := false
  n0 : Nat := 0
  slack : Nat := 0
  slackUsed : Nat := 0
  ended : Option (Nat × Bool) := none   -- a family tile's last picture: index, whether the front may advance
  front : Nat := 0               -- the refresh front; refresh_col shows it at the completion of a row (R74, R133)
  ends : List (Nat × Nat) := []  -- end(m) of the pictures of the sweep, newest first: picture, column (R134)
  slackNext : Option Nat := none -- the SLACK that a REFRESH_COMMIT has committed to (R136)
  high : Bool := false           -- the tier that the encoder signals is High (R78)
  recons : List (Nat × W32) := []   -- frame buffers allocated for pictures whose row 0 is released (R155, R171)
  factor : Nat := 65536          -- learned factor, 2^-16 (R176)
  ord : Nat := 0                 -- order of admission (R180)
  suspended : Bool := false
  made : Nat × Nat := (0, 0)     -- the next picture and row of a tile to create jobs for (R170, R174)
  familyBias : Nat := 0
  budget : Nat × Nat := (1, 1)   -- effective target of a family tile: numerator, denominator (R131)
  deriving DecidableEq, Repr

/-- What a decode context keeps beside its record (chapter 7). -/
structure DecSt where
  lastGood : Option W32 := none
  released : Option W32 := none  -- the picture released for output (DISPLAY_HOLD)
  before : Option (Nat × Bool) := none   -- the picture released before it: its content, and whether it was concealed (R172)
  refs : List W32 := []
  concealing : Bool := false
  picBad : Bool := false         -- the picture in progress has a concealed unit or a SYNTHESIZED reference
  synth : Bool := false          -- it predicts from a SYNTHESIZED or a missing reference (R153, R158)
  skipping : Bool := false       -- its jobs are no-ops (R84, R155)
  asLong : Bool := false
  isRef : Bool := true           -- the picture in progress is a reference, and is to be output
  shown : Bool := true
  ends : Bool := false           -- it ends the CONCEALED state if it is decoded without damage (R158)
  recovering : Bool := false     -- a recovery point SEI has been received since the last damage
  segBad : Bool := false         -- a damaged segment runs on into the next row (R156)
  inProgress : Bool := false
  out : Option W32 := none       -- write-out buffer of the picture in progress
  waiting : List W32 := []       -- decoded pictures that wait for their output (R150)
  bump : List W32 := []          -- poc of the pictures to release, in output order, not yet complete
  motion : Tbl (List (Option (Int × Int))) := []   -- vectors of the units of the picture in progress, by row; none where intra (R157)
  last : Tbl (List (Option (Int × Int))) := []     -- those of the most recent decoded picture
  ord : Nat := 0
  factor : Nat := 65536
  suspended : Bool := false
  unsupp : Bool := false         -- UNSUPPORTED (R84) while the record reads STOPPED
  deriving DecidableEq, Repr

/-! ### Milestone scheduler (chapter 8) -/

/-- The estimator's values with their fractions (R164): line period and phase in ns * 2^32. -/
structure Model where
  lp : Int := 0
  phase : Int := 0
  frameRef : Nat := 0
  nLast : Nat := 0
  markers : Nat := 0             -- applied in this model
  good : Nat := 0                -- consecutive with |e| within 2 lp
  deriving DecidableEq, Repr

structure Raster where
  m : Model := {}
  second : Model := {}           -- RELOCK's second model (R168)
  lastRx : Nat := 0              -- when the last marker was received
  missed : Nat := 0              -- intervals counted since
  suspAt : Option Nat := none
  locked : Bool := false         -- it has been LOCKED since the session opened
  nextRow : Nat := 0             -- next row to create, of picture nextPic
  nextPic : Nat := 0
  steerRep : Int := 0            -- the slew that the endpoint last reported, 0.01 ppm
  miles : Tbl Int := []          -- milestones of rows whose jobs have been created, by picture * 4096 + row (R168, R173)
  skipAt : Option Nat := none    -- the last picture counted in skipped_pics, and in bias_ms; ns of bias_ms below a millisecond
  biasAt : Option Nat := none
  biasNs : Nat := 0
  suspMs : Nat := 0              -- ms of the suspension in progress that suspended_ms already shows (R167)
  deriving DecidableEq, Repr

/-- An overload measure in force on a resource (R180). -/
structure OvlRes where
  suspended : List Nat := []
  skip8 : Nat := 0
  bias : Nat := 0
  clearAt : Option Nat := none   -- since when it has not been overloaded
  late : Nat := 0
  deriving DecidableEq, Repr

structure MscSt where
  jobs : Tbl Job := []           -- the row-job table, by index
  gens : Tbl Nat := []
  high : Nat := 0
  fullAt : Option Nat := none
  steerAt : Tbl Nat := []        -- lead picture of a family's last evaluation
  steerPer : Tbl Nat := []       -- the PERIOD in force until its next one (R182)
  phaseAt : Tbl Nat := []        -- last picture of a family with MSC_FAMILY_PHASE
  rasters : Tbl Raster := []     -- by session record
  encs : Tbl EncSt := []
  decs : Tbl DecSt := []
  ovl : Tbl OvlRes := []         -- by resource: lane, 64 pipes, 65 memory, 128 + port
  admitOrd : Nat := 0
  lateRows : Tbl Nat := []
  ovlAt : Nat := 0
  repeats : List Nat := []       -- jobs released with repeated sources
  drains : List CmdRef := []     -- LANE_DRAIN commands that have not completed
  waiting : List Job := []       -- jobs whose creation waits for a free entry (R174)
  carry : Tbl Nat := []          -- records whose private state stands (R89, R162): the draw that its bytes are
  deriving DecidableEq, Repr

/-! ### Compositor (chapter 9) -/

structure Pipe where
  mapped : Bool := false
  power : Nat := 0
  wakeAt : Option Nat := none
  job : Option Job := none
  start : Nat := 0
  poisoned : Bool := false
  faultAt : Option Nat := none
  begun : Bool := false          -- its job composes
  conc : Bool := false           -- the row reads a concealed or synthesized picture (R188)
  idleAt : Option Nat := none    -- when its idle time ends (R441)
  deriving DecidableEq, Repr

structure Surface where
  base : Nat := 0
  width : Nat := 0
  height : Nat := 0
  pitch : Nat := 0
  format : Nat := 0
  back : Bool := false           -- the second buffer is the back buffer when false
  palette : Bytes := []
  newPalette : Bytes := []
  size : Nat := 0
  deriving DecidableEq, Repr

/-- A coding unit of a composed row in its source-ring slot (R193, R196): its unit column, and its lines of luma, Cb and Cr
samples in 4:2:0. -/
structure CompUnit where
  col : Nat
  luma : List (List Nat)
  cb : List (List Nat)
  cr : List (List Nat)
  deriving DecidableEq, Repr

/-- What CMP keeps of a composition context beside its record. -/
structure CmpCtx where
  ages : Tbl Nat := []           -- dirty ages by unit: row * 1024 + column
  fresh : List Nat := []         -- units set since the last picture start
  bound : List W32 := []         -- frame buffers bound by the output picture in progress
  surfs : List (Nat × Bool) := []   -- surfaces bound by the output picture, with the buffer bound (R187)
  pals : Tbl Bytes := []         -- the palettes of those surfaces as they stood then
  cleanEn : Bool := true         -- CMP_CFG.CLEAN_EN as taken at the picture start
  done : Nat := 0                -- rows of the output picture composed
  pendDesc : Tbl Bytes := []     -- layer descriptors waiting for the boundary
  pendGa : Option Nat := none
  pendBg : Option Nat := none
  poisonPic : Option Nat := none
  started : Bool := false
  ringRows : Tbl Nat := []       -- source-ring slots taken: row of the picture
  ring : Tbl (List CompUnit) := []   -- what stands in them: the units composed, which are the slot's map (R196)
  deriving DecidableEq, Repr

structure CmpSt where
  pipes : Tbl Pipe := []
  surfs : Tbl Surface := []
  ctxs : Tbl CmpCtx := []
  binds : Tbl Nat := []          -- bindings by buffer key (R148)
  deriving DecidableEq, Repr

/-! ### What leaves the module -/

/-- What the module sends out, oldest first: the model's own record of it, so that a statement can speak of it.
(DESIGN CHOICE, log 94.) -/
inductive Output where
  | hostWrite (addr : Nat) (data : Bytes)       -- completions, event and status records, data (R376 to R381)
  | msix (vector : Nat)                         -- R381, R399
  | frame (port : Nat) (copy : Nat) (cls : Nat) (len : Nat) (data : Bytes)   -- a frame starts on a port (R305)
  | aborted (port : Nat) (copy : Nat)           -- its FCS was aborted (R282)
  | ptpStamp (port copy seqId stamp : Nat)      -- an egress stamp given to the sending agent (R321)
  | pause (port : Nat) (pfc : Bool) (classes quanta : Nat)                   -- R317
  | group (dest copy : Nat)                     -- a copy read out to a host, internal or cascade group (R271)
  | linkFrame (link : Nat) (vc : Nat) (nak : Bool) (seq ack crVc crCount : Nat) (payload : Bytes)   -- R328
  | erelm (sess : Nat) (mtype : Nat) (seq ack : Nat) (payload : Bytes)       -- a message given to class 7 (R234)
  | regRead (addr : Nat) (v : W32)              -- the value a read with an effect returned
  | claimed (target : Nat) (source : Nat)       -- R400
  | nmi (source : Nat)                          -- R450
  | mdio (bus : Nat) (word : W32)               -- R319
  | mgmt (ack : Bool) (data : Bytes)            -- management bus (R442)
  | pin (name : String) (low : Bool)            -- PFAIL_N, PWRGD, SMB_SDA change (R465); the levels of FAULT_N and REPLACE_N are read off the state
  | crs                                         -- Configuration Request Retry Status (R431)
  | answered                                    -- a configuration request answered
  deriving DecidableEq, Repr

/-! ### The whole -/

/-- Time keeping (R5, R322): the source chosen, the ports with PTP, the servo's slew in parts per 10^9. -/
structure ClkSt where
  src : TimeSrc := .free
  ptpPorts : List Nat := []
  slew : Int := 0
  ppsAt : Option Nat := none
  deriving DecidableEq, Repr

/-- SEC's waymap status words (R48). -/
structure WmStat where
  state : Nat := 0
  slot : Nat := 0
  mismatch : Bool := false
  degChan : Nat := 0
  reason : Nat := 0
  skind : Nat := 0
  section_ : Nat := 0
  ver : W32 := 0
  dig : W32 := 0
  id : W32 := 0
  phase : Nat := 0
  detReason : Nat := 0
  detCount : Nat := 0
  deriving DecidableEq, Repr

structure SecSt where
  wm : WmStat := {}
  bank : Nat := 0                -- 0 A, 1 B, 3 recovery
  altValid : Bool := false
  fallback : Bool := false       -- SEC_BOOT_STAT.FALLBACK
  reasonA : Nat := 0
  reasonB : Nat := 0
  svn : Nat := 0
  fwDigest : Bytes := []
  mcDigest : Bytes := []
  mc2Digest : Bytes := []
  dbgLevel : Nat := 0
  dbgFails : Nat := 0
  chal : W64 := 0
  token : Bool := false          -- a token was accepted since reset
  keys : Tbl Bytes := []         -- the Erelm keys SEC holds
  recBusy : Bool := false
  recWord : W32 := 0             -- OP, BANK and CHUNK as written
  recResult : Nat := 0
  staging : Tbl W32 := []
  detSlot : Nat := 0               -- the slot that holds the detour image
  detour : Option (Option CmdRef) := none   -- APPLY is in progress (R52), with its DETOUR command while that has not been aborted
  detDue : Nat := 0                -- when APPLY completes
  detLanes : List Nat := []        -- the lanes and port blocks whose entries it changes
  detBlocks : List Nat := []
  detOut : Nat := 0                -- ports of those blocks that were mapped out as APPLY began (R53)
  detLed : Bool := false           -- module 0 leads it (R55)
  baseDig : Bytes := []            -- digest of the image that the running detour image has modified (R55)
  detImage : Bytes := []           -- the detour image, and the image it modifies
  detBase : Bytes := []
  deriving DecidableEq, Repr

/-- The platform controller (chapter 20, 22). -/
structure PltSt where
  bootSel : Nat := 0             -- voted straps (R472)
  cascId : Nat := 0
  up : Bool := false             -- the supply is above the lockout and the module has started
  firmware : Bool := false       -- firmware runs (not in recovery)
  recovery : Bool := false
  thermal : Bool := false        -- shut down by temperature (R478)
  exhausted : Bool := false      -- HOLDUP ran out (R446)
  cur : Nat := 0                 -- 0 RUN, 1 IDLE, 2 SLEEP, 3 DEEP_SLEEP, 4 OFF
  target : Nat := 0
  busy : Bool := false
  block : Nat := 0               -- the block being stopped (R435), 0 none
  cmd : Option CmdRef := none    -- the POWER_STATE command of the transition
  pend : Option (Nat × Option CmdRef) := none
  abortSrc : Nat := 0
  retries : Nat := 0
  tries : Nat := 0               -- attempts of the transition that have been refused
  drainDue : Option Nat := none
  retryDue : Option Nat := none
  latched : Option Nat := none   -- a wake source latched during entry
  wakeFlags : Nat := 0
  wakeFrom : Nat := 0
  mgmtEn : Bool := true          -- as sampled at the last entry
  hostEn : Bool := true
  timerCfg : Nat := 0            -- PLT_WAKE_CFG as sampled at the last entry
  drainMs : Nat := 20            -- DRAIN_MS and AUTO_RETRY as sampled at the last entry
  autoRetry : Bool := false
  timerDue : Option Nat := none
  pfail : Bool := false          -- PFAIL_N is asserted (R445)
  onHoldup : Bool := false
  vin : Option (Nat × Nat) := none      -- the time and value, in 0.1 V, of the last telling
  holdup : Option (Nat × Nat) := none
  chargeAt : Option Nat := none
  shed : Nat := 0
  shedCtx : List Nat := []       -- contexts that the shedding suspended
  pfailAt : Nat := 0
  blockOn : Tbl Bool := []       -- port blocks' domains that are on
  blockWake : Tbl Nat := []
  mgmt : Bool := false           -- a transaction was opened with this module's address
  digests : List Bytes := []     -- stored for DEEP_SLEEP (R443)
  deriving DecidableEq, Repr

/-- The waymap in force (R45): what its sections give the blocks. -/
structure WaySt where
  bounds : Tbl (Nat × Nat) := []
  carves : Tbl (Nat × Nat × Nat) := []   -- carve-outs: base, size, flags (R27)
  fallback : Bool := false       -- the bundle's default waymap runs (R40, R45)
  egroup : Tbl Nat := []         -- port egress group of a port block (R35, R50)
  portClass : Tbl Nat := []      -- class of a port block: 0 OFF, 1 MC_1G, 2 MC_2G5, 3 MC_10G (R35)
  ctxParts : List Nat := []      -- context records of each kind's partition (R36)
  queueParts : List Nat := []    -- queue descriptors of each partition (R36)
  qPerPort : Nat := 0
  digest : Bytes := []           -- waymap digest (R46, R48)
  sessSp : List (Nat × Nat × Nat) := []   -- SERVICES: first and last session of an SP, and the SP (R49)
  lead : Bool := false           -- CASCADE: this module's role, and the links that it uses (R24, R27)
  links : List Nat := []
  deps : List (Nat × Nat) := []  -- CHANDEP: the graph, kept with the running waymap (R45)
  ready : List Nat := []         -- its channels that have their credits, in the order in which they got them
  kept : List (Nat × Bytes × Bytes) := []   -- DEGRADED sections that are not applied: channel, MEMMAP and POOLS bodies
  deriving DecidableEq, Repr

/-- The flash (R413) and the fuses (R411): what survives every reset. A byte of flash that nothing has written
reads 0xFF, as erased NOR flash does. -/
structure FlashSt where
  data : Tbl Byte := []          -- banks, waymap slots and patch region, by offset
  boots : Nat := 0               -- starts from step 1 of R430 (R457)
  revoked : Nat := 0             -- VKEY_REVOKED
  custHash : Bytes := []         -- empty: none enrolled
  custKey : Bytes := []
  fwCtr : Nat := 0
  mcCtr : Nat := 0
  keys : Tbl Bytes := []         -- the Erelm key store
  serial : Nat := 0              -- last accepted record serial
  log : List LogRec := []
  chanFailed : List Nat := []    -- channels logged as lastingly failed (R47, R361, R363)
  retire : List RetEntry := []   -- the page-retirement list (R366)
  deriving DecidableEq, Repr

structure State where
  pending : List Instr := []
  time : Nat := 0                -- module time, ns * 2^16
  free : Nat := 0                -- the model's own count of free values drawn
  out : List Output := []        -- the model's own record of what left the module
  clk : ClkSt := {}
  units : Tbl UnitHdr := []      -- by unit key (Ops.lean: unitKey)
  regs : Tbl W32 := []           -- stored words of configuration registers, by BAR0 address
  ind : Tbl IndSt := []          -- by window key (Ops.lean: indKey)
  cnt : Tbl Nat := []            -- live counters (R69), by counter key
  held : Tbl Nat := []           -- holding registers (R70)
  glb : GlbSt := {}
  flash : FlashSt := {}
  way : WaySt := {}
  flt : FltSt := {}
  evc : EvcSt := {}
  cpus : Tbl Cpu := []
  dma : DmaSt := {}
  hqe : HqeSt := {}
  bpm : BpmSt := {}
  mem : MemSt := {}
  swc : SwcSt := {}
  tmg : TmgSt := {}
  asm : AsmSt := {}
  erelm : ErelmSt := {}
  prt : PrtSt := {}
  cas : CasSt := {}
  sec : SecSt := {}
  plt : PltSt := {}
  lanes : Tbl Lane := []
  golden : Golden := {}
  msc : MscSt := {}
  cmp : CmpSt := {}
  ctx : Tbl Byte := []           -- context records (R89), by record * 256 + offset
  opens : Tbl Nat := []          -- open contexts, with their kinds
  flowQ : Tbl Nat := []          -- the ingress queue of an open input flow
  sessQ : Tbl Nat := []          -- the class-6 queue of an open display session (R289)
  deriving DecidableEq, Repr

/-- The machine right after reset: nothing is supplied yet, and VIN_RISE (R430) starts it. (DESIGN CHOICE, log 7.)
(DEDUCED, log 9.) -/
def State.reset : State := {}

end Sys2Proof.Machine
end

