-- ==== Sys2Proof/Machine/Ops.lean ====
section
/-! DEFINITION. The named operations over State that every family uses: time, free values, output, counters,
unit headers, stored register words, context-record fields and module memory bytes. -/

namespace Sys2Proof.Machine

open Sys2Proof

/-! ### Time, free values, output -/

/-- Module time in ns (R5). -/
def State.ns (s : State) : Nat := s.time / 2 ^ 16

/-- One draw of a free value: the count its next value is applied to. -/
def State.draw (s : State) : State := { s with free := s.free + 1 }

/-- One thing sent out of the module. -/
def State.emit (s : State) (o : Output) : State := { s with out := s.out ++ [o] }

def us : Nat := 1000
def ms : Nat := 1000000
def oneSec : Nat := 1000000000

/-! ### Counters (R69, R70) -/

/-- The key of counter `n` of unit `u` (0: the block's own) of block `b`. -/
def cntKey (b u n : Nat) : Nat := (b * 512 + u) * 64 + n

/-- A 48-bit counter raised by `k`. -/
def State.bumpU (s : State) (b u n k : Nat) : State :=
  { s with cnt := Tbl.put s.cnt (cntKey b u n) (wrapAdd (Tbl.get 0 s.cnt (cntKey b u n)) k 48) }

def State.bump (s : State) (b n : Nat) : State := s.bumpU b 0 n 1

/-- What a live counter holds. -/
def State.cntOf (s : State) (b u n : Nat) : Nat := Tbl.get 0 s.cnt (cntKey b u n)

/-- Block indexes of the BAR0 map (R71). -/
def bGLB : Nat := 0
def bPLT : Nat := 1
def bFLT : Nat := 2
def bSEC : Nat := 3
def bHQE : Nat := 4
def bEVC : Nat := 5
def bDMA : Nat := 6
def bMEM : Nat := 7
def bBPM : Nat := 8
def bSWC : Nat := 9
def bTMG : Nat := 10
def bPRT : Nat := 11
def bCAS : Nat := 12
def bMSC : Nat := 13
def bCMP : Nat := 14
def bASM : Nat := 15
def bLAN : Nat := 16

/-! ### Unit headers (R58 to R61) -/

def blockKey (b : Nat) : Nat := b
def laneKey (l : Nat) : Nat := 32 + l
def portKey (p : Nat) : Nat := 128 + p
def dmaKey (c : Nat) : Nat := 384 + c
def chanKey (c : Nat) : Nat := 448 + c
def linkKey (l : Nat) : Nat := 480 + l

/-- The key of a unit's header. -/
def unitKey : UnitId → Nat
  | .block i => blockKey i.val
  | .lane l => laneKey l.val
  | .port p => portKey p.val
  | .dma c => dmaKey c.val
  | .chan c => chanKey c.val
  | .link l => linkKey l.val

/-- The block a unit key belongs to. -/
def blockOf (k : Nat) : Nat :=
  if k < 32 then k else if k < 128 then bLAN else if k < 384 then bPRT
  else if k < 448 then bDMA else if k < 480 then bMEM else bCAS

def State.unit (s : State) (k : Nat) : UnitHdr := Tbl.get {} s.units k
def State.setUnit (s : State) (k : Nat) (h : UnitHdr) : State := { s with units := Tbl.put s.units k h }

/-- RUNNING of a unit's header. -/
def State.running (s : State) (k : Nat) : Bool := (s.unit k).running

/-- An ignored static write counted on a header (R58, R59). -/
def State.ignw (s : State) (k : Nat) : State :=
  s.setUnit k { s.unit k with ignwFlag := true, ignw := satAdd (s.unit k).ignw 1 0xFFFF }

/-- A rejected boundary-applied write counted on a header (R39, R58). -/
def State.oob (s : State) (k : Nat) : State :=
  s.setUnit k { s.unit k with oobFlag := true, oob := satAdd (s.unit k).oob 1 0xFFFF }

/-! ### Module health (R72) -/

/-- A bit of GLB_HEALTH set; the bits clear only at module reset. -/
def State.setHealth (s : State) (bit : Nat) : State :=
  { s with glb := { s.glb with health := if tb s.glb.health bit then s.glb.health else s.glb.health + 2 ^ bit } }

def hREPLACE : Nat := 0
def hLANE : Nat := 1
def hPORT : Nat := 2
def hCASCADE : Nat := 3
def hDRAMPAGE : Nat := 4
def hDRAMCHAN : Nat := 5
def hPIPE : Nat := 6
def hSAFE : Nat := 7
def hFALLBACK : Nat := 8
def hDETACHED : Nat := 9
def hSP : Nat := 10

/-! ### Context records (R68, R89): little-endian fields at an offset of a 256-byte record -/

/-- A stored byte of a record; one never written reads 0. (DESIGN CHOICE, log 6.) -/
def State.ctxByte (s : State) (r off : Nat) : Byte := Tbl.get 0 s.ctx (r * 256 + off)

/-- The little-endian field of `n` bytes at `off` of record `r`. -/
def State.cf (s : State) (r off : Nat) : Nat → Nat
  | 0 => 0
  | n + 1 => (s.ctxByte r off).toNat + 256 * State.cf s r (off + 1) n

/-- Bytes written into the context-record store from key `k` on. -/
def ctxWrite (t : Tbl Byte) (k : Nat) : Bytes → Tbl Byte
  | [] => t
  | b :: r => ctxWrite (Tbl.set 0 t k b) (k + 1) r

def State.setCtx (s : State) (r off : Nat) (b : Bytes) : State :=
  { s with ctx := ctxWrite s.ctx (r * 256 + off) b }

/-- The field of `n` bytes at `off` of record `r` made `v`. -/
def State.setCf (s : State) (r off n v : Nat) : State := s.setCtx r off (leBytes n v)

/-- A counter field of a record raised by `k`; wide counters wrap at their field's width. -/
def State.incCf (s : State) (r off n k : Nat) : State := s.setCf r off n (wrapAdd (s.cf r off n) k (8 * n))

/-- The 256 bytes of a record as they are stored. -/
def State.ctxImage (s : State) (r : Nat) : Bytes := (List.range 256).map (fun i => s.ctxByte r i)

/-- A byte of a record as it reads: the private state of lane or firmware stands over the stored bytes from 0xC0 on (R89, R90, R162).
(DEDUCED, log 89.) -/
def State.recByte (s : State) (r off : Nat) : Byte :=
  if 0xC0 ≤ off then
    match Tbl.find s.msc.carry r with
    | some n => Config.codedByte n off
    | none => s.ctxByte r off
  else s.ctxByte r off

/-- The 256 bytes of a record as they read. -/
def State.recordImage (s : State) (r : Nat) : Bytes := (List.range 256).map (fun i => s.recByte r i)

/-- The little-endian word at `off` of a record as it reads. -/
def State.recWord (s : State) (r off : Nat) : Nat := leNat ((List.range 4).map (fun i => s.recByte r (off + i)))

/-- The private state of a record written anew: its layout is private, and each byte is free (R89). (DEDUCED, log 89.) -/
def State.drawCarry (s : State) (r : Nat) : State :=
  { s with msc := { s.msc with carry := Tbl.put s.msc.carry r s.free }, free := s.free + 1 }

/-- A record without private state: one that an open has taken (R68). -/
def State.noCarry (s : State) (r : Nat) : State := { s with msc := { s.msc with carry := Tbl.del s.msc.carry r } }

/-- The private state of a record as stored bytes, for a write into it. -/
def State.storeCarry (s : State) (r : Nat) : State :=
  match Tbl.find s.msc.carry r with
  | some _ => (s.setCtx r 0xC0 ((s.recordImage r).drop 0xC0)).noCarry r
  | none => s

/-! ### Module memory (R354): bytes by module address -/

def memGet (t : Tbl Byte) (a : Nat) : Nat → Bytes
  | 0 => []
  | n + 1 => Tbl.get 0 t a :: memGet t (a + 1) n

def memPut (t : Tbl Byte) (a : Nat) : Bytes → Tbl Byte
  | [] => t
  | b :: r => memPut (Tbl.set 0 t a b) (a + 1) r

/-- The end of the usable range (R353, R354): 30 GiB, or 28.125 GiB with a channel left out. -/
def State.memEnd (s : State) : Nat := if s.mem.degraded.isSome then 0x708000000 else 0x780000000

/-- `n` bytes of module memory from `a`. (DESIGN CHOICE, log 6.) -/
def State.dram (s : State) (a n : Nat) : Bytes := memGet s.mem.dram a n

/-- Some byte of the range lies in a poisoned block (R364). -/
def State.poisoned (s : State) (a n : Nat) : Bool :=
  s.mem.poison.any (fun e => decide (a / 32 ≤ e.1) && decide (e.1 ≤ (a + n - 1) / 32))

end Sys2Proof.Machine
end

