-- ==== Sys2Proof/Machine/Events.lean ====
section
/-! DEFINITION. Event queues of the host (R381, R382) and the event concentrator (R395 to R402): assertion,
assignment to a target, posting, claim, complete and thaw. -/

namespace Sys2Proof.Machine

open Sys2Proof

/-! ### Names (R395): the source number of each event and its name code -/

inductive Ev where
  | pltPwrAbort | pltWake | pltPfail | pltPfailEnd | pltResumeCold | pltHoldupFault
  | secBootFallback | secDebugUnlock | secDebugFail | secKeyMissing | secWmMismatch
  | hqeRingErr | hqeAttached | eqOverflow | hqeDetached
  | evcOrder | dmaDone (c : Nat) | dmaBuserr
  | bpmPoolWarn | bpmPoolBp | bpmPoolEmpty | bpmDoubleFree | bpmOwner | bpmCellUe
  | memHot | memCool | memRetire | memRetireFull | memUe | memRange | memTrainFail | memChanFail
  | swcPauseStorm | swcLaybyPrune | swcSeqGap | swcHeadroom
  | tmgFitForced
  | casReplayFail | casLinkDown | casTimeHoldover | casTimeStep | casLaneOut | casMiswire
  | mscRasterLost | mscSuspend | mscResume | mscRelock | mscFamilyPhase | mscFamilyBudget | mscJobtabFull
  | mscCapacity | mscOverload | rowAbandoned
  | cmpSrcPoison | cmpPipeFault
  | asmRtxPressure | asmInUnsupp
  | erelmHello | erelmOpen | erelmRefused | erelmFail | erelmReopen | erelmClose | erelmTagFail | erelmEpFault
  | cpuSpLost | cpuSvpWdog
  | lane (l k : Nat)
  | portLink (p : Nat) (up : Bool) | portMargin (p : Nat) | portRetrain (p : Nat) | portDegraded (p : Nat)
  deriving DecidableEq, Repr

/-- The source number (R395) and the number of the name, from which `Config.eventCode` gives the code. (DEDUCED, log 88.) -/
def Ev.num : Ev → Nat × Nat
  | .pltPwrAbort => (0x001, 1) | .pltWake => (0x002, 2) | .pltPfail => (0x003, 3) | .pltPfailEnd => (0x004, 4)
  | .pltResumeCold => (0x005, 5) | .pltHoldupFault => (0x006, 6)
  | .secBootFallback => (0x007, 7) | .secDebugUnlock => (0x008, 8) | .secDebugFail => (0x009, 9)
  | .secKeyMissing => (0x00A, 10) | .secWmMismatch => (0x00B, 11)
  | .hqeRingErr => (0x100, 12) | .hqeAttached => (0x101, 13) | .eqOverflow => (0x102, 14)
  | .hqeDetached => (0x103, 15)
  | .evcOrder => (0x120, 16) | .dmaDone c => (0x140 + c, 17) | .dmaBuserr => (0x160, 18)
  | .bpmPoolWarn => (0x200, 19) | .bpmPoolBp => (0x201, 20) | .bpmPoolEmpty => (0x202, 21)
  | .bpmDoubleFree => (0x203, 22) | .bpmOwner => (0x204, 23) | .bpmCellUe => (0x205, 24)
  | .memHot => (0x240, 25) | .memCool => (0x241, 26) | .memRetire => (0x242, 27) | .memRetireFull => (0x243, 28)
  | .memUe => (0x244, 29) | .memRange => (0x245, 30) | .memTrainFail => (0x246, 31) | .memChanFail => (0x247, 32)
  | .swcPauseStorm => (0x300, 33) | .swcLaybyPrune => (0x301, 34) | .swcSeqGap => (0x302, 35)
  | .swcHeadroom => (0x303, 36)
  | .tmgFitForced => (0x320, 37)
  | .casReplayFail => (0x340, 38) | .casLinkDown => (0x341, 39) | .casTimeHoldover => (0x342, 40)
  | .casTimeStep => (0x343, 41) | .casLaneOut => (0x344, 42) | .casMiswire => (0x345, 43)
  | .mscRasterLost => (0x400, 44) | .mscSuspend => (0x401, 45) | .mscResume => (0x402, 46)
  | .mscRelock => (0x403, 47) | .mscFamilyPhase => (0x404, 48) | .mscFamilyBudget => (0x405, 49)
  | .mscJobtabFull => (0x406, 50) | .mscCapacity => (0x407, 51) | .mscOverload => (0x408, 52)
  | .rowAbandoned => (0x409, 53)
  | .cmpSrcPoison => (0x420, 54) | .cmpPipeFault => (0x421, 55)
  | .asmRtxPressure => (0x440, 56) | .asmInUnsupp => (0x441, 57)
  | .erelmHello => (0x460, 58) | .erelmOpen => (0x461, 59) | .erelmRefused => (0x462, 60)
  | .erelmFail => (0x463, 61) | .erelmReopen => (0x464, 62) | .erelmClose => (0x465, 63)
  | .erelmTagFail => (0x466, 64) | .erelmEpFault => (0x467, 65)
  | .cpuSpLost => (0x480, 66) | .cpuSvpWdog => (0x481, 67)
  | .lane l k => (0x500 + 16 * l + k, 70 + k)
  | .portLink p up => (0x900 + 4 * p, if up then 90 else 91)
  | .portMargin p => (0x901 + 4 * p, 92) | .portRetrain p => (0x902 + 4 * p, 93)
  | .portDegraded p => (0x903 + 4 * p, 94)

/-- The level sources (R396): the three pool states and the retransmit pressure. (DEDUCED, log 55.) -/
def isLevel (src : Nat) : Bool := src == 0x200 || src == 0x201 || src == 0x202 || src == 0x440

/-! ### Writes to host memory -/

/-- Bytes written to host memory, while Bus Master Enable is 1 (R387). -/
def State.toHost (s : State) (addr : Nat) (b : Bytes) : State :=
  if s.hqe.bme then s.emit (.hostWrite addr b) else s

/-- An MSI-X message, while Bus Master Enable is 1. (DESIGN CHOICE, log 95.) -/
def State.msix (s : State) (v : Nat) : State := if s.hqe.bme then s.emit (.msix v) else s

/-! ### Event queues (R381, R382) -/

def State.eq (s : State) (q : Nat) : EvQ := Tbl.get {} s.hqe.eqs q
def State.setEq (s : State) (q : Nat) (e : EvQ) : State :=
  { s with hqe := { s.hqe with eqs := Tbl.put s.hqe.eqs q e } }

def RingPh.code : RingPh → Nat
  | .free => 0
  | .run => 1
  | .stopped => 2
  | .held => 3

/-- The event queue's status record, laid out as R381 says. -/
def eqStatus (q : Nat) (e : EvQ) : Bytes :=
  leBytes 2 q ++ leBytes 1 e.ph.code ++ leBytes 1 3 ++ leBytes 4 e.posted.toNat ++ zeros 4 ++
  leBytes 4 e.db.toNat ++ zeros 4 ++ leBytes 4 e.lost ++ zeros 4 ++ leBytes 4 e.updates ++
  leBytes 8 e.time ++ zeros 24

/-- The status record of queue `q` written (R380, R381). -/
def State.eqStat (s : State) (q : Nat) : State :=
  if s.hqe.bme then
    let e := { s.eq q with updates := wrapAdd (s.eq q).updates 1 32, time := s.ns }
    (s.setEq q e).toHost e.srBase (eqStatus q e)
  else s

/-- The coalescing register pair of queue `q` (R391): shadow, and active at + 4. -/
def coalAddr (q : Nat) : Nat := 0x408000 + 8 * q
def State.coalAct (s : State) (q : Nat) : Nat := (Tbl.get 1 s.regs (coalAddr q + 4)).toNat

/-- Records posted and not consumed. -/
def EvQ.unread (e : EvQ) : Nat := serial32 e.posted.toNat e.db.toNat

/-- An armed queue signals its vector, and is disarmed, when COUNT records wait or TIME has passed (R382). -/
def State.eqSignal (s : State) (q : Nat) : State :=
  let e := s.eq q
  let a := s.coalAct q
  let due := match e.firstAt with
    | none => false
    | some t => decide (t + fld a 8 16 * us ≤ s.ns)
  if e.armed && decide (0 < e.unread) && (decide (fld a 0 8 ≤ e.unread) || due) then
    (s.setEq q { e with armed := false }).msix q
  else s

/-- An event lost at queue `q` (R382, R387). -/
def State.eqLose (s : State) (q : Nat) : State :=
  let s := (s.setEq q { s.eq q with lost := wrapAdd (s.eq q).lost 1 32, lostNew := (s.eq q).lostNew + 1 }).bump bHQE 3
  let s := if s.hqe.attached then s else { s with hqe := { s.hqe with lostDetached := s.hqe.lostDetached + 1 } }
  s.eqStat q

/-- One record written at the next sequence (R381). -/
def State.eqWrite (s : State) (q src code context time detail : Nat) : State :=
  let e := s.eq q
  let n := e.posted + 1
  let r := leBytes 4 n.toNat ++ leBytes 2 src ++ leBytes 2 code ++ leBytes 4 context ++ zeros 4 ++
    leBytes 8 time ++ leBytes 8 detail
  let s := s.toHost (e.base + 32 * (n.toNat % e.size)) r
  let s := s.setEq q { e with posted := n, firstAt := some (e.firstAt.getD s.ns) }
  (s.bump bHQE 2).eqStat q

/-- The queue has room for a record and the module may write it. -/
def State.eqRoom (s : State) (q : Nat) : Bool := s.hqe.bme && decide ((s.eq q).unread < (s.eq q).size)

/-- When room returns, the first record posted is EQ_OVERFLOW with the count of lost events (R382). (DEDUCED, log 68.) -/
def State.eqOverflowRec (s : State) (q : Nat) : State :=
  if decide (0 < (s.eq q).lostNew) && s.eqRoom q then
    let n := (s.eq q).lostNew
    let s := s.setEq q { s.eq q with lostNew := 0 }
    s.eqWrite q (Ev.eqOverflow.num).1 (Config.eventCode (Ev.eqOverflow.num).2).toNat q s.ns n
  else s

/-- A record posted to queue `q` (R381, R382, R398). -/
def State.eqPost (s : State) (q src code context time detail : Nat) : State :=
  match (s.eq q).ph with
  | .run | .held =>
    let s := s.eqOverflowRec q
    if s.eqRoom q then (s.eqWrite q src code context time detail).eqSignal q else s.eqLose q
  | .free | .stopped =>
    let s := s.bump bHQE 3
    if s.hqe.attached then s else { s with hqe := { s.hqe with lostDetached := s.hqe.lostDetached + 1 } }

/-! ### Sources and targets (R396 to R399) -/

def State.src (s : State) (n : Nat) : EvSrc := Tbl.get {} s.evc.srcs n
def State.setSrc (s : State) (n : Nat) (e : EvSrc) : State :=
  { s with evc := { s.evc with srcs := Tbl.put s.evc.srcs n e } }
def State.tgt (s : State) (t : Nat) : EvTgt := Tbl.get {} s.evc.tgts t
def State.setTgt (s : State) (t : Nat) (e : EvTgt) : State :=
  { s with evc := { s.evc with tgts := Tbl.put s.evc.tgts t e } }

/-- The route word as written, and as it governs the source: a write takes effect at the next assertion (R403). -/
def State.routeWord (s : State) (n : Nat) : Nat := (Tbl.get 0 s.evc.route n).toNat
def State.route (s : State) (n : Nat) : Nat := if (s.src n).ph = .idle then s.routeWord n else (s.src n).rt
def State.prio (s : State) (n : Nat) : Nat := fld (s.route n) 28 4

def tgtCfgAddr (t : Nat) : Nat := 0x501000 + 32 * t
def State.tgtCfg (s : State) (t : Nat) : Nat := (Tbl.get 0 s.regs (tgtCfgAddr t)).toNat
def State.tgtEn (s : State) (t : Nat) : Bool := tb (s.tgtCfg t) 31
/-- Claim mode: always for processor targets, by MODE for host targets (R398). -/
def State.tgtClaims (s : State) (t : Nat) : Bool := decide (t < 5) || tb (s.tgtCfg t) 30
/-- The current threshold: BASE_THR while the stack is empty (R399). -/
def State.tgtThr (s : State) (t : Nat) : Nat :=
  if (s.tgt t).stack.isEmpty then fld (s.tgtCfg t) 26 4 else (s.tgt t).thr

/-- Source `n` is eligible at target `t` (R399). -/
def State.eligible (s : State) (t n : Nat) : Bool :=
  decide ((s.src n).ph = .pending) && decide ((s.src n).target = some t) && decide (s.tgtThr t < s.prio n)

/-- The eligible source of the highest priority, the lowest number among equals (R400). -/
def State.best (s : State) (t : Nat) : Option Nat :=
  s.evc.srcs.foldl (fun b e =>
    if s.eligible t e.1 then
      match b with
      | none => some e.1
      | some m => if s.prio m < s.prio e.1 then some e.1 else some m
    else b) none

/-- Where a pending source goes: round robin in its mask (compact), or its one target (banked) (R397). -/
def State.chooseTgt (s : State) (n : Nat) : Option Nat :=
  if s.evc.banked then some (fld (s.route n) 0 5)
  else
    let ok := fun t => tb (s.route n) t && s.tgtEn t && !(s.tgt t).frozen
    let order := (List.range 8).map (fun i => ((s.src n).last + 1 + i) % 8)
    order.find? ok

/-- A host target in claim mode signals its vector for a source that became eligible above every earlier one. -/
def State.signalNew (s : State) (t n : Nat) : State :=
  if decide (5 ≤ t) && s.tgtEn t && s.eligible t n &&
     !(s.evc.srcs.any (fun e => decide (e.1 ≠ n) && s.eligible t e.1 && decide (s.prio n ≤ s.prio e.1))) then
    s.msix (fld (s.tgtCfg t) 0 11)
  else s

/-- Delivery of a pending, assigned source: posted by a queue-mode target, signalled by a claim-mode one (R398). -/
def State.deliver (s : State) (t n : Nat) : State :=
  if s.tgtClaims t then s.signalNew t n
  else if s.tgtEn t && !(s.tgt t).frozen && decide (0 < s.prio n) then
    let e := s.src n
    let s := s.setSrc n { e with ph := .idle, target := none }
    (s.bump bEVC 7).eqPost (fld e.rt 16 11) n e.code e.context e.time e.detail
  else s

/-- A pending source assigned, or counted in UNROUTED (R397). -/
def State.assign (s : State) (n : Nat) : State :=
  match s.chooseTgt n with
  | some t =>
    (s.setSrc n { s.src n with target := some t, last := t, unrouted := false }).deliver t n
  | none =>
    if (s.src n).unrouted then s
    else (s.setSrc n { s.src n with target := none, unrouted := true }).bump bEVC 6

/-- An idle source made pending with the particulars of its assertion. -/
def State.makePending (s : State) (n code context detail : Nat) : State :=
  (s.setSrc n { s.src n with ph := .pending, rt := s.routeWord n, code := code, context := context, detail := detail, time := s.ns }).assign n

/-- An edge at a source that is pending, or pending again while in service: one delivery is left of the two (R396). -/
def State.mergeEdge (s : State) (n code context detail : Nat) : State :=
  let e := { s.src n with merged := satAdd (s.src n).merged 1 0xFFFF }
  let e := if Config.mergeLater s.free then
      { e with code := code, context := context, detail := detail, time := s.ns } else e
  ((s.setSrc n e).draw).bump bEVC 1

/-- Assertion of a source (R396). -/
def State.assertSrc (s : State) (n code context detail : Nat) : State :=
  if n = 0 then s
  else
    let s := s.bump bEVC 0
    let e := s.src n
    if isLevel n then
      let s := s.setSrc n { e with asserted := true, code := code, context := context, detail := detail, time := s.ns }
      if e.asserted then s
      else match e.ph with
        | .idle => s.makePending n code context detail
        | .pending | .inService => s
    else match e.ph with
      | .idle => s.makePending n code context detail
      | .pending => s.mergeEdge n code context detail
      | .inService =>
        if e.again then s.mergeEdge n code context detail
        else s.setSrc n { e with again := true, code := code, context := context, detail := detail, time := s.ns }

/-- De-assertion of a level source: a pending one returns to idle (R396). -/
def State.deassertSrc (s : State) (n : Nat) : State :=
  if isLevel n then
    let e := s.src n
    match e.ph with
    | .pending => s.setSrc n { e with asserted := false, ph := .idle, target := none, unrouted := false }
    | .idle | .inService => s.setSrc n { e with asserted := false }
  else s

/-- An event raised by name: the context concerned (0xFFFF_FFFF if none) and the detail. -/
def State.event (s : State) (e : Ev) (context detail : Nat) : State :=
  s.assertSrc e.num.1 (Config.eventCode e.num.2).toNat context detail

def noCtx : Nat := 0xFFFFFFFF

/-- The pending sources, highest priority first and then in ascending number (R398). -/
def State.pendingOrder (s : State) : List Nat :=
  let l := (s.evc.srcs.filter (fun e => decide (e.2.ph = .pending))).map Prod.fst
  (List.range 16).reverse.flatMap (fun p => l.filter (fun n => s.prio n == p))

/-- Sources without an enabled target are assigned again, and waiting ones delivered, after a change of the
targets (R397). -/
def State.reassign (s : State) : State :=
  s.pendingOrder.foldl (fun s n =>
    if (s.src n).ph = .pending then
      match (s.src n).target with
      | none => s.assign n
      | some t => if s.evc.banked || s.tgtEn t then (if s.tgtClaims t then s else s.deliver t n) else s.assign n
    else s) s

/-- A source out of service: idle, or pending again where an edge waits or the level is still asserted (R401). -/
def State.release (s : State) (n : Nat) : State :=
  let e := s.src n
  let again := if isLevel n then e.asserted else e.again
  if again then
    (s.setSrc n { e with ph := .pending, again := false, target := none, rt := s.routeWord n }).assign n
  else s.setSrc n { e with ph := .idle, again := false, target := none }

/-- A host target in claim mode signals when a complete leaves an eligible source (R399). -/
def State.signalLeft (s : State) (t : Nat) : State :=
  if decide (5 ≤ t) && s.tgtEn t && s.tgtClaims t && (s.best t).isSome then s.msix (fld (s.tgtCfg t) 0 11) else s

end Sys2Proof.Machine
end

