-- ==== Sys2Proof/Machine/Faults.lean ====
section
/-! DEFINITION. The fault collector (R449 to R457): a raise with its reactions, an outcome decided later, the
fault log, the contacts FAULT_N and REPLACE_N, and the safe state. A reaction that resets (BLOCK_RESET,
MODULE_RESET) is noted in State and taken by `settle` at the end of the command (Boot.lean). -/

namespace Sys2Proof.Machine

open Sys2Proof

/-! ### Sources (R449) -/

def fLaneMchk : Nat := 1
def fLaneBadJob : Nat := 2
def fLaneLsfUe : Nat := 3
def fLaneSliceStall : Nat := 4
def fLaneGolden : Nat := 5
def fCmpPipe : Nat := 6
def fBpmDoubleFree : Nat := 7
def fBpmOwner : Nat := 8
def fBpmCellUe : Nat := 9
def fMemUe : Nat := 10
def fMemRange : Nat := 11
def fMemTrainFail : Nat := 12
def fMemChanFail : Nat := 13
def fPrtDegraded : Nat := 14
def fCasLaneOut : Nat := 15
def fCasMiswire : Nat := 16
def fHqeDetached : Nat := 17
def fEvcOrder : Nat := 18
def fDmaBuserr : Nat := 19
def fCpuSpLost : Nat := 20
def fCpuSvpWdog : Nat := 21
def fPltHoldup : Nat := 22
def fRowAbandoned : Nat := 23

/-- The default reactions of a source, as the bits of FLT_SRCs_CFG (R449, R461): REPLACE 8, LASTING_ONLY 7,
EVENT 4, NMI 3, BLOCK_RESET 2, MODULE_RESET 1, PIN 0. -/
def fltCfgReset (src : Nat) : Nat :=
  let ev := 2 ^ 4
  let nmi := 2 ^ 3
  let pin := 1
  let lpin := 2 ^ 7 + 1
  let rep := 2 ^ 8
  if src = 1 ∨ src = 5 ∨ src = 20 then ev + nmi + lpin + rep
  else if src = 6 ∨ src = 12 ∨ src = 13 ∨ src = 15 then ev + lpin + rep
  else if src = 4 ∨ src = 11 ∨ src = 18 ∨ src = 19 then ev + nmi
  else if src = 16 ∨ src = 22 then ev + pin
  else if src = 21 then 2 ^ 1 + pin
  else if 1 ≤ src ∧ src ≤ 23 then ev
  else 0

def fltCfgAddr (src : Nat) : Nat := 0x201000 + 16 * src

/-- FLT_SRCs_CFG as it stands. -/
def State.fltCfg (s : State) (src : Nat) : Nat :=
  (Tbl.get (w32 (fltCfgReset src)) s.regs (fltCfgAddr src)).toNat

def State.fltSrc (s : State) (n : Nat) : FltSrc := Tbl.get {} s.flt.srcs n
def State.setFltSrc (s : State) (n : Nat) (f : FltSrc) : State :=
  { s with flt := { s.flt with srcs := Tbl.put s.flt.srcs n f } }

/-- How a source reports its raise (R449): lasting at once, pending for a mechanism to decide, or none. (DEDUCED, log 73.) -/
def raiseOutcome (src : Nat) : FltOut :=
  if src = 1 ∨ src = 4 ∨ src = 6 then .pending
  else if 1 ≤ src ∧ src ≤ 23 then .lasting
  else .none

/-- The EVC source that a fault's EVENT reaction asserts (R395, R450). -/
def fltEvent (src unit : Nat) : Option Ev :=
  match src with
  | 1 => some (.lane unit 0) | 2 => some (.lane unit 1) | 3 => some (.lane unit 2) | 4 => some (.lane unit 3)
  | 5 => some (.lane unit 6) | 6 => some .cmpPipeFault | 7 => some .bpmDoubleFree | 8 => some .bpmOwner
  | 9 => some .bpmCellUe | 10 => some .memUe | 11 => some .memRange | 12 => some .memTrainFail
  | 13 => some .memChanFail | 14 => some (.portDegraded unit) | 15 => some .casLaneOut | 16 => some .casMiswire
  | 17 => some .hqeDetached | 18 => some .evcOrder | 19 => some .dmaBuserr | 20 => some .cpuSpLost
  | 21 => some .cpuSvpWdog | 22 => some .pltHoldupFault | 23 => some .rowAbandoned
  | _ => none

/-- The units that BLOCK_RESET resets: the unit named, or, where none is named (0xFFFF), all units of the owning block (R450). -/
def fltUnits (src unit : Nat) : List Nat :=
  let named := decide (unit ≠ 0xFFFF)
  if src ≤ 5 then (if named then [laneKey unit] else (List.range 64).map laneKey)
  else if src = 6 then [bCMP] else if src ≤ 9 then [bBPM] else if src ≤ 11 then [bMEM]
  else if src ≤ 13 then (if named then [chanKey unit] else [bMEM])
  else if src = 14 then (if named then [portKey unit] else (List.range 256).map portKey)
  else if src = 15 ∨ src = 16 then (if named then [linkKey (unit % 4)] else (List.range 3).map linkKey)
  else if src = 17 then [bHQE] else if src = 18 then [bEVC] else if src = 19 then [bDMA]
  else if src = 22 then [bPLT] else if src = 23 then [bMSC] else []

/-! ### The fault log (R457) -/

/-- A record appended to those that firmware keeps until the next flush, within 1 s. -/
def State.logFault (s : State) (boot src outcome flags detail : Nat) : State :=
  let r : LogRec := { seq := s.flt.nextSeq, boot := boot, time := s.ns, source := src, outcome := outcome,
                      flags := flags, detail := detail }
  { s with flt := { s.flt with pendingLog := s.flt.pendingLog ++ [r], nextSeq := wrapAdd s.flt.nextSeq 1 32,
                               flushDue := some (s.flt.flushDue.getD (s.ns + oneSec)) } }

/-- Starts from step 1 of R430 since the module was made: PLT counter 5. -/
def State.bootCount (s : State) : Nat := s.cntOf bPLT 0 5

/-! ### Contacts (R456) -/

/-- REPLACE_N asserted: it stays so until module reset, and GLB_HEALTH.REPLACE mirrors it. -/
def State.assertReplace (s : State) : State :=
  ({ s with flt := { s.flt with replaceN := true } }).setHealth hREPLACE

/-- Some PIN_LATCH is 1. -/
def State.anyPin (s : State) : Bool := s.flt.srcs.any (fun e => e.2.pinLatch)
/-- FAULT_N is driven low. -/
def State.faultN (s : State) : Bool := s.flt.safe || s.plt.recovery || s.anyPin

/-! ### Raises and outcomes (R450, R451) -/

/-- The flags of a record (R457): FORCED, MAPPED_OUT (sources whose lasting outcome maps a unit out, R455), REPLACE. -/
def logFlags (src cfg : Nat) (forced lasting : Bool) : Nat :=
  b2n forced + (if lasting && !forced && [1, 5, 6, 10, 14, 15, 20].contains src then 2 else 0) +
  (if lasting && !forced && tb cfg 8 then 4 else 0)

/-- The reactions that reset or hold the pin, taken now. -/
def State.react (s : State) (src unit cfg : Nat) : State :=
  let s := if tb cfg 2 then { s with flt := { s.flt with unitResets := s.flt.unitResets ++ fltUnits src unit } } else s
  let s := if tb cfg 1 then { s with flt := { s.flt with resetReq := true } } else s
  if tb cfg 0 then s.setFltSrc src { s.fltSrc src with pinLatch := true } else s

/-- A raise (R451). `unit` and `part` form DETAIL; `forced` marks a write to FLT_SRCn_FORCE. -/
def State.raiseWith (s : State) (src unit part : Nat) (forced : Bool) : State :=
  let cfg := s.fltCfg src
  let detail := if forced then 0xFFFFFFFF else fld unit 0 16 + fld part 0 16 * 2 ^ 16
  let out := raiseOutcome src
  let f := s.fltSrc src
  let s := s.setFltSrc src { f with sticky := true, forced := forced, outcome := out,
                                    count := satAdd f.count 1 0xFFFF, detail := w32 detail }
  let s := s.logFault s.bootCount src 0 (b2n forced) detail
  let s := if out = .lasting then s.logFault s.bootCount src 2 (logFlags src cfg forced true) detail else s
  let s := if tb cfg 4 then
      match fltEvent src unit with
      | some e => s.event e (if forced then noCtx else unit) detail
      | none => s
    else s
  let full := forced || !(tb cfg 7) || decide (out = .lasting)
  let s := if tb cfg 3 && !(full && tb cfg 1) then s.emit (.nmi src) else s
  let s := if full then s.react src unit cfg else s
  if decide (out = .lasting) && tb cfg 8 && !forced then s.assertReplace else s

def State.raise (s : State) (src unit part : Nat) : State := s.raiseWith src unit part false

/-- An outcome that a mechanism decides after the raise (R449, R450, R453). -/
def State.decideFault (s : State) (src unit : Nat) (lasting : Bool) : State :=
  let cfg := s.fltCfg src
  let f := s.fltSrc src
  let s := s.setFltSrc src { f with outcome := if lasting then .lasting else .transient }
  let s := s.logFault s.bootCount src (if lasting then 2 else 1)
    (logFlags src cfg f.forced lasting) f.detail.toNat
  if lasting then
    let s := if tb cfg 7 then s.react src unit cfg else s
    if tb cfg 8 && !f.forced then s.assertReplace else s
  else s

/-! ### The safe state (R454) -/

/-- FLT's two copies differ: the safe state, without consulting any configuration. -/
def State.enterSafe (s : State) : State :=
  let s := { s with flt := { s.flt with safe := true, mismatch := true } }
  (s.setHealth hSAFE).logFault s.bootCount 0x8000 0 0 0

end Sys2Proof.Machine
end

