-- ==== Sys2Proof/Machine/Bpm.lean ====
section
/-! DEFINITION. The buffer pool manager (R339 to R352): handles, the operations of R342, thresholds, the log of
rejected operations, and the choice of a cell's bank (R270). -/

namespace Sys2Proof.Machine

open Sys2Proof

/-! ### Handles (R340) -/

def nullHandle : W32 := 0xFFFFFFFF
def hPool (h : W32) : Nat := fld h.toNat 26 6
def hGen (h : W32) : Nat := fld h.toNat 19 7
def hIdx (h : W32) : Nat := fld h.toNat 0 19
def mkHandle (pool gen idx : Nat) : W32 := w32 (pool % 64 * 2 ^ 26 + gen % 128 * 2 ^ 19 + idx % 2 ^ 19)

/-- The key of buffer `idx` of pool `p`. -/
def bufKey (p idx : Nat) : Nat := p * 2 ^ 19 + idx
def hKey (h : W32) : Nat := bufKey (hPool h) (hIdx h)

def State.buf (s : State) (k : Nat) : Buf := Tbl.get {} s.bpm.bufs k
def State.setBuf (s : State) (k : Nat) (b : Buf) : State :=
  { s with bpm := { s.bpm with bufs := Tbl.put s.bpm.bufs k b } }
def State.pool (s : State) (p : Nat) : Pool := Tbl.get {} s.bpm.pools p
def State.setPool (s : State) (p : Nat) (x : Pool) : State :=
  { s with bpm := { s.bpm with pools := Tbl.put s.bpm.pools p x } }
def State.poolDefined (s : State) (p : Nat) : Bool := (Tbl.find s.bpm.pools p).isSome

/-- Pool types (R339): 0 CELL, 1 SLICE, 2 FRAME, 3 MISC. -/
def tCELL : Nat := 0
def tSLICE : Nat := 1
def tFRAME : Nat := 2
def tMISC : Nat := 3

def State.isFrame (s : State) (h : W32) : Bool := decide ((s.pool (hPool h)).cfg.type = tFRAME)

/-- The handle carries a generation other than its buffer's, or names no buffer of its pool (R340). -/
def State.stale (s : State) (h : W32) : Bool :=
  decide ((s.buf (hKey h)).gen ≠ hGen h) || decide ((s.pool (hPool h)).cfg.count ≤ hIdx h)

/-! ### Agents (R341) -/

def aLane (l : Nat) : Nat := 0x01 + l
def aPipe (p : Nat) : Nat := 0x41 + p
def aAsm (u : Nat) : Nat := 0x49 + u
def aHqe : Nat := 0x4D
def aDma : Nat := 0x4E
def aSp (i : Nat) : Nat := 0x51 + i
def aLink (i : Nat) : Nat := 0x58 + i
def aRepl : Nat := 0x5B
def aPortBlk (b : Nat) : Nat := 0x60 + b
def aMsc : Nat := 0x80
def aHost : Nat := 0xFF

def isLaneAgent (a : Nat) : Bool := decide (0x01 ≤ a) && decide (a ≤ 0x40)
def isPipeAgent (a : Nat) : Bool := decide (0x41 ≤ a) && decide (a ≤ 0x48)

/-- Marks (R147): 0 SHORT, 1 LONG, 2 DISPLAY_HOLD, 3 ENC_SOURCE, 4 COMPOSE_SRC. -/
def mSHORT : Nat := 0
def mLONG : Nat := 1
def mDISPLAY : Nat := 2
def mENCSRC : Nat := 3
def mCOMPOSE : Nat := 4

/-- The agents R148 names for setting a mark. -/
def mayMark (a m : Nat) : Bool :=
  if m ≤ 2 then isLaneAgent a else if m = 3 then decide (a = aMsc) else isPipeAgent a
/-- The agents R148 names for clearing a mark. -/
def mayClear (a m : Nat) : Bool := if m ≤ 3 then isLaneAgent a else isPipeAgent a

/-! ### Thresholds (R345) -/

/-- The sources of the pool states de-assert when no pool is left in the state (R396). -/
def State.poolLevels (s : State) : State :=
  let s := if s.bpm.pools.any (fun e => e.2.warnOn) then s else s.deassertSrc 0x200
  let s := if s.bpm.pools.any (fun e => e.2.bpOn) then s else s.deassertSrc 0x201
  if s.bpm.pools.any (fun e => e.2.emptyOn) then s else s.deassertSrc 0x202

/-- The free count compared with the three thresholds, after an allocation or a free. -/
def State.thresholds (s : State) (p : Nat) : State :=
  let x := s.pool p
  let c := x.cfg
  let low := decide (x.free ≤ c.warn)
  let bp := decide (x.free ≤ c.bp)
  let empty := decide (x.free = 0)
  let x' := { x with
    low := min x.low x.free
    warnOn := low || (x.warnOn && decide (x.free ≤ c.warn + c.warn / 8))
    bpOn := bp
    emptyOn := empty || (x.emptyOn && decide (x.free ≤ c.reserve)) }
  let s := s.setPool p x'
  let s := if low && !x.warnOn then s.event .bpmPoolWarn noCtx p else s
  let s := if bp && !x.bpOn then s.event .bpmPoolBp noCtx p else s
  let s := if empty && !x.emptyOn then s.event .bpmPoolEmpty noCtx p else s
  s.poolLevels

/-! ### Rejected operations (R348 to R350) -/

def oALLOC : Nat := 0
def oINC : Nat := 1
def oPIN : Nat := 2
def oDEC : Nat := 3
def oFREE : Nat := 4
def oXFER : Nat := 5
def oSETMARK : Nat := 6
def oCLRMARK : Nat := 7

/-- An entry of the log: KIND 1 DOUBLE_FREE, 2 OWNER. A full log loses it, and SEQ still advances. (DESIGN CHOICE, log 33.) -/
def State.bpmLogAdd (s : State) (kind op agent : Nat) (h : W32) : State :=
  let b := s.buf (hKey h)
  let q := (s.bpm.logSeq + 1) % 256
  let e : BpmLog := { kind := kind, op := op, agent := agent, owner := if b.alloc then b.owner else 0, seq := q,
                      handle := h, time := s.ns % 2 ^ 32, gen := b.gen }
  if s.bpm.log.length < 64 then
    { s with bpm := { s.bpm with log := s.bpm.log ++ [e], logSeq := q } }
  else { s with bpm := { s.bpm with logLost := satAdd s.bpm.logLost 1 0xFFFF, logSeq := q } }

def State.doubleFree (s : State) (op agent : Nat) (h : W32) : State :=
  ((s.bpmLogAdd 1 op agent h).bump bBPM 3).raise fBpmDoubleFree agent (hPool h)

def State.wrongOwner (s : State) (op agent : Nat) (h : W32) : State :=
  ((s.bpmLogAdd 2 op agent h).bump bBPM 4).raise fBpmOwner agent (hPool h)

/-! ### Allocation (R342, R345 to R347) -/

/-- Allocated cells of each bank. -/
def State.bankUse (s : State) (bank : Nat) : Nat :=
  (s.bpm.bufs.filter (fun e => decide (e.1 < 2 ^ 19) && decide (e.1 % 32 = bank) && e.2.alloc)).length

/-- The bank with the most free slots; ties go to the lowest number after the bank given out first in the
previous cell time (R270). The model gives one cell a cell time. -/
def State.chooseBank (s : State) : Nat :=
  let order := (List.range 32).map (fun i => (s.bpm.lastBank + 1 + i) % 32)
  order.foldl (fun b x => if s.bankUse x < s.bankUse b then x else b) (order.headD 0)

/-- The index of a free buffer of pool `p` (R342: a free buffer; which one is free). -/
def State.freeIdx (s : State) (p : Nat) : Option Nat :=
  let n := (s.pool p).cfg.count
  let ok := fun i => !(s.buf (bufKey p i)).alloc
  if p = 0 then
    let b := s.chooseBank
    let k := n / 32
    match firstFrom (fun i => ok ((Config.allocFrom s.free + i) % (max k 1) * 32 + b)) 0 (max k 1) with
    | some i => some ((Config.allocFrom s.free + i) % (max k 1) * 32 + b)
    | none => firstFrom ok 0 n
  else
    match firstFrom (fun i => ok ((Config.allocFrom s.free + i) % (max n 1))) 0 n with
    | some i => some ((Config.allocFrom s.free + i) % (max n 1))
    | none => none

/-- The pool is empty for the caller (R345, R347). -/
def State.emptyFor (s : State) (p : Nat) (reserved : Bool) : Bool :=
  !s.poolDefined p || decide ((s.pool p).free = 0) ||
    (!reserved && decide ((s.pool p).free ≤ (s.pool p).cfg.reserve))

/-- ALLOC: the handle of a buffer taken, or the null handle. -/
def State.alloc (s : State) (agent p n : Nat) (reserved : Bool) : State × W32 :=
  let no := ({ s with bpm := { s.bpm with lastHandle := nullHandle } }.bump bBPM 2, nullHandle)
  if s.emptyFor p reserved then no
  else
    match s.freeIdx p with
    | none => no
    | some i =>
      let x := s.pool p
      let b := s.buf (bufKey p i)
      let h := mkHandle p b.gen i
      let cnt := if x.cfg.type = tFRAME then 0 else n
      let s := s.setBuf (bufKey p i) { b with alloc := true, owner := agent, count := cnt, marks := 0 }
      let s := s.setPool p { x with free := x.free - 1 }
      let s := { s with bpm := { s.bpm with lastHandle := h, lastBank := if p = 0 then i % 32 else s.bpm.lastBank,
                                            frames := if x.cfg.type = tFRAME then Tbl.put s.bpm.frames (bufKey p i) { content := s.free }
                                              else s.bpm.frames } }
      let s := (s.draw).bump bBPM 0
      let s := if x.free ≤ x.cfg.reserve then s.bump bBPM 7 else s
      (s.thresholds p, h)

/-- Up to `n` buffers taken one after another. -/
def State.takeMany (s : State) (agent p cnt : Nat) (reserved : Bool) : Nat → State × List W32
  | 0 => (s, [])
  | k + 1 =>
    let (s, h) := s.alloc agent p cnt reserved
    if h = nullHandle then (s, [])
    else
      let (s, r) := State.takeMany s agent p cnt reserved k
      (s, h :: r)

/-- An ALLOC that was answered with the null handle (R347). -/
def State.nullReturn (s : State) : State := s.bump bBPM 2

/-- `n` buffers, or none: where one of them is refused none is left taken, and the null handle is counted. -/
def State.allocMany (s : State) (agent p cnt : Nat) (reserved : Bool) (n : Nat) : State × List W32 :=
  let a := s.takeMany agent p cnt reserved n
  if a.2.length = n then a else (s.nullReturn, [])

/-! ### References (R342, R343) -/

/-- A buffer freed: the generation rises and the buffer returns to its pool, unless a retired page withholds it
(R366: it stays allocated, with owner 0 and count 0). -/
def State.freeBuf (s : State) (h : W32) : State :=
  let k := hKey h
  let b := s.buf k
  let s := s.setBuf k { b with alloc := b.withheld, owner := 0, count := 0, marks := 0, gen := (b.gen + 1) % 128 }
  let s := s.bump bBPM 1
  if b.withheld then s
  else (s.setPool (hPool h) { s.pool (hPool h) with free := (s.pool (hPool h)).free + 1 }).thresholds (hPool h)

/-- INC, and PIN when `pin` (R342). -/
def State.incRef (s : State) (pin : Bool) (h : W32) : State × Bool :=
  let b := s.buf (hKey h)
  if s.stale h || !b.alloc || decide (1023 ≤ b.count) || (pin && decide (b.count = 0)) then
    (s.bump bBPM (if pin then 6 else 5), false)
  else (s.setBuf (hKey h) { b with count := b.count + 1 }, true)

/-- A DEC of this handle would be a double free (R348). (DEDUCED, log 32.) -/
def State.isDouble (s : State) (h : W32) : Bool :=
  let b := s.buf (hKey h)
  s.stale h || !b.alloc || (decide (b.count = 0) && !s.isFrame h)

/-- A reference released, and the buffer freed when nothing then holds it (R343). -/
def State.dropRef (s : State) (h : W32) : State :=
  let b := s.buf (hKey h)
  if b.count = 1 && b.marks == 0 then (s.setBuf (hKey h) { b with count := 0 }).freeBuf h
  else s.setBuf (hKey h) { b with count := b.count - 1 }

/-- DEC by any agent (R342). -/
def State.decRef (s : State) (agent : Nat) (h : W32) : State :=
  if s.isDouble h || decide ((s.buf (hKey h)).count = 0) then s.doubleFree oDEC agent h else s.dropRef h

/-- FREE by the owner (R342, R343, R349). A double free comes before a wrong owner. -/
def State.freeRef (s : State) (agent : Nat) (h : W32) : State :=
  let b := s.buf (hKey h)
  if s.isDouble h then s.doubleFree oFREE agent h
  else if b.owner ≠ agent then s.wrongOwner oFREE agent h
  else if s.isFrame h && decide (b.count = 0) then
    if b.marks = 0 then s.freeBuf h else s.doubleFree oFREE agent h
  else s.dropRef h

/-- XFER (R342, R349). -/
def State.xferRef (s : State) (agent : Nat) (h : W32) (newOwner : Nat) : State :=
  let b := s.buf (hKey h)
  if s.stale h || !b.alloc || decide (b.owner ≠ agent) then s.wrongOwner oXFER agent h
  else s.setBuf (hKey h) { b with owner := newOwner }

/-- SETMARK (R148, R342, R349). -/
def State.setMark (s : State) (agent : Nat) (h : W32) (m : Nat) : State :=
  let b := s.buf (hKey h)
  if s.stale h || !b.alloc || !s.isFrame h || !mayMark agent m then s.wrongOwner oSETMARK agent h
  else s.setBuf (hKey h) { b with marks := if tb b.marks m then b.marks else b.marks + 2 ^ m }

/-- CLRMARK (R148, R342, R348, R349). -/
def State.clrMark (s : State) (agent : Nat) (h : W32) (m : Nat) : State :=
  let b := s.buf (hKey h)
  if s.isDouble h || (s.isFrame h && !tb b.marks m) then s.doubleFree oCLRMARK agent h
  else if !s.isFrame h || !mayClear agent m then s.wrongOwner oCLRMARK agent h
  else
    let s := s.setBuf (hKey h) { b with marks := b.marks - 2 ^ m }
    if b.marks - 2 ^ m = 0 && b.count == 0 then s.freeBuf h else s

/-! ### Registers with an effect (R350, R351) -/

/-- Words 0 to 3 of a log entry. -/
def bpmLogWords (e : BpmLog) : W32 × List W32 :=
  (w32 (e.kind * 2 ^ 28 + e.op * 2 ^ 24 + e.agent * 2 ^ 16 + e.owner * 2 ^ 8 + e.seq),
   [e.handle, w32 e.time, w32 e.gen])

/-- A read of BPM_LOG_POP. -/
def State.bpmPop (s : State) : State :=
  match s.bpm.log with
  | [] => ({ s with bpm := { s.bpm with latch := [0, 0, 0] } }).emit (.regRead 0x800054 (w32 s.bpm.logSeq))
  | e :: r =>
    let w := bpmLogWords e
    ({ s with bpm := { s.bpm with log := r, latch := w.2 } }).emit (.regRead 0x800054 w.1)

/-- The result of a query (R351). -/
def State.queryWord (s : State) (h : W32) : W32 :=
  let b := s.buf (hKey h)
  if hIdx h < (s.pool (hPool h)).cfg.count then
    w32 (2 ^ 31 + b2n (b.gen == hGen h) * 2 ^ 30 + b2n b.alloc * 2 ^ 29 + b.count * 2 ^ 19 + b.owner * 2 ^ 8 +
      (if s.isFrame h then b.marks else 0))
  else w32 (2 ^ 31)

end Sys2Proof.Machine
end

