-- ==== Sys2Proof/Machine/Memory.lean ====
section
/-! DEFINITION. The module memory (R353 to R369): the address map, reads and writes with their error cases,
page retirement, refresh, retraining and scrubbing. -/

namespace Sys2Proof.Machine

open Sys2Proof

/-! ### The address map (R354) -/

/-- The `i`-th channel in ascending order, omitting `x`. -/
def nthChan (x i : Nat) : Nat := if i < x then i else i + 1
/-- The place of channel `c` among those left when `x` is omitted. -/
def chanRank (x c : Nat) : Nat := if c < x then c else c - 1

/-- The channel of module address `a`. -/
def State.chanOf (s : State) (a : Nat) : Nat :=
  match s.mem.degraded with
  | none => Nat.xor (fld a 8 4) (fld a 12 4)
  | some x => nthChan x (a / 256 % 15)

/-- The offset of `a` within its channel. -/
def State.chanOff (s : State) (a : Nat) : Nat :=
  match s.mem.degraded with
  | none => a / 2 ^ 12 * 256 + a % 256
  | some _ => a / 256 / 15 * 256 + a % 256

/-- The module-address page (4 KiB) that a retirement entry retires under the interleave in force (R366). -/
def State.pageOf (s : State) (r : RetEntry) : Option Nat :=
  match s.mem.degraded with
  | none => some r.granule
  | some x => if r.chan = x then none else some ((r.granule * 15 + chanRank x r.chan) * 256 / 4096)

def State.chan (s : State) (c : Nat) : Chan := Tbl.get {} s.mem.chans c
def State.setChan (s : State) (c : Nat) (x : Chan) : State :=
  { s with mem := { s.mem with chans := Tbl.put s.mem.chans c x } }

/-- A counter of channel `c` (R370). -/
def State.bumpChan (s : State) (c n : Nat) : State := s.bumpU bMEM (c + 1) n 1

/-- MEM_CFG and MEM_RETRAIN_CFG (R370). -/
def State.memCfg (s : State) : Nat := (Tbl.get (w32 0x18C00040) s.regs 0x700040).toNat
def State.driftMax (s : State) : Nat := fld (Tbl.get 4 s.regs 0x700044).toNat 0 6

/-! ### Open rows (R358) -/

/-- An access to offset `o` of channel `c`: the row is opened if it is not, and its idle timer starts; an
IDLE_CLK of 0 closes it. Clocks are of 800 MHz: 1.25 ns. -/
def State.touchRow (s : State) (c o : Nat) : State :=
  let b := Config.dramBank o % 16
  let r := Config.dramRow o
  let x := s.chan c
  let hit := match Tbl.find x.rows b with
    | some e => decide (e.1 = r)
    | none => false
  let idle := fld s.memCfg 0 10
  let rows := if idle = 0 then Tbl.del x.rows b else Tbl.put x.rows b (r, s.ns + idle * 5 / 4)
  let s := s.setChan c { x with rows := rows }
  if hit then s else s.bumpChan c 3

/-! ### Where buffers lie (R37, R339) -/

/-- The address of a pool: its carve-out, after the pools of lower number that lie there. (DEDUCED, log 100.) -/
def State.poolBase (s : State) (p : Nat) : Nat :=
  let c := (s.pool p).cfg.carve
  (Tbl.get (0, 0, 0) s.way.carves c).1 +
    s.bpm.pools.foldl (fun a e => if e.1 ≠ 0 ∧ e.1 < p ∧ e.2.cfg.carve = c then a + e.2.cfg.count * e.2.cfg.bufSize else a) 0

/-- The address of a buffer. -/
def State.bufAt (s : State) (h : W32) : Nat := s.poolBase (hPool h) + hIdx h * (s.pool (hPool h)).cfg.bufSize

/-! ### Poison and retirement (R364 to R367) -/

def setPoison (t : Tbl Unit) (blk : Nat) : Tbl Unit := Tbl.put t blk ()

/-- BPM withholds every buffer that overlaps page `pg`: an allocated one when it is freed, a free one at once.
(DEDUCED, log 34.) -/
def State.withhold (s : State) (pg : Nat) : State :=
  s.bpm.pools.foldl (fun s e =>
    let p := e.1
    let c := e.2.cfg
    if p = 0 ∨ c.bufSize = 0 then s
    else
      let base := s.poolBase p
      let lo := pg * 4096
      let first := (lo - base) / c.bufSize
      let last := (lo + 4095 - base) / c.bufSize
      if lo + 4096 ≤ base then s
      else (List.range (last + 1 - first)).foldl (fun s j =>
        let i := first + j
        if i < c.count then
          let b := s.buf (bufKey p i)
          if b.withheld then s
          else if b.alloc then s.setBuf (bufKey p i) { b with withheld := true }
          else (s.setBuf (bufKey p i) { b with withheld := true, alloc := true, owner := 0, count := 0 }).setPool p
            { s.pool p with free := (s.pool p).free - 1 }
        else s) s) s

/-- A lasting channel fault (R363): the channel keeps running, and the next restart applies its variant. -/
def State.chanFail (s : State) (c : Nat) : State :=
  if (s.chan c).failed then s
  else
    let s := s.setChan c { s.chan c with failed := true }
    let s := { s with flash := { s.flash with chanFailed := s.flash.chanFailed ++ [c] } }
    (s.raise fMemChanFail c 0).setHealth hDRAMCHAN

/-- FLT_REPLACE_CFG.PAGES (R461). -/
def State.replacePages (s : State) : Nat := fld (Tbl.get 32 s.regs 0x200044).toNat 0 10

/-- The page of a poisoned block retired (R366). (DEDUCED, log 71.) -/
def State.retirePage (s : State) (a : Nat) : State :=
  let c := s.chanOf a
  let e : RetEntry := { chan := c, granule := s.chanOff a / 256,
                        time := if s.clk.src = .free then 0 else s.ns / oneSec % 2 ^ 32 }
  let pg := a / 4096
  if s.mem.retire.any (fun r => decide (s.pageOf r = some pg)) then s
  else if 512 ≤ s.mem.retire.length then
    if s.mem.retireFull then s
    else ({ s with mem := { s.mem with retireFull := true } }).event .memRetireFull noCtx a
  else
    let l := s.mem.retire ++ [e]
    let s := { s with mem := { s.mem with retire := l }, flash := { s.flash with retire := l } }
    let s := { s with glb := { s.glb with cntPages := l.length } }
    let s := (s.setHealth hDRAMPAGE).event .memRetire noCtx a
    let s := (s.setChan c { s.chan c with retired := (s.chan c).retired + 1 }).bumpChan c 4
    let s := s.withhold pg
    let s := if s.replacePages ≤ l.length then s.assertReplace else s
    if 64 < (s.chan c).retired then s.chanFail c else s

/-! ### Writes (R355, R357, R364) -/

/-- The blocks of 32 bytes that a write of `n` bytes at `a` touches. -/
def blocksOf (a n : Nat) : List Nat := (List.range ((a + n + 31) / 32 - a / 32)).map (fun i => a / 32 + i)

/-- A write's effect on the poison of the blocks it touches: a whole-block write clears it; a partial write to a
poisoned block is merged with zeros in place of the unreadable bytes. -/
def poisonWrite (m : MemSt) (a n : Nat) : MemSt :=
  (blocksOf a n).foldl (fun m k =>
    if (Tbl.find m.poison k).isSome then
      if a ≤ 32 * k ∧ 32 * k + 32 ≤ a + n then { m with poison := Tbl.del m.poison k }
      else { m with dram := memPut m.dram (32 * k) (zeros 32) }
    else m) m

/-- Bytes stored at `a`, whatever path they took. -/
def State.store (s : State) (a : Nat) (b : Bytes) : State :=
  let m := poisonWrite s.mem a b.length
  { s with mem := { m with dram := memPut m.dram a b } }

/-- `k` bytes of coded content stored at `a`: what they are lies outside the model, so each is free. -/
def State.storeFree (s : State) (a k : Nat) : State := (s.store a ((List.range k).map (Config.codedByte s.free))).draw

/-! ### Scheduling (R355 to R357) -/

/-- Requests in flight. -/
def Chan.inflight (x : Chan) : Nat := x.writes.length + x.retry.length + x.banks.foldl (fun a e => a + e.2.length) 0

/-- A request waits in some bank's queue; and a read does. -/
def Chan.wanted (x : Chan) : Bool := x.banks.any (fun e => !e.2.isEmpty)
def Chan.reading (x : Chan) : Bool := x.banks.any (fun e => e.2.any (fun r => decide (r.kind ≠ .write)))

/-- A request enters the queue of its bank. -/
def State.enqueueReq (s : State) (c : Nat) (r : MemReq) : State :=
  let b := Config.dramBank (s.chanOff r.addr) % 16
  let x := s.chan c
  s.setChan c { x with banks := Tbl.put x.banks b (Tbl.get [] x.banks b ++ [r]) }

/-- The batch rule of R357: at 48 waiting writes, or with no read waiting, writes are issued to their banks until 16 are left. -/
def State.issueWrites (s : State) (c : Nat) : State :=
  let x := s.chan c
  if 48 ≤ x.writes.length || (!x.reading && decide (16 < x.writes.length)) then
    let n := x.writes.length - 16
    let s := s.setChan c { x with writes := x.writes.drop n }
    (x.writes.take n).foldl (fun s w => s.enqueueReq c { agent := w.agent, addr := w.addr, at_ := s.ns, kind := .write }) s
  else s

/-- No channel executes a request: a refresh window is open, 280 ns from its opening (R21, R359), or a channel retrains (R362). -/
def State.memStalls (s : State) : Bool :=
  (decide (s.cntOf bMEM 0 8 ≠ 0) && decide (s.ns < s.mem.nextWindow - s.mem.trefi + 280)) || decide (s.ns < s.mem.retrainEnd)

/-- The clock of the channels runs at 800 MHz, and each clock is a command slot. (DESIGN CHOICE, log 117.) -/
def State.memSlotNow (s : State) : Nat := s.ns * 4 / 5

/-- The requests of a queue with no earlier one of the same agent for the same 32-byte block (R357). -/
def firstsOf : List MemReq → List MemReq
  | [] => []
  | r :: l => r :: (firstsOf l).filter (fun q => !(decide (q.agent = r.agent) && decide (q.addr / 32 = r.addr / 32)))

def MemReq.writes (r : MemReq) : Bool := decide (r.kind = .write)

/-- The older of the candidates, each a bank and a request. -/
def oldestReq (l : List (Nat × MemReq)) : Option (Nat × MemReq) :=
  l.foldl (fun a e => match a with
    | some m => if e.2.at_ < m.2.at_ then some e else some m
    | none => some e) none

/-- A request's row is open in its bank. -/
def State.rowHit (s : State) (c b : Nat) (r : MemReq) : Bool :=
  match Tbl.find (s.chan c).rows b with
  | some e => decide (e.1 = Config.dramRow (s.chanOff r.addr))
  | none => false

/-- An activate is allowed now: tRRD after the last, and at most four in tFAW. -/
def Chan.mayActivate (x : Chan) (now : Nat) : Bool :=
  (match x.acts with
    | t :: _ => decide (t + Config.tRRD ≤ now)
    | [] => true) &&
  (match x.acts[3]? with
    | some t => decide (t + Config.tFAW ≤ now)
    | none => true)

/-- The requests from which channel `c` chooses, each with its bank. -/
def State.reqsOf (s : State) (c : Nat) : List (Nat × MemReq) :=
  (s.chan c).banks.flatMap (fun (e : Nat × List MemReq) => (firstsOf e.2).map (fun r => (e.1, r)))

/-- The choice of R356: a request older than 2 µs; one that hits an open row in the current direction; one that needs an activate, from the
next bank in rotating order. With none of these, the direction turns to the oldest hit of the other one. (DESIGN CHOICE, log 117.) -/
def State.chooseReq (s : State) (c : Nat) : Option (Nat × MemReq) :=
  let x := s.chan c
  let l := s.reqsOf c
  let hits := l.filter (fun e => s.rowHit c e.1 e.2)
  let miss := l.filter (fun e => !(s.rowHit c e.1 e.2))
  let next := (List.range 16).findSome? (fun i => oldestReq (miss.filter (fun e => decide (e.1 = (x.lastBank + 1 + i) % 16))))
  (oldestReq (l.filter (fun e => decide (e.2.at_ + 2 * us < s.ns)))).orElse (fun _ =>
    (oldestReq (hits.filter (fun e => decide (e.2.writes = x.writing)))).orElse (fun _ =>
      (if x.mayActivate s.ns then next else none).orElse (fun _ => oldestReq hits)))

/-- The chosen request leaves its queue; where its row is not open, its bank is activated (R356, R358). -/
def State.takeReq (s : State) (c b : Nat) (r : MemReq) : State :=
  let x := s.chan c
  let rest := (Tbl.get [] x.banks b).erase r
  let x := { x with banks := if rest.isEmpty then Tbl.del x.banks b else Tbl.put x.banks b rest, slot := s.memSlotNow + 1, writing := r.writes }
  let x := if s.rowHit c b r then x else { x with lastBank := b, acts := (s.ns :: x.acts).take 4 }
  (s.setChan c x).touchRow c (s.chanOff r.addr)

/-! ### Writes (R357) -/

/-- A write accepted (R357). A request beyond the usable range is discarded and raises MEM_RANGE (R354). A channel
with 256 requests in flight makes the requester wait (R355). (DEDUCED, log 72.) -/
def State.memWrite (s : State) (agent : Byte) (a : Nat) (b : Bytes) : State :=
  if s.memEnd < a + b.length then s.raise fMemRange agent.toNat 0
  else
    let c := s.chanOf a
    let x := s.chan c
    if 256 ≤ x.inflight then s
    else
      let s := s.setChan c { x with writes := x.writes ++ [{ agent := agent, addr := a, data := b }] }
      ((s.store a b).bump bMEM 1).issueWrites c

/-! ### Reads (R364) -/

/-- How a read ends: answered, with data good or poisoned, or uncorrectable and to be read again. -/
inductive ReadEnd where
  | good
  | poisoned
  | retry
  deriving DecidableEq, Repr

/-- What a read of a 32-byte block returns. -/
def State.answer (s : State) (d : Bytes) (bad : Bool) : State :=
  { s with mem := { s.mem with lastRead := if bad then zeros 32 else d, lastPoisoned := bad } }

/-- A write that waits in its channel's queue covers the block at `a`, so a read of it is served from there (R357). -/
def State.queuedAt (s : State) (a : Nat) : Bool :=
  (s.chan (s.chanOf a)).writes.any (fun w => decide (w.addr ≤ a / 32 * 32) && decide (a / 32 * 32 + 32 ≤ w.addr + w.data.length))

/-- A read of the block at `a` waits in its bank's queue, with what its ECC reports, unless a queued write holds its bytes. (DEDUCED, log 72.) -/
def State.memRead (s : State) (agent : Byte) (a : Nat) (r : EccResult) : State :=
  if s.memEnd ≤ a then (s.raise fMemRange agent.toNat 0).answer (zeros 32) true
  else
    let c := s.chanOf a
    if s.queuedAt a then (s.bump bMEM 0).answer (s.dram (a / 32 * 32) 32) false
    else if 256 ≤ (s.chan c).inflight then s
    else s.enqueueReq c { agent := agent, addr := a, at_ := s.ns, kind := .read r (s.poisoned a 1) false, data := s.dram (a / 32 * 32) 32 }

/-- A first read executed. -/
def State.firstRead (s : State) (c : Nat) (q : MemReq) (r : EccResult) (bad scrub : Bool) : State × ReadEnd :=
  let s := s.bump bMEM 0
  if bad then ((s.bump bMEM 5).answer q.data true, .poisoned)
  else
    match r with
    | .clean => (s.answer q.data false, .good)
    | .single =>
      let s := (s.bump bMEM 2).bumpChan c 0
      ((if scrub then s.bump bMEM 7 else s).answer q.data false, .good)
    | .uncorrectable =>
      let x := s.chan c
      ((s.setChan c { x with retry := x.retry ++ [{ agent := q.agent, addr := q.addr, scrub := scrub, data := q.data }] }).bumpChan c 1, .retry)

/-- A second read executed (R364). -/
def State.secondRead (s : State) (c : Nat) (q : MemReq) (ok : Bool) : State × ReadEnd :=
  if ok then ((s.bump bMEM 3).answer q.data false, .good)
  else
    let s := { s with mem := { s.mem with poison := setPoison s.mem.poison (q.addr / 32) } }
    let s := (s.bump bMEM 4).raise fMemUe c q.agent.toNat
    ((s.retirePage q.addr).answer q.data true, .poisoned)

/-- MEM_RETRY_READ: the oldest uncorrectable block of channel `c` is read again, in its turn. -/
def State.memRetry (s : State) (c : Nat) (ok : Bool) : State :=
  let x := s.chan c
  match x.retry with
  | [] => s
  | e :: q =>
    (s.setChan c { x with retry := q }).enqueueReq c { agent := e.agent, addr := e.addr, at_ := s.ns, kind := .again ok e.scrub, data := e.data }

/-- One command slot of channel `c`: the chosen request is executed, and how it ended. In SELF_REFRESH none is (R369). -/
def State.memSlot (s : State) (c : Nat) : State × Option (MemReq × ReadEnd) :=
  let s := s.issueWrites c
  if s.memStalls || decide (s.memSlotNow < (s.chan c).slot) || decide ((s.chan c).ph = .selfRefresh) then (s, none)
  else
    match s.chooseReq c with
    | none => (s, none)
    | some (b, r) =>
      let s := s.takeReq c b r
      match r.kind with
      | .read e bad scrub =>
        let (t, o) := s.firstRead c r e bad scrub
        (t, some (r, o))
      | .again ok _ =>
        let (t, o) := s.secondRead c r ok
        (t, some (r, o))
      | .write => (s, none)

/-- ROW_IDLE_TIMEOUT: a bank's idle timer has expired and its row is precharged (R358). -/
def State.rowIdle (s : State) (c bank : Nat) : State :=
  match Tbl.find (s.chan c).rows bank with
  | some e => if e.2 ≤ s.ns then s.setChan c { s.chan c with rows := Tbl.del (s.chan c).rows bank } else s
  | none => s

/-! ### Refresh (R359, R360) -/

/-- Every row is precharged (R359). -/
def State.closeRows (s : State) : State :=
  { s with mem := { s.mem with chans := s.mem.chans.map (fun e => (e.1, { e.2 with rows := [] })) } }

/-- A refresh window opens: every row is precharged, the phase advances by tREFI, and an announced change of interval takes effect. -/
def State.refresh (s : State) : State :=
  if s.mem.nextWindow ≤ s.ns then
    let s := (s.bump bMEM 8).closeRows
    let s := match s.mem.change with
      | some (hot, 0) =>
        let s := { s with mem := { s.mem with hot := hot, trefi := if hot then 1952 else 3904, change := none } }
        let s := { s with flt := { s.flt with capChanged := true } }   -- R179
        s.event (if hot then .memHot else .memCool) noCtx 0
      | some (hot, n + 1) => { s with mem := { s.mem with change := some (hot, n) } }
      | none => s
    { s with mem := { s.mem with nextWindow := s.mem.nextWindow + s.mem.trefi } }
  else s

/-- The temperature readout (R360), in 0.1 degree C. A return to the nominal interval that is announced is given up when the die is hot again
or a device asks for more. -/
def State.tempRead (s : State) (die : Int) (fast : Bool) : State :=
  let wantHot := decide (850 < die) || fast
  let since := if die ≤ 820 then some (s.mem.coolSince.getD s.ns) else none
  let s := { s with mem := { s.mem with dieC := die, coolSince := since } }
  if wantHot && !s.mem.hot then
    match s.mem.change with
    | some (true, _) => s
    | _ => { s with mem := { s.mem with change := some (true, 1) } }
  else if wantHot then { s with mem := { s.mem with change := none } }
  else
    match since with
    | some t =>
      if s.mem.hot && decide (t + oneSec ≤ s.ns) && s.mem.change.isNone then
        { s with mem := { s.mem with change := some (false, 1) } }
      else s
    | none => s

/-! ### Retraining and scrubbing (R362, R363, R368) -/

/-- The oscillator readout: a channel whose drift exceeds DRIFT is scheduled for a retrain. -/
def State.oscRead (s : State) (d : List Nat) : State :=
  (List.range 16).foldl (fun s c =>
    let v := getAt 0 d c
    if (s.chan c).ph = .excluded then s
    else
      let s := s.setChan c { s.chan c with drift := v }
      if s.driftMax < v && !(s.mem.retrainQ.any (fun e => decide (e.1 = c))) then
        { s with mem := { s.mem with retrainQ := s.mem.retrainQ ++ [(c, s.ns)] } }
      else s) s

/-- A scheduled retrain runs: at least 1 ms after it was scheduled, at most one in any 10 ms. -/
def State.retrain (s : State) (passed : Bool) : State :=
  match s.mem.retrainQ with
  | [] => s
  | (c, at_) :: q =>
    let free := match s.mem.lastRetrain with
      | none => true
      | some t => decide (t + 10 * ms ≤ s.ns)
    if decide (at_ + ms ≤ s.ns) && free then
      let x := s.chan c
      let s := { s with mem := { s.mem with retrainQ := q, lastRetrain := some s.ns, retrainEnd := s.ns + min (2 * us) (Config.retrainNs s.free) } }.draw
      if passed then ((s.setChan c { x with retrainFails := 0 }).bump bMEM 6).bumpChan c 2
      else if 1 ≤ x.retrainFails then (s.setChan c { x with retrainFails := 0 }).chanFail c
      else
        let s := s.setChan c { x with retrainFails := 1 }
        { s with mem := { s.mem with retrainQ := (c, at_) :: q } }
    else s

/-- A patrol read of the next block (R368), while MEM_CFG.SCRUB_EN is 1. It takes a slot that no request wants: with any of its channel
waiting, or a window open, it waits. -/
def State.scrub (s : State) (r : EccResult) : State :=
  let a := s.mem.scrubPos
  let c := s.chanOf a
  let x := s.chan c
  if tb s.memCfg 23 && !x.wanted && decide (x.inflight < 256) && !s.memStalls && decide (x.slot ≤ s.memSlotNow) then
    let s := (s.setChan c { x with slot := s.memSlotNow + 1 }).touchRow c (s.chanOff a)
    let (s, _) := s.firstRead c { agent := 0, addr := a, at_ := s.ns, kind := .read r (s.poisoned a 1) true, data := s.dram (a / 32 * 32) 32 } r
      (s.poisoned a 1) true
    { s with mem := { s.mem with scrubPos := if s.memEnd ≤ a + 32 then 0 else a + 32 } }
  else s

end Sys2Proof.Machine
end

