-- ==== Sys2Proof/Machine/Ptp.lean ====
section
/-! DEFINITION. PTP frames (R320 to R322): how a port recognises an event message, the stamp that it writes into a one-step Sync,
and what a message that a port receives does to the module's time. The places of PTP, IP and UDP fields are those of
their own standards. -/

namespace Sys2Proof.Machine

open Sys2Proof

/-! ### Recognition (R321) -/

/-- Bytes of a frame's VLAN tag. -/
def tagLen (b : Bytes) : Nat := if rdBe b 12 2 = 0x8100 then 4 else 0

/-- The UDP header of a frame, over IPv4 or IPv6. -/
def udpAt (b : Bytes) : Option Nat :=
  let v := 14 + tagLen b
  let e := rdBe b (v - 2) 2
  if e = 0x0800 ∧ rdBe b (v + 9) 1 = 17 then some (v + rdBe b v 1 % 16 * 4)
  else if e = 0x86DD ∧ rdBe b (v + 6) 1 = 17 then some (v + 40)
  else none

/-- The PTP message of a frame, on UDP port `port` or by Ethertype 0x88F7. (PRESUMED, log 102.) -/
def ptpAt (b : Bytes) (port : Nat) : Option Nat :=
  match udpAt b with
  | some u => if rdBe b (u + 2) 2 = port then some (u + 8) else none
  | none => if rdBe b (12 + tagLen b) 2 = 0x88F7 then some (14 + tagLen b) else none

/-- messageType, the twoStepFlag and sequenceId of a message. -/
def ptpType (b : Bytes) (o : Nat) : Nat := rdBe b o 1 % 16
def ptpTwoStep (b : Bytes) (o : Nat) : Bool := tb (rdBe b (o + 6) 1) 1
def ptpSeq (b : Bytes) (o : Nat) : Nat := rdBe b (o + 30) 2

/-- An event message: those of UDP port 319, and types 0 to 3 by Ethertype. -/
def ptpEvent (b : Bytes) : Option Nat :=
  match ptpAt b 319 with
  | some o => if ptpType b o < 4 then some o else none
  | none => none

/-! ### Egress (R320, R321) -/

/-- A sum in ones' complement of 16 bits. -/
def onesFold (n : Nat) : Nat := (n % 65536 + n / 65536) % 65536 + (n % 65536 + n / 65536) / 65536

/-- The sum of the 16-bit words of bytes. -/
def wordSum : Bytes → Nat
  | a :: b :: r => a.toNat * 256 + b.toNat + wordSum r
  | [a] => a.toNat * 256
  | [] => 0

/-- A UDP checksum corrected for bytes `was` that become `now`; a datagram without one stays without. -/
def csumFix (old : Nat) (was now : Bytes) : Nat :=
  if old = 0 then 0
  else
    let words := (was.length + 1) / 2
    let c := 0xFFFF - onesFold (0xFFFF - old + (words * 0xFFFF - wordSum was) + wordSum now)
    if c = 0 then 0xFFFF else c

/-- originTimestamp of a stamp in ns: 6 bytes of seconds and 4 of nanoseconds. -/
def originBytes (ns : Nat) : Bytes := beBytes 6 (ns / 1000000000) ++ beBytes 4 (ns % 1000000000)

/-- A frame as it leaves with a stamp: a Sync in one-step operation carries it, with its UDP checksum corrected. -/
def ptpWire (b : Bytes) (stamp : Nat) : Bytes :=
  match ptpEvent b with
  | some o =>
    if ptpType b o = 0 ∧ ptpTwoStep b o = false ∧ o + 44 ≤ b.length then
      let now := originBytes stamp
      let c := splice b (o + 34) now
      match udpAt b with
      | some u => splice c (u + 6) (beBytes 2 (csumFix (rdBe b (u + 6) 2) ((b.drop (o + 34)).take 10) now))
      | none => c
    else b
  | none => b

/-- The sequenceId of an event message whose stamp goes to the sending agent: every one but a one-step Sync. -/
def ptpReport (b : Bytes) : Option Nat :=
  match ptpEvent b with
  | some o => if ptpType b o = 0 ∧ ptpTwoStep b o = false then none else some (ptpSeq b o)
  | none => none

/-! ### Ingress (R322) -/

/-- A message that completes a measurement of the clock: a one-step Sync, a Follow_Up, or a Delay_Resp. -/
def ptpMeasures (b : Bytes) : Bool :=
  match ptpAt b 319, ptpAt b 320 with
  | some o, _ => (decide (ptpType b o = 0) && !ptpTwoStep b o) || decide (ptpType b o = 8) || decide (ptpType b o = 9)
  | none, some o => decide (ptpType b o = 8) || decide (ptpType b o = 9)
  | none, none => false

/-- The SP that runs PTP is in service (R49). -/
def State.ptpRuns (s : State) : Bool := s.cpus.any (fun e => decide (e.2.ph = .run) && tb e.2.services 4)

/-- A PTP message received on a port that PTP_CTL names: the servo slews module time by an offset that the exchange measures, and
never steps it. Only module 0 of a cascade disciplines its time from it. (PRESUMED, log 102.) -/
def State.ptpRx (s : State) (p : Nat) (b : Bytes) : State :=
  if s.clk.src = .ptp ∧ s.clk.ptpPorts.contains p ∧ s.plt.cascId = 0 ∧ s.ptpRuns ∧ ptpMeasures b then
    State.draw { s with clk := { s.clk with slew := Config.servo (Config.ptpOffset s.free) } }
  else s

end Sys2Proof.Machine
end

