-- ==== Sys2Proof/Machine/Rings.lean ====
section
/-! DEFINITION. Ring pairs (R375 to R380, R383, R385, R388): consumption of submissions, completions, status
records and the errors that stop a ring. -/

namespace Sys2Proof.Machine

open Sys2Proof

def State.ring (s : State) (r : Nat) : Ring := Tbl.get {} s.hqe.rings r
def State.setRing (s : State) (r : Nat) (x : Ring) : State :=
  { s with hqe := { s.hqe with rings := Tbl.put s.hqe.rings r x } }

/-- Kinds (R375). -/
def kCMD : Nat := 0
def kTX : Nat := 1
def kRX : Nat := 2

/-- The ring's status record, laid out as R380 says. -/
def ringStatus (r : Nat) (x : Ring) : Bytes :=
  leBytes 2 r ++ leBytes 1 x.ph.code ++ leBytes 1 x.kind ++ leBytes 4 x.consumed.toNat ++
  leBytes 4 x.produced.toNat ++ leBytes 4 x.tailSeen.toNat ++ leBytes 4 x.headSeen.toNat ++
  leBytes 4 x.flight.length ++ leBytes 2 x.reason ++ zeros 2 ++ leBytes 4 x.updates ++ leBytes 8 x.time ++ zeros 24

/-- The status record written (R380), while the module may write host memory. -/
def State.ringStat (s : State) (r : Nat) : State :=
  if s.hqe.bme then
    let x := { s.ring r with updates := wrapAdd (s.ring r).updates 1 32, time := s.ns }
    (s.setRing r x).toHost x.srBase (ringStatus r x)
  else s

/-- A completion entry's bytes (R376). -/
def cplBytes (c : Cpl) : Bytes :=
  leBytes 4 c.cseq.toNat ++ leBytes 4 c.sseq.toNat ++ leBytes 8 c.tag.toNat ++ leBytes 2 c.status ++
  leBytes 2 c.detail ++ padTo 12 c.result

/-- Completion codes (R383). -/
def cOK : Nat := 0
def cBAD_OPCODE : Nat := 1
def cBAD_PARAM : Nat := 2
def cREFUSED : Nat := 3
def cNO_RESOURCE : Nat := 4
def cBUSY : Nat := 5
def cREJECTED : Nat := 6
def cSTATE : Nat := 7
def cOUT_OF_BOUNDS : Nat := 8
def cHOST_DMA : Nat := 9
def cMEDIA : Nat := 10
def cABORTED : Nat := 11

/-- A completion entry at its index of the completion ring. -/
def State.writeCpl (s : State) (r : Nat) (c : Cpl) : State :=
  let x := s.ring r
  s.toHost (x.cqBase + 32 * (c.cseq.toNat % x.size)) (cplBytes c)

/-- A submission completed: it leaves the flight, its completion is produced, kept among the last 64 (R388) and
written. -/
def State.complete0 (s : State) (r : Nat) (e : SubEntry) (status detail : Nat) (result : Bytes) : State :=
  let x := s.ring r
  let c : Cpl := { cseq := x.produced + 1, sseq := e.sseq, tag := e.tag, status := status, detail := detail,
                   result := padTo 12 result }
  let kept := x.kept ++ [c]
  let x := { x with produced := c.cseq, flight := x.flight.filter (fun f => decide (f.e.sseq ≠ e.sseq)),
                    kept := kept.drop (kept.length - 64) }
  (((s.setRing r x).writeCpl r c).bump bHQE 1).ringStat r

/-- A ring stopped with a reason of R380: 1 DOORBELL, 2 SEQ, 3 HOST_DMA. HQE posts a record to the queue named for
the ring's errors, and raises HQE_RING_ERR (R379). -/
def State.stopRing (s : State) (r reason : Nat) : State :=
  let x := s.ring r
  let s := (s.setRing r { x with ph := .stopped, reason := reason, waiting := [] }).ringStat r
  let n := Ev.hqeRingErr.num
  let s := if x.errEq < 2048 then s.eqPost x.errEq n.1 (Config.eventCode n.2).toNat r s.ns reason else s
  s.event .hqeRingErr r reason

/-- The opcodes of R384 that a CMD ring takes. -/
def cmdOpcodes : List Nat :=
  [0x0001, 0x0010, 0x0011, 0x0012, 0x0013, 0x0014, 0x0015, 0x0016, 0x0020, 0x0021, 0x0022, 0x0023, 0x0024, 0x0025,
   0x0026, 0x0030, 0x0031, 0x0032, 0x0033, 0x0034, 0x0040, 0x0041, 0x0042, 0x0050, 0x0051, 0x0060, 0x0061, 0x0070,
   0x0071, 0x0072, 0x0073, 0x0074, 0x0080, 0x0081, 0x0090, 0x0091]

/-- The opcode is one the ring takes: 0x0010 to 0x0016 only on ring 0 (R383). -/
def opcodeOk (r : Nat) (x : Ring) (op : Nat) : Bool :=
  if x.kind = kTX then op == 0x0100
  else if x.kind = kRX then op == 0x0200
  else cmdOpcodes.contains op && (r == 0 || !(decide (0x10 ≤ op) && decide (op ≤ 0x16)))

/-- A completion slot is reserved: p + (consumed, not completed) + 1 - head ≤ size (R379). -/
def Ring.slot (x : Ring) : Bool :=
  decide (serial32 x.produced.toNat x.headSeen.toNat + x.flight.length + 1 ≤ x.size)

/-- The ring's waiting entries consumed in order, as far as slots and FENCE allow (R376, R379, R385). An entry whose read of
host memory failed stops the ring with reason HOST_DMA (R380). -/
def State.pumpN (s : State) (r : Nat) : Nat → State
  | 0 => s
  | fuel + 1 =>
    let x := s.ring r
    match x.waiting with
    | [] => s
    | none :: _ => if x.ph ≠ .run then s else s.stopRing r 3
    | some e :: rest =>
      if x.ph ≠ .run then s
      else if e.sseq ≠ x.consumed + 1 then s.stopRing r 2
      else if !x.slot || (tb e.flags.toNat 0 && !x.flight.isEmpty) then s
      else
        let f : Flight := { ord := s.hqe.nextOrd, e := e }
        let s := { s with hqe := { s.hqe with nextOrd := s.hqe.nextOrd + 1 } }
        let s := (s.setRing r { x with consumed := e.sseq, waiting := rest, flight := x.flight ++ [f] }).bump bHQE 0
        let s := s.ringStat r
        let s := if opcodeOk r x e.opcode.toNat then s else s.complete0 r e cBAD_OPCODE 0 []
        State.pumpN s r fuel

def State.pump (s : State) (r : Nat) : State := s.pumpN r (s.ring r).waiting.length

/-- A submission completed, and the entries that its slot or its FENCE held back consumed. -/
def State.complete (s : State) (r : Nat) (e : SubEntry) (status detail : Nat) (result : Bytes) : State :=
  (s.complete0 r e status detail result).pump r

/-- The object a command names (R385), so that commands on one object run in order. -/
def objectOf (e : SubEntry) : Option (Nat × Nat) :=
  let op := e.opcode.toNat
  let t := e.target.toNat
  if 0x10 ≤ op ∧ op ≤ 0x12 then some (1, t)
  else if 0x13 ≤ op ∧ op ≤ 0x15 then some (2, t)
  else if 0x21 ≤ op ∧ op ≤ 0x26 then some (3, t)
  else if op = 0x34 then some (3, t)
  else if 0x31 ≤ op ∧ op ≤ 0x33 then some (4, t)
  else if 0x40 ≤ op ∧ op ≤ 0x42 then some (5, t)
  else if 0x50 ≤ op ∧ op ≤ 0x51 then some (6, t)
  else none

/-- An earlier consumed command of any ring that names the same object has not completed. -/
def State.earlierSame (s : State) (f : Flight) : Bool :=
  match objectOf f.e with
  | none => false
  | some o => s.hqe.rings.any (fun r => r.2.flight.any (fun g =>
      decide (g.ord < f.ord) && decide (objectOf g.e = some o)))

/-- The consumed submission that a host command names, when its opcode is `op` and its turn has come. -/
def State.command (s : State) (c : CmdRef) (op : Nat) : Option SubEntry :=
  match (s.ring c.ring.val).flight.find? (fun f => decide (f.e.sseq = c.sseq)) with
  | none => none
  | some f =>
    if f.e.opcode.toNat = op && !s.earlierSame f && decide ((s.ring c.ring.val).kind = kCMD) then some f.e else none

/-- A ring's doorbell ignored and counted (R377, R379). -/
def State.dbIgnored (s : State) : State := s.bump bHQE 4

/-- What the module reads of the `n` entries that a doorbell names: those that reads of host memory returned, then a failed
read where one failed, or where Bus Master Enable is 0 (R387). -/
def State.readEntries (s : State) (n : Nat) (entries : List SubEntry) : List (Option SubEntry) :=
  let got := if s.hqe.bme then entries.take n else []
  got.map some ++ (if got.length < n then [none] else [])

/-- SQ_TAIL (R379): `entries` are what the module reads at indexes c + 1 to v, up to the first read that fails.
(DEDUCED, log 31.) -/
def State.sqTail (s : State) (r : Nat) (v : W32) (entries : List SubEntry) : State :=
  let x := s.ring r
  if x.ph ≠ .run then s.dbIgnored
  else
    let c := x.consumed
    if v = c then s
    else if serial32 v.toNat c.toNat ≤ x.size then
      let fresh := s.readEntries (serial32 v.toNat c.toNat) entries
      ((s.setRing r { x with tailSeen := v, waiting := fresh }).ringStat r).pump r
    else s.stopRing r 1

/-- CQ_HEAD (R379). -/
def State.cqHead (s : State) (r : Nat) (v : W32) : State :=
  let x := s.ring r
  if x.ph ≠ .run then s.dbIgnored
  else
    let n := serial32 v.toNat x.headSeen.toNat
    if 0 < n ∧ n ≤ serial32 x.produced.toNat x.headSeen.toNat then
      ((s.setRing r { x with headSeen := v }).ringStat r).pump r
    else s.dbIgnored

/-- EQ_DB (R379, R382): the consumed point moves and the queue re-arms, taking pending coalescing values (R64). -/
def State.eqDbOp (s : State) (q : Nat) (v : W32) : State :=
  let e := s.eq q
  if e.ph ≠ .run then s.dbIgnored
  else
    let n := serial32 v.toNat e.db.toNat
    if n ≤ serial32 e.posted.toNat e.db.toNat then
      let shadow := Tbl.get 1 s.regs (coalAddr q)
      let s := { s with regs := Tbl.put s.regs (coalAddr q + 4) (w32 (fld shadow.toNat 0 24)) }
      let left := serial32 e.posted.toNat v.toNat
      let s := s.setEq q { e with db := v, armed := true, firstAt := if left = 0 then none else some s.ns }
      ((s.eqStat q).eqOverflowRec q).eqSignal q
    else s.dbIgnored

/-- Every ring but ring 0, and every event queue, enters HELD (R374, R387). -/
def State.holdRings (s : State) : State :=
  let s := s.hqe.rings.foldl (fun s e =>
    if e.1 = 0 ∨ e.2.ph = .free then s
    else (s.setRing e.1 { s.ring e.1 with ph := .held, waiting := [] }).ringStat e.1) s
  s.hqe.eqs.foldl (fun s e =>
    if e.2.ph = .free then s else (s.setEq e.1 { s.eq e.1 with ph := .held }).eqStat e.1) s

end Sys2Proof.Machine
end

