-- ==== Sys2Proof/Machine/Switch.lean ====
section
/-! DEFINITION. The switch core (R267 to R286): accounts and admission to a queue, laybys, discards, pause
requests, the resequencer, and the matching of banks and groups. -/

namespace Sys2Proof.Machine

open Sys2Proof

/-! ### Copies, queues, ports -/

def State.copy (s : State) (i : Nat) : Copy := Tbl.get {} s.swc.copies i
def State.setCopy (s : State) (i : Nat) (c : Copy) : State :=
  { s with swc := { s.swc with copies := Tbl.put s.swc.copies i c } }
def State.queue (s : State) (q : Nat) : QDesc := Tbl.get {} s.tmg.queues q
def State.setQueue (s : State) (q : Nat) (x : QDesc) : State :=
  { s with tmg := { s.tmg with queues := Tbl.put s.tmg.queues q x } }
def State.port (s : State) (p : Nat) : Port := Tbl.get {} s.prt.ports p
def State.setPort (s : State) (p : Nat) (x : Port) : State :=
  { s with prt := { s.prt with ports := Tbl.put s.prt.ports p x } }

/-- The cells of a copy: every cell of its head and body (R273). -/
def Copy.n (c : Copy) : Nat := c.head.length + c.body.length

/-- The egress group of a destination: a port's is that of its block (R35, R50, R273). -/
def State.groupOf (s : State) (d : Nat) : Nat :=
  if d < 256 then Tbl.get (d / 8) s.way.egroup (d / 8) else if d < 260 then 32 + (d - 256) else if d = 260 then 36 else 37 + (d - 261)

def acctKey (d c : Nat) : Nat := d * 8 + c

/-- A copy put into the switch's table, written and about to reach SWC. -/
def State.newCopy (s : State) (c : Copy) : State × Nat :=
  ({ s with swc := { s.swc with copies := Tbl.put s.swc.copies s.swc.nextCopy c, nextCopy := s.swc.nextCopy + 1 } },
   s.swc.nextCopy)

/-- The link entries of a chain (R268): the next cell, the bytes of each cell, the end-of-frame mark, and SHARED on
the cell before the body. -/
def linkChain (t : Tbl CellLink) (len : Nat) (body : List W32) : List W32 → Tbl CellLink
  | [] => t
  | [h] =>
    let next := body.head?
    Tbl.put t (hIdx h) { next := next, bytes := min len 128, eof := body.isEmpty, sharedNext := !body.isEmpty }
  | h :: h' :: r =>
    linkChain (Tbl.put t (hIdx h) { next := some h', bytes := min len 128, eof := false, sharedNext := false })
      (len - 128) body (h' :: r)

/-- The cells of a frame written: their link entries, and CELLS_WRITTEN for each cell once (R287). -/
def State.writeCells (s : State) (len : Nat) (head body : List W32) (countBody : Bool) : State :=
  let t := linkChain s.swc.cells len body head
  let t := if countBody then linkChain t len [] body else t
  ({ s with swc := { s.swc with cells := t } }).bumpU bSWC 0 0
    (head.length + (if countBody then body.length else 0))

/-- Cells that a frame of `len` bytes takes. -/
def cellsFor (len : Nat) : Nat := max 1 (ceilDiv len 128)

/-! ### Accounts (R273) -/

/-- What admission would charge a copy: own cells and shared cells, or none when the accounts refuse it. -/
def State.charge (s : State) (d c n : Nat) : Option (Nat × Nat) :=
  let used := Tbl.get 0 s.swc.used (acctKey d c)
  let lim := Tbl.get 0 s.swc.lim (acctKey d c)
  if s.swc.gmin then
    let r := min n (lim - used)
    if n - r = 0 ∨ (s.swc.sharedUsed + (n - r) ≤ s.swc.sharedSize ∧
        Tbl.get 0 s.swc.sused d + (n - r) ≤ Tbl.get 0 s.swc.cap d) then some (r, n - r) else none
  else if used + n ≤ lim then some (n, 0) else none

/-- The queue's own limit in TMG (R291). -/
def State.limitOk (s : State) (q n : Nat) : Bool :=
  decide ((s.queue q).limit = 0) || decide ((s.queue q).cells + n ≤ (s.queue q).limit)

/-- Admission under R273: what is charged, or none; class 7 and pinned retransmissions that the accounts refuse are
admitted outside them. -/
def State.admission (s : State) (c : Copy) : Option (Bool × Nat × Nat) :=
  if !s.limitOk c.queue c.n then none
  else
    match s.charge c.dest c.cls c.n with
    | some (a, b) => some (true, a, b)
    | none => if c.cls = 7 ∨ c.rtx then some (false, 0, 0) else none

/-- The accounts charged. -/
def State.addAcct (s : State) (d c own shared : Nat) : State :=
  { s with swc := { s.swc with
      used := Tbl.put s.swc.used (acctKey d c) (Tbl.get 0 s.swc.used (acctKey d c) + own)
      sused := Tbl.put s.swc.sused d (Tbl.get 0 s.swc.sused d + shared)
      sharedUsed := s.swc.sharedUsed + shared } }

/-- The cells of a copy returned to its accounts, in the same split (R273). -/
def State.dropAcct (s : State) (c : Copy) : State :=
  if c.chargeable then
    { s with swc := { s.swc with
        used := Tbl.put s.swc.used (acctKey c.dest c.cls) (Tbl.get 0 s.swc.used (acctKey c.dest c.cls) - c.own)
        sused := Tbl.put s.swc.sused c.dest (Tbl.get 0 s.swc.sused c.dest - c.shared)
        sharedUsed := s.swc.sharedUsed - c.shared } }
  else s

/-! ### Ingress accounts and pause requests (R275, R276, R304, R317) -/

/-- Ingress use of a port and class moved by cells written or joined, with XOFF at XOFF and XON at XON. -/
def State.setIng (s : State) (p c n : Nat) : State :=
  let k := acctKey p c
  let on := Tbl.get false s.swc.xoffSent k
  { s with swc := { s.swc with
      ingUse := Tbl.put s.swc.ingUse k n
      xoffSent := Tbl.put s.swc.xoffSent k (if on then decide (s.swc.xonAt < n) else decide (s.swc.xoffAt ≤ n && 0 < n)) } }

def State.addIng (s : State) (p c n : Nat) : State := s.setIng p c (Tbl.get 0 s.swc.ingUse (acctKey p c) + n)
def State.subIng (s : State) (p c n : Nat) : State := s.setIng p c (Tbl.get 0 s.swc.ingUse (acctKey p c) - n)

/-- PRT_CFG of a port (R336), and its fields. -/
def prtAddr (p off : Nat) : Nat := 0xB00000 + p * 0x1000 + off
def prtCfgReset : W32 := w32 (2 ^ 29 + 2 ^ 27 + 2 ^ 26 + 1522)
def State.prtCfg (s : State) (p : Nat) : Nat := (Tbl.get prtCfgReset s.regs (prtAddr p 0x20)).toNat
def State.pfcEn (s : State) (p : Nat) : Nat := fld (s.prtCfg p) 15 8
def State.quanta (s : State) (p : Nat) : Nat := fld (Tbl.get 0xFFFF s.regs (prtAddr p 0x30)).toNat 0 16

/-- The line rate of a port in Mb/s (R299, R309). -/
def State.rate (s : State) (p : Nat) : Nat :=
  match fld (s.prtCfg p) 30 2 with
  | 0 => if (s.port p).speed = 0 then 10 else if (s.port p).speed = 1 then 100 else 1000
  | 1 => 1000
  | 2 => 2500
  | _ => 10000

/-- The time of `n` bits at the port's rate, in ns, rounded up. -/
def State.bitNs (s : State) (p n : Nat) : Nat := ceilDiv (n * 1000) (s.rate p)

/-- The time of pause quanta (R316: 512 bit times each), in ns. -/
def State.quantaNs (s : State) (p q : Nat) : Nat := s.bitNs p (512 * q)

/-- The classes for which the module asks the port's partner to stop (R275, R276, R303, R304). -/
def State.xoffWanted (s : State) (p : Nat) : Nat :=
  maskOf ((List.range 8).filter (fun c =>
    Tbl.get false s.swc.xoffSent (acctKey p c) ||
    s.tmg.pol.any (fun e => e.2.asks.contains (p, c)) ||
    ((s.pool 0).bpOn && decide (c ≤ 6) && decide (0 < Tbl.get 0 s.swc.ingUse (acctKey p c)))))

/-- The port's PFC or PAUSE brought up to the request (R317): PFC for the classes of PFC_EN, PAUSE for the whole
port when PFC_EN is zero and PAUSE may be sent. -/
def State.pfcSync (s : State) (p : Nat) : State :=
  let x := s.port p
  let en := s.pfcEn p
  let want := s.xoffWanted p
  if x.ph ≠ .up then s
  else if en ≠ 0 then
    let want := maskOf ((List.range 8).filter (fun c => tb want c && tb en c))
    let on := maskOf ((List.range 8).filter (fun c => tb want c && !tb x.xoff c))
    let off := maskOf ((List.range 8).filter (fun c => !tb want c && tb x.xoff c))
    if on = 0 ∧ off = 0 then s
    else
      let s := s.setPort p { x with xoff := want, pfcDue := s.ns + s.quantaNs p (s.quanta p / 2) }
      let s := if on = 0 then s else (s.emit (.pause p true on (s.quanta p))).bumpU bPRT (p + 1) 9 1
      if off = 0 then s else (s.emit (.pause p true off 0)).bumpU bPRT (p + 1) 9 1
  else if x.pauseOk then
    if want ≠ 0 ∧ x.xoff = 0 then
      ((s.setPort p { x with xoff := 0xFF, pfcDue := s.ns + s.quantaNs p (s.quanta p / 2) }).emit
        (.pause p false 0xFF (s.quanta p))).bumpU bPRT (p + 1) 9 1
    else if want = 0 ∧ x.xoff ≠ 0 then
      ((s.setPort p { x with xoff := 0 }).emit (.pause p false 0xFF 0)).bumpU bPRT (p + 1) 9 1
    else s
  else s

/-- Every port whose request changed. -/
def State.pfcSyncAll (s : State) : State := (Tbl.keys s.prt.ports).foldl (fun s p => s.pfcSync p) s

/-! ### Source credits (R275, R276, R281) -/

def credKey (unit g c : Nat) : Nat := (unit * 40 + g) * 8 + c

/-- Credits are withheld while the CELL pool is at BACKPRESSURE (classes 0 to 6), and from ASM and HQE while a copy
of a class that never prunes waits in a layby of the group (R276, R281). -/
def State.creditHeld (s : State) (g c : Nat) : Bool :=
  ((s.pool 0).bpOn && decide (c ≤ 6)) ||
  (tb (fld (Tbl.get (w32 0x14000100) s.regs 0x900050).toNat 16 8) c &&
    s.swc.laybys.any (fun e => decide (s.groupOf (e.1 / 8) = g) && decide (e.1 % 8 = c) && !e.2.isEmpty))

/-- A copy's credit returned to its source. -/
def State.returnCredit (s : State) (c : Copy) : State :=
  match c.unit with
  | some u =>
    let k := credKey u (s.groupOf c.dest) c.cls
    { s with swc := { s.swc with credits := Tbl.put s.swc.credits k (min 16 (Tbl.get 16 s.swc.credits k + c.n)) } }
  | none => s

/-- The source has a credit for every cell of a copy, and credits are not withheld. -/
def State.hasCredit (s : State) (u g c n : Nat) : Bool :=
  !s.creditHeld g c && decide (min n 16 ≤ Tbl.get 16 s.swc.credits (credKey u g c))

def State.takeCredit (s : State) (u g c n : Nat) : State :=
  let k := credKey u g c
  { s with swc := { s.swc with credits := Tbl.put s.swc.credits k (Tbl.get 16 s.swc.credits k - n) } }

/-! ### Releasing a copy (R219, R282) -/

/-- The destination reference released: one DEC of every cell of the copy. -/
def State.releaseCells (s : State) (c : Copy) : State :=
  (c.head ++ c.body).foldl (fun s h => s.decRef aRepl h) s

/-- The copy leaves the switch, its accounts are returned, and its destination reference is released. -/
def State.dropCopy (s : State) (i : Nat) : State :=
  let c := s.copy i
  let s := { s with swc := { s.swc with copies := Tbl.del s.swc.copies i } }
  let s := match c.port, c.place with
    | some p, .arriving => s.subIng p c.inCls c.n
    | some p, .held => s.subIng p c.inCls c.n
    | _, _ => s
  (s.dropAcct c).releaseCells c

def heldKey (sess seq : Nat) : Nat := sess * 2 ^ 16 + seq % 2 ^ 16

/-- The retransmit cache's entry of an RTP copy. -/
def State.heldOf (s : State) (c : Copy) : Option (Nat × Held) :=
  match c.sess with
  | some x =>
    if c.kind = .rtp then
      match Tbl.find s.asm.cache (heldKey x c.rtpSeq) with
      | some h => some (heldKey x c.rtpSeq, h)
      | none => none
    else none
  | none => none

def State.setHeld (s : State) (k : Nat) (h : Held) : State :=
  { s with asm := { s.asm with cache := Tbl.put s.asm.cache k h } }

/-- A copy discarded before its transmission ended: its hold stays (R282), and no copy of it waits any more. -/
def State.discardCopy (s : State) (i : Nat) : State :=
  let c := s.copy i
  let s := match s.heldOf c with
    | some (k, h) => s.setHeld k { h with again := false }
    | none => s
  (s.returnCredit (if c.place = .queued then { c with unit := none } else c)).dropCopy i

/-! ### Queues and laybys (R278 to R281, R294) -/

/-- A copy put into a class-6 list before the first copy with a later milestone (R294). -/
def insertByMilestone (s : State) (m i : Nat) : List Nat → List Nat
  | [] => [i]
  | x :: r => if m < (s.copy x).milestone then i :: x :: r else x :: insertByMilestone s m i r

/-- The copy joins its queue, charged as admission said. -/
def State.join (s : State) (i : Nat) (a : Bool × Nat × Nat) : State :=
  let c := s.copy i
  let q := s.queue c.queue
  let list := if c.cls = 6 then insertByMilestone s c.milestone i q.copies else q.copies ++ [i]
  let s := s.setCopy i { c with place := .queued, chargeable := a.1, own := a.2.1, shared := a.2.2, joined := s.ns }
  let s := s.setQueue c.queue { q with copies := list, cells := q.cells + c.n }
  let s := if a.1 then s.addAcct c.dest c.cls a.2.1 a.2.2 else s
  let s := s.returnCredit c
  match c.port with
  | some p => (s.subIng p c.inCls c.n).pfcSync p
  | none => s

def State.laybyOf (s : State) (d c : Nat) : List Nat := Tbl.get [] s.swc.laybys (acctKey d c)
def State.setLayby (s : State) (d c : Nat) (l : List Nat) : State :=
  { s with swc := { s.swc with laybys := Tbl.put s.swc.laybys (acctKey d c) l } }

/-- SWC_LAYBY_CFG (R287): TMO_MS, HOLD_MASK, MAX. -/
def State.laybyCfg (s : State) : Nat := (Tbl.get (w32 0x14000100) s.regs 0x900050).toNat
def State.laybyMax (s : State) : Nat := fld s.laybyCfg 0 9

/-- A port counts as down in every state but UP (R282, R313). -/
def State.portDown (s : State) (d : Nat) : Bool := decide (d < 256) && decide ((s.port d).ph ≠ .up)

/-- The queue takes new copies: enabled and not closing under DRAIN (R291). -/
def State.queueOpen (s : State) (q : Nat) : Bool := (s.queue q).en && !(s.queue q).draining

def setBit (v i : Nat) : Nat := if tb v i then v else v + 2 ^ i

/-- A copy for a port that is down discarded (R282). -/
def State.discardDown (s : State) (i : Nat) : State :=
  let link := decide (261 ≤ (s.copy i).dest)
  let l := (s.copy i).dest - 261
  let s := s.discardCopy i
  if link then s.bumpU bCAS (l + 1) 7 1
  else
    let s := s.bump bSWC 2
    { s with swc := { s.swc with evstat := setBit s.swc.evstat 2 } }

/-- COPY_ARRIVE: the rules of R279 in order. The result says whether the copy joined its queue. (DEDUCED, log 70.) -/
def State.arrive (s : State) (i : Nat) : State × Bool :=
  let c := s.copy i
  if (Tbl.find s.swc.copies i).isNone ∨ ¬ (c.place = .arriving ∨ c.place = .held) then (s, false)
  else if s.portDown c.dest then (s.discardDown i, false)
  else if !s.queueOpen c.queue then ((s.discardCopy i).bump bTMG 11, false)
  else
    let l := s.laybyOf c.dest c.cls
    match (if l.isEmpty then s.admission c else none) with
    | some a => (s.join i a, true)
    | none =>
      let s := if c.place = .arriving ∧ s.limitOk c.queue c.n = false then s.bump bTMG 11 else s
      if c.fromAsm && decide (l.length < s.laybyMax) && decide (s.swc.laybyUse < 32768) then
        let s := s.setCopy i { c with place := .layby s.ns (s.ns + fld s.laybyCfg 24 8 * ms), unit := none }
        let s := (s.returnCredit c).setLayby c.dest c.cls (l ++ [i])
        ({ s with swc := { s.swc with laybyUse := s.swc.laybyUse + 1,
                                      laybyHigh := max s.swc.laybyHigh (s.swc.laybyUse + 1) } }, false)
      else (s.setCopy i { c with place := .held }, false)

/-- One waiting copy leaves its layby. -/
def State.leaveLayby (s : State) (d c i : Nat) : State :=
  let s := s.setLayby d c ((s.laybyOf d c).filter (fun j => decide (j ≠ i)))
  { s with swc := { s.swc with laybyUse := s.swc.laybyUse - 1 } }

/-- Copies taken from the front of a layby in arrival order, as long as R273 admits them (R280). -/
def State.laybyAdmit (s : State) (d c : Nat) : Nat → State
  | 0 => s
  | fuel + 1 =>
    match s.laybyOf d c with
    | [] => s
    | i :: _ =>
      if s.queueOpen (s.copy i).queue then
        match s.admission (s.copy i) with
        | some a => State.laybyAdmit ((s.leaveLayby d c i).join i a) d c fuel
        | none => s
      else State.laybyAdmit (((s.leaveLayby d c i).discardCopy i).bump bTMG 11) d c fuel

/-- A copy that has waited TMO_MS in a pruning class is pruned (R281). Its head hold stays, and is marked so that a
loss report is answered by retransmission. -/
def State.pruneCopy (s : State) (i : Nat) : State :=
  let c := s.copy i
  let s := s.leaveLayby c.dest c.cls i
  let s := match s.heldOf c with
    | some (k, h) => s.setHeld k { h with st := (if h.st = HeldSt.sent then HeldSt.sent else HeldSt.pruned), again := false,
                                          prunedAt := some s.ns, expiry := some (s.ns + 250 * ms) }
    | none => s
  let s := (s.dropCopy i).bump bSWC 3
  let s := { s with swc := { s.swc with evstat := setBit s.swc.evstat 1 } }
  match c.sess with
  | some x =>
    let last := Tbl.find s.swc.pruneAt x
    if (match last with | none => true | some t => decide (t + 10 * ms ≤ s.ns)) then
      ({ s with swc := { s.swc with pruneAt := Tbl.put s.swc.pruneAt x s.ns } }).event .swcLaybyPrune x x
    else s
  | none => s

/-- LAYBY_PRUNE: every copy of the layby whose time has run out, unless the class never prunes. -/
def State.laybyPrune (s : State) (d c : Nat) : State :=
  if tb (fld s.laybyCfg 16 8) c then s
  else
    (s.laybyOf d c).foldl (fun s i =>
      match (s.copy i).place with
      | .layby _ due => if due ≤ s.ns then s.pruneCopy i else s
      | _ => s) s

/-- The media copies of session `d` that have not begun to leave are discarded (R248: after CLOSE the module sends no media). -/
def State.dropMedia (s : State) (d : Nat) : State :=
  (Tbl.keys s.swc.copies).foldl (fun s i =>
    let c := s.copy i
    if c.kind ≠ .rtp ∨ c.sess ≠ some d then s
    else match c.place with
      | .tx => s
      | .queued =>
        let q := s.queue c.queue
        (s.setQueue c.queue { q with copies := q.copies.filter (fun j => decide (j ≠ i)), cells := q.cells - c.n }).discardCopy i
      | .layby _ _ => (s.leaveLayby c.dest c.cls i).discardCopy i
      | _ => s.discardCopy i) s

/-- The queues whose destination is `d`. -/
def State.queuesOf (s : State) (d : Nat) : List Nat :=
  (s.tmg.queues.filter (fun e => decide (e.2.dest = d) && e.2.en)).map Prod.fst

/-- Every copy of a destination that went down is discarded (R282, R335): queues, laybys, and the frame in
transmission, whose FCS is aborted. ROW_OPEN of its class-6 queues is cleared (R295). -/
def State.flushDest (s : State) (d : Nat) : State :=
  let s := (s.queuesOf d).foldl (fun s q =>
    let l := (s.queue q).copies
    let s := s.setQueue q { s.queue q with copies := [], cells := 0, rowOpen := false, rowLate := false, fresh := true,
                                           deficit := 0, fitAt := none }
    l.foldl (fun s i => s.discardDown i) s) s
  let s := (List.range 8).foldl (fun s c =>
    (s.laybyOf d c).foldl (fun s i => (s.leaveLayby d c i).discardDown i) s) s
  if d < 256 then
    match (s.port d).tx with
    | some t =>
      let s := s.setPort d { s.port d with tx := none }
      (s.discardDown t.copy).emit (.aborted d t.copy)
    | none => s
  else s

/-! ### Resequencer (R283 to R285) -/

def rsqKey (g src : Nat) : Nat := g * 256 + src
def State.rsq (s : State) (k : Nat) : Rsq := Tbl.get {} s.swc.rsq k
def State.setRsq (s : State) (k : Nat) (x : Rsq) : State := { s with swc := { s.swc with rsq := Tbl.put s.swc.rsq k x } }

/-- A frame of the resequencer that lacks a cell discarded whole (R285). -/
def State.rsqDiscard (s : State) (k i : Nat) : State :=
  let x := s.rsq k
  ((s.setRsq k { x with passed := Tbl.del x.passed i }).discardCopy i).bump bSWC 4

/-- A numbered cell passed on: with its last cell a whole frame goes to its queue, and a frame that lacks a cell is
discarded. (DEDUCED, log 67.) -/
def State.rsqPass (s : State) (k : Nat) (c : SeqCell) : State :=
  let x := s.rsq k
  let n := Tbl.get 0 x.passed c.copyId + 1
  if c.last then
    if n < (s.copy c.copyId).n then s.rsqDiscard k c.copyId
    else ((s.setRsq k { x with passed := Tbl.del x.passed c.copyId }).arrive c.copyId).1
  else s.setRsq k { x with passed := Tbl.put x.passed c.copyId n }

/-- Held cells that follow without a gap are passed on. -/
def State.rsqDrain (s : State) (k : Nat) : Nat → State
  | 0 => s
  | fuel + 1 =>
    let x := s.rsq k
    match x.held.find? (fun c => decide (c.seq.toNat = x.expect)) with
    | some c =>
      let s := s.setRsq k { x with expect := wrapAdd x.expect 1 16, held := x.held.filter (fun d => decide (d ≠ c)) }
      State.rsqDrain (s.rsqPass k c) k fuel
    | none => s

/-- The held cell nearest after E. -/
def nearest (e : Nat) : List SeqCell → Option SeqCell
  | [] => none
  | c :: r =>
    match nearest e r with
    | none => some c
    | some d => if serial16 c.seq.toNat e ≤ serial16 d.seq.toNat e then some c else some d

/-- The oldest gap's timer runs from the first cell that was held behind it (R284): of the cells that are held. -/
def Rsq.retime (x : Rsq) : Rsq :=
  let l := x.heldAt.filter (fun e => x.held.any (fun c => decide (c.seq.toNat = e.1)))
  { x with heldAt := l, gapAt := match l with
      | [] => none
      | e :: r => some (r.foldl (fun a y => min a y.2) e.2) }
def State.rsqTimer (s : State) (k : Nat) : State := s.setRsq k (s.rsq k).retime

/-- A gap that ends before number `e` declared (R285): E moves past it; a frame in progress of which no held cell is
left has lost its last cell and is discarded; one that has lost an earlier cell is discarded with its last. -/
def State.rsqDeclare (s : State) (k e : Nat) : State :=
  let s := s.setRsq k { s.rsq k with expect := e, gapAt := none }
  let s := { s with swc := { s.swc with evstat := setBit s.swc.evstat 3 } }
  let s := s.event .swcSeqGap noCtx k
  let x := s.rsq k
  (Tbl.keys x.passed).foldl (fun s i =>
    if x.held.any (fun d => decide (d.copyId = i)) then s else s.rsqDiscard k i) s

/-- The oldest gap declared: up to the held cell nearest after E. -/
def State.rsqGap (s : State) (k : Nat) : State :=
  let x := s.rsq k
  match nearest x.expect x.held with
  | none => s
  | some c => ((s.rsqDeclare k c.seq.toNat).rsqDrain k 1024).rsqTimer k

/-- A numbered cell under the table of R284; one far ahead has the oldest gap declared and is treated afresh, where nothing is held up to
itself. -/
def State.rsqTreat (s : State) (k : Nat) (c : SeqCell) : Nat → State
  | 0 => s
  | fuel + 1 =>
    let x := s.rsq k
    let d := serial16 c.seq.toNat x.expect
    if d = 0 then
      let s := s.setRsq k { x with expect := wrapAdd x.expect 1 16 }
      ((s.rsqPass k c).rsqDrain k 1024).rsqTimer k
    else if d ≤ 1023 then
      (s.setRsq k { x with held := x.held ++ [c], heldAt := x.heldAt ++ [(c.seq.toNat, s.ns)] }).rsqTimer k
    else if d ≤ 32767 then
      if x.held.isEmpty then
        let s := (s.setRsq k { x with held := [c] }).rsqDeclare k c.seq.toNat
        State.rsqTreat (s.setRsq k { s.rsq k with held := [] }) k c fuel
      else State.rsqTreat (s.rsqGap k) k c fuel
    else s.bump bSWC 5

/-- RESEQ_CELL. -/
def State.rsqCell (s : State) (c : SeqCell) : State :=
  let k := rsqKey c.group.val c.src.toNat
  s.rsqTreat k c ((s.rsq k).held.length + 2)

/-- RESEQ_GAP_TIMEOUT (R285). -/
def State.rsqTimeout (s : State) (g src : Nat) : State :=
  let k := rsqKey g src
  match (s.rsq k).gapAt with
  | some t =>
    if t + fld (Tbl.get 50 s.regs 0x90005C).toNat 0 10 * us ≤ s.ns then s.rsqGap k else s
  | none => s

/-! ### Mirroring (R286) -/

def mirCtl (m : Nat) : Nat := 0x900200 + 16 * m
def State.mirOf (s : State) (m : Nat) : Nat × Nat :=
  ((Tbl.get 0 s.regs (mirCtl m)).toNat, (Tbl.get 0 s.regs (mirCtl m + 4)).toNat)

def State.mirDrop (s : State) (m : Nat) : State :=
  let s := s.bump bSWC (12 + m)
  { s with swc := { s.swc with evstat := setBit s.swc.evstat 5 } }

/-- The references of a mirror copy taken one after another; those already taken are given back on a refusal. -/
def State.incAll (s : State) (done : List W32) : List W32 → State × Bool
  | [] => (s, true)
  | h :: r =>
    let (s', ok) := s.incRef false h
    if ok then State.incAll s' (h :: done) r
    else (done.foldl (fun s h => s.decRef aRepl h) s', false)

/-- A mirror copy of frame `c` made for session `m`: admitted at once, or dropped and counted. -/
def State.mirror (s : State) (m : Nat) (c : Copy) : State :=
  let ctl := (s.mirOf m).1
  let dst := fld ctl 16 9
  let cls := fld ctl 28 3
  let snap := fld ctl 0 7
  if s.portDown dst then s.mirDrop m
  else
    let cells := c.head ++ c.body
    let cells := if snap = 0 then cells else cells.take snap
    match (s.queuesOf dst).find? (fun q => decide ((s.queue q).cls = cls) && s.queueOpen q) with
    | none => s.mirDrop m
    | some q =>
      let (s, ok) := s.incAll [] cells
      if !ok then s.mirDrop m
      else
        let (s, hd) := s.alloc aRepl 0 1 false
        if hd = nullHandle then (cells.foldl (fun s h => s.decRef aRepl h) s).mirDrop m
        else
          let k : Copy := { kind := .mirror m, dest := dst, cls := cls, queue := q, head := [hd], body := cells,
                            len := if snap = 0 then c.len else min c.len (snap * 128), data := c.data }
          let (s, i) := s.newCopy k
          match (if (s.laybyOf dst cls).isEmpty then (if s.limitOk q k.n then s.charge dst cls k.n else none) else none) with
          | some (a, b) => (s.join i (true, a, b)).bump bSWC (8 + m)
          | none => (s.dropCopy i).mirDrop m

/-- The mirror sessions that a frame concerns: `kind` 0 ingress, 1 egress of port `p`; 3 an accepted frame of a flow. -/
def State.mirrorAll (s : State) (egress : Bool) (flow : Option Nat) (p : Nat) (c : Copy) : State :=
  (List.range 4).foldl (fun s m =>
    let (ctl, src) := s.mirOf m
    let kind := fld src 30 2
    let source := fld src 0 16
    let hit := match flow with
      | some f => decide (kind = 3) && decide (source = f)
      | none => decide (source = p) && (decide (kind = 2) || decide (kind = (if egress then 1 else 0)))
    if tb ctl 31 && hit && !(egress && decide (fld ctl 16 9 = p)) then s.mirror m c else s) s

/-! ### Matching (R271): which group reads a cell of which bank in one cell time -/

/-- One candidate cell: its group, its bank, and its urgency (smaller is more urgent), with where it is read from. -/
structure Cand where
  group : Nat
  bank : Nat
  urgency : Nat
  owner : Nat
  deriving DecidableEq, Repr

structure Match where
  gptr : Tbl Nat
  aptr : Tbl Nat
  pairs : List Cand
  deriving DecidableEq, Repr

/-- The distance of `x` at or after pointer `p` on a ring of `n`. -/
def ringDist (n p x : Nat) : Nat := (x + n - p % n) % n

/-- The member of a list that is least under a measure; the earliest of equals. -/
def leastBy {α : Type} (f : α → Nat) : List α → Option α
  | [] => none
  | a :: r =>
    match leastBy f r with
    | none => some a
    | some b => if f a ≤ f b then some a else some b

/-- One round: request, grant, accept; pointers move only in the first. -/
def matchRound (first : Bool) (cands : List Cand) (m : Match) : Match :=
  let freeB := fun b => !(m.pairs.any (fun p => decide (p.bank = b)))
  let freeG := fun g => !(m.pairs.any (fun p => decide (p.group = g)))
  let req := cands.filter (fun c => freeG c.group && freeB c.bank)
  -- of two candidates of a group in one bank only the more urgent one requests (R272)
  let req := req.filter (fun c => !(req.any (fun d => decide (d.group = c.group) && decide (d.bank = c.bank) &&
    (decide (d.urgency < c.urgency) || (decide (d.urgency = c.urgency) && decide (d.owner < c.owner))))))
  let grants := (List.range 32).filterMap (fun b =>
    leastBy (fun c => ringDist 40 (Tbl.get 0 m.gptr b) c.group) (req.filter (fun c => decide (c.bank = b))))
  let accepts := (List.range 40).filterMap (fun g =>
    leastBy (fun c => c.urgency * 32 + ringDist 32 (Tbl.get 0 m.aptr g) c.bank)
      (grants.filter (fun c => decide (c.group = g))))
  accepts.foldl (fun m c =>
    { pairs := m.pairs ++ [c]
      gptr := if first then Tbl.put m.gptr c.bank ((c.group + 1) % 40) else m.gptr
      aptr := if first then Tbl.put m.aptr c.group ((c.bank + 1) % 32) else m.aptr }) m

/-- The rounds of SWC_CFG.ITER. -/
def matchRounds (cands : List Cand) (m : Match) : Nat → Match
  | 0 => m
  | n + 1 => matchRound (n == 0) cands (matchRounds cands m n)

end Sys2Proof.Machine
end

