-- ==== Sys2Proof/Machine/Traffic.lean ====
section
/-! DEFINITION. The traffic manager (R292 to R306): received pauses, token buckets, the milestone gate, the DRR
round, window fitting, the transmit decision, and the end of a frame. -/

namespace Sys2Proof.Machine

open Sys2Proof

/-! ### Received pauses (R277, R293) -/

/-- A received pause holds class `c` of port `p`. -/
def State.paused (s : State) (p c : Nat) : Bool :=
  match Tbl.find (s.port p).pauses c with
  | some x => decide (s.ns < x.ends) && !x.ignored
  | none => false

/-! ### Token buckets (R301 to R303) -/

def pshAddr (p : Nat) : Nat := 0xA02000 + 16 * p
def qshAddr (q : Nat) : Nat := 0xA20000 + 16 * q
def polAddr (f : Nat) : Nat := 0xA60000 + 16 * f
def rateReset : W32 := 1250000
def burstReset : W32 := 16384

/-- A bucket's active rate, enable and burst, by the address of its group. -/
def State.bkRate (s : State) (a : Nat) : Nat := fld (Tbl.get rateReset s.regs (a + 4)).toNat 0 21
def State.bkCfg (s : State) (a : Nat) : Nat := (Tbl.get burstReset s.regs (a + 8)).toNat
def State.bkEn (s : State) (a : Nat) : Bool := tb (s.bkCfg a) 31
def State.bkBurst (s : State) (a : Nat) : Nat := fld (s.bkCfg a) 0 24

/-- Tokens credited in 128 ns at a rate in steps of 8 kb/s, in units of 2^-16 byte, rounded down. -/
def creditOf (rate : Nat) : Nat := rate * 8388608 / 1000000

/-- One credit, capped at the burst. -/
def State.creditBk (s : State) (a : Nat) (b : Bucket) : Bucket :=
  { b with tokens := min (b.tokens + Int.ofNat (creditOf (s.bkRate a))) (Int.ofNat (s.bkBurst a * 2 ^ 16)) }

/-- `n` bytes charged to a bucket. -/
def Bucket.charge (b : Bucket) (n : Nat) : Bucket := { b with tokens := b.tokens - Int.ofNat (n * 2 ^ 16) }

def State.psh (s : State) (p : Nat) : Bucket := Tbl.get {} s.tmg.psh p
def State.qsh (s : State) (q : Nat) : Bucket := Tbl.get {} s.tmg.qsh q
def State.pol (s : State) (f : Nat) : Bucket := Tbl.get {} s.tmg.pol f

/-- The queue's shaper leaves it eligible: none named, not enabled, or tokens above 0 (R302). -/
def State.shaperOk (s : State) (q : Nat) : Bool :=
  let n := (s.queue q).shaper
  decide (n = 0xFFFF) || !s.bkEn (qshAddr n) || decide (0 < (s.qsh n).tokens)

/-- The port shaper leaves classes 0 to 5 eligible. -/
def State.pshOk (s : State) (p : Nat) : Bool := !s.bkEn (pshAddr p) || decide (0 < (s.psh p).tokens)

/-! ### TMG_PORTp_CFG (R307) and counted lengths (R297) -/

def State.tmgCfg (s : State) (p : Nat) : Nat :=
  (Tbl.get (w32 (1000 * 2 ^ 16 + 12 * 2 ^ 8 + 20)) s.regs (0xA01000 + 16 * p)).toNat
def State.fitMax (s : State) (p : Nat) : Nat := fld (s.tmgCfg p) 16 12 * us
def State.gateAdv (s : State) (p : Nat) : Nat := fld (s.tmgCfg p) 8 8 * us

/-- A frame's counted length: destination address to FCS, plus the port's overhead (R297). -/
def State.counted (s : State) (p len : Nat) : Nat := (Int.ofNat len + sgn (s.tmgCfg p) 8).toNat

/-- The DRR profile's active quantum, and its register pair (R298, R307). -/
def drrAddr (d : Nat) : Nat := 0xA10000 + 8 * d
def drrReset : W32 := 1538

/-- A receipt of a quantum by a queue of profile `d`: a pending value takes effect (R64, R297). -/
def State.receiveQuantum (s : State) (d : Nat) : State × Nat :=
  let sh := fld (Tbl.get drrReset s.regs (drrAddr d)).toNat 0 16
  ({ s with regs := Tbl.put s.regs (drrAddr d + 4) (w32 sh) }, sh)

/-! ### Queues of a port -/

/-- The port's queues of a class test that hold a copy. -/
def State.portQueues (s : State) (p : Nat) (cls : Nat → Bool) : List Nat :=
  (s.tmg.queues.filter (fun e => decide (e.2.dest = p) && e.2.en && cls e.2.cls && !e.2.copies.isEmpty)).map Prod.fst

def State.headOf (s : State) (q : Nat) : Copy := s.copy ((s.queue q).copies.headD 0)

/-- The class-6 queue whose head has the smallest milestone, ties to the lower descriptor (R294). -/
def State.gateQueue (s : State) (p : Nat) : Option Nat :=
  leastBy (fun q => (s.headOf q).milestone) (s.portQueues p (· == 6))

/-- The open time of a milestone (R294). -/
def State.openTime (s : State) (p m : Nat) : Nat := m - s.gateAdv p

/-- The earliest open time of the port's class-6 heads, or none without a limit (R299). -/
def State.openLimit (s : State) (p : Nat) : Option Nat :=
  if s.paused p 6 then none
  else match s.gateQueue p with
    | some q => some (s.openTime p (s.headOf q).milestone)
    | none => none

/-! ### Starting a frame -/

/-- Lateness of a class-6 frame as it starts (R295, R296): the row's first frame judges the row. -/
def State.markLate (s : State) (p q i : Nat) : State :=
  let c := s.copy i
  if c.rtx then
    let late := decide (c.milestone < s.ns)
    let s := (s.setCopy i { c with late := late }).bump bTMG 5
    if late then s.bump bTMG 3 else s
  else
    let x := s.queue q
    let late := if x.fresh then decide (c.milestone < s.ns) else x.rowLate
    let s := s.setQueue q { x with fresh := c.rowEnd, rowOpen := !c.rowEnd, rowLate := late }
    let s := s.setCopy i { c with late := late }
    let s := if late then s.bump bTMG 3 else s
    if x.fresh then
      match c.sess with
      | some r =>
        let s := s.incCf r 0x70 8 1
        if late then
          let lateness := (s.ns - c.milestone) / us
          let s := (s.incCf r 0x78 8 1).setCf r 0x80 4 (min (max (s.cf r 0x80 4) lateness) 0xFFFFFFFF)
          let s := s.bump bTMG 4
          let atPort := decide (c.joined ≤ s.openTime p c.milestone)
          { s with swc := { s.swc with lateRows := s.swc.lateRows ++ [(s.ns, atPort, if atPort then p else c.lane)] } }
        else s
      | none => s
    else s

/-- The bytes of a copy as it leaves: TMG and a retransmission set LATE and RTX in an RTP packet's extension (R216). -/
def Copy.wire (c : Copy) : Bytes :=
  if c.kind = .rtp ∧ 24 ≤ c.data.length then
    let b := (byteAt c.data 22).toNat
    splice c.data 22 [BitVec.ofNat 8 (b / 16 * 16 + b % 4 + 4 * b2n c.rtx + 8 * b2n c.late)]
  else c.data

/-- The stamp of a frame that leaves port `p` now: increased by EGRESS_NS (R320). -/
def State.egressStamp (s : State) (p : Nat) : Nat := s.ns + fld (Tbl.get 0 s.regs (prtAddr p 0x38)).toNat 16 16

/-- The stamp of a frame that port `p` receives now: reduced by INGRESS_NS (R320). -/
def State.ingressStamp (s : State) (p : Nat) : Nat := s.ns - fld (Tbl.get 0 s.regs (prtAddr p 0x38)).toNat 0 16

/-- The head of queue `q` starts on port `p`: it leaves the queue's list, is charged to the shapers, and goes out. -/
def State.startFrame (s : State) (p q : Nat) : State :=
  let x := s.queue q
  match x.copies with
  | [] => s
  | i :: rest =>
    let c := s.copy i
    let s := s.setQueue q { x with copies := rest, cells := x.cells - c.n, fitAt := none }
    let s := if c.cls = 6 then s.markLate p q i else s
    let s := s.setCopy i { s.copy i with place := .tx }
    let n := s.counted p c.len
    let s := if s.bkEn (pshAddr p) then { s with tmg := { s.tmg with psh := Tbl.put s.tmg.psh p ((s.psh p).charge n) } } else s
    let sh := (s.queue q).shaper
    let s := if c.cls ≠ 6 ∧ sh ≠ 0xFFFF ∧ s.bkEn (qshAddr sh) then
        { s with tmg := { s.tmg with qsh := Tbl.put s.tmg.qsh sh ((s.qsh sh).charge n) } } else s
    let t : TxSt := { copy := i, start := s.ns, ends := s.ns + s.bitNs p ((c.len + 20) * 8), cells := c.head ++ c.body,
                      readBytes := 0 }
    let s := s.setPort p { s.port p with tx := some t }
    let s := match s.heldOf c with
      | some (k, h) => s.setHeld k { h with again := false }
      | none => s
    let s := if c.stampTx then { s with swc := { s.swc with stamps := Tbl.put s.swc.stamps i (s.egressStamp p) } } else s
    let whole := decide (c.kind = .host) || decide (c.kind = .forward)
    let s := if whole then match ptpReport c.data with
        | some q => s.emit (.ptpStamp p i q (s.egressStamp p))
        | none => s
      else s
    let s := s.emit (.frame p i c.cls c.len (if whole then ptpWire c.data (s.egressStamp p) else (s.copy i).wire))
    match c.kind with
    | .mirror _ => s
    | _ => s.mirrorAll true none p (s.copy i)

/-! ### The transmit decision (R305) -/

/-- The class-7 queues in order after the last one served. -/
def rotateAfter (last : Nat) (l : List Nat) : List Nat :=
  l.filter (fun q => decide (last < q)) ++ l.filter (fun q => decide (q ≤ last))

/-- The queues in order from the round pointer. -/
def rotateFrom (ptr : Nat) (l : List Nat) : List Nat :=
  l.filter (fun q => decide (ptr ≤ q)) ++ l.filter (fun q => decide (q < ptr))

/-- A head refused by fitting is forced once it has been refused for the FIT_MAX_US that held when it was first refused (R300, R307). -/
def State.forced (s : State) (q : Nat) : Bool :=
  match (s.queue q).fitAt with
  | some t => decide (t ≤ s.ns)
  | none => false

/-- A forced start counted, and raised at most once per port per second (R300). -/
def State.countForced (s : State) (p : Nat) : State :=
  let s := s.bump bTMG 7
  match Tbl.find s.tmg.fitAt p with
  | some t => if t + oneSec ≤ s.ns then
      ({ s with tmg := { s.tmg with fitAt := Tbl.put s.tmg.fitAt p s.ns } }).event .tmgFitForced p p else s
  | none => ({ s with tmg := { s.tmg with fitAt := Tbl.put s.tmg.fitAt p s.ns } }).event .tmgFitForced p p

/-- What a visit of the round came to. -/
inductive Visit where
  | sent
  | short                        -- the head exceeds the deficit: the turn ends
  | passed                       -- ineligible: passed over
  deriving DecidableEq, Repr

/-- A queue begins its turn: its deficit grows by its quantum, and the round pointer is at it (R298). -/
def State.beginTurn (s : State) (p q : Nat) : State :=
  if (s.port p).turn = some q then s
  else
    let (s, quantum) := s.receiveQuantum (s.queue q).drr
    (s.setQueue q { s.queue q with deficit := (s.queue q).deficit + Int.ofNat quantum }).setPort p
      { s.port p with turn := some q, drrPtr := q }

/-- The deficit a queue has in its turn. -/
def State.turnDeficit (s : State) (p q : Nat) : Int :=
  if (s.port p).turn = some q then (s.queue q).deficit
  else (s.queue q).deficit + Int.ofNat (fld (Tbl.get drrReset s.regs (drrAddr (s.queue q).drr)).toNat 0 16)

/-- The head of `q` is sent in its turn: the deficit pays for it, and is 0 when the queue empties (R298). -/
def State.sendTurn (s : State) (p q len : Nat) : State :=
  let d := (s.queue q).deficit
  let s := s.startFrame p q
  let y := s.queue q
  if y.copies.isEmpty then (s.setQueue q { y with deficit := 0 }).setPort p { s.port p with turn := none, drrPtr := q + 1 }
  else s.setQueue q { y with deficit := d - Int.ofNat len }

/-- One queue's visit in the DRR round (R298, R299, R305). A queue that is paused, shaped out or refused by the fit
is passed over: it keeps its deficit and its turn is not taken. -/
def State.visit (s : State) (p q : Nat) (open_ : Option Nat) : State × Visit :=
  let len := s.counted p (s.headOf q).len
  let fits := match open_ with
    | none => true
    | some t => decide (s.ns + s.bitNs p (len * 8) ≤ t)
  if s.paused p (s.queue q).cls || !s.shaperOk q then (s, .passed)
  else if s.turnDeficit p q < Int.ofNat len then
    let s := s.beginTurn p q
    (s.setPort p { s.port p with turn := none, drrPtr := q + 1 }, .short)
  else if !fits && !s.forced q then
    (if (s.queue q).fitAt.isNone then (s.setQueue q { s.queue q with fitAt := some (s.ns + s.fitMax p) }).bump bTMG 6 else s, .passed)
  else
    let s := if fits then s else s.countForced p
    ((s.beginTurn p q).sendTurn p q len, .sent)

/-- One round over a list of queues: whether a frame was sent, and whether a turn ended short. -/
def State.round (s : State) (p : Nat) (open_ : Option Nat) (short : Bool) : List Nat → State × Bool × Bool
  | [] => (s, false, short)
  | q :: r =>
    match s.visit p q open_ with
    | (s, .sent) => (s, true, short)
    | (s, .short) => State.round s p open_ true r
    | (s, .passed) => State.round s p open_ short r

/-- Rounds while turns end short, so that a frame longer than its quantum is sent after enough of them (R298). -/
def State.rounds (s : State) (p : Nat) (open_ : Option Nat) : Nat → State
  | 0 => s
  | fuel + 1 =>
    let l := rotateFrom (s.port p).drrPtr (s.portQueues p (fun c => decide (c ≤ 5)))
    match s.round p open_ false l with
    | (s, true, _) => s
    | (s, false, true) => State.rounds s p open_ fuel
    | (s, false, false) => s

/-- The port is UP and idle, SWC and TMG run, and the module may send (R454: no frame leaves in the safe state). -/
def State.portIdle (s : State) (p : Nat) : Bool :=
  decide ((s.port p).ph = .up) && (s.port p).tx.isNone && !s.flt.safe && s.running bSWC && s.running bTMG

/-- The transmit decision of port `p` (R305). -/
def State.txDecide (s : State) (p : Nat) : State :=
  if !s.portIdle p then s
  else
    let c7 := if s.paused p 7 then none
      else (rotateAfter (s.port p).last7 (s.portQueues p (· == 7))).find? (fun q => s.shaperOk q)
    match c7 with
    | some q => (s.setPort p { s.port p with last7 := q }).startFrame p q
    | none =>
      let open_ := s.openLimit p
      match (if s.paused p 6 then none else s.gateQueue p), open_ with
      | some q, some t =>
        if t ≤ s.ns then s.startFrame p q
        else if s.pshOk p then s.rounds p open_ 160 else s
      | _, _ => if s.pshOk p then s.rounds p open_ 160 else s

/-- GATE_OPEN: a class-6 head's open time has come and the port is idle. -/
def State.gateOpen (s : State) (p : Nat) : State :=
  match s.openLimit p with
  | some t => if t ≤ s.ns then s.txDecide p else s
  | none => s

/-! ### The end of a frame (R14, R219, R220) -/

/-- HOLD_MS (R228). -/
def State.holdMs (s : State) : Nat := fld (Tbl.get (w32 (40 * 2 ^ 16 + 3)) s.regs 0xF00040).toNat 16 8 * ms

/-- The cache's view of a transmission that ended: the hold's time starts with the first one; a pruned copy of the
port that waits for its first class-6 frame takes its expiry (R220). -/
def State.holdTx (s : State) (p : Nat) (c : Copy) : State :=
  let s := match s.heldOf c with
    | some (k, h) =>
      if h.st = .sent then s
      else s.setHeld k { h with st := .sent, firstTx := s.ns, expiry := some (s.ns + s.holdMs) }
    | none => s
  if c.cls = 6 then
    { s with asm := { s.asm with cache := s.asm.cache.map (fun e =>
        match e.2.prunedAt with
        | some t => if decide (e.2.st = HeldSt.pruned) && decide (e.2.copy.dest = p) then
            (e.1, { e.2 with expiry := some (min (s.ns + s.holdMs) (t + 250 * ms)), prunedAt := none }) else e
        | none => e) } }
  else s

/-- A draining queue that has emptied is disabled, and its QUEUE_CLOSE completes (R291). -/
def State.closeIfEmpty (s : State) (q : Nat) : State :=
  let x := s.queue q
  if x.draining && x.copies.isEmpty then
    let s := s.setQueue q { x with en := false, draining := false, closer := none, deficit := 0 }
    match x.closer with
    | some r =>
      match (s.ring r.ring.val).flight.find? (fun f => decide (f.e.sseq = r.sseq)) with
      | some f => s.complete r.ring.val f.e cOK 0 []
      | none => s
    | none => s
  else s

/-- The last bit has left: counts, the destination reference, the cache, and the queue's close. -/
def State.endFrame (s : State) (p : Nat) (t : TxSt) : State :=
  let c := s.copy t.copy
  let s := s.setPort p { s.port p with tx := none }
  let s := s.bumpU bSWC 0 1 t.cells.length   -- those that no cell time has read yet
  let s := ((s.bumpU bPRT (p + 1) 2 1).bumpU bPRT (p + 1) 3 c.len)
  let s := (s.bump bTMG 0).bumpU bTMG 0 1 c.len
  let s := if c.cls = 6 then s.bump bTMG 2 else s
  let s := s.holdTx p c
  let s := s.dropCopy t.copy
  s.closeIfEmpty c.queue

/-- FRAME_TX_END: the port decides again (R14, R305). -/
def State.txEnd (s : State) (p : Nat) : State :=
  match (s.port p).tx with
  | some t => if t.ends ≤ s.ns then (s.endFrame p t).txDecide p else s
  | none => s

/-- FIT_MAX_EXPIRE: a head has been refused for FIT_MAX_US; an idle port decides (R300, R305). -/
def State.fitExpire (s : State) (q : Nat) : State :=
  let p := (s.queue q).dest
  if s.forced q then s.txDecide p else s

/-- COPY_ARRIVE: R279, and an idle port decides once a copy has joined (R305). -/
def State.arriveOp (s : State) (i : Nat) : State :=
  let d := (s.copy i).dest
  let (s, joined) := s.arrive i
  if joined && decide (d < 256) then s.txDecide d else s

/-- LAYBY_ADMIT: R280, and an idle port decides. -/
def State.laybyAdmitOp (s : State) (d c : Nat) : State :=
  let n := (s.laybyOf d c).length
  let s := s.laybyAdmit d c n
  if d < 256 ∧ (s.laybyOf d c).length < n then s.txDecide d else s

/-! ### TOKEN_CREDIT (R301, R303, R305, R64) -/

/-- A pending rate applies at a credit after the frame that was in transmission when it was written has ended. -/
def State.applyRate (s : State) (a : Nat) (txStart : Option Nat) : State :=
  match Tbl.find s.tmg.rateAt a with
  | none => s
  | some w =>
    let ok := match txStart with
      | none => true
      | some t => decide (w ≤ t)
    if ok then
      { s with regs := Tbl.put s.regs (a + 4) (w32 (fld (Tbl.get rateReset s.regs a).toNat 0 21)),
               tmg := { s.tmg with rateAt := Tbl.del s.tmg.rateAt a } }
    else s

def State.txStart (s : State) (p : Nat) : Option Nat := ((s.port p).tx).map TxSt.start

/-- The start of the latest transmission of a queue that names shaper `n`. -/
def State.shTxStart (s : State) (n : Nat) : Option Nat :=
  s.prt.ports.foldl (fun a e =>
    match e.2.tx with
    | some t => if (s.queue (s.copy t.copy).queue).shaper = n then some (min t.start (a.getD t.start)) else a
    | none => a) none

/-- The ports that a bucket rising above 0 lets decide. -/
def State.shaperPorts (s : State) (n : Nat) : List Nat :=
  (s.tmg.queues.filter (fun e => decide (e.2.shaper = n) && decide (e.2.dest < 256) && !e.2.copies.isEmpty)).map
    (fun e => e.2.dest)

/-- One credit of every enabled bucket, every 128 ns. -/
def State.creditAll (s : State) : State :=
  let s := s.tmg.psh.foldl (fun s e =>
    let a := pshAddr e.1
    let s := s.applyRate a (s.txStart e.1)
    if s.bkEn a then
      let b := s.psh e.1
      let b' := s.creditBk a b
      let s := { s with tmg := { s.tmg with psh := Tbl.put s.tmg.psh e.1 b' } }
      if b.tokens ≤ 0 ∧ 0 < b'.tokens then s.txDecide e.1 else s
    else s) s
  let s := s.tmg.qsh.foldl (fun s e =>
    let a := qshAddr e.1
    let s := s.applyRate a (s.shTxStart e.1)
    if s.bkEn a then
      let b := s.qsh e.1
      let b' := s.creditBk a b
      let s := { s with tmg := { s.tmg with qsh := Tbl.put s.tmg.qsh e.1 b' } }
      if b.tokens ≤ 0 ∧ 0 < b'.tokens then (s.shaperPorts e.1).foldl (fun s p => s.txDecide p) s else s
    else s) s
  s.tmg.pol.foldl (fun s e =>
    let a := polAddr e.1
    if s.bkEn a then
      let b := s.creditBk a (s.pol e.1)
      if b.asks ≠ [] ∧ Int.ofNat (s.bkBurst a * 2 ^ 15) ≤ b.tokens then
        let ports := b.asks.map Prod.fst
        let s := { s with tmg := { s.tmg with pol := Tbl.put s.tmg.pol e.1 { b with asks := [] } } }
        ports.foldl (fun s p => s.pfcSync p) s
      else { s with tmg := { s.tmg with pol := Tbl.put s.tmg.pol e.1 b } }
    else s) s

def State.tokenCredit (s : State) : State :=
  if s.tmg.creditAt + 128 ≤ s.ns then
    ({ s with tmg := { s.tmg with creditAt := s.tmg.creditAt + 128 } }).creditAll
  else s

/-- What a policer makes of a frame of `len` bytes received for flow index `f` (R303): dropped, or accepted with the
class it queues in, and whether XOFF is requested. -/
inductive Policed where
  | drop
  | pass
  | mark
  deriving DecidableEq, Repr

def State.police (s : State) (f len port cls : Nat) : State × Policed :=
  let a := polAddr f
  if 8192 ≤ f ∨ s.bkEn a = false then (s, .pass)
  else
    -- a pending rate applies to the next arriving frame of the flow (R64)
    let s := { s with regs := Tbl.put s.regs (a + 4) (w32 (fld (Tbl.get rateReset s.regs a).toNat 0 21)) }
    let b := s.pol f
    let put := fun (s : State) (b : Bucket) => { s with tmg := { s.tmg with pol := Tbl.put s.tmg.pol f b } }
    let n := Int.ofNat (len * 2 ^ 16)
    if n ≤ b.tokens then (put s (b.charge len), .pass)
    else
      let b := { b with exceed := satAdd b.exceed 1 0xFFFFFFFF }
      match fld (s.bkCfg a) 29 2 with
      | 0 => ((put s b).bump bTMG 8, .drop)
      | 1 => ((put s b).bump bTMG 9, .mark)
      | _ =>
        if b.tokens < - Int.ofNat (s.bkBurst a * 2 ^ 16) then ((put s b).bump bTMG 8, .drop)
        else
          let b := { b.charge len with asks := if b.asks.contains (port, cls) then b.asks else b.asks ++ [(port, cls)] }
          (((put s b).bump bTMG 10).pfcSync port, .pass)

end Sys2Proof.Machine
end

