-- ==== Sys2Proof/Machine/Sessions.lean ====
section
/-! DEFINITION. Who shows what (R162, R201 to R204, R208, R214): the contexts of a family and of its merge group, the tiles of a display,
the displays that a context serves, and the order in which a display's segments go out. -/

namespace Sys2Proof.Machine

open Sys2Proof

/-! ### Families and tiles (R202, R214) -/

/-- The encode contexts of a tile family, and of the merge group of a context (R202): the context alone when it has
no family. -/
def State.familyEncs (s : State) (fam : Nat) : List Nat :=
  (s.opens.filter (fun e => decide (e.2 = 3) && decide (s.cf e.1 0x0C 2 = fam))).map Prod.fst
def State.groupFams (s : State) (fam : Nat) : List Nat :=
  (s.opens.filter (fun e => decide (e.2 = 6) && decide (s.cf e.1 0x04 2 = s.cf fam 0x04 2))).map Prod.fst
def State.groupEncs (s : State) (r : Nat) : List Nat :=
  let fam := s.cf r 0x0C 2
  if fam = 0xFFFF then [r] else (s.groupFams fam).flatMap (fun f => s.familyEncs f)

/-- A destination entry of a tile: session, x0, y0, col, row. -/
structure Dest where
  sess : Nat
  x0 : Nat
  y0 : Nat
  col : Nat
  row : Nat
  deriving DecidableEq, Repr

/-- The destination entries of tile record `t`, in module memory. -/
def State.dests (s : State) (t : Nat) : List Dest :=
  let base := s.cf t 0x10 8
  (List.range (s.cf t 0x0C 2)).map (fun i =>
    let b := s.dram (base + 8 * i) 8
    { sess := rd b 0 2, x0 := rd b 2 1, y0 := rd b 3 1, col := rd b 4 1, row := rd b 5 1 })

/-- The tiles of a family, and the tiles that a session shows. -/
def State.familyTiles (s : State) (fam : Nat) : List Nat :=
  (s.opens.filter (fun e => decide (e.2 = 7) && decide (s.cf e.1 0x02 2 = fam))).map Prod.fst
def State.shownTiles (s : State) (d : Nat) : List Nat :=
  (s.opens.filter (fun e => decide (e.2 = 7) && (s.dests e.1).any (fun x => decide (x.sess = d)))).map Prod.fst

/-- The member displays of a family. -/
def State.familyMembers (s : State) (fam : Nat) : List Nat :=
  (s.opens.filter (fun e => decide (e.2 = 1) && (s.shownTiles e.1).any (fun t => decide (s.cf t 0x02 2 = fam)))).map Prod.fst

/-- A private tile: its family is of that tile alone (R202). -/
def State.privateTile (s : State) (t : Nat) : Bool := decide ((s.familyTiles (s.cf t 0x02 2)).length ≤ 1)

/-- The displays that encode context `e` serves. -/
def State.sessOf (s : State) (e : Nat) : List Nat :=
  (s.opens.filter (fun x => decide (x.2 = 1) && (decide (s.cf x.1 0x38 2 = e) ||
    (s.shownTiles x.1).any (fun t => decide (s.cf t 0x04 2 = e))))).map Prod.fst

/-! ### Session states (R162, R166) -/

def sCLOSED : Nat := 0
def sACQUIRE : Nat := 1
def sLOCKED : Nat := 2
def sRELOCK : Nat := 3
def sLOST : Nat := 4
def sSUSPENDED : Nat := 5

/-- The session's endpoint is open: media is dispatched to it (R245). -/
def State.media (s : State) (d : Nat) : Bool := decide ((Tbl.get {} s.erelm.sess d).ph = .open_)

/-- Sessions whose rows are dispatched (R166, R245). -/
def State.paced (s : State) (d : Nat) : Bool := [sLOCKED, sRELOCK, sLOST].contains (s.cf d 0x01 1) && s.media d

/-! ### The order of a display's segments (R208) -/

/-- Rows of display `d`: those of its encode context, or of its family's tiles. -/
def State.displayRows (s : State) (d : Nat) : Nat := ceilDiv (s.cf d 0x0A 2) (max 1 (s.cf d 0x0E 2))

/-- The tiles of which row `row` of display `d` is a row: tile record, its row, and the destination. -/
def State.tilesAt (s : State) (d row : Nat) : List (Nat × Nat) :=
  (s.shownTiles d).flatMap (fun t =>
    ((s.dests t).filter (fun x => decide (x.sess = d))).filterMap (fun x =>
      let y := x.y0
      let e := s.cf t 0x04 2
      if y ≤ row ∧ row < y + s.cf e 0x4E 2 then some (t, row - y) else none))

/-- The tiles of a display row, from the leftmost column. -/
def State.rowTiles (s : State) (d row : Nat) : List (Nat × Dest) :=
  let l := (s.tilesAt d row).filterMap (fun t =>
    ((s.dests t.1).find? (fun x => decide (x.sess = d) && decide (x.y0 + t.2 = row))).map
      (fun x => (t.1, x)))
  (List.range 21).flatMap (fun c => l.filter (fun x => decide (x.2.col = c)))

/-- The next place of a session's transmission order after a segment. -/
def State.nextPlace (s : State) (d : Nat) (n : Nat × Nat × Nat) : Nat × Nat × Nat :=
  let cols := max 1 (if s.cf d 0x38 2 = 0xFFFF then (s.rowTiles d n.2.1).length else 1)
  if n.2.2 + 1 < cols then (n.1, n.2.1, n.2.2 + 1)
  else if n.2.1 + 1 < s.displayRows d then (n.1, n.2.1 + 1, 0)
  else (n.1 + 1, 0, 0)

/-- The destination that a session's port names (R162, R273): a port, or the link to another module. -/
def State.destOf (s : State) (d : Nat) : Nat :=
  let p := s.cf d 0x04 2
  if p < 0x8000 then p else 261 + (p / 256 % 128 + 7 - s.plt.cascId) % 4

/-! ### Drain lag (R130, R208) -/

/-- A session's waiting segments from its next place on, as far as none is missing: those that no order keeps in ASM. -/
def State.orderRun (s : State) (d : Nat) : Nat → Nat × Nat × Nat → List Seg
  | 0, _ => []
  | fuel + 1, n =>
    match (Tbl.get [] s.asm.segs d).find? (fun g => decide (g.pic = n.1) && decide (g.row = n.2.1) && decide (g.place = n.2.2)) with
    | none => []
    | some g => g :: State.orderRun s d fuel (s.nextPlace d n)

/-- Cells of a packet that a segment waits to pass on. -/
def State.pktCells (s : State) (p : PktD) : Nat :=
  let body : List W32 := match p.body with
    | some b => (Tbl.get {} s.asm.bodies b).cells
    | none => []
  max 1 (ceilDiv p.head 128) + body.length

/-- The first packet of a segment is held for lack of switch credits. -/
def State.segHeld (s : State) (d : Nat) (g : Seg) : Bool :=
  match g.pkts with
  | p :: _ => !p.lost && !(s.hasCredit (Config.asmUnit g.enc % 4) (s.groupOf (s.destOf d)) 6 (s.pktCells p))
  | [] => false

/-- The age of the oldest packet of a context that ASM holds for one session for lack of credits. -/
def State.sessLag (s : State) (r d : Nat) : Nat :=
  match s.orderRun d (Tbl.get [] s.asm.segs d).length (Tbl.get (0, 0, 0) s.asm.next d) with
  | [] => 0
  | g :: l => if s.segHeld d g then (((g :: l).filter (fun x => decide (x.enc = r))).map (fun x => s.ns - x.at_)).foldl max 0 else 0

/-- The drain lag of a context in ns (R130): the largest over its destinations, and what its SLICE pool at BACKPRESSURE adds (R17, R345). -/
def State.drainLag (s : State) (r : Nat) : Nat :=
  max ((s.asm.segs.map (fun e => s.sessLag r e.1)).foldl max 0)
    (if (Tbl.get {} s.bpm.pools (s.cf r 0x21 1)).bpOn then Config.sliceLag s.free else 0)

end Sys2Proof.Machine
end

