-- ==== Sys2Proof/Machine/Rate.lean ====
section
/-! DEFINITION. Rate control and gradual refresh (R123 to R144): the link bucket, picture and row targets, the row
QP, the refresh sweep, coasting, and the settlement of a picture. -/

namespace Sys2Proof.Machine

open Sys2Proof

def State.enc (s : State) (r : Nat) : EncSt := Tbl.get {} s.msc.encs r
def State.setEnc (s : State) (r : Nat) (e : EncSt) : State :=
  { s with msc := { s.msc with encs := Tbl.put s.msc.encs r e } }
def State.ovlOf (s : State) (k : Nat) : OvlRes := Tbl.get {} s.msc.ovl k

/-- Signed field of a record. -/
def State.cfI (s : State) (r off n : Nat) : Int := sgn (s.cf r off n) (8 * n)
def State.setCfI (s : State) (r off n : Nat) (x : Int) : State := s.setCf r off n (unsgn x (8 * n))

/-- The active target in kb/s, and avg of R123 for it; a family tile's effective target is scaled (R131). -/
def State.targetAct (s : State) (r : Nat) : Nat := fld (s.cf r 0x54 4) 0 31
def avgBits (kbps num den rateNum rateDen : Nat) : Nat := kbps * num * 1000 * rateDen / (den * rateNum)
def State.avgOf (s : State) (r : Nat) : Nat :=
  avgBits (s.targetAct r) (s.enc r).budget.1 (s.enc r).budget.2 (s.cf r 0x10 2) (s.cf r 0x12 2)

/-- bucket_size as the module computes with it (R124). -/
def State.bucketOf (s : State) (r : Nat) : Nat := max (s.cf r 0x5C 4) (s.avgOf r)

/-- The units across the picture or tile (R133): CTU columns of 32 samples, or macroblock columns of 16. -/
def State.isAvc (s : State) (r : Nat) : Bool := decide (fld (s.cf r 0x02 2) 0 2 = 1)
def State.colsOf (s : State) (r : Nat) : Nat := ceilDiv (s.cf r 0x04 2) (if s.isAvc r then 16 else 32)
def State.rowLines (s : State) (r : Nat) : Nat := if s.isAvc r then 16 else 32

/-- MSC_RC_DRAIN and MSC_RC_REFRESH (R145). -/
def State.rcDrain (s : State) : Nat := (Tbl.get (w32 (6 * 2 ^ 28 + 100 * 2 ^ 16 + 100)) s.regs 0xD00400).toNat
def State.rcSlack (s : State) : Nat := fld (Tbl.get 4 s.regs 0xD00404).toNat 0 4

/-! ### Bias inputs (R130, R132) -/

/-- The drain bias for a lag in ns. -/
def State.drainBias (s : State) (lag : Nat) : Nat :=
  let th := fld s.rcDrain 0 16
  let step := fld s.rcDrain 16 12
  let top := min (fld s.rcDrain 28 4) 12
  if lag / us < th then 0 else min top (1 + (lag / us - th) / step)

/-- The ports of a context's display sessions, and the resources that it uses (R132, R180): its lane, the pipe set, memory, and those
ports. -/
def State.portsOf (s : State) (r : Nat) : List Nat := ((s.sessOf r).map (fun d => s.cf d 0x04 2)).eraseDups

def State.resOf (s : State) (r : Nat) : List Nat :=
  [s.cf r 0x14 1, 64, 65] ++ (s.portsOf r).map (fun p => 128 + p)

/-- The overload bias of a context: for LIVE, the largest LIVE bias among its resources. -/
def State.ovlBias (s : State) (r : Nat) : Nat :=
  if s.cf r 0x0B 1 = 0 then (s.resOf r).foldl (fun a k => max a (s.ovlOf k).bias) 0 else 0

/-! ### Picture start (R125, R126, R133, R136, R137) -/

/-- Whether MSC skips picture `pic` for overload (R180) or on hold-up (R445). -/
def State.skipForLoad (s : State) (r pic : Nat) : Bool :=
  let band := s.cf r 0x0B 1
  (decide (band = 1) && ((s.resOf r).any (fun k => decide (pic % 8 < (s.ovlOf k).skip8)) || decide (2 ≤ s.plt.shed))) ||
  (decide (band = 0) && decide (3 ≤ s.plt.shed))

/-- The start of a sweep at picture `pic`: column 0, and SLACK as it stands, or as a REFRESH_COMMIT has committed to it for a restart (R135,
R136). -/
def State.newSweep (s : State) (r pic : Nat) (restart : Bool) : State :=
  let e := s.enc r
  s.setEnc r { e with sweepPic := 0, sweeping := true, n0 := pic, slack := if restart then e.slackNext.getD s.rcSlack else s.rcSlack,
                      slackUsed := 0, front := 0, ends := [], slackNext := if restart then none else e.slackNext }

/-! ### The family budget (R131) -/

/-- The host target of a tile's encode context. -/
def State.tileTarget (s : State) (t : Nat) : Nat := s.targetAct (s.cf t 0x04 2)

/-- B_fam: the least of LB_d - P_d over the members, P_d being the targets of the private tiles that d shows. -/
def State.famBudget (s : State) (fam : Nat) : Nat :=
  let l := (s.familyMembers fam).map (fun d =>
    let p := ((s.shownTiles d).filter (fun t => decide (s.cf t 0x02 2 ≠ fam) && s.privateTile t)).foldl (fun a t => a + s.tileTarget t) 0
    s.cf d 0x14 4 - p)
  match l with
  | [] => 0
  | x :: r => r.foldl min x

/-- The smallest q with 2^q b^6 ≥ t^6: ceil(6 log2(t / b)), at most 12. -/
def biasCeil (t b : Nat) : Nat := ((List.range 12).find? (fun q => decide (t ^ 6 ≤ 2 ^ q * b ^ 6))).getD 12

/-- The family budget of a family picture: effective targets, family_bias, and MSC_FAMILY_BUDGET (R131). -/
def State.setBudget (s : State) (fam : Nat) : State :=
  let b := s.famBudget fam
  let tiles := s.familyTiles fam
  let t := tiles.foldl (fun a x => a + s.tileTarget x) 0
  let low := decide (b ≤ 64 * tiles.length)
  let bias := if low then 12 else if t ≤ b then 0 else biasCeil t b
  let s := s.setCf fam 0x14 4 b
  let s := if low then s.event .mscFamilyBudget fam b else s
  (s.familyEncs fam).foldl (fun s r =>
    (s.setEnc r { s.enc r with familyBias := bias, budget := if t ≤ b then (1, 1) else (b, t) }).setCf r 0x75 1 bias) s

/-- What was decided for picture `pic` of a context: SKIP_PIC, REFRESH_RESTART, IDR. -/
def State.markOf (s : State) (r pic : Nat) : Bool × Bool × Bool :=
  match (s.enc r).marks.find? (fun m => decide (m.1 = pic)) with
  | some (_, m) => m
  | none => (false, false, false)

/-- A pending target becomes active at the start of a picture (R64, R123). -/
def State.applyTarget (s : State) (r : Nat) : State :=
  if tb (s.cf r 0x54 4) 31 then s.setCf r 0x54 4 (fld (s.cf r 0x50 4) 0 31) else s

/-- What is decided for picture `pic` of a context, and of its whole merge group (R202), once: skip, restart, IDR, the targets, and the family
budgets. (DEDUCED, log 108.) -/
def State.decidePic (s : State) (r pic : Nat) : State :=
  if (s.enc r).marks.any (fun m => decide (m.1 = pic)) then s
  else
    let g := s.groupEncs r
    let restart := g.any (fun t => (s.enc t).restartNext)
    let wantSkip := g.any (fun t => (s.enc t).skipNext || s.skipForLoad t pic)
    let idr := g.any (fun t => (s.enc t).idrNext)
    let restart' := restart && !idr
    let skip := wantSkip && !idr && !restart'
    let s := g.foldl (fun s t =>
      let e := s.enc t
      (s.setEnc t { e with marks := (pic, skip, restart' || (e.idrNext && !idr), e.idrNext) :: e.marks.take 15, restartNext := false,
                           skipNext := wantSkip && !skip, idrNext := false }).applyTarget t) s
    let fam := s.cf r 0x0C 2
    if fam = 0xFFFF then s
    else
      let s := if skip then (s.groupFams fam).foldl (fun s f => s.incCf f 0x24 4 1) s else s
      let s := (s.groupFams fam).foldl (fun s f => (s.setCf f 0x10 4 pic).setCf f 0x01 1 2) s
      (s.groupFams fam).foldl (fun s f => s.setBudget f) s

/-- Row 0 of picture `pic` is first dispatched: the picture's flags are fixed, a pending target becomes active (R64),
the bucket drains (R125), and a restart or a new sweep takes effect (R133, R136). -/
def State.picStart (s : State) (r pic : Nat) : State :=
  if (s.enc r).drained = some pic then s
  else
    let s := s.decidePic r pic
    let m := s.markOf r pic
    let s := s.setEnc r { s.enc r with drained := some pic }
    let fill := s.cfI r 0x60 4
    let s := if m.2.2 then s else s.setCfI r 0x60 4 (max 0 (fill - Int.ofNat (s.avgOf r)))
    let s := (s.setCf r 0x44 4 pic).setCf r 0x01 1 2
    let s := if s.cf r 0x0E 2 = 0xFFFF then s else s.setCf (s.cf r 0x0E 2) 0x01 1 2
    if m.2.1 then (s.newSweep r pic true).incCf r 0xA8 4 1
    else if !m.2.2 && !(s.enc r).sweeping then s.newSweep r pic false
    else s

/-- The refresh columns of the picture that is next in the sweep: the column after the last. -/
def State.colEnd (s : State) (r : Nat) : Nat :=
  let i := (s.enc r).sweepPic
  let p := s.cf r 0x70 2
  if p = 0 then s.colsOf r else min (s.colsOf r) ((i + 1) * s.colsOf r / p)

/-- The picture target and the borrow limit (R126), when row 0 starts on a lane. The record shows them, and the carry less what the picture
repays, when row 0 completes (R74). -/
def State.picTarget (s : State) (r pic : Nat) (skip idr : Bool) : State :=
  let s := if !idr && !(s.enc r).sweeping then s.newSweep r pic false else s
  let e := s.enc r
  let avg := s.avgOf r
  let bucket := s.bucketOf r
  let fill := s.cfI r 0x60 4
  let nominal := bucket / 2
  let take := if idr then 0 else min (s.cfI r 0x6C 4) (Int.ofNat (avg / 4))
  let raw : Int := if idr then Int.ofNat nominal
    else Int.ofNat avg + (Int.ofNat nominal - fill).fdiv 8 - take
  let target := max (Int.ofNat (avg / 8)) (min raw (Int.ofNat bucket - fill))
  let borrow := max 0 (min (Int.ofNat (s.cf r 0x64 4)) (Int.ofNat bucket - fill - target))
  let forced := e.sweeping && decide (e.slack ≤ e.slackUsed)
  let cur : RcPic := { pic := pic, open_ := true, target := target, borrow := borrow, avg := avg, take := take,
                       skip := skip, idr := idr, forced := forced, colStart := e.front, colEnd := s.colEnd r,
                       biased := decide (0 < s.ovlBias r), heads := s.cf r 0x70 2 - 1 + e.slack }
  s.setEnc r { e with prev := e.cur, cur := cur }

/-- Row 0 of a picture has completed: the record shows the picture target, and the carry that the picture has repaid (R74, R126). -/
def State.publishTarget (s : State) (r : Nat) (p : RcPic) : State :=
  (s.setCfI r 0x68 4 p.target).setCfI r 0x6C 4 (s.cfI r 0x6C 4 - p.take)

/-! ### The front (R133, R134, R140) -/

/-- The front after picture `pic`: it advances when the picture neither coasted nor was skipped, or under the deferral
limit; else the sweep is one picture longer (R133, R140). -/
def State.moveFront (s : State) (r pic : Nat) (ok : Bool) : State :=
  let e := s.enc r
  let c := s.colEnd r
  if !e.sweeping then s
  else if ok then
    s.setEnc r { e with front := c, sweepPic := e.sweepPic + 1, sweeping := decide (c < s.colsOf r), ends := (pic, c) :: e.ends.take 15 }
  else s.setEnc r { e with slackUsed := e.slackUsed + 1, ends := (pic, e.front) :: e.ends.take 15 }

/-- MSC dispatches rows of a tile: it is not suspended, it has a lane, and a display shows it (R166, R204). -/
def State.tileCodes (s : State) (t : Nat) : Bool :=
  !(s.enc t).suspended && decide (s.cf t 0x14 1 < 64) && (s.sessOf t).any (fun d => s.paced d)

/-- The outcome of a picture of a tile is known: every row of it has started, or it has passed. -/
def State.outcome (s : State) (t pic : Nat) : Bool :=
  let e := s.enc t
  decide (pic < e.cur.pic) || (decide (e.cur.pic = pic) && e.cur.counted)

/-- A tile still owes the outcome of a picture before `pic`: rows of it are waiting, or not all are created. (DEDUCED, log 108.) -/
def State.tileOwes (s : State) (t pic : Nat) : Bool :=
  let e := s.enc t
  s.tileCodes t &&
  ((e.cur.open_ && decide (e.cur.pic < pic) && !e.cur.counted) ||
   s.msc.jobs.any (fun x => decide (x.2.op = .encode) && decide (x.2.ctx = t) && decide (x.2.pic < pic) && !(s.outcome t x.2.pic)) ||
   (decide (e.made.1 < pic) && decide (0 < e.made.2) && decide (e.made.2 < s.cf t 0x4E 2) && !(s.outcome t e.made.1)))

/-- The tiles of a family are in lock step: row 0 of a picture is dispatched once every tile of the group has decided what its earlier
pictures did to the front (R133, R202). -/
def State.inStep (s : State) (j : Job) : Bool :=
  decide (j.op ≠ .encode) || decide (j.row ≠ 0) || decide (s.cf j.ctx 0x0C 2 = 0xFFFF) ||
    (s.groupEncs j.ctx).all (fun t => !(s.tileOwes t j.pic))

/-- The fronts of a family's tiles, once every tile that is coded has the outcome of picture `pic`. -/
def State.moveFamily (s : State) (fam pic : Nat) : State :=
  let l := (s.familyEncs fam).filter (fun t => match (s.enc t).ended with
    | some (q, _) => decide (q = pic)
    | none => false)
  if (s.familyEncs fam).any (fun t => !(l.contains t) && s.tileOwes t (pic + 1)) then s
  else
    let all := l.all (fun t => match (s.enc t).ended with
      | some (_, b) => b
      | none => true)
    l.foldl (fun s t =>
      let s := s.moveFront t pic all
      s.setEnc t { s.enc t with ended := none }) s

/-- The outcome of a picture that is known moves the front, or is noted for the family (R133). -/
def State.noteSweep (s : State) (r : Nat) (p : RcPic) : State :=
  let e := s.enc r
  let s := s.setEnc r (if e.cur.pic = p.pic then { e with cur := { e.cur with counted := true } }
    else { e with prev := { e.prev with counted := true } })
  let ok := (!p.coasted && !p.skip) || p.forced
  let fam := s.cf r 0x0C 2
  if p.counted ∨ p.idr ∨ p.pic < e.n0 then s   -- counted before, or not a picture of the sweep in progress
  else if fam = 0xFFFF then s.moveFront r p.pic ok
  else (s.setEnc r { s.enc r with ended := some (p.pic, ok) }).moveFamily fam p.pic

/-- refresh_col as a row completes: the context's own, and those of its family's tiles whose picture has ended. -/
def State.publishFront (s : State) (r : Nat) : State :=
  let fam := s.cf r 0x0C 2
  let s := s.setCf r 0x72 2 (s.enc r).front
  if fam = 0xFFFF then s
  else (s.familyEncs fam).foldl (fun s t => if (s.enc t).cur.open_ then s else s.setCf t 0x72 2 (s.enc t).front) s

/-! ### Row target and QP (R127, R128, R138, R139) -/

/-- Row weights from the previous coded picture, scaled by the number of valid rows. -/
def rowWeight (prev : Tbl RcRow) (rows : Nat) (i : Nat) : Nat :=
  let costs := (List.range rows).filterMap (fun j => (Tbl.get {} prev j).cost)
  match (Tbl.get {} prev i).cost with
  | some c => c * costs.length
  | none => if costs.isEmpty then 1 else costs.foldl (· + ·) 0

/-- committed of R127: bits of completed rows, and targets of rows still in the pipeline. -/
def committed (cur : RcPic) : Int :=
  cur.rows.foldl (fun a e => a + if e.2.done then Int.ofNat e.2.bits else e.2.target) 0

/-- The largest q with 2^(2q - 1) ≤ (pb / rt)^12: 6 log2(pb / rt), rounded half up (R128). -/
def qpDelta (pb rt : Nat) : Int :=
  let ok := fun (q : Int) =>
    -- 2^(2q-1) * rt^12 ≤ pb^12
    if 0 ≤ 2 * q - 1 then decide (2 ^ (2 * q - 1).toNat * rt ^ 12 ≤ pb ^ 12)
    else decide (rt ^ 12 ≤ pb ^ 12 * 2 ^ (1 - 2 * q).toNat)
  (List.range 401).foldl (fun a i => if ok (Int.ofNat i - 200) then Int.ofNat i - 200 else a) (-200)

/-- A row that starts: its target, its QP, and whether it coasts. -/
structure RowPlan where
  target : Int
  qp : Int
  coast : Bool
  deriving DecidableEq, Repr

/-- R127, R128, R138, R139 for row `row` of context `r` with its sampled biases. (DESIGN CHOICE, log 64.) -/
def State.rowPlan (s : State) (r row drain ovl : Nat) : RowPlan :=
  let e := s.enc r
  let cur := e.cur
  let n := s.cf r 0x4E 2
  let com := committed cur
  let coast := cur.coasted || (decide (0 < row) && decide (cur.target ≤ com))
  let w := rowWeight e.prev.rows n
  let sum := ((List.range (n - row)).map (fun i => w (row + i))).foldl (· + ·) 0
  let rt : Int := if sum = 0 then Config.rowShare s.free
    else ((cur.target - com) * Int.ofNat (w row)).fdiv (Int.ofNat sum)
  let lo := Int.ofNat (s.cf r 0x58 1 + e.familyBias)
  let hi := Int.ofNat (s.cf r 0x59 1)
  let qprev : Int := if 0 < row then (Tbl.get {} cur.rows (row - 1)).qp
    else if cur.idr then Int.ofNat (s.cf r 0x5A 1)
    else match Tbl.find e.prev.rows 0 with
      | some x => x.qp
      | none => Int.ofNat (s.cf r 0x5A 1)
  let p := Tbl.get {} e.prev.rows row
  let q : Int := if p.cost.isSome && decide (0 < p.bits) then
      (if 0 < rt then p.qp + qpDelta p.bits rt.toNat else p.qp + Config.qpStep s.free)
    else qprev
  let q := q + Int.ofNat drain + Int.ofNat ovl
  let q := clampI (qprev - 3) (qprev + 3) q
  let q := clampI lo hi q
  -- in a coast row what must be coded is coded at qp_max (R139, R140)
  let first := cur.idr || (cur.forced && decide (cur.colStart = 0) && decide (0 < cur.colEnd))
  { target := if coast then 0 else rt, qp := if (coast || cur.skip) && first then hi else q, coast := coast }

/-- The row enters the pipeline for the first time; with the last row of a picture the picture's outcome is known. -/
def State.rowStart (s : State) (r row : Nat) (p : RowPlan) : State :=
  let e := s.enc r
  let rows := if p.coast && !e.cur.coasted then e.cur.rows.map (fun x => (x.1, { x.2 with topped := !x.2.done })) else e.cur.rows
  let s := (s.draw).setEnc r { e with cur := { e.cur with
    coasted := e.cur.coasted || p.coast,
    rows := Tbl.put rows row { target := p.target, qp := p.qp } } }
  if s.cf r 0x4E 2 ≤ (s.enc r).cur.rows.length then s.noteSweep r (s.enc r).cur else s

/-! ### Row completion and picture settlement (R125, R133, R141, R142, R144) -/

/-- Bits of a completed row enter the bucket; what its ceiling holds out is the picture's clip. -/
def State.bucketAdd (s : State) (r bits : Nat) : State × Nat :=
  let fill := s.cfI r 0x60 4 + Int.ofNat bits
  let ceil := Int.ofNat (s.bucketOf r + s.cf r 0x64 4)
  if ceil < fill then (s.setCfI r 0x60 4 ceil, (fill - ceil).toNat) else (s.setCfI r 0x60 4 fill, 0)

/-- A display whose picture was coded under SKIP_PIC, and one whose picture was coded with a LIVE bias: once for a picture, whatever the
number of its tiles (R162, R181). -/
def State.countSkip (s : State) (d pic : Nat) : State :=
  let x := Tbl.get {} s.msc.rasters d
  if x.skipAt = some pic then s
  else ({ s with msc := { s.msc with rasters := Tbl.put s.msc.rasters d { x with skipAt := some pic } } }).incCf d 0x84 4 1
def State.countBias (s : State) (d pic ns : Nat) : State :=
  let x := Tbl.get {} s.msc.rasters d
  if x.biasAt = some pic then s
  else
    let n := x.biasNs + ns
    ({ s with msc := { s.msc with rasters := Tbl.put s.msc.rasters d { x with biasAt := some pic, biasNs := n % ms } } }).incCf d 0x88 4 (n / ms)

/-- A picture's overshoot settled (R141), the next picture marked for a skip (R142), and the picture counted (R144). -/
def State.settlePic (s : State) (r : Nat) (p : RcPic) : State :=
  let excess := Int.ofNat p.bits - p.target
  let b := if 0 < excess then min excess p.borrow else 0
  let carry := s.cfI r 0x6C 4 + max (excess - b) (Int.ofNat p.clip)
  let band := s.cf r 0x0B 1
  let carry := if band = 0 then min carry (2 * Int.ofNat p.avg) else carry
  let carry := if p.skip then max 0 (carry - (Int.ofNat p.avg - Int.ofNat p.bits)) else carry
  let s := (s.setCfI r 0x6C 4 carry).incCf r 0x98 8 b.toNat
  let s := s.incCf r 0x80 8 1
  let s := if p.skip then s.incCf r 0xA4 4 1 else s
  let shown := s.sessOf r
  let s := if p.skip then shown.foldl (fun s d => s.countSkip d p.pic) s else s
  let period := if s.cf r 0x10 2 = 0 then 0 else oneSec * s.cf r 0x12 2 / s.cf r 0x10 2
  let s := if p.biased then shown.foldl (fun s d => s.countBias d p.pic period) s else s
  let need := decide (0 < band) && (decide (Int.ofNat p.avg < carry) || decide (Int.ofNat (s.bucketOf r) < s.cfI r 0x60 4))
  let s := if need then s.setEnc r { s.enc r with skipNext := true } else s
  s.noteSweep r p

/-- A completed row as rate control takes it: bits, first QP, complexity (none for coast, skipped and IDR-predecessor
rows), and the picture settled with its last row. -/
def State.rcRowDone (s : State) (r pic row bits : Nat) (cost : Option Nat) : State :=
  let (s, clip) := s.bucketAdd r bits
  let e := s.enc r
  let n := s.cf r 0x4E 2
  let upd := fun (p : RcPic) =>
    let x := Tbl.get {} p.rows row
    let fresh := !x.done
    let y : RcRow := { x with bits := bits, done := true, cost := if p.skip then none else cost }
    { p with bits := p.bits + bits, clip := p.clip + clip, doneRows := if fresh then p.doneRows + 1 else p.doneRows,
             rows := Tbl.put p.rows row y }
  if e.cur.pic = pic ∧ e.cur.open_ then
    let p := upd e.cur
    if n ≤ p.doneRows then
      (s.setEnc r { e with cur := { p with open_ := false } }).settlePic r p
    else s.setEnc r { e with cur := p }
  else if e.prev.pic = pic ∧ e.prev.open_ then
    let p := upd e.prev
    if n ≤ p.doneRows then
      (s.setEnc r { e with prev := { p with open_ := false } }).settlePic r p
    else s.setEnc r { e with prev := p }
  else s

/-- A restart of the refresh sweep decided for a context, or for every tile of its merge group (R136, R202). -/
def State.restartRefresh (s : State) (r : Nat) : State :=
  (s.groupEncs r).foldl (fun s t => s.setEnc t { s.enc t with restartNext := true }) s

/-- The same, caused by display `d`: each family that it is a member of counts it, unless it merges into one decided before (R136, R213). -/
def State.restartFor (s : State) (d r : Nat) : State :=
  let fams := if (s.enc r).restartNext then [] else ((s.shownTiles d).map (fun t => s.cf t 0x02 2)).eraseDups
  (fams.foldl (fun s f => s.incCf f 0x20 4 1) s).restartRefresh r

/-- The clean picture that the module commits to for a restart at picture n0 (R136): n0 + P - 1 + SLACK. -/
def State.cleanPic (s : State) (r n0 : Nat) : Nat := n0 + s.cf r 0x70 2 - 1 + (s.enc r).slackNext.getD s.rcSlack

/-- The SLACK that a commitment uses is the one that its restart will use (R135, R136). -/
def State.commitSlack (s : State) (r : Nat) : State :=
  (s.groupEncs r).foldl (fun s t => s.setEnc t { s.enc t with slackNext := some ((s.enc t).slackNext.getD s.rcSlack) }) s

end Sys2Proof.Machine
end

