-- ==== Sys2Proof/Machine/Frames.lean ====
section
/-! DEFINITION. Frame buffers (R146 to R158): descriptors, references of the encoder, and what the decoder does at
picture start, at a row, and at picture end. -/

namespace Sys2Proof.Machine

open Sys2Proof

def State.frame (s : State) (h : W32) : FrameD := Tbl.get {} s.bpm.frames (hKey h)
def State.setFrame (s : State) (h : W32) (f : FrameD) : State :=
  { s with bpm := { s.bpm with frames := Tbl.put s.bpm.frames (hKey h) f } }
def State.dec (s : State) (r : Nat) : DecSt := Tbl.get {} s.msc.decs r
def State.setDec (s : State) (r : Nat) (d : DecSt) : State :=
  { s with msc := { s.msc with decs := Tbl.put s.msc.decs r d } }

/-- The 32-byte descriptor of a frame buffer (R147). -/
def State.frameBytes (s : State) (h : W32) : Bytes :=
  let f := s.frame h
  let b := s.buf (hKey h)
  leBytes 4 h.toNat ++ leBytes 1 b.marks ++ leBytes 1 f.attr ++ leBytes 2 b.count ++ leBytes 2 f.context ++
  leBytes 2 f.width ++ leBytes 2 f.height ++ leBytes 1 f.bitDepth ++ leBytes 1 f.rowsDone ++ leBytes 4 f.alias_.toNat ++
  leBytes 4 f.pic ++ leBytes 4 f.poc.toNat ++ zeros 4

/-- A substitute that has returned to its pool releases the reference on the picture it stood for (R153). -/
def State.aliasGone (s : State) (agent : Nat) (h : W32) : State :=
  let f := s.frame h
  if (s.buf (hKey h)).alloc then s
  else if tb f.attr 0 && decide (f.alias_ ≠ nullHandle) then
    (s.setFrame h { f with alias_ := nullHandle }).decRef agent f.alias_
  else s

/-- An operation on an allocated buffer, with the release of a substitute's alias when it frees it. -/
def State.freeing (s t : State) (agent : Nat) (h : W32) : State := if (s.buf (hKey h)).alloc then t.aliasGone agent h else t

/-- CLRMARK, DEC and FREE with the release of a substitute's alias. -/
def State.clrMarkA (s : State) (agent : Nat) (h : W32) (m : Nat) : State := s.freeing (s.clrMark agent h m) agent h
def State.decRefA (s : State) (agent : Nat) (h : W32) : State := s.freeing (s.decRef agent h) agent h
def State.freeRefA (s : State) (agent : Nat) (h : W32) : State := s.freeing (s.freeRef agent h) agent h

/-- A mark cleared if the buffer carries it. -/
def State.unmark (s : State) (agent : Nat) (h : W32) (m : Nat) : State :=
  if tb (s.buf (hKey h)).marks m && !s.stale h then s.clrMarkA agent h m else s

/-- A frame buffer taken for a context, with its descriptor; its content is what the allocation drew. -/
def State.newFrame (s : State) (agent ctx pool w h depth pic : Nat) (poc : W32) (attr : Nat) : State × W32 :=
  let (s, hd) := s.alloc agent pool 0 false
  if hd = nullHandle then (s, hd)
  else (s.setFrame hd { attr := attr, context := ctx, width := w, height := h, bitDepth := depth, pic := pic, poc := poc,
                        content := (s.frame hd).content }, hd)

def setAttr (f : FrameD) (i : Nat) : FrameD := { f with attr := if tb f.attr i then f.attr else f.attr + 2 ^ i }
def clrAttr (f : FrameD) (i : Nat) : FrameD := { f with attr := if tb f.attr i then f.attr - 2 ^ i else f.attr }

/-! ### What stands in a buffer (R146, R151) -/

/-- Bytes of a picture in the internal format: its samples and their metadata (R146). -/
def storedBytes (w h depth : Nat) : Nat :=
  let n := 3 * w * h * (if depth = 10 then 2 else 1) / 2
  n + n / 256

/-- Row `row` of `rows` of a picture written in the internal format: its share of the buffer's bytes, which are a function of the samples
(R151), and rows_done. -/
def State.frameRow (s : State) (h : W32) (rows row : Nat) : State :=
  let f := s.frame h
  let n := storedBytes f.width f.height f.bitDepth
  let lo := n * row / max 1 rows
  let hi := n * (row + 1) / max 1 rows
  let s := s.setFrame h { f with rowsDone := min 255 (f.rowsDone + 1) }
  s.store (s.bufAt h + lo) ((List.range (hi - lo)).map (fun i => Config.codedByte f.content (lo + i)))

/-- Mid-grey of a picture (R153). -/
def greyOf (depth : Nat) : Nat := if depth = 10 then 512 else 128

/-- What a prediction from a buffer reads: its samples, or, of a substitute, those of the picture that it stands for (R153). -/
def State.predOf (s : State) (h : W32) : PredSrc :=
  let f := s.frame h
  if !(tb f.attr 0) then .samples f.content
  else if f.alias_ = nullHandle then .grey (greyOf f.bitDepth)
  else .samples (s.frame f.alias_).content

/-! ### Encoder references (R148, R155) -/

/-- The references of an encode context. -/
def State.encRefs (s : State) (r : Nat) : List W32 := (List.range 4).map (fun i => w32 (s.cf r (0x30 + 4 * i) 4))
def State.setEncRefs (s : State) (r : Nat) (l : List W32) : State :=
  (List.range 4).foldl (fun s i => s.setCf r (0x30 + 4 * i) 4 (getAt nullHandle l i).toNat) s

/-- recon_fb of picture `pic`, as MSC has allocated it; null when no buffer was free. -/
def State.reconOf (s : State) (r pic : Nat) : Option W32 := ((s.enc r).recons.find? (fun e => decide (e.1 = pic))).map Prod.snd

/-- MSC allocates recon_fb of a picture, before it releases the picture's row 0 (R171). (DEDUCED, log 59.) -/
def State.takeRecon (s : State) (r pic : Nat) : State :=
  if (s.reconOf r pic).isSome then s
  else
    let depth := if tb (s.cf r 0x02 2) 4 then 10 else 8
    let (s, h) := s.newFrame aMsc r (s.cf r 0x22 1) (s.cf r 0x04 2) (s.cf r 0x06 2) depth pic 0 12
    s.setEnc r { s.enc r with recons := (pic, h) :: (s.enc r).recons.take 7 }

/-- Row 0 of a picture is dispatched: ENC_SOURCE is set on recon_fb (R148). With none allocated the picture is skipped and its
reconstruction is its first reference: the result says so (R155). -/
def State.markRecon (s : State) (r pic : Nat) : State × Bool :=
  match s.reconOf r pic with
  | some h =>
    if h = nullHandle then (s.setCf r 0x24 4 (getAt nullHandle (s.encRefs r) 0).toNat, false)
    else ((s.setMark aMsc h mENCSRC).setCf r 0x24 4 h.toNat, true)
  | none => (s, true)

/-- A coded row's reconstruction is written. -/
def State.encRowWritten (s : State) (r pic row : Nat) : State :=
  match s.reconOf r pic with
  | some h => if h = nullHandle then s else s.frameRow h (s.cf r 0x4E 2) row
  | none => s

/-- The coded picture becomes the newest short-term reference; the oldest beyond `refs` loses its mark, and
ENC_SOURCE is cleared (R148). Picture order count advances (R135). -/
def State.encPicDone (s : State) (r pic lane : Nat) : State :=
  let poc := w32 (s.cf r 0x48 4)
  let h := (s.reconOf r pic).getD nullHandle
  let s := s.setCf r 0x48 4 (wrapAdd (s.cf r 0x48 4) 1 32)
  let s := s.setEnc r { s.enc r with recons := (s.enc r).recons.filter (fun e => decide (e.1 ≠ pic)) }
  if h ≠ nullHandle && tb (s.buf (hKey h)).marks mENCSRC && !s.stale h then
    let n := max 1 (s.cf r 0x0A 1)
    let all := h :: (s.encRefs r).filter (fun x => decide (x ≠ nullHandle))
    let s := s.setFrame h { clrAttr (s.frame h) 3 with poc := poc }
    let s := s.setMark (aLane lane) h mSHORT
    let s := s.clrMarkA (aLane lane) h mENCSRC
    let s := (all.drop n).foldl (fun s x => s.unmark (aLane lane) x mSHORT) s
    s.setEncRefs r (all.take n)
  else s

/-! ### The decoder's pictures (R90, R148, R150) -/

/-- dpb_fb shows the pictures held: the references, and those that wait for their output. -/
def State.showDpb (s : State) (r : Nat) : State :=
  let d := s.dec r
  let l := d.refs ++ d.waiting.filter (fun h => !d.refs.contains h)
  (List.range 16).foldl (fun s i => s.setCf r (0x30 + 4 * i) 4 (getAt nullHandle l i).toNat) s
def State.setRefs (s : State) (r : Nat) (l : List W32) : State := (s.setDec r { s.dec r with refs := l }).showDpb r
def State.setWaiting (s : State) (r : Nat) (l : List W32) : State := (s.setDec r { s.dec r with waiting := l }).showDpb r

/-- The reference of a poc that the context holds. -/
def State.byPoc (s : State) (r : Nat) (p : W32) : Option W32 :=
  (s.dec r).refs.find? (fun h => decide ((s.frame h).poc = p))

/-- The complete picture of a poc that can be output: one that waits for it, or a held reference. -/
def State.outPoc (s : State) (r : Nat) (p : W32) : Option W32 :=
  match (s.dec r).waiting.find? (fun h => decide ((s.frame h).poc = p)) with
  | some h => some h
  | none => s.byPoc r p

/-- cur_fb while its picture is being decoded. -/
def State.curFb (s : State) (r : Nat) : Option W32 :=
  if (s.dec r).inProgress && !(s.dec r).skipping then some (w32 (s.cf r 0x18 4)) else none

def decEvent (lane k : Nat) : Ev := .lane lane k

/-- A frame buffer that nothing holds returns to its pool. -/
def State.freeIdle (s : State) (h : W32) : State :=
  let b := s.buf (hKey h)
  if b.alloc && decide (b.marks = 0) && decide (b.count = 0) && !s.stale h then s.freeRefA b.owner h else s

/-! ### Write-out (R152) -/

/-- The lines of a decode row of the codec (R83): the coding block size with which the picture has its number of rows. -/
def rowSize (codec h rows : Nat) : Nat :=
  ((if codec = 1 then [16] else if codec = 2 then [64, 128] else [16, 32, 64]).find? (fun n => decide (ceilDiv h n = rows))).getD
    (ceilDiv h (max 1 rows))

/-- Row `row` of a write-out buffer: a luma plane, then an interleaved CbCr plane, at a pitch of the width rounded up to 256 bytes; a
sample takes a byte, or two with the sample in bits 15 to 6 (R152). -/
def State.writeOutRow (s : State) (r : Nat) (w : W32) (row : Nat) : State :=
  let f := s.frame w
  let ten := decide (f.bitDepth = 10)
  let pitch := ceilDiv (f.width * (if ten then 2 else 1)) 256 * 256
  let n := rowSize (fld (s.cf r 0x02 2) 0 2) f.height (s.cf r 0x26 2)
  let line := fun (s : State) (a p : Nat) =>
    s.store a (if ten then (List.range f.width).flatMap (fun i => leBytes 2 ((Config.sample10 f.content (p + i)).toNat * 64))
      else (List.range f.width).map (fun i => Config.sample8 f.content (p + i)))
  let lines := ((List.range n).map (fun y => row * n + y)).filter (fun y => decide (y < f.height))
  let s := lines.foldl (fun s y => line s (s.bufAt w + y * pitch) (y * f.width)) s
  (lines.filter (fun y => decide (y % 2 = 0))).foldl (fun s y =>
    line s (s.bufAt w + f.height * pitch + y / 2 * pitch) (f.height * f.width + y / 2 * f.width)) s

/-- The write-out copy of a released picture (R152): a buffer of wo_pool with a count of 1 for the host, handed over
in an event record; omitted with LANE_DEC_WO_SKIP when the pool is empty. The record's source is the first of the
range that firmware raises (R395 names none). -/
def State.writeOut (s : State) (r lane : Nat) (h : W32) : State :=
  if tb (s.cf r 0x02 2) 3 then
    let f := s.frame h
    let (s, w) := s.newFrame (aLane lane) r (s.cf r 0x0F 1) f.width f.height f.bitDepth f.pic f.poc (f.attr % 4 + fld f.attr 3 1 * 8)
    if w = nullHandle then s.event (decEvent lane 11) r f.pic
    else
      let s := (s.incRef false w).1
      let s := s.xferRef (aLane lane) w aHost
      -- the rows written so far, or a whole picture; the rest follow as they are decoded
      let now := decide (s.curFb r = some h)
      let s := s.setFrame w { s.frame w with rowsDone := f.rowsDone, content := f.content }
      let s := (List.range (if now then s.cf r 0x24 2 else s.cf r 0x26 2)).foldl (fun s i => s.writeOutRow r w i) s
      let s := if now then s.setDec r { s.dec r with out := some w } else s
      s.assertSrc 0xD00 (Config.eventCode 100).toNat r w.toNat
  else s

/-! ### Output (R150, R158) -/

/-- A picture released for output (R150): DISPLAY_HOLD moves to it, it waits no longer, and it carries CONCEALED while the state lasts
(R158). One whose decoding has ended counts here, one in progress when it ends. -/
def State.releasePic (s : State) (r lane : Nat) (h : W32) : State :=
  let d := s.dec r
  if d.released = some h then s
  else
    let now := decide (s.curFb r = some h)
    let old := d.released.map (fun o => ((s.frame o).content, decide ((s.frame o).attr % 4 ≠ 0)))
    let s := s.setMark (aLane lane) h mDISPLAY
    let s := match d.released with
      | some o => s.unmark (aLane lane) o mDISPLAY
      | none => s
    let s := (s.setDec r { d with released := some h, before := old }).setWaiting r (d.waiting.filter (fun x => decide (x ≠ h)))
    let s := if d.refs.contains h then s else (s.unmark (aLane lane) h mSHORT).unmark (aLane lane) h mLONG
    let s := if d.concealing && !(now && d.ends) then s.setFrame h (setAttr (s.frame h) 1) else s
    let s := if tb (s.frame h).attr 1 && !now then s.incCf r 0x98 4 1 else s
    s.writeOut r lane h

/-- The pictures that the bumping process has released, in output order, as far as they are complete (R150: a stream that reorders releases
whole pictures only). (DEDUCED, log 109.) -/
def State.bumpOut (s : State) (r lane : Nat) : List W32 → State
  | [] => s.setDec r { s.dec r with bump := [] }
  | p :: l =>
    match s.outPoc r p with
    | some h => State.bumpOut (s.releasePic r lane h) r lane l
    | none =>
      match s.curFb r with
      | some h => if (s.frame h).poc = p then s.setDec r { s.dec r with bump := p :: l } else State.bumpOut s r lane l
      | none => State.bumpOut s r lane l

/-! ### The start of a decoded picture (R83, R84, R153 to R155) -/

/-- A missing reference replaced by a substitute (R153), or counted alone when no buffer is free. -/
def State.substitute (s : State) (r lane : Nat) (p : W32) (long : Bool) : State :=
  let s := (s.event (decEvent lane 7) r p.toNat).incCf r 0x9C 4 1
  let (s, h) := s.newFrame (aLane lane) r (s.cf r 0x0E 1) (s.cf r 0x04 2) (s.cf r 0x06 2) (s.cf r 0x0A 1) 0 p 1
  if h = nullHandle then s
  else
    let s := match (s.dec r).lastGood with
      | some g =>
        let (s, ok) := s.incRef false g
        if ok then s.setFrame h { s.frame h with alias_ := g } else s
      | none => s
    let s := s.setMark (aLane lane) h (if long then mLONG else mSHORT)
    s.setRefs r ((s.dec r).refs ++ [h])

/-- References that the stream removes lose their marks (R148); a picture that waits for its output keeps them until then.
(DEDUCED, log 109.) -/
def State.dropRefs (s : State) (r lane : Nat) (l : List W32) : State :=
  l.foldl (fun s p =>
    match s.byPoc r p with
    | some h =>
      let s := s.setRefs r ((s.dec r).refs.filter (fun x => decide (x ≠ h)))
      if (s.dec r).waiting.contains h then s else (s.unmark (aLane lane) h mSHORT).unmark (aLane lane) h mLONG
    | none => s) s

/-- References that the stream marks long-term (R148). -/
def State.lengthen (s : State) (r lane : Nat) (l : List W32) : State :=
  l.foldl (fun s p =>
    match s.byPoc r p with
    | some h => if tb (s.buf (hKey h)).marks mLONG then s else (s.setMark (aLane lane) h mLONG).unmark (aLane lane) h mSHORT
    | none => s) s

/-- The module decodes a stream of these parameters (R83): a profile, level, size, depth and rate within the lane's limits, and no tool that it
lacks. -/
def State.decFits (s : State) (r : Nat) (f : DecodeFacts) : Bool :=
  let w := f.width.toNat
  let h := f.height.toNat
  let p := f.profile.toNat
  let rate := w * h * s.cf r 0x10 2
  let den := max 1 (s.cf r 0x12 2)
  !f.tools &&
  match fld (s.cf r 0x02 2) 0 2 with
  | 0 => decide (1 ≤ p) && decide (p ≤ 3) && decide (f.level.toNat ≤ 153) && decide (w ≤ 4096) && decide (h ≤ 2176) &&
      decide (rate ≤ 498000000 * den) && (!f.ten || decide (p = 2))
  | 1 => [66, 77, 100].contains p && decide (f.level.toNat ≤ 52) && decide (w ≤ 4096) && decide (h ≤ 2304) &&
      decide (rate ≤ 498000000 * den) && !f.ten
  | _ => decide (p = 0) && decide (f.level.toNat ≤ 13) && decide (w ≤ 4096) && decide (h ≤ 2176) && decide (rate ≤ 249000000 * den)

/-- The start of a decoded picture. The result says whether its rows are decoded. -/
def State.decPicStart (s : State) (r lane : Nat) (f : DecodeFacts) : State × Bool :=
  let s := s.setCf r 0x1C 4 (wrapAdd (s.cf r 0x1C 4) 1 32)
  let s := s.setDec r { s.dec r with inProgress := true, skipping := false, picBad := false, synth := false, out := none,
                                     asLong := f.asLong, isRef := f.isRef, shown := f.shown, ends := false, segBad := false, motion := [] }
  if !(s.decFits r f) then
    let s := ((s.setCf r 0x01 1 4).incCf r 0xA8 4 1).event (decEvent lane 4) r 0
    (s.setDec r { s.dec r with skipping := true }, false)
  else if s.cf r 0x01 1 = 4 ∧ ¬ f.irap then (s.setDec r { s.dec r with skipping := true }, false)
  else
    let s := s.setCf r 0x01 1 2
    let s := ((s.setCf r 0x04 2 f.width.toNat).setCf r 0x06 2 f.height.toNat).setCf r 0x26 2 f.rows.toNat
    let s := ((s.setCf r 0x08 1 f.profile.toNat).setCf r 0x09 1 f.level.toNat).setCf r 0x0A 1 (if f.ten then 10 else 8)
    let s := (s.setCf r 0x15 1 (f.dpbLess1.toNat + 1)).setCf r 0x20 4 f.poc.toNat
    let s := s.setCf r 0x24 2 0
    let d := s.dec r
    let rec_ := d.recovering || f.recoverySei
    let s := s.setDec r { d with recovering := rec_, ends := f.irap || (f.recoveryReached && rec_) }
    let s := (s.dropRefs r lane f.removed).lengthen r lane f.longs
    let (s, h) := s.newFrame (aLane lane) r (s.cf r 0x0E 1) f.width.toNat f.height.toNat (s.cf r 0x0A 1)
      (s.cf r 0x1C 4) f.poc 12
    if h = nullHandle then
      ((s.event (decEvent lane 10) r 0).setDec r { s.dec r with skipping := true }, false)
    else
      let s := s.setCf r 0x18 4 h.toNat
      let missing := f.refs.filter (fun p => (s.byPoc r p.1).isNone)
      let s := missing.foldl (fun s p => if (s.byPoc r p.1).isNone then s.substitute r lane p.1 p.2 else s) s
      let bad := !missing.isEmpty || f.refs.any (fun p => ((s.byPoc r p.1).map (fun h => tb (s.frame h).attr 0)).getD false)
      let preds := f.refs.map (fun p => match s.byPoc r p.1 with
        | some h => s.predOf h
        | none => PredSrc.grey (greyOf (s.cf r 0x0A 1)))
      let s := s.setFrame h { s.frame h with preds := preds }
      let s := s.setDec r { s.dec r with picBad := bad, synth := bad }
      (if f.noReorder && f.shown then s.releasePic r lane h else s, true)

/-! ### A decoded row (R156 to R158) -/

/-- The picture in progress is CONCEALED (R158): the context enters the state, and the picture and its write-out copy carry the attribute. -/
def State.noteDamage (s : State) (r lane : Nat) : State :=
  let d := s.dec r
  let s := if d.concealing then s
    else (s.event (decEvent lane 8) r (s.cf r 0x1C 4)).setCf r 0x02 2 (setFld (s.cf r 0x02 2) 4 1 1)
  let s := s.setDec r { d with concealing := true, picBad := true }
  let h := w32 (s.cf r 0x18 4)
  let s := s.setFrame h (setAttr (s.frame h) 1)
  match d.out with
  | some w => s.setFrame w (setAttr (s.frame w) 1)
  | none => s

/-- The vector of the co-located block in the most recent decoded picture, or zero (R157). -/
def State.coMv (s : State) (r row u : Nat) : Int × Int := (getAt none (Tbl.get [] (s.dec r).last row) u).getD (0, 0)

/-- What concealment predicts from: reference index 0 of list 0, or the last good picture where the damaged picture has no reference list
(R157); mid-grey with neither. (DESIGN CHOICE, log 110.) -/
def State.concealSrc (s : State) (r : Nat) (h : W32) : PredSrc :=
  match (s.frame h).preds with
  | p :: _ => p
  | [] => match (s.dec r).lastGood with
    | some g => s.predOf g
    | none => .grey (greyOf (s.frame h).bitDepth)

/-- The units of a row concealed by motion copy: no residual, deblocking and SAO off (R157); and the row's vectors kept for the pictures that
follow. -/
def State.concealRow (s : State) (r row : Nat) (units : List Nat) (mvs : List (Option (Int × Int))) : State :=
  let h := w32 (s.cf r 0x18 4)
  let src := s.concealSrc r h
  let f := s.frame h
  let new := units.map (fun u =>
    ({ row := row, col := u, mv := s.coMv r row u, src := src, residual := false, filters := false } : ConcealedUnit))
  let n := units.foldl (fun a u => max a (u + 1)) mvs.length
  let line := (List.range n).map (fun i => if units.contains i then some (s.coMv r row i) else getAt none mvs i)
  (s.setFrame h { f with conceal := f.conceal ++ new }).setDec r { s.dec r with motion := Tbl.put (s.dec r).motion row line }

/-- A decoded row has been written: its samples and rows_done, and those of its write-out copy. -/
def State.decRowWritten (s : State) (r row : Nat) : State :=
  let rows := s.cf r 0x26 2
  let s := s.frameRow (w32 (s.cf r 0x18 4)) rows row
  match (s.dec r).out with
  | some w => (s.setFrame w { s.frame w with rowsDone := min 255 ((s.frame w).rowsDone + 1) }).writeOutRow r w row
  | none => s

/-- A row's damage as its completion shows it (R156, R158): segments abandoned, those with a syntax error, and the units concealed. New
damage discards a recovery count. -/
def State.decRowDone (s : State) (r lane row segments syntaxErrs : Nat) (units : List Nat) (mvs : List (Option (Int × Int))) : State :=
  let s := (s.incCf r 0xA0 4 segments).incCf r 0xA4 4 syntaxErrs
  let s := s.concealRow r row units mvs
  let s := if units.isEmpty && !(s.dec r).synth then s else s.noteDamage r lane
  let s := if units.isEmpty then s else s.setDec r { s.dec r with recovering := false }
  s.decRowWritten r row

/-! ### The end of a decoded picture (R148, R154, R158) -/

/-- The last good picture moves to `h` (R154). -/
def State.moveGood (s : State) (r lane : Nat) (h : W32) : State :=
  let old := (s.dec r).lastGood
  let (s, ok) := s.incRef false h
  if ok then
    let s := match old with
      | some o => s.decRefA (aLane lane) o
      | none => s
    s.setDec r { s.dec r with lastGood := some h }
  else s

/-- The picture completes: the end of the CONCEALED state, reference marks, attributes, the last good picture, and the pictures whose output
waited for it. -/
def State.decPicDone (s : State) (r lane : Nat) : State :=
  let d := s.dec r
  let h := w32 (s.cf r 0x18 4)
  let s := s.setDec r { d with inProgress := false, out := none }
  if d.skipping then s
  else
    let s := if d.concealing && d.ends && !d.picBad then
        ((s.setDec r { s.dec r with concealing := false }).setCf r 0x02 2 (setFld (s.cf r 0x02 2) 4 1 0)).event (decEvent lane 9) r
          (s.cf r 0x1C 4)
      else s
    let s := s.setFrame h (clrAttr (s.frame h) 3)
    let s := match d.out with
      | some w => s.setFrame w (clrAttr (s.frame w) 3)
      | none => s
    let out := decide (d.released = some h)
    let s := if out && tb (s.frame h).attr 1 then s.incCf r 0x98 4 1 else s
    let s := if d.isRef then (s.setMark (aLane lane) h (if d.asLong then mLONG else mSHORT)).setRefs r ((s.dec r).refs ++ [h]) else s
    let s := if d.shown && !out then s.setWaiting r ((s.dec r).waiting ++ [h]) else s
    let s := (s.setDec r { s.dec r with last := d.motion, motion := [] }).incCf r 0x80 8 1
    let s := if d.picBad then s else s.moveGood r lane h
    let s := s.bumpOut r lane (s.dec r).bump
    if (s.dec r).waiting.contains h then s else s.freeIdle h

/-- A closing context's lane clears the marks it holds, and the pictures that nothing else holds return to their pool (R149). -/
def State.clearHolds (s : State) (lane : Nat) (l : List W32) : State :=
  l.foldl (fun s h => ([mSHORT, mLONG, mDISPLAY, mENCSRC].foldl (fun s m => s.unmark (aLane lane) h m) s).freeIdle h) s

end Sys2Proof.Machine
end

