-- ==== Sys2Proof/Machine/Lanes.lean ====
section
/-! DEFINITION. The coding lanes (R73 to R100): their job queues and instructions, the statistics FIFO, performance
counters and tagged sampling. -/

namespace Sys2Proof.Machine

open Sys2Proof

def State.lane (s : State) (l : Nat) : Lane := Tbl.get {} s.lanes l
def State.setLane (s : State) (l : Nat) (x : Lane) : State := { s with lanes := Tbl.put s.lanes l x }
def laneAddr (l off : Nat) : Nat := 0x1000000 + l * 0x10000 + off
def State.laneReg (s : State) (l off : Nat) : Nat := (Tbl.get 0 s.regs (laneAddr l off)).toNat

/-- The contexts placed on lane or carriageway lead `l`. -/
def State.ctxsOn (s : State) (l : Nat) : List Nat :=
  (s.opens.filter (fun e => (decide (e.2 = 3) || decide (e.2 = 4)) && decide (s.cf e.1 0x14 1 = l))).map Prod.fst

/-- The members of a lane's carriageway (R34), its lead, and the member to which a row goes (R76). -/
def State.members (s : State) (l : Nat) : List Nat :=
  let x := s.lane l
  if x.cwSize ≤ 1 then [l] else (List.range x.cwSize).map (fun i => x.cwLead + i)
def State.leadFor (s : State) (l : Nat) : Nat := if (s.lane l).cwSize ≤ 1 then l else (s.lane l).cwLead
def State.memberFor (s : State) (l row : Nat) : Nat :=
  if (s.lane l).cwSize ≤ 1 then l else s.leadFor l + row % (s.lane l).cwSize

/-- No job of the lane is in execution: one whose results are visible has ended (R106). -/
def Lane.quiet (x : Lane) : Bool := (x.run.map (·.visible)).getD true

/-- A lane or a member of its carriageway is being drained (R51). -/
def State.drainingCw (s : State) (l : Nat) : Bool := (s.members l).any (fun m => (s.lane m).draining)

/-- MSC dispatches nothing to the lane: it is being drained or is not enabled, or no context is placed on it. -/
def State.undispatched (s : State) (l : Nat) : Bool :=
  s.drainingCw l || !(s.unit (laneKey l)).en || (s.ctxsOn (s.leadFor l)).isEmpty

/-- The lane meets R51: nothing dispatched, queue empty, no row, no context. (DEDUCED, log 112.) -/
def State.drained (s : State) (l : Nat) : Bool :=
  let x := s.lane l
  s.undispatched l && (s.lane (s.leadFor l)).queue.isEmpty && x.quiet && x.active.isNone && x.prefetch.isNone && x.failed.isNone && !x.loading

/-- What a lane loses with its power (R19): all but its stores, what the waymap and firmware keep of it, and the record of its checks and
loads (R110, R115). (DEDUCED, log 111.) -/
def Lane.off (x : Lane) : Lane :=
  { role := x.role, cwSize := x.cwSize, cwLead := x.cwLead, mapped := x.mapped, quarantined := x.quarantined, draining := x.draining,
    loading := x.loading, queue := x.queue, micro := x.micro, nano := x.nano, mc := x.mc, copy1 := x.copy1, mchk := x.mchk,
    outcome := x.outcome, check := x.check, mchkTotal := x.mchkTotal, mchkTransient := x.mchkTransient, record := x.record,
    failed := x.failed, rebuild := x.rebuild, loadResult := x.loadResult, loads := x.loads }

/-- The lane's domain powered off: its counters stand at zero too. -/
def State.laneOff (s : State) (l : Nat) : State :=
  let s := s.setLane l (s.lane l).off
  (List.range 8).foldl (fun s n => { s with cnt := Tbl.put s.cnt (cntKey bLAN (l + 1) n) 0 }) s

/-! ### Performance counters (R95, R96) -/

/-- Counter `n` of lane `l` wraps: its OVF bit, its event, and the carry. -/
def State.pmcOverflow (s : State) (l n : Nat) : State :=
  let s := s.setLane l { s.lane l with pmcOvf := setBit (s.lane l).pmcOvf n }
  if tb (s.laneReg l (0x200 + 4 * n)) 28 then s.event (.lane l 5) noCtx n else s

/-- `k` added to counter `n`, with wraps carried into the next counters while CHAIN is set. A carry is added whatever the next counter's EN:
R95 and R100 do not say. (DESIGN CHOICE, log 116.) -/
def State.pmcAdd (s : State) (l n k : Nat) : Nat → State
  | 0 => s
  | fuel + 1 =>
    let old := s.cntOf bLAN (l + 1) n
    let s := s.bumpU bLAN (l + 1) n k
    if old + k < 2 ^ 48 then s
    else
      let s := s.pmcOverflow l n
      if n < 7 && tb (s.laneReg l (0x200 + 4 * n)) 30 then State.pmcAdd s l (n + 1) 1 fuel else s

/-- An event's signal asserted for `cycles` lane cycles, in `runs` runs of cycles: every enabled counter that selects it adds the
first in level mode and the second in edge mode (R95). -/
def State.pmcSpan (s : State) (l code cycles runs : Nat) : State :=
  (List.range 8).foldl (fun s n =>
    let c := s.laneReg l (0x200 + 4 * n)
    if tb c 31 && decide (fld c 0 10 = code) then s.pmcAdd l n (if tb c 29 then runs else cycles) 8 else s) s

/-- An event of one cycle. -/
def State.pmcEvent (s : State) (l code : Nat) : State := s.pmcSpan l code 1 1

/-- The events that a row's measurement reports (R96, R97): CTUS, the slots of stage 3, the search-window cache, DRAM_READ_WAIT, bins,
SLICE_EMPTY_STALL, candidates and skipped units. -/
def measuredEvent (code : Nat) : Bool :=
  [0x004, 0x010, 0x011, 0x012, 0x013, 0x020, 0x021, 0x022, 0x030, 0x032, 0x040, 0x041, 0x042].contains code

/-- The slot events of R97. -/
def slotEvent (code : Nat) : Bool := [0x010, 0x011, 0x012, 0x013].contains code

/-- The measured events of a row, its slots apart: code, cycles and runs of cycles. -/
def State.measured (s : State) (l : Nat) (m : List (Nat × Nat × Nat)) : State :=
  m.foldl (fun s e => if measuredEvent e.1 && !slotEvent e.1 then s.pmcSpan l e.1 e.2.1 e.2.2 else s) s

/-- The slots of a coded row (R97): each of its `total` cycles offers one, counted once. What performed work or was refused is as
measured; every slot that is left is FRONT. -/
def State.rowSlots (s : State) (l total : Nat) (m : List (Nat × Nat × Nat)) : State :=
  let r := [0x010, 0x011, 0x013].foldl (fun (a : State × Nat) c =>
    match m.find? (fun e => decide (e.1 = c)) with
    | some e => (a.1.pmcSpan l c (min e.2.1 a.2) e.2.2, a.2 - min e.2.1 a.2)
    | none => a) (s, total)
  let runs := match m.find? (fun e => decide (e.1 = 0x012)) with
    | some e => e.2.2
    | none => 1
  if r.2 = 0 then r.1 else r.1.pmcSpan l 0x012 r.2 runs

/-- PMC_WRAP: counter `n`, enabled and at its top, wraps. -/
def State.pmcWrapOp (s : State) (l n : Nat) : State :=
  if tb (s.laneReg l (0x200 + 4 * n)) 31 && decide (s.cntOf bLAN (l + 1) n = 2 ^ 48 - 1) then s.pmcAdd l n 1 8 else s

/-- LAN_PMC_CFGn: the RWL fields are judged against EN as it read before the write (R100). -/
def State.pmcCfgOp (s : State) (l n : Nat) (v : W32) : State :=
  let a := laneAddr l (0x200 + 4 * n)
  let old := s.laneReg l (0x200 + 4 * n)
  let new := fld v.toNat 31 1 * 2 ^ 31 + fld v.toNat 28 1 * 2 ^ 28
  if tb old 31 then
    let kept := fld old 30 1 * 2 ^ 30 + fld old 29 1 * 2 ^ 29 + fld old 0 10
    let s := s.ignw (laneKey l)
    { s with regs := Tbl.put s.regs a (w32 (new + kept)) }
  else
    { s with regs := Tbl.put s.regs a (w32 (new + fld v.toNat 29 2 * 2 ^ 29 + fld v.toNat 0 10)) }

/-- LAN_PMC_CLR: the counters named are zeroed at once. -/
def State.pmcClrOp (s : State) (l : Nat) (v : W32) : State :=
  (bitsOf v.toNat 8).foldl (fun s n => { s with cnt := Tbl.put s.cnt (cntKey bLAN (l + 1) n) 0 }) s

/-! ### Tagged sampling (R98, R100) -/

/-- LAN_TAG_CFG: EN going to 1 reseeds the LFSR; LOG2N is ignored while EN reads 1, and outside 4 to 16. -/
def State.tagCfgOp (s : State) (l : Nat) (v : W32) : State :=
  let old := (Tbl.get 10 s.regs (laneAddr l 0x280)).toNat
  let en := tb v.toNat 31
  let n := fld v.toNat 0 5
  let n' := if tb old 31 then fld old 0 5 else if 4 ≤ n ∧ n ≤ 16 then n else fld old 0 5
  let s := if tb old 31 then s.ignw (laneKey l) else s
  let seed := fld (Tbl.get 1 s.regs (laneAddr l 0x284)).toNat 0 24
  let s := if en ∧ ¬ tb old 31 then s.setLane l { s.lane l with lfsr := if seed = 0 then 1 else seed } else s
  { s with regs := Tbl.put s.regs (laneAddr l 0x280) (w32 (b2n en * 2 ^ 31 + n')) }

/-- The LFSR advanced once: x^24 + x^23 + x^22 + x^17 + 1. (DESIGN CHOICE, log 62.) -/
def lfsrNext (v : Nat) : Nat :=
  fld (v * 2) 0 24 + (fld v 23 1 + fld v 22 1 + fld v 21 1 + fld v 16 1) % 2

/-- A CTU enters stage 1: the LFSR advances and may tag it; a full buffer loses the record (R98). -/
def State.tagCtu (s : State) (l : Nat) : State :=
  let cfg := (Tbl.get 10 s.regs (laneAddr l 0x280)).toNat
  if !(tb cfg 31) then s
  else
    let x := s.lane l
    let v := lfsrNext x.lfsr
    let x := { x with lfsr := v }
    if fld v 0 (fld cfg 0 5) ≠ 0 then s.setLane l x
    else if 64 ≤ x.tags.length then s.setLane l { x with tagLost := satAdd x.tagLost 1 0xFFFF }
    else
      let j : Job := match x.run with
        | some r => r.job
        | none => {}
      let w := [w32 (j.ctx * 2 ^ 16 + j.pic % 2 ^ 16), w32 (j.row * 2 ^ 16 + x.ctu % 2 ^ 16), w32 (s.ns % 2 ^ 32),
        Config.tagWord s.free 3, Config.tagWord s.free 4, Config.tagWord s.free 5, Config.tagWord s.free 6, 0]
      (s.setLane l { x with tags := x.tags ++ [w] }).draw

/-- A read of LAN_TAG_REC0 (R98). -/
def State.tagPopOp (s : State) (l : Nat) : State :=
  let x := s.lane l
  match x.tags with
  | [] => (s.setLane l { x with tagLatch := List.replicate 7 0 }).emit (.regRead (laneAddr l 0x290) 0)
  | w :: r => (s.setLane l { x with tags := r, tagLatch := w.drop 1 }).emit (.regRead (laneAddr l 0x290) (getAt 0 w 0))

/-! ### The statistics FIFO (R92 to R94) -/

/-- A record posted, or lost when the FIFO is full; SEQ advances either way. -/
def State.lsfPost (s : State) (l type row w1 w2 w3 : Nat) : State :=
  let x := s.lane l
  let q := (x.lsfSeq + 1) % 2 ^ 16
  if x.lsf.length < 512 then
    s.setLane l { x with lsfSeq := q, lsf := x.lsf ++ [[w32 (type * 2 ^ 28 + row % 4096 * 2 ^ 16 + q), w32 w1, w32 w2, w32 w3]] }
  else s.setLane l { x with lsfSeq := q, lsfLost := satAdd x.lsfLost 1 0xFFFF }

/-- A read of LSF_POP, with what the entry's ECC reports. -/
def State.lsfPopOp (s : State) (l : Nat) (ecc : EccResult) : State :=
  let x := s.lane l
  let a := laneAddr l 0x64
  match x.lsf with
  | [] => (s.setLane l { x with lsfLatch := [0, 0, 0] }).emit (.regRead a (w32 x.lsfSeq))
  | w :: r =>
    match ecc with
    | .clean => (s.setLane l { x with lsf := r, lsfLatch := w.drop 1 }).emit (.regRead a (getAt 0 w 0))
    | .single => (s.setLane l { x with lsf := r, lsfLatch := w.drop 1, eccCorr := satAdd x.eccCorr 1 0xFFFF }).emit
        (.regRead a (getAt 0 w 0))
    | .uncorrectable =>
      ((s.setLane l { x with lsf := r, lsfLatch := [0, 0, 0], eccUncorr := satAdd x.eccUncorr 1 0xFFFF }).emit
        (.regRead a (w32 (0xE * 2 ^ 28)))).raise fLaneLsfUe l 0

/-- LSF_CLR. -/
def State.lsfClrOp (s : State) (l : Nat) (v : W32) : State :=
  if tb v.toNat 0 then s.setLane l { s.lane l with eccCorr := 0, eccUncorr := 0, lsfLost := 0 } else s

/-! ### The job queue (R85 to R88) -/

/-- The vector of a lane instruction (R108). -/
def vectorOf : JobOp → Nat
  | .nop => 0x00
  | .load => 0x10
  | .save => 0x20
  | .encode => 0x30
  | .decode => 0x40
  | .flush => 0x50
  | .fence => 0x60
  | .reserved _ => 0x70
  | .compose => 0x70

/-- A lane that ends its job is idle from now on, until the next one (R441). -/
def State.endRun (s : State) (l : Nat) : State :=
  let x := s.lane l
  s.setLane l { x with run := none, ms := .idle, upc := 0, rep := none, stack := [], atomic := false, memStall := false,
                       idleAt := none }

/-- A stall on an empty SLICE pool raises LANE_SLICE_STALL (R17, R111), once. (DEDUCED, log 61.) -/
def State.sliceStall (s : State) (l : Nat) : State :=
  if (s.lane l).stallAt.isSome then s
  else (s.setLane l { s.lane l with stallAt := some s.ns }).raise fLaneSliceStall l 0

/-! ### Traps (R111 to R113) -/

/-- The trap of cause `c` taken: its frame pushed, its handler entered at its vector (R108), and the handler's first work: the stall
raised, the neighbour asked again, or the prefetch dropped (R111). -/
def State.takeTrap (s : State) (l c : Nat) (boundary : Bool) : State :=
  let x := s.lane l
  let f : TrapFrame := { cause := c, upc := x.upc, rep := x.rep.getD 0, loop0 := x.loop0, loop1 := x.loop1,
                         latches := x.latches, sp := x.stack.length, nano := if c = 0 then x.lastNano else none, boundary := boundary }
  let s := s.setLane l { x with frames := f :: x.frames, ms := .trap, upc := 0x80 + 16 * c, rep := none,
                                trapActive := setBit x.trapActive c,
                                trapPending := if tb x.trapPending c then x.trapPending - 2 ^ c else x.trapPending,
                                trapTaken := satAdd x.trapTaken 1 0xFFFF,
                                asked := x.asked || decide (c = 2),
                                prefetch := if c = 3 then none else x.prefetch }
  let s := s.pmcEvent l 0x009
  if c = 1 then s.sliceStall l else s

/-- The handler of a cause of higher or equal priority runs. -/
def Lane.busyTrap (x : Lane) (c : Nat) : Bool := (List.range (c + 1)).any (fun i => tb x.trapActive i)

/-- The pending cause of highest priority taken, if no handler of its priority or above runs. -/
def State.servePending (s : State) (l : Nat) (boundary : Bool) : State :=
  let x := s.lane l
  match (List.range 4).find? (fun c => tb x.trapPending c) with
  | some c => if x.busyTrap c || x.atomic || decide (4 ≤ x.frames.length) then s else s.takeTrap l c boundary
  | none => s

/-- At END_JOB the atomic region ends and held traps are taken before the next job enters its vector (R113). -/
def State.jobBoundary (s : State) (l : Nat) : State :=
  (s.setLane l { s.lane l with atomic := false }).servePending l true

/-- The lane at its job boundary: a job whose results are visible has been ended by END_JOB (R106), and so has the routine of vector
0x00C0. -/
def State.atBoundary (s : State) (l : Nat) : State :=
  let x := s.lane l
  if decide (x.ms = .run) && x.quiet && decide (x.trapActive = 0) then (s.endRun l).jobBoundary l else s

/-- The lane can take its next job: enabled, powered, not halted, no job in execution, no trap handler running. -/
def State.laneReady (s : State) (l : Nat) : Bool :=
  let x := s.lane l
  s.running (laneKey l) && decide (x.power = 2) && decide (x.ms = .idle) && x.run.isNone && decide (x.trapActive = 0) &&
    !s.flt.safe

/-- The job at the head of the queue, when the lane can take it. A carriageway's jobs stand in its lead's queue: a row goes to its member,
and any other job is the lead's, once no member codes (R76). -/
def State.headJob (s : State) (l : Nat) : Option Job :=
  let s := s.atBoundary l
  let lead := s.leadFor l
  match (s.lane lead).queue with
  | [] => none
  | j :: _ =>
    let mine := if j.op = .encode ∨ j.op = .decode then decide (s.memberFor l j.row = l)
      else decide (lead = l) && (s.members l).all (fun m => (s.lane m).quiet)
    if s.laneReady l && mine then some j else none

def State.popJob (s : State) (l : Nat) : State :=
  let s := s.atBoundary l
  let q := s.leadFor l
  s.setLane q { s.lane q with queue := (s.lane q).queue.drop 1 }

/-- A job-table entry freed. -/
def State.freeJob (s : State) (j : Job) : State :=
  if (Tbl.get {} s.msc.jobs j.idx).gen = j.gen then { s with msc := { s.msc with jobs := Tbl.del s.msc.jobs j.idx } } else s

/-- LANE_BAD_JOB: the entry is discarded and the fault raised (R86). (DEDUCED, log 75.) -/
def State.badJob (s : State) (l : Nat) (j : Job) : State :=
  ((s.popJob l).freeJob j).raise fLaneBadJob l j.ctx

/-- The context switch to the job's context: free when it is loaded or its prefetch has ended, exposed otherwise (R87). -/
def State.switchCtx (s : State) (l ctx : Nat) : State :=
  let x := s.lane l
  if x.active = some ctx then s
  else
    let ready := decide (x.prefetch = some ctx) && decide (x.prefetchAt ≤ s.ns)
    let s := s.pmcEvent l 0x005
    let s := if ready then s else s.pmcSpan l 0x006 1600 1   -- 2.0 us at 800 MHz
    s.setLane l { s.lane l with active := some ctx, prefetch := if x.prefetch = some ctx then none else x.prefetch }

/-- The lane's next queued job. -/
def State.nextFor (s : State) (l : Nat) : Option Job :=
  (s.lane (s.leadFor l)).queue.find? (fun j => decide (s.memberFor l j.row = l))

/-- While a row runs, the next queued job's context is loaded into the prefetch slot, which takes 2.0 us (R87). -/
def State.prefetchNext (s : State) (l : Nat) : State :=
  let x := s.lane l
  match s.nextFor l with
  | some j =>
    if (decide (j.op = .encode) || decide (j.op = .decode)) && !x.quiet && decide (x.active ≠ some j.ctx) && decide (x.prefetch ≠ some j.ctx) then
      s.setLane l { x with prefetch := some j.ctx, prefetchAt := s.ns + 2 * us }
    else s
  | none => s

/-- A lane cycle's number: the clock runs at 800 MHz, four cycles in 5 ns (R19). -/
def State.laneCycle (s : State) : Nat := s.ns * 4 / 5

/-- The job enters its vector (R108); the first CTU of a row enters stage 1 (R98). -/
def State.beginJob (s : State) (l : Nat) (r : LaneRun) : State :=
  let s := if r.job.retry then s.pmcEvent l 0x00A else s
  let s := s.setLane l { s.lane l with run := some { r with cycle := s.laneCycle }, ms := .run, upc := vectorOf r.job.op, rep := none,
                                       ctu := 0, lastNano := none, asked := false, idleAt := none }
  if r.visible then s else (s.prefetchNext l).tagCtu l

/-- A job without a row enters its vector, with its effect on the lane. -/
def State.plainJob (s : State) (l : Nat) (j : Job) (f : Lane → Lane) : State :=
  let s := s.popJob l
  (s.setLane l (f (s.lane l))).beginJob l { job := j, start := s.ns, visible := true }

/-- NOP completes at once. -/
def State.nopJob (s : State) (l : Nat) : State :=
  match s.headJob l with
  | some j => if j.op = .nop then s.plainJob l j id else s
  | none => s

/-- FENCE: every earlier job has completed. Ahead of power-gating it ends the lane's work, and the domain goes off (R88). -/
def State.fenceJob (s : State) (l : Nat) : State :=
  match s.headJob l with
  | some j =>
    if j.op = .fence then
      let s := s.plainJob l j id
      (s.members l).foldl (fun s m =>
        if (s.lane m).gate then
          if (s.lane (s.leadFor l)).queue.isEmpty then s.laneOff m else s.setLane m { s.lane m with gate := false }
        else s) s
    else s
  | none => s

/-- LOAD_CONTEXT. -/
def State.loadCtx (s : State) (l : Nat) : State :=
  match s.headJob l with
  | some j => if j.op = .load then s.plainJob l j (fun x => { x with prefetch := some j.ctx, prefetchAt := s.ns }) else s
  | none => s

/-- SAVE_CONTEXT: the loaded context is written back, which its last row did (R87), and unloaded. -/
def State.saveCtx (s : State) (l : Nat) : State :=
  match s.headJob l with
  | some j =>
    if j.op = .save then
      let s := (s.members l).foldl (fun s m => s.setLane m { s.lane m with active := none, prefetch := none }) s
      s.plainJob l j (fun x => { x with active := none, prefetch := none })
    else s
  | none => s

/-- MSC issues SAVE_CONTEXT and then FENCE ahead of power-gating (R88). -/
def State.gateLane (s : State) (l : Nat) : State :=
  let q := s.leadFor l
  if (s.lane q).gate then s
  else
    let s := (s.members l).foldl (fun s m => s.setLane m { s.lane m with gate := true }) s
    let x := s.lane q
    s.setLane q { x with gate := true, queue := x.queue ++ [{ op := .save, ctx := x.active.getD 0 }, { op := .fence }] }

/-- A reserved opcode at the head of the queue (R86). -/
def State.badOp (s : State) (l : Nat) : State :=
  match s.headJob l with
  | some j => match j.op with
    | .reserved _ => s.badJob l j
    | .compose => s.badJob l j
    | _ => s
  | none => s

/-! ### The start of a row -/

/-- ENCODE_ROW starts (R86 to R88, R125 to R129). A retry keeps its row's biases, target and QP. -/
def State.encodeRowOp (s : State) (l : Nat) : State :=
  match s.headJob l with
  | none => s
  | some j =>
    if j.op ≠ .encode then s
    else if Tbl.find s.opens j.ctx ≠ some 3 then s.badJob l j
    else
      let s := (s.popJob l).switchCtx l j.ctx
      let late := decide (j.deadline < s.ns)
      match j.plan with
      | some p => s.beginJob l { job := j, start := s.ns, qp := p.2.1, target := p.1, coast := p.2.2, late := late }
      | none =>
        let e := s.enc j.ctx
        let s := if j.row = 0 ∧ ¬ (e.cur.pic = j.pic ∧ e.cur.open_) then s.picTarget j.ctx j.pic j.skip j.idr else s
        let b := j.bias.getD (s.drainBias (s.drainLag j.ctx), s.ovlBias j.ctx)
        let p := s.rowPlan j.ctx j.row b.1 b.2
        let s := s.rowStart j.ctx j.row p
        let j := { j with bias := some b, plan := some (p.target, p.qp, p.coast) }
        s.beginJob l { job := j, start := s.ns, qp := p.qp, target := p.target, coast := p.coast, late := late }

/-- The bytes of a record that differ between two states. -/
def recordDiff (s t : State) (r : Nat) : List (Nat × Byte) :=
  ((List.range 256).filter (fun i => decide (s.ctxByte r i ≠ t.ctxByte r i))).map (fun i => (i, t.ctxByte r i))

/-- Staged bytes become the record's. -/
def State.applyStaged (s : State) (r : Nat) (l : List (Nat × Byte)) : State := l.foldl (fun s e => s.setCtx r e.1 [e.2]) s

/-- Units of a decoded row: its columns of coding tree blocks, macroblocks or superblocks (R83). -/
def State.decCols (s : State) (r : Nat) : Nat :=
  ceilDiv (s.cf r 0x04 2) (rowSize (fld (s.cf r 0x02 2) 0 2) (s.cf r 0x06 2) (s.cf r 0x26 2))

/-- Units of a row that lost or poisoned data damages, where nothing else names them: free, and the last of the row at least, since the damage
runs on to its segment's end (R156). (DESIGN CHOICE, log 110.) -/
def State.damagedUnits (s : State) (r : Nat) : List Nat :=
  let n := s.decCols r
  let l := (Config.poisonUnits s.free).filter (fun u => decide (u < n))
  if l.isEmpty then [n - 1] else l

/-- The start of a picture and what a row releases, with the record as it will be: the lane shows it at the row's completion (R74). -/
def State.decRowStart (s : State) (l : Nat) (j : Job) (f : DecodeFacts) : State × Job :=
  let (t, go) := if f.newPicture then s.decPicStart j.ctx l f else (s, !(s.dec j.ctx).skipping)
  let t := if go then t.bumpOut j.ctx l ((t.dec j.ctx).bump ++ f.releases) else t
  let d := recordDiff s t j.ctx
  (t.setCtx j.ctx 0 (s.ctxImage j.ctx), { j with staged := d, noop := !go })

/-- DECODE_ROW starts (R84, R86, R150 to R156). A retry does not start its picture anew. -/
def State.decodeRowOp (s : State) (l : Nat) (f : DecodeFacts) : State :=
  match s.headJob l with
  | none => s
  | some j =>
    if j.op ≠ .decode then s
    else if Tbl.find s.opens j.ctx ≠ some 4 then s.badJob l j
    else
      let s := (s.popJob l).switchCtx l j.ctx
      let (s, j) := if j.retry then (s, j) else s.decRowStart l j f
      let d := s.dec j.ctx
      let cut := j.lost || f.ranOut
      let gone := if cut && f.concealed.isEmpty && j.poison.isEmpty then s.damagedUnits j.ctx else j.poison
      let s := if cut && f.concealed.isEmpty && j.poison.isEmpty then s.draw else s
      let begins := f.segments + b2n (cut && decide (f.segments = 0) && !d.segBad)
      let units := f.concealed ++ gone.filter (fun u => !f.concealed.contains u)
      s.beginJob l { job := { j with poison := gone }, start := s.ns, late := decide (j.deadline < s.ns), concealed := units, mvs := f.mvs,
                     synth := d.synth, abandoned := decide (0 < begins) || d.segBad, segments := begins, syntaxErrs := f.syntaxErrors, runsOn := f.runsOn,
                     irap := f.irap || f.recoveryReached, bytes := f.bytes }

/-- The module's codec of a decode context is AV1. -/
def State.isAv1 (s : State) (r : Nat) : Bool := decide (fld (s.cf r 0x02 2) 0 2 = 2)

/-- SLICE buffers taken for a coded row (R17, R74): none left taken when one is refused. -/
def State.takeSlices (s : State) (l ctx bytes : Nat) : State × Option (List W32) :=
  let n := ceilDiv bytes 4096
  let (s', hs) := s.allocMany (aLane l) (s.cf ctx 0x21 1) 1 false n
  if hs.length = n then (s'.pmcSpan l 0x031 n n, some hs) else (s', none)

/-- The stall ends with a buffer: transient within 10 ms of the raise (R449). -/
def State.stallEnds (s : State) (l : Nat) : State :=
  match (s.lane l).stallAt with
  | some t =>
    let s := s.setLane l { s.lane l with stallAt := none }
    if (s.fltSrc fLaneSliceStall).outcome = .pending ∧ s.ns ≤ t + 10 * ms then s.decideFault fLaneSliceStall l false else s
  | none => s

/-- SLICE_STALL_TIMEOUT: 10 ms without a buffer make the stall lasting. -/
def State.stallTimeout (s : State) (l : Nat) : State :=
  match (s.lane l).stallAt with
  | some t => if t + 10 * ms ≤ s.ns ∧ (s.fltSrc fLaneSliceStall).outcome = .pending then s.decideFault fLaneSliceStall l true else s
  | none => s

/-- The learned factor of a context's cost (R176): a running mean of the duration over the predicted run. -/
def learn (old durNs runNs : Nat) : Nat :=
  if runNs = 0 then old else max 49152 (min 131072 ((old * 15 + durNs * 65536 / runNs) / 16))

/-- The unstalled run time of a row of `n` samples at a rate in units of 0.1 Mpixel/s, in ns (R176). -/
def runNs (n rate : Nat) : Nat := n * 10000 / rate

/-- The lines of row `row` that are displayed. -/
def State.linesOf (s : State) (r row : Nat) : Nat := min (s.rowLines r) (s.cf r 0x06 2 - row * s.rowLines r)

/-! ### The units of a coded row (R79, R81, R91, R128, R133, R134, R138 to R140) -/

/-- The row that a lane codes, as its units see it: its picture is the IDR picture, it codes its units as skip (coast or SKIP_PIC), its
refresh columns, its target, its QP limits and qp_max (R128, R133, R138 to R140); and what bounds its vectors (R81, R134). -/
structure RowWork where
  avc : Bool
  idr : Bool
  skipped : Bool
  colStart : Nat
  colEnd : Nat
  units : Nat
  target : Int
  lo : Int
  hi : Int
  top : Int
  clean : List Nat               -- unit columns that the slot's map leaves out: coded as skip (R196)
  topFrom : Nat                  -- the first unit after a coast began on another lane: the rest is coded at qp_max
  row : Nat := 0
  wide : Nat := 0                -- the picture, or in TILE mode the tile, in luma samples
  high : Nat := 0
  left : Nat := 0                -- unit columns left of the picture's own refresh columns: the refreshed region
  bounds : List Nat := []        -- for units there: how far right each reference that they may refer to holds (R134)
  draw : Nat := 0
  deriving DecidableEq, Repr

/-- What a lane reports of one unit: its mode, its costs, its QP, and its entry of the statistics. -/
structure UnitStat where
  mode : Nat
  satd : Nat
  intra : Nat
  qp : Int
  entry : Bytes
  deriving DecidableEq, Repr

/-- A vector component keeps a block within [0, lim): the block itself, and where the vector has a fraction the interpolation footprint, 3
samples before and 4 after for luma, 1 before and 2 after for chroma, whose vectors have 3 fraction bits (R81). -/
def fitsAxis (pos len lim : Nat) (v : Int) : Bool :=
  let p := Int.ofNat pos
  let n := Int.ofNat len
  let y := v.fdiv 4
  let c := v.fdiv 8
  let luma := decide (v % 4 ≠ 0)
  let chroma := decide (v % 8 ≠ 0)
  decide (0 ≤ p + y - (if luma then 3 else 0)) && decide (p + n + y + (if luma then 4 else 0) ≤ Int.ofNat lim) &&
  decide (0 ≤ p / 2 + c - (if chroma then 1 else 0)) && decide ((p + n) / 2 + c + (if chroma then 2 else 0) ≤ Int.ofNat lim / 2)

/-- A block of the row: its place and size in luma samples. -/
structure Block where
  x : Nat
  y : Nat
  w : Nat
  h : Nat
  deriving DecidableEq, Repr

/-- A vector in the restraint window: `limX` is the right end of the area, and the search range is ±256 by ±128 (R79, R81). -/
def inWindow (b : Block) (limX limY : Nat) (v : Int × Int) : Bool :=
  fitsAxis b.x b.w limX v.1 && fitsAxis b.y b.h limY v.2 && decide (v.1.natAbs ≤ 1024) && decide (v.2.natAbs ≤ 512)

/-- The vector of a block in its window: its own, the cheapest that conforms in its place, or the nearest whole-sample shift that does
(R81, R134); none where no vector fits. (DESIGN CHOICE, log 106.) -/
def restrain (draw k : Nat) (b : Block) (limX limY : Nat) (v : Int × Int) : Option (Int × Int) :=
  let c := Config.cheapMv draw k
  let z : Int × Int := (4 * min 0 (Int.ofNat limX - Int.ofNat (b.x + b.w)), 4 * min 0 (Int.ofNat limY - Int.ofNat (b.y + b.h)))
  if inWindow b limX limY v then some v
  else if inWindow b limX limY c then some c
  else if inWindow b limX limY z then some z
  else none

/-- Block `k` of unit `i`: the 16 x 16 blocks of a CTU in raster order, or the macroblock, cut at the picture's edge. -/
def unitBlock (w : RowWork) (i k : Nat) : Block :=
  let u := if w.avc then 16 else 32
  let x := i * u + k % 2 * 16
  let y := w.row * u + k / 2 * 16
  { x := x, y := y, w := min 16 (w.wide - x), h := min 16 (w.high - y) }

/-- The right end of the area that a block of unit `i` may predict from: of the picture or tile, and in the refreshed region of the region as
it stands in the reference that the block takes; none when no reference may be taken there (R134). -/
def areaOf (w : RowWork) (i k : Nat) : Option Nat :=
  if i < w.left then
    if w.bounds.isEmpty then none
    else some (min w.wide (getAt 0 w.bounds (Config.refPick w.draw (i * 4 + k) % w.bounds.length)))
  else some w.wide

/-- The list-0 vectors of a unit in its window, block by block (a block outside the picture has none); none for a unit that cannot be coded
inter. -/
def unitMvs (w : RowWork) (i : Nat) (b : Bytes) : Option (List (Int × Int)) :=
  (List.range (if w.avc then 1 else 4)).foldr (fun k (a : Option (List (Int × Int))) =>
    match a with
    | none => none
    | some l =>
      let blk := unitBlock w i k
      if blk.w = 0 ∨ blk.h = 0 then some ((0, 0) :: l)
      else
        let v := rd b (4 * k) 4
        match areaOf w i k with
        | none => none
        | some lim => (restrain w.draw (i * 4 + k) blk lim w.high (sgn v 16, sgn (v / 65536) 16)).map (fun v => v :: l)) (some [])

/-- The mode of unit `i` when coding chose `m`: REFRESH in a refresh column, INTRA in the IDR picture, SKIP in a row coded as skip and for
a clean unit; no other unit is REFRESH (R91, R133, R196). -/
def unitMode (w : RowWork) (i m : Nat) : Nat :=
  if w.colStart ≤ i ∧ i < w.colEnd ∧ ¬ w.idr then 4 else if w.idr then 3 else if w.skipped || w.clean.contains i then 0 else if m < 4 then m else 3

/-- The step of the QP after `done` units with `bits` bits (R128). -/
def qpStepAfter (w : RowWork) (done bits : Nat) : Int :=
  let u := Int.ofNat w.units
  let e := u * Int.ofNat bits - w.target * Int.ofNat done       -- e of R128, times the units of the row
  let t := w.target * u
  if t < 4 * e then 2 else if t < 8 * e then 1 else if 4 * e < -t then -2 else if 8 * e < -t then -1 else 0

/-- A vector's four bytes (R91). -/
def mvBytes (v : Int × Int) : Bytes := leBytes 2 (unsgn v.1 16) ++ leBytes 2 (unsgn v.2 16)

/-- The statistics entry of a unit (R91): vectors zero for intra, satd 0xFFFF_FFFF in rows coded as skip, reserved fields zero. -/
def unitEntry (w : RowWork) (mode : Nat) (mvs : List (Int × Int)) (qp : Int) (b : Bytes) : Bytes :=
  let n := if w.avc then 4 else 16
  (if 3 ≤ mode then zeros n else padTo n (mvs.flatMap mvBytes)) ++ leBytes 4 (if w.skipped then 0xFFFFFFFF else rd b n 4) ++
    leBytes 4 (rd b (n + 4) 4) ++
    leBytes 4 (fld (rd b (n + 8) 4) 0 20 + qp.toNat % 64 * 2 ^ 20 + mode * 2 ^ 26) ++ zeros (if w.avc then 0 else 4)

/-- The units of a row from unit `i` on, `bits` bits into it, the next at QP `qp` (R128, R139). A unit whose vectors fit no window is coded
intra. (DEDUCED, log 104.) -/
def rowUnits (w : RowWork) (b : Bytes) : Nat → Nat → Nat → Int → List UnitStat
  | 0, _, _, _ => []
  | n + 1, i, bits, qp =>
    let size := if w.avc then 16 else 32
    let off := if w.avc then 4 else 16
    let mode := unitMode w i (fld (rd b (off + 8) 4) 26 3)
    let mvs := unitMvs w i b
    let mode := if mode < 3 ∧ mvs.isNone then 3 else mode
    let q := if (w.skipped && decide (3 ≤ mode)) || decide (w.topFrom ≤ i) then w.top else qp
    let bits := bits + fld (rd b (off + 8) 4) 0 20
    let x : UnitStat := { mode := mode, satd := if w.skipped then 0xFFFFFFFF else rd b off 4, intra := rd b (off + 4) 4, qp := q,
                          entry := unitEntry w mode (mvs.getD []) q b }
    x :: rowUnits w (b.drop size) n (i + 1) bits (if w.skipped then q else clampI w.lo w.hi (q + qpStepAfter w (i + 1) bits))

/-- The unit columns that a composed row's slot holds, when the context has a composition context and the row stands in its ring. -/
def State.slotCols (s : State) (e pic row : Nat) : Option (List Nat) :=
  match s.opens.find? (fun x => decide (x.2 = 5) && decide (s.cf x.1 0x08 2 = e)) with
  | some x => (Tbl.find (Tbl.get {} s.cmp.ctxs x.1).ring (pic * 4096 + row)).map (fun l => l.map (fun u => u.col))
  | none => none

/-- How far right the references hold that a unit of the refreshed region of picture `pic` may refer to: of each reference m of the sweep with
n0 ≤ m < n, end(m) less the last 8 luma samples (R134). -/
def State.refBounds (s : State) (r pic : Nat) : List Nat :=
  let e := s.enc r
  let unit := if s.isAvc r then 16 else 32
  let pics := ((s.encRefs r).filter (fun h => decide (h ≠ nullHandle))).map (fun h => (s.frame h).pic)
  (e.ends.filter (fun x => decide (e.n0 ≤ x.1) && decide (x.1 < pic) && pics.contains x.1)).map (fun x => x.2 * unit - 8)

/-- The row that a lane has coded. -/
def State.rowWork (s : State) (x : LaneRun) : RowWork :=
  let j := x.job
  let e := s.enc j.ctx
  let p := if e.cur.pic = j.pic then e.cur else e.prev
  let skipped := x.coast || j.skip
  let fresh := decide (p.pic = j.pic) && (!skipped || p.forced)
  let low := Int.ofNat (s.cf j.ctx 0x58 1 + e.familyBias)
  let top := Int.ofNat (s.cf j.ctx 0x59 1)
  { avc := s.isAvc j.ctx, idr := j.idr, skipped := skipped, colStart := if fresh then p.colStart else 0,
    colEnd := if fresh then p.colEnd else 0, units := s.colsOf j.ctx, target := x.target, lo := max low (x.qp - 6),
    hi := min top (x.qp + 6), top := top,
    clean := match s.slotCols j.ctx j.pic j.row with
      | some cols => (List.range (s.colsOf j.ctx)).filter (fun k => !cols.contains k)
      | none => [],
    topFrom := if p.pic = j.pic ∧ (Tbl.get {} p.rows j.row).topped then Config.coastFrom s.free else s.colsOf j.ctx,
    row := j.row, wide := s.cf j.ctx 0x04 2, high := s.cf j.ctx 0x06 2, left := if p.pic = j.pic ∧ e.n0 ≤ p.pic then p.colStart else 0,
    bounds := s.refBounds j.ctx j.pic, draw := s.free }

/-- The measured satd of a row, its complexity (none when no unit carries a measured satd), and whether it holds REFRESH units
(R92, R127). -/
def measuredSatd (l : List UnitStat) : Nat := l.foldl (fun a u => a + if u.satd = 0xFFFFFFFF then 0 else u.satd) 0
def rowCost (l : List UnitStat) : Option Nat :=
  if l.all (fun u => decide (u.satd = 0xFFFFFFFF)) then none
  else some (l.foldl (fun a u => a + if 3 ≤ u.mode then u.intra else if u.satd = 0xFFFFFFFF then 0 else u.satd) 0)
def rowRefreshes (l : List UnitStat) : Bool := l.any (fun u => decide (u.mode = 4))

/-- A row's per-CTU statistics written to its slot of the statistics buffer (R91). -/
def State.writeStats (s : State) (r pic row : Nat) (l : List UnitStat) : State :=
  let entry := if s.isAvc r then 16 else 32
  let units := s.colsOf r
  let slot := ceilDiv (units * s.cf r 0x4E 2 * entry) 4096 * 4096
  s.store (s.cf r 0x28 8 + pic % 2 * slot + row * units * entry) (l.flatMap (fun u => u.entry))

/-- The bytes of a coded row in its SLICE buffers, in their order (R74). -/
def State.storeSlices (s : State) : List W32 → Nat → State
  | [], _ => s
  | h :: hs, n => State.storeSlices (s.storeFree (s.bufAt h) (min 4096 n)) hs (n - 4096)

/-! ### Headers (R79, R80, R82, R135) -/

/-- The encoder's mode (R78): 0 PICTURE, 1 TILE, 2 CARRIAGEWAY, 3 STRIP. -/
def State.encMode (s : State) (r : Nat) : Nat := fld (s.cf r 0x02 2) 2 2

/-- Values of a sequence parameter set (R79, R82). -/
def State.spsValues (s : State) (r : Nat) : List (String × Int) :=
  let n (off : Nat) : Int := Int.ofNat (s.cf r off 1)
  if s.isAvc r then
    [("profile_idc", n 0x08), ("constraint_set1_flag", Int.ofNat (b2n (decide (s.cf r 0x08 1 = 66)))), ("level_idc", n 0x09),
     ("frame_mbs_only_flag", 1), ("direct_8x8_inference_flag", 1), ("max_num_ref_frames", n 0x0A), ("max_num_reorder_frames", 0),
     ("seq_scaling_matrix_present_flag", 0)]
  else
    [("general_profile_idc", n 0x08), ("general_tier_flag", Int.ofNat (b2n (s.enc r).high)), ("general_level_idc", n 0x09),
     ("chroma_format_idc", 1), ("log2_min_luma_coding_block_size_minus3", 0), ("log2_diff_max_min_luma_coding_block_size", 2),
     ("log2_min_luma_transform_block_size_minus2", 0), ("log2_diff_max_min_luma_transform_block_size", 3),
     ("max_transform_hierarchy_depth_intra", 3), ("max_transform_hierarchy_depth_inter", 2), ("amp_enabled_flag", 0),
     ("pcm_enabled_flag", 0), ("scaling_list_enabled_flag", 0), ("sps_temporal_mvp_enabled_flag", 0),
     ("sample_adaptive_offset_enabled_flag", 1), ("strong_intra_smoothing_enabled_flag", 1), ("long_term_ref_pics_present_flag", 1),
     ("sps_max_num_reorder_pics", 0), ("sps_max_latency_increase_plus1", 0), ("sps_max_dec_pic_buffering_minus1", n 0x0A)]

/-- Values of a video parameter set (R79). -/
def State.vpsValues (s : State) (r : Nat) : List (String × Int) :=
  (s.spsValues r).filter (fun x => ["general_profile_idc", "general_tier_flag", "general_level_idc"].contains x.1)

/-- The encoder codes with entropy coding synchronisation (R79). -/
def State.entropySync (s : State) (r : Nat) : Bool :=
  !s.isAvc r && (decide (s.encMode r = 2) || (decide (s.encMode r = 0) && tb (s.cf r 0x02 2) 5))

/-- Values of a picture parameter set (R79, R82). -/
def State.ppsValues (s : State) (r : Nat) : List (String × Int) :=
  let f := s.cf r 0x02 2
  let bit (b : Bool) : Int := Int.ofNat (b2n b)
  if s.isAvc r then
    [("entropy_coding_mode_flag", bit (decide (s.cf r 0x08 1 ≠ 66) && !tb f 6)), ("transform_8x8_mode_flag", bit (decide (s.cf r 0x08 1 = 100))),
     ("weighted_pred_flag", 0), ("constrained_intra_pred_flag", 0), ("pic_scaling_matrix_present_flag", 0),
     ("deblocking_filter_control_present_flag", 1)]
  else
    [("transform_skip_enabled_flag", bit (tb f 8)), ("sign_data_hiding_enabled_flag", 1), ("cu_qp_delta_enabled_flag", 1),
     ("diff_cu_qp_delta_depth", 0), ("weighted_pred_flag", 0), ("weighted_bipred_flag", 0),
     ("tiles_enabled_flag", bit (decide (s.encMode r = 1))), ("loop_filter_across_tiles_enabled_flag", 0),
     ("entropy_coding_sync_enabled_flag", bit (s.entropySync r)),
     ("dependent_slice_segments_enabled_flag", 1), ("pps_deblocking_filter_disabled_flag", 0), ("pps_beta_offset_div2", 0),
     ("pps_tc_offset_div2", 0)]

/-- NAL units ahead of a row: the parameter sets of an IDR picture and of the first picture of a sweep, and the recovery point SEI of
the latter with the sweep's count, before row 0 (R80, R135). -/
def State.headNals (s : State) (r pic row : Nat) (idr : Bool) : List HeadNal :=
  let e := s.enc r
  let first := decide (e.n0 = pic) && !idr
  let p := if e.cur.pic = pic then e.cur else e.prev
  let kinds : List HeadKind :=
    if row = 0 ∧ (idr ∨ first) then
      (if s.isAvc r then [] else [.vps (s.vpsValues r)]) ++ [.sps (s.spsValues r), .pps (s.ppsValues r)] ++
        (if first then [.recovery p.heads true false 0] else [])
    else []
  ((List.range kinds.length).zip kinds).map (fun k => { kind := k.2, len := Config.headNal s.free k.1 })

def headBytes (l : List HeadNal) : Nat := l.foldl (fun a h => a + h.len) 0

/-- The slice segment header of a coded row (R79, R80, R82). -/
def State.sliceHeader (s : State) (r pic row : Nat) (idr : Bool) (qp : Int) : SliceHdr :=
  let avc := s.isAvc r
  { dependent := !avc && decide (row ≠ 0), kind := if idr then .I else if !avc && Config.sliceB (r * 2 ^ 32 + pic) then .B else .P,
    first := row * s.colsOf r, qp := qp, deblockIdc := if avc && decide (s.encMode r = 3) then 2 else 0 }

/-! ### Completion (R74, R92, R125, R141) -/

/-- A lane reads poisoned data (R365): an encoded picture's successor restarts the sweep; a decoded row has concealed units and counts
as damaged. (DEDUCED, log 101.) -/
def State.lanePoison (s : State) (agent : Nat) : State :=
  let l := agent - 1
  match (s.lane l).run with
  | none => s
  | some r =>
    if agent = 0 ∨ 64 < agent ∨ r.visible then s
    else match r.job.op with
      | .encode => s.restartRefresh r.job.ctx
      | .decode =>
        if r.job.noop then s
        else
          let gone := if r.job.poison.isEmpty then s.damagedUnits r.job.ctx else r.job.poison
          let r := { r with abandoned := true, segments := if r.abandoned then r.segments else r.segments + 1,
                            concealed := r.concealed ++ gone.filter (fun u => !r.concealed.contains u), job := { r.job with poison := gone } }
          (s.setLane l { s.lane l with run := some r }).draw
      | _ => s

/-- A coded row handed to ASM. -/
def State.codedRow (s0 : State) (r : Nat) (c : CodedRow) : State :=
  let s := s0.storeSlices c.slices c.bytes
  { s with asm := { s.asm with rows := Tbl.put s.asm.rows r (Tbl.get [] s.asm.rows r ++ [c]) } }

/-- What the record shows of a coded row: the rows and bytes of the context, the QP of the last unit, the row's bias, and with row 0 the
picture's target (R74, R89, R144). -/
def State.showRow (s : State) (r pic row bytes retries drain : Nat) (coast : Bool) (qp : Int) : State :=
  let s := ((s.incCf r 0x88 8 1).incCf r 0x90 8 bytes).setCf r 0x5B 1 (unsgn qp 8)
  let s := if coast then s.incCf r 0xA0 4 1 else s
  let s := (s.incCf r 0xAC 4 retries).setCf r 0x74 1 drain
  let s := if row = 0 ∧ (s.enc r).cur.pic = pic then s.publishTarget r (s.enc r).cur else s
  s.setCf r 0x4C 2 (row + 1)

/-- The completion of a coded row becomes visible (R74, R92, R125, R141). -/
def State.encodeDone (s : State) (l : Nat) (x : LaneRun) (f : RowFacts) (hs : List W32) : State :=
  let j := x.job
  let r := j.ctx
  let l0 := rowUnits (s.rowWork x) f.stats (s.colsOf r) 0 0 x.qp
  let lastQp := (l0.getLast?.map (fun u => u.qp)).getD x.qp
  let heads := s.headNals r j.pic j.row j.idr
  let hdr := s.sliceHeader r j.pic j.row j.idr x.qp
  let bytes := ceilDiv f.bits 8
  let s := s.draw
  let s := s.showRow r j.pic j.row (bytes + headBytes heads) (if j.retry then max 1 j.attempts else 0) ((j.bias.getD (0, 0)).1) x.coast lastQp
  let s := s.writeStats r j.pic j.row l0
  let w2 := (b2n x.coast + 2 * b2n j.skip + 4 * b2n (rowRefreshes l0) + 8 * b2n j.retry + 16 * b2n x.late + 32 * b2n j.lastRow +
    64 * b2n j.idr + 128 * b2n (decide (1 < (s.lane l).cwSize))) * 2 ^ 24 + f.bits % 2 ^ 24
  let metric := min (measuredSatd l0 / 64) 0xFFFFF
  let s := s.lsfPost l 1 j.row (r * 2 ^ 16 + j.pic % 256 * 256 + unsgn x.qp 8) w2 (min f.durationUs 4095 * 2 ^ 20 + metric)
  let e := s.enc r
  let pred := runNs (s.cf r 0x04 2 * s.linesOf r j.row) 2682 / (if j.skip then 16 else 1)
  let s := s.setEnc r { e with factor := learn e.factor (f.durationUs * us) pred }
  let s := s.codedRow r { hdr := hdr, pic := j.pic, row := j.row, bytes := bytes, lane := l, last := j.lastRow, slices := hs, at_ := s.ns,
                          heads := heads }
  let s := s.encRowWritten r j.pic j.row
  let s := s.rcRowDone r j.pic j.row f.bits (if x.coast then none else rowCost l0)
  let s := s.publishFront r
  let s := if j.lastRow then s.encPicDone r j.pic l else s
  (((s.drawCarry r).measured l f.measured).rowSlots l (s.laneCycle - x.cycle - x.stalled) f.measured).pmcEvent l 0x002

/-- The completion of a decoded row becomes visible. A row that is not decoded counts nothing (R84, R155). -/
def State.decodeDone (s : State) (l : Nat) (x : LaneRun) (f : RowFacts) : State :=
  let j := x.job
  let r := j.ctx
  let s := s.applyStaged r j.staged
  let s := s.incCf r 0xAC 4 (if j.retry then max 1 j.attempts else 0)
  let s := if j.noop then s
    else
      let s := (((s.incCf r 0x88 8 1).incCf r 0x90 8 x.bytes).setCf r 0x24 2 (j.row + 1)).decRowDone r l j.row x.segments x.syntaxErrs
        x.concealed x.mvs
      s.setDec r { s.dec r with segBad := x.runsOn }
  let d := s.dec r
  let bad := !j.noop && (!x.concealed.isEmpty || d.picBad || (d.concealing && !d.ends))
  let n := if j.noop then 0 else x.concealed.length
  let w2 := (b2n bad + 2 * b2n (x.synth && !j.noop) + 4 * b2n (x.abandoned && !j.noop) + 8 * b2n j.retry + 16 * b2n x.late +
    32 * b2n j.lastRow + 64 * b2n (x.irap && !j.noop)) * 2 ^ 24 + (if j.noop then 0 else x.bytes % 2 ^ 24)
  let s := s.lsfPost l 2 j.row (r * 2 ^ 16 + j.pic % 256 * 256) w2 (min f.durationUs 4095 * 2 ^ 20 + min n 0xFFFFF)
  let pred := runNs (s.cf r 0x04 2 * ceilDiv (s.cf r 0x06 2) (max 1 (s.cf r 0x26 2))) (if s.isAv1 r then 2682 else 5364)
  let s := if j.noop then s else s.setDec r { s.dec r with factor := learn (s.dec r).factor (f.durationUs * us) pred }
  let s := if j.lastRow || (!j.noop && decide (s.cf r 0x26 2 ≤ j.row + 1)) then s.decPicDone r l else s
  let s := s.drawCarry r
  (if j.noop then s else (s.measured l f.measured).pmcSpan l 0x050 n n).pmcEvent l 0x003

/-! ### FLUSH_PICTURE (R86) -/

/-- The jobs of a picture of an encode context that no lane has started are dropped: its rows have been coded. -/
def State.dropPic (s : State) (r pic : Nat) : State :=
  let mine := fun (j : Job) => decide (j.op = .encode) && decide (j.ctx = r) && decide (j.pic = pic)
  let run := s.lanes.flatMap (fun e => match e.2.run with
    | some x => [(x.job.idx, x.job.gen)]
    | none => [])
  let gone := s.msc.jobs.filter (fun e => mine e.2 && !(run.contains (e.1, e.2.gen)))
  let s := gone.foldl (fun s e => s.freeJob e.2) s
  s.lanes.foldl (fun s e => s.setLane e.1 { s.lane e.1 with queue := (s.lane e.1).queue.filter (fun j => !(mine j)) }) s

/-- The rows that a flush codes as skip, with their number; none when a SLICE buffer lacks. -/
def State.flushRows (s : State) (l r pic : Nat) : List Nat → Option State
  | [] => some s
  | row :: rest =>
    let b := Config.skipRowBits s.free
    let qp := Int.ofNat (s.cf r 0x5B 1)
    match (s.draw).takeSlices l r (ceilDiv b 8) with
    | (_, none) => none
    | (t, some hs) =>
      let idr := (t.enc r).cur.idr
      let w := t.rowWork { job := { ctx := r, pic := pic, row := row, skip := true, idr := idr }, qp := qp }
      let units := rowUnits w [] w.units 0 0 qp
      let heads := t.headNals r pic row idr
      let hdr := t.sliceHeader r pic row idr qp
      let t := (t.draw).showRow r pic row (ceilDiv b 8 + headBytes heads) 0 0 false qp
      let t := t.writeStats r pic row units
      let t := t.codedRow r { hdr := hdr, pic := pic, row := row, bytes := ceilDiv b 8, lane := l, last := rest.isEmpty, slices := hs,
                              at_ := t.ns, heads := heads }
      let t := ((t.encRowWritten r pic row).rcRowDone r pic row b none).publishFront r
      let skips := (units.filter (fun u => decide (u.mode = 0))).length
      let t := (t.pmcSpan l 0x004 units.length units.length).pmcSpan l 0x042 skips skips
      State.flushRows t l r pic rest

/-- The rows of a decoded picture that a flush conceals. -/
def State.flushDecoded (s : State) (l r : Nat) : List Nat → State
  | [] => s
  | row :: rest =>
    let units := List.range (s.decCols r)
    let s := s.decRowDone r l row 0 0 units []
    let s := (s.pmcSpan l 0x004 units.length units.length).pmcSpan l 0x050 units.length units.length
    State.flushDecoded s l r rest

/-- The record of a flush: rows completed by it (R92). -/
def State.flushPost (s : State) (l : Nat) (j : Job) (n : Nat) : State :=
  s.lsfPost l 3 j.row (j.ctx * 2 ^ 16 + j.pic % 256 * 256) (n % 2 ^ 24) 0

/-- FLUSH_PICTURE completes the picture in progress (R86). Without SLICE buffers for its rows the lane stalls (R17). -/
def State.flushOp (s : State) (l : Nat) : State :=
  match s.headJob l with
  | none => s
  | some j =>
    if j.op ≠ .flush then s
    else
      let t := s.plainJob l j id
      match Tbl.find s.opens j.ctx with
      | some 3 =>
        let e := t.enc j.ctx
        let todo := (List.range (t.cf j.ctx 0x4E 2)).filter (fun i => !(Tbl.get {} e.cur.rows i).done)
        if e.cur.open_ then
          match t.flushRows l j.ctx e.cur.pic todo with
          | some t => (((t.encPicDone j.ctx e.cur.pic l).dropPic j.ctx e.cur.pic).stallEnds l).flushPost l j todo.length
          | none => s.sliceStall l
        else t.flushPost l j 0
      | some 4 =>
        let d := t.dec j.ctx
        let from_ := t.cf j.ctx 0x24 2
        let todo := (List.range (t.cf j.ctx 0x26 2)).filter (fun i => decide (from_ ≤ i))
        if d.inProgress ∧ ¬ d.skipping then
          let t := t.flushDecoded l j.ctx todo
          let t := t.releasePic j.ctx l (w32 (t.cf j.ctx 0x18 4))
          ((t.setCf j.ctx 0x24 2 (t.cf j.ctx 0x26 2)).decPicDone j.ctx l).flushPost l j todo.length
        else (t.setDec j.ctx { d with inProgress := false }).flushPost l j 0
      | _ => t

end Sys2Proof.Machine
end

