-- ==== Sys2Proof/Machine/Micro.lean ====
section
/-! DEFINITION. The microsequencer of a lane (R101 to R114): the words of its stores, the microwords, traps and
machine checks. -/

namespace Sys2Proof.Machine

open Sys2Proof

/-! ### Words and parity (R102) -/

/-- The number of ones among the low `w` bits. -/
def ones (v w : Nat) : Nat := (bitsOf v w).length

/-- The failing parity groups of a microword of 24 data and 3 parity bits: parity is odd. -/
def microSyndrome (w : Nat) : Nat :=
  maskOf ((List.range 3).filter (fun i => decide ((ones (fld w (8 * i) 8) 8 + fld w (24 + i) 1) % 2 = 0)))

/-- The failing parity groups of a nanoword of 192 data and 8 parity bits. -/
def nanoSyndrome (w : Nat) : Nat :=
  maskOf ((List.range 8).filter (fun i => decide ((ones (fld w (24 * i) 24) 24 + fld w (192 + i) 1) % 2 = 0)))

/-- The lane fetches: a job, a trap handler or the routine of vector 0x00C0 runs, and it is not halted. -/
def Lane.fetching (x : Lane) : Bool := decide (x.power = 2) && (decide (x.ms = .run) || decide (x.ms = .trap))

def State.nextWord (s : State) (l : Nat) : State :=
  s.setLane l { s.lane l with upc := ((s.lane l).upc + 1) % 8192 }

/-! ### Machine checks (R104, R114) -/

def cPARITY : Nat := 0
def cSTACK : Nat := 1
def cILLEGAL : Nat := 2

/-- A machine check: the lane halts, in a carriageway every member does, and LANE_MCHK is raised. Nothing of the row in execution has
become visible (R74). -/
def State.machineCheck (s : State) (l : Nat) (nano : Bool) (addr syn cause : Nat) : State :=
  let x := s.lane l
  let word := b2n nano * 2 ^ 29 + cause * 2 ^ 27 + syn % 256 * 2 ^ 13 + addr % 8192
  let s := s.setLane l { x with ms := .halted, mchk := word, mchkTotal := satAdd x.mchkTotal 1 0xFFFF, outcome := .none, check := true }
  let s := (s.members l).foldl (fun s m => s.setLane m { s.lane m with ms := .halted }) s
  s.raise fLaneMchk l addr

/-- MACHINE_CHECK: a fetch that fails parity, a stack error, or a reserved code, on a lane that fetches. -/
def State.mchkOp (s : State) (l : Nat) (k : MchkKind) : State :=
  if !(s.lane l).fetching then s
  else match k with
    | .parity nano a syn => s.machineCheck l nano a.toNat syn.toNat cPARITY
    | .stack a => s.machineCheck l false a.toNat 0 cSTACK
    | .illegal a => s.machineCheck l false a.toNat 0 cILLEGAL

/-- A lane that fetches reads the microword at its micro-PC: one that fails parity is a machine check, and one of kind `kind` is executed. -/
def State.onWord (s : State) (l kind : Nat) (f : State → Nat → State) : State :=
  let x := s.lane l
  let w := Tbl.get 0 x.micro x.upc
  if !x.fetching then s
  else if microSyndrome w ≠ 0 then s.machineCheck l false x.upc (microSyndrome w) cPARITY
  else if fld w 22 2 = kind then f s (fld w 0 24)
  else s

/-- A special microword: a reserved opcode is a machine check (R104), and opcode `op` is executed with its operand. -/
def State.onSpecial (s : State) (l op : Nat) (f : State → Nat → State) : State :=
  s.onWord l 3 (fun s w =>
    if 8 ≤ fld w 16 6 then s.machineCheck l false (s.lane l).upc 0 cILLEGAL
    else if fld w 16 6 = op then f s (fld w 0 16)
    else s)

/-! ### Traps (R111 to R113) -/

/-- MEM retries a read of the lane (R364). -/
def State.readPending (s : State) (l : Nat) : Bool :=
  s.mem.chans.any (fun e => e.2.retry.any (fun r => decide (r.agent.toNat = aLane l)) ||
    e.2.banks.any (fun b => b.2.any (fun r => decide (r.agent.toNat = aLane l) && (match r.kind with
      | .again _ _ => true
      | _ => false))))

/-- MICRO_TRAP: a cause arises. In an atomic region causes 0 and 1 stall the stage, and 2 and 3 are held (R113). A cause whose handler runs
is taken when that handler has returned (R111). NEIGHBOUR arises in a carriageway alone. -/
def State.trapOp (s : State) (l c : Nat) : State :=
  let x := s.lane l
  if !x.fetching || (decide (c = 2) && decide (x.cwSize ≤ 1)) then s
  else if x.atomic then
    if c = 1 then s.sliceStall l
    else if c = 0 then s.setLane l { x with memStall := s.readPending l, trapDeferred := satAdd x.trapDeferred 1 0xFFFF }
    else if tb x.trapPending c then s
    else s.setLane l { x with trapPending := setBit x.trapPending c, trapDeferred := satAdd x.trapDeferred 1 0xFFFF }
  else (s.setLane l { x with trapPending := setBit x.trapPending c }).servePending l false

/-- A read of a lane has met an uncorrectable block, which MEM reads again: cause 0 (R111, R364). -/
def State.readFails (s : State) (agent : Nat) : State := if isLaneAgent agent then s.trapOp (agent - 1) 0 else s

/-- MEM has delivered the second read of a lane's block: its stage stalls no longer (R113). -/
def State.readAnswered (s : State) (agent : Nat) : State :=
  if isLaneAgent agent then s.setLane (agent - 1) { s.lane (agent - 1) with memStall := false } else s

/-! ### Nanowords (R104, R107) -/

/-- The CTU pointer advances, and the CTU enters stage 1 (R98). -/
def State.advanceCtu (s : State) (l : Nat) : State :=
  (s.setLane l { s.lane l with ctu := (s.lane l).ctu + 1 }).tagCtu l

/-- The field group of stage `i + 1` in a nanoword: [183:160] of stage 1, and 24 bits less for each further stage. -/
def stageGroup (nw i : Nat) : Nat := fld nw (160 - 24 * i) 24

/-- A nanoword given to the stages: a stage whose group is zero does nothing. -/
def stagesOf (old : List Nat) (nw : Nat) : List Nat :=
  (List.range 7).map (fun i => if stageGroup nw i = 0 then getAt 0 old i else stageGroup nw i)

/-- The effect of nanoword `nw` at index `i`: its stage groups, its control byte, and its sequencer field, which routes the immediate
(R104, R107). Of a subfield, whose encoding is private to the image, 0 has no effect and any other value replaces all 16 flags, both loop
counters or all four latches by free values. (DESIGN CHOICE, log 19.) -/
def State.issueNano (s : State) (l i nw imm : Nat) : State :=
  let x := s.lane l
  let s := s.setLane l { x with stages := stagesOf x.stages nw, lastNano := some i, atomic := x.atomic || tb nw 191 }
  let s := if tb nw 189 then s.advanceCtu l else s
  let q := fld nw 0 16
  let a := q + imm * 2 ^ 16
  let routed := decide (fld nw 0 4 ≠ 0)
  if q = 0 then s
  else
    let x := s.lane l
    let x := if fld nw 4 4 ≠ 0 || routed then { x with cflags := Config.seqFlags s.free a % 2 ^ 16 } else x
    let x := if fld nw 8 4 ≠ 0 || routed then
        { x with loop0 := Config.seqLoop0 s.free a % 2 ^ 15, loop1 := Config.seqLoop1 s.free a % 2 ^ 15 } else x
    let x := if fld nw 12 4 ≠ 0 || routed then { x with latches := (List.range 4).map (fun k => Config.seqLatch s.free a k) } else x
    (s.setLane l x).draw

/-- A stage of the lane waits: for MEM's second read inside an atomic region, or for a SLICE buffer there (R113). -/
def Lane.waits (x : Lane) : Bool := x.memStall || (x.atomic && x.stallAt.isSome)

/-- ISSUE: one issue of the nanoword; after the last of repeat + 1 the next microword follows. NW_SYNC waits for empty
stages. A nanoword that fails parity is a machine check. -/
def State.issueOp (s : State) (l : Nat) (empty : Bool) : State :=
  if (s.lane l).waits then s
  else s.onWord l 0 (fun s w =>
    let x := s.lane l
    let i := fld w 12 10
    let nw := Tbl.get 0 x.nano i
    if nanoSyndrome nw ≠ 0 then s.machineCheck l true i (nanoSyndrome nw) cPARITY
    else if tb nw 190 && !empty then s
    else
      let left := x.rep.getD (fld w 8 4 + 1)
      let s := s.setLane l { x with rep := some (left - 1) }
      let s := s.issueNano l i nw (fld w 0 8)
      if left ≤ 1 then (s.setLane l { s.lane l with rep := none }).nextWord l else s)

/-- DRAM_RETRY's return re-issues the nanoword whose read failed (R112): its stages work again, and the stage-3 slot redone is counted as
WASTED. (DEDUCED, log 113.) -/
def State.reissue (s : State) (l i : Nat) : State :=
  let x := s.lane l
  let nw := Tbl.get 0 x.nano i
  if nanoSyndrome nw ≠ 0 then s.machineCheck l true i (nanoSyndrome nw) cPARITY
  else
    let s := s.setLane l { x with stages := stagesOf x.stages nw, lastNano := some i }
    if stageGroup nw 2 = 0 then s
    else
      let s := s.setLane l { s.lane l with run := (s.lane l).run.map (fun r => { r with stalled := r.stalled + 1 }) }
      s.pmcEvent l 0x011

/-- TRAP_RETURN restores the newest frame; with none in use it does nothing. (DESIGN CHOICE, log 122.) -/
def State.trapRet (s : State) (l : Nat) : State :=
  s.onSpecial l 1 (fun s _ =>
    let x := s.lane l
    match x.frames with
    | [] => s
    | f :: r =>
      let s := s.setLane l { x with frames := r, upc := f.upc, rep := if f.rep = 0 then none else some f.rep,
                                    loop0 := f.loop0, loop1 := f.loop1, latches := f.latches,
                                    stack := x.stack.drop (x.stack.length - f.sp),
                                    trapActive := if tb x.trapActive f.cause then x.trapActive - 2 ^ f.cause else x.trapActive,
                                    ms := if !r.isEmpty then .trap else if f.boundary then .idle else .run }
      let s := match f.nano with
        | some i => s.reissue l i
        | none => s
      if (s.lane l).ms = .halted then s else s.servePending l f.boundary)

/-! ### Microwords (R103 to R106) -/

/-- The job that the lane executes. -/
def Lane.job (x : Lane) : Job := match x.run with
  | some r => r.job
  | none => {}

/-- In a carriageway, the row above has completed CTU c + 1, the last of the row at most (R76, R105): its
CTU pointer has passed it and, which the command says, its last stage has put it out. -/
def State.neighbourReady (s : State) (l : Nat) (out : Bool) : Bool :=
  let x := s.lane l
  let j := x.job
  let e := s.enc j.ctx
  let p := if e.cur.pic = j.pic then e.cur else e.prev
  let last := s.colsOf j.ctx - 1
  if j.row = 0 ∨ x.cwSize ≤ 1 then true
  else if (Tbl.get {} p.rows (j.row - 1)).done then true
  else
    let a := s.lane (s.memberFor l (j.row - 1))
    decide (a.job.ctx = j.ctx) && decide (a.job.pic = j.pic) && decide (a.job.row + 1 = j.row) && decide (min (x.ctu + 1) last < a.ctu) && out

/-- A branch condition (R105). Codes 1 and 2 read the counter given. -/
def State.condition (s : State) (l c loop0 loop1 : Nat) (out : Bool) : Bool :=
  let x := s.lane l
  let j := x.job
  let fl := s.cf j.ctx 0x02 2
  let enc := decide (j.op = .encode)
  let e := s.enc j.ctx
  let p := if e.cur.pic = j.pic then e.cur else e.prev
  match c with
  | 0x00 => true
  | 0x01 => decide (loop0 ≠ 0)
  | 0x02 => decide (loop1 ≠ 0)
  | 0x03 => decide ((if enc then s.colsOf j.ctx else s.decCols j.ctx) ≤ x.ctu + 1)
  | 0x04 => decide (fld fl 0 2 = 1)
  | 0x05 => !enc && decide (fld fl 0 2 = 2)
  | 0x06 => enc && decide (fld fl 2 2 = 1)
  | 0x07 => enc && decide (fld fl 2 2 = 2)
  | 0x08 => j.skip
  | 0x09 => j.idr
  | 0x0A => enc && !j.idr && decide (p.pic = j.pic) && decide (p.colStart ≤ x.ctu) && decide (x.ctu < p.colEnd)
  | 0x0B => match x.run with
    | some r => r.coast
    | none => false
  | 0x0C => decide (j.row = 0)
  | 0x0D => s.neighbourReady l out
  | 0x0E => match s.nextFor l with
    | some n => decide (x.prefetch = some n.ctx) && decide (x.prefetchAt ≤ s.ns)
    | none => false
  | 0x0F => j.retry
  | n => if 0x10 ≤ n ∧ n ≤ 0x1F then tb x.cflags (n - 0x10) else false

/-- BRANCH; a reserved condition code is a machine check. -/
def State.branchOp (s : State) (l : Nat) (out : Bool) : State :=
  s.onWord l 1 (fun s w =>
    let x := s.lane l
    let c := fld w 16 6
    if 0x20 ≤ c then s.machineCheck l false x.upc 0 cILLEGAL
    else
      let x := if c = 1 then { x with loop0 := (x.loop0 + 2 ^ 15 - 1) % 2 ^ 15 }
        else if c = 2 then { x with loop1 := (x.loop1 + 2 ^ 15 - 1) % 2 ^ 15 } else x
      let s := s.setLane l x
      let holds := s.condition l c x.loop0 x.loop1 out
      if holds != tb w 15 then s.setLane l { x with upc := fld w 0 13 } else s.nextWord l)

/-- CALL; with 8 entries on the stack it is a machine check. -/
def State.callOp (s : State) (l : Nat) : State :=
  s.onWord l 2 (fun s w =>
    let x := s.lane l
    if tb w 21 then s
    else if 8 ≤ x.stack.length then s.machineCheck l false x.upc 0 cSTACK
    else s.setLane l { x with stack := (x.upc + 1) % 8192 :: x.stack, upc := fld w 0 13 })

/-- RETURN; with an empty stack it is a machine check. -/
def State.returnOp (s : State) (l : Nat) : State :=
  s.onWord l 2 (fun s w =>
    let x := s.lane l
    if !(tb w 21) then s
    else match x.stack with
      | [] => s.machineCheck l false x.upc 0 cSTACK
      | a :: r => s.setLane l { x with stack := r, upc := a })

/-- END_JOB waits until the row's results are visible, which ROW_COMPLETE makes them, and completes the job. (DEDUCED, log 79.) -/
def State.endJobOp (s : State) (l : Nat) : State :=
  s.onSpecial l 0 (fun s _ => if (s.lane l).quiet then (s.endRun l).jobBoundary l else s)

/-- WAIT stalls until condition operand [5:0] holds; a reserved condition code is a machine check. -/
def State.waitOp (s : State) (l : Nat) (out : Bool) : State :=
  s.onSpecial l 2 (fun s v =>
    let x := s.lane l
    let c := fld v 0 6
    if 0x20 ≤ c then s.machineCheck l false x.upc 0 cILLEGAL
    else if s.condition l c x.loop0 x.loop1 out then s.nextWord l else s)

/-- LOOP_LOAD. -/
def State.loopLoadOp (s : State) (l : Nat) : State :=
  s.onSpecial l 3 (fun s v =>
    let x := s.lane l
    (s.setLane l (if tb v 15 then { x with loop1 := fld v 0 15 } else { x with loop0 := fld v 0 15 })).nextWord l)

/-- LATCH_LOAD. -/
def State.latchLoadOp (s : State) (l : Nat) : State :=
  s.onSpecial l 4 (fun s v =>
    let x := s.lane l
    (s.setLane l { x with latches := setAt x.latches (fld v 14 2) (w32 (fld v 0 14)) }).nextWord l)

/-- POST_SUMMARY: the record is built here and becomes visible with the row's other results, which END_JOB waits for (R74, R106): the
row's completion posts it. (DEDUCED, log 79.) -/
def State.postOp (s : State) (l : Nat) : State := s.onSpecial l 5 (fun s _ => s.nextWord l)

/-- NEXT_CTU. -/
def State.nextCtuOp (s : State) (l : Nat) : State := s.onSpecial l 6 (fun s _ => (s.advanceCtu l).nextWord l)

/-- DRAIN stalls until stages 1 to 7 are empty. -/
def State.drainOp (s : State) (l : Nat) (empty : Bool) : State := s.onSpecial l 7 (fun s _ => if empty then s.nextWord l else s)

/-! ### Loading a lane's stores (R109, R110, R119) -/

/-- The lane runs vector 0x00C0 (R108): with no context loaded. -/
def State.initLane (s : State) (l : Nat) : State :=
  s.setLane l { s.lane l with ms := .run, upc := 0xC0, rep := none, stack := [], frames := [], trapActive := 0, trapPending := 0,
                              run := none, active := none, prefetch := none, atomic := false, memStall := false }

/-- The words of an image's stores: 24 data and 3 parity bits, 192 and 8 (R101). -/
def microOf (img : Bytes) : Tbl Nat := (List.range 8192).map (fun a => (a, Config.mcMicro img a % 2 ^ 27))
def nanoOf (img : Bytes) : Tbl Nat := (List.range 1024).map (fun a => (a, Config.mcNano img a % 2 ^ 200))

/-- What a lane's readback finds (R109): every word's parity holds. -/
def readsBack (img : Bytes) : Bool :=
  (microOf img).all (fun e => decide (microSyndrome e.2 = 0)) && (nanoOf img).all (fun e => decide (nanoSyndrome e.2 = 0))

/-- The code of a load whose readback fails (R120). -/
def lLOADFAIL : Nat := 9

/-- The stores written from an image and read back: with the readback passed, the lane runs vector 0x00C0 and shows the image; with it failed,
LOAD_FAIL (R109, R119, R122). The result says which. A lane whose domain is off has no context loaded either way, and runs it as it wakes
(R110). -/
def State.loadStores (s : State) (l : Nat) (img : Bytes) (id : McId) (copy1 ok : Bool) : State × Bool :=
  let x := s.lane l
  let s := s.setLane l { x with micro := microOf img, nano := nanoOf img, loads := satAdd x.loads 1 0xFFFF }
  let x := s.lane l
  if ok && readsBack img then
    let s := s.setLane l { x with mc := id, copy1 := copy1, loadResult := 0 }
    (if x.power = 2 then s.initLane l else s, true)
  else (s.setLane l { x with loadResult := lLOADFAIL }, false)

end Sys2Proof.Machine
end

