-- ==== Sys2Proof/Machine/Raster.lean ====
section
/-! DEFINITION. The raster models of display sessions (R162 to R170): markers, lock, missing markers, suspension,
milestones and steering. -/

namespace Sys2Proof.Machine

open Sys2Proof

def State.raster (s : State) (d : Nat) : Raster := Tbl.get {} s.msc.rasters d
def State.setRaster (s : State) (d : Nat) (x : Raster) : State :=
  { s with msc := { s.msc with rasters := Tbl.put s.msc.rasters d x } }

/-- MSC_SCHED, MSC_LOCK, MSC_STEER, MSC_BAND (R182). -/
def State.mscSched (s : State) : Nat := (Tbl.get (w32 0x02020504) s.regs 0xD00040).toNat
def State.mscLock (s : State) : Nat := (Tbl.get (w32 0x08100000) s.regs 0xD00044).toNat
def State.mscSteer (s : State) : Nat := (Tbl.get (w32 0x80641014) s.regs 0xD00048).toNat
def State.mscBand (s : State) : Nat := (Tbl.get (w32 0x006400C8) s.regs 0xD0004C).toNat

/-- The unit of the model's values: 2^-32 ns, the width of lp (R162). -/
def fx : Int := 2 ^ 32

def State.totalLines (s : State) (d : Nat) : Nat := s.cf d 0x0C 2
def State.lpNominal (s : State) (d : Nat) : Int := Int.ofNat (s.cf d 0x2C 4) * 2 ^ 16

/-- The difference of two 32-bit frame counts. -/
def frameDiff (a b : Nat) : Int := sgn (serial32 a b) 32

/-! ### Milestones (R12, R163, R170) -/

/-- scan of line `y` of display picture `n`, in 2^-32 ns. -/
def Model.scan (m : Model) (total off n y : Nat) : Int :=
  m.phase + (frameDiff ((n + off) % 2 ^ 32) m.frameRef * Int.ofNat total + Int.ofNat y) * m.lp

/-- One row period of the session in ns. -/
def State.rowPeriod (s : State) (d : Nat) : Nat := ((s.raster d).m.lp * Int.ofNat (s.cf d 0x0E 2) / fx).toNat
def State.framePeriod (s : State) (d : Nat) : Nat := ((s.raster d).m.lp * Int.ofNat (s.totalLines d) / fx).toNat

/-- scan(k, n) and the milestone of row k of picture n, in ns (R12, R163). -/
def State.scanNs (s : State) (d k n : Nat) : Int :=
  ((s.raster d).m.scan (s.totalLines d) (s.cf d 0x40 4) n (k * s.cf d 0x0E 2)) / fx
def State.milestone (s : State) (d k n : Nat) : Int :=
  s.scanNs d k n - (s.raster d).m.lp * Int.ofNat (fld (s.cf d 0x32 2) 0 4 * s.cf d 0x0E 2) / fx - Int.ofNat (s.cf d 0x34 4)

/-- The milestones of row `k` of a tile over its members that count (R170). -/
def State.tileMilestones (s : State) (t k n : Nat) : List Int :=
  ((s.dests t).filter (fun x => s.paced x.sess)).map (fun x =>
    s.milestone x.sess (x.y0 + k) n)

/-! ### Markers (R164, R165) -/

/-- The error and the updated model of a marker, when the model has a reference. `st` is the reported slew. -/
def Model.update (m : Model) (total f l : Nat) (t : Int) (fast : Bool) : Int × Model :=
  let n := frameDiff f m.frameRef * Int.ofNat total + Int.ofNat l
  let p := m.phase + n * m.lp
  let e := t - p
  let dn := n - Int.ofNat m.nLast
  let lp2 := m.lp + e / ((if fast then 8 else 64) * (if dn = 0 then 1 else dn))
  let phase := p + e / (if fast then 2 else 8) - Int.ofNat l * lp2
  (e, { m with lp := lp2, phase := phase, frameRef := f, nLast := l, markers := m.markers + 1,
               good := if e.natAbs ≤ 2 * m.lp.natAbs then m.good + 1 else 0 })

/-- The first marker of a model (R164). -/
def Model.start (m : Model) (lp : Int) (f l : Nat) (t : Int) : Model :=
  { m with lp := lp, phase := t - Int.ofNat l * lp, frameRef := f, nLast := l, markers := 1, good := 0 }

/-- The steered nominal line period, and the drift check against it: |lp - lp_st| ≤ 500 ppm of nominal. -/
def lpSteered (nom steer : Int) : Int := nom * 100000000 / (100000000 + steer)
def driftOk (nom steer lp : Int) : Bool := decide ((lp - lpSteered nom steer).natAbs * 2000 ≤ nom.natAbs)

/-- The model on which a session's next marker acts. -/
def State.modelOf (s : State) (d : Nat) : Model :=
  if s.cf d 0x01 1 = sRELOCK then (s.raster d).second else (s.raster d).m

/-- The checks of R165, in order. -/
def State.markerOk (s : State) (d f l t : Nat) (steer : Int) : Bool :=
  let st := s.cf d 0x01 1
  let m := s.modelOf d
  let first := decide (m.markers = 0)
  let u := m.update (s.totalLines d) f l (Int.ofNat t * fx) (decide (st = sACQUIRE) || decide (st = sRELOCK))
  let near := decide (u.1.natAbs ≤ 2 * m.lp.natAbs)
  let last := m.frameRef
  decide (t ≤ s.ns) && decide (s.ns ≤ t + 10 * ms) &&
  decide (s.cf d 0x48 8 < t) &&
  decide (l < s.totalLines d) &&
  (if st = sLOST then near
   else first || (decide (f = last) && decide (s.cf d 0x44 2 < l)) || decide (f = (last + 1) % 2 ^ 32)) &&
  (if st = sLOCKED ∨ st = sLOST then near else true) &&
  (first || driftOk (s.lpNominal d) steer u.2.lp)

/-- The model's values written to the record. -/
def State.showModel (s : State) (d : Nat) : State :=
  let m := (s.raster d).m
  let s := (s.setCfI d 0x18 8 m.lp).setCfI d 0x20 8 (m.phase / fx)
  let s := s.setCf d 0x28 4 m.frameRef
  let nom := s.lpNominal d
  if nom = 0 then s else s.setCfI d 0x52 2 (clampI (-32768) 32767 ((m.lp - nom) * 100000000 / nom))

/-- The encode contexts that display `d` shows, and those of which no other display is paced: MSC stops dispatch for these while `d` is suspended
(R167). -/
def State.encsOf (s : State) (d : Nat) : List Nat :=
  (s.opens.filter (fun e => decide (e.2 = 3) && (s.sessOf e.1).contains d)).map Prod.fst
def State.ownEncs (s : State) (d : Nat) : List Nat :=
  (s.encsOf d).filter (fun e => (s.sessOf e).all (fun x => decide (x = d) || !(s.paced x)))

/-- The key of a row's milestone as its jobs were created with it. -/
def mileKey (pic row : Nat) : Nat := pic * 4096 + row

/-- The milestone of a row of display `d`: the one that its jobs were created with, once they have been (R168, R173). -/
def State.mileOf (s : State) (d row pic : Nat) : Int :=
  match Tbl.find (s.raster d).miles (mileKey pic row) with
  | some m => m
  | none => s.milestone d row pic

/-- suspended_ms brought up to now (R167, R181). -/
def State.showSusp (s : State) (d : Nat) : State :=
  let x := s.raster d
  match x.suspAt with
  | some t =>
    let n := (s.ns - t) / ms
    (s.setRaster d { x with suspMs := n }).incCf d 0x8C 4 (n - x.suspMs)
  | none => s

/-- The time of a suspension begins to count, unless one counts already; and ends. -/
def State.suspFrom (s : State) (d : Nat) : State :=
  let x := s.raster d
  if x.suspAt.isSome then s else s.setRaster d { x with suspAt := some s.ns, suspMs := 0 }
def State.suspEnd (s : State) (d : Nat) : State :=
  let s := s.showSusp d
  s.setRaster d { s.raster d with suspAt := none, suspMs := 0 }

/-- pic_offset set so that picture `n` is the first frame whose row 0 milestone lies at least one frame period after
now (R163). -/
def State.setOffset (s : State) (d n : Nat) : State :=
  let m := (s.raster d).m
  let total := Int.ofNat (s.totalLines d)
  let period := total * m.lp
  let lead := m.lp * Int.ofNat (fld (s.cf d 0x32 2) 0 4 * s.cf d 0x0E 2) + Int.ofNat (s.cf d 0x34 4) * fx
  let want := Int.ofNat s.ns * fx + period + lead
  let k := if period = 0 then 0 else -((m.phase - want) / period)
  let k := if 0 < period ∧ m.phase + (k - 1) * period ≥ want then k - 1 else k
  s.setCf d 0x40 4 (unsgn (Int.ofNat m.frameRef + k - Int.ofNat n) 32)

/-- A pending lead becomes active at the first row of a picture (R64, R173). -/
def State.applyLead (s : State) (d : Nat) : State :=
  if tb (s.cf d 0x32 2) 15 then s.setCf d 0x32 2 (fld (s.cf d 0x30 2) 0 4) else s

/-- Members of a family in LOCKED, ascending. -/
def State.lockedMembers (s : State) (fam : Nat) : List Nat :=
  (s.familyMembers fam).filter (fun d => decide (s.cf d 0x01 1 = sLOCKED))
def State.steerOk (s : State) (d : Nat) : Bool := tb (s.cf d 0x02 2) 0

/-- The lead member: the lowest without STEER_OK, else the lowest (R169). -/
def State.leadOf (s : State) (fam : Nat) : Option Nat :=
  match (s.lockedMembers fam).find? (fun d => !s.steerOk d) with
  | some d => some d
  | none => (s.lockedMembers fam).head?

/-- pic_offset set so that picture `n` of a family member lies within half a frame period of the lead's (R163, R169). -/
def State.setOffsetNear (s : State) (d lead n : Nat) : State :=
  let m := (s.raster d).m
  let period := Int.ofNat (s.totalLines d) * m.lp
  let k := if period = 0 then 0 else (s.scanNs lead 0 n * fx - m.phase + period / 2).fdiv period
  s.setCf d 0x40 4 (unsgn (Int.ofNat m.frameRef + k - Int.ofNat n) 32)

/-- The lead member against which a member's pictures are numbered: none for a session alone, or for the lead itself. -/
def State.leadFor_ (s : State) (d : Nat) : Option Nat :=
  if s.cf d 0x3C 2 = 0xFFFF then none else (s.leadOf (s.cf d 0x3C 2)).filter (fun l => decide (l ≠ d))

/-- pic_offset set afresh for the next picture (R163). -/
def State.offsetAfresh (s : State) (d : Nat) (lead : Option Nat) (n : Nat) : State :=
  match lead with
  | some l => s.setOffsetNear d l n
  | none => s.setOffset d n

/-- Entry into LOCKED from ACQUIRE: pic_offset, the end of a suspension, and REFRESH_RESTART after one (R137, R167). -/
def State.lockIn (s : State) (d : Nat) : State :=
  let x := s.raster d
  let lead := s.leadFor_ d
  let own := s.ownEncs d
  let s := s.setCf d 0x01 1 sLOCKED
  let n := match lead with
    | some l => (s.raster l).nextPic + 1
    | none => x.nextPic
  let s := s.offsetAfresh d lead n
  let s := s.setRaster d { s.raster d with nextRow := if lead.isSome then 0 else x.nextRow, nextPic := n, locked := true }
  match x.suspAt with
  | some _ =>
    let s := if own.any (fun e => (s.enc e).suspended) then s.showSusp d else s.suspEnd d
    let s := s.event .mscResume d 0
    own.foldl (fun s r => ((s.setCfI r 0x60 4 0).setCfI r 0x6C 4 0).restartFor d r) s
  | none => s

/-- A job that no lane or pipe has been given is created with the milestones of the new model: its deadline moves as its row's milestone does
(R168). -/
def State.moveJob (s : State) (d : Nat) (j : Job) : State :=
  let e := if j.op = .compose then s.cf j.ctx 0x08 2 else j.ctx
  let rows : List (Nat × Nat) := if j.sess = d then [(d, j.row)]
    else if s.cf e 0x0E 2 = 0xFFFF then []
    else ((s.dests (s.cf e 0x0E 2)).filter (fun x => s.paced x.sess)).map (fun x => (x.sess, x.y0 + j.row))
  if j.placed || !(rows.any (fun x => decide (x.1 = d))) || !(decide (j.op = .encode) || decide (j.op = .compose)) then s
  else
    let old := rows.map (fun x => s.mileOf x.1 x.2 j.pic)
    let new := rows.map (fun x => if x.1 = d then s.milestone d x.2 j.pic else s.mileOf x.1 x.2 j.pic)
    let shift := new.foldl min (new.headD 0) - old.foldl min (old.headD 0)
    { s with msc := { s.msc with jobs := Tbl.put s.msc.jobs j.idx { j with deadline := (Int.ofNat j.deadline + shift).toNat } } }

/-- The rows of display `d` that have been dispatched keep their milestones; every later row takes the new model's (R168). -/
def State.moveRows (s : State) (d : Nat) : State :=
  let s := s.msc.jobs.foldl (fun s e => s.moveJob d e.2) s
  let es := s.encsOf d
  let placed := s.msc.jobs.filterMap (fun e =>
    if e.2.placed ∧ e.2.op = .encode ∧ es.contains e.2.ctx then some (e.2.ctx, e.2.pic, e.2.row) else none)
  let queued := fun (k : Nat) => (s.tilesAt d (k % 4096)).any (fun t => placed.contains (s.cf t.1 0x04 2, k / 4096, t.2)) ||
    placed.contains (s.cf d 0x38 2, k / 4096, k % 4096)
  let later := s.msc.jobs.filterMap (fun e =>
    if !e.2.placed ∧ e.2.op = .encode ∧ es.contains e.2.ctx then some (e.2.ctx, e.2.pic, e.2.row) else none)
  let waits := fun (k : Nat) => (s.tilesAt d (k % 4096)).any (fun t => later.contains (s.cf t.1 0x04 2, k / 4096, t.2)) ||
    later.contains (s.cf d 0x38 2, k / 4096, k % 4096)
  let x := s.raster d
  s.setRaster d { x with miles := x.miles.map (fun e =>
    if waits e.1 && !queued e.1 then (e.1, s.milestone d (e.1 % 4096) (e.1 / 4096)) else e) }

/-- The switch to RELOCK's second model (R168): a jump of the frame count sets pic_offset afresh, and the next picture restarts the sweep. -/
def State.relockIn (s : State) (d : Nat) (jumped : Bool) : State :=
  let x := s.raster d
  let lead := s.leadFor_ d
  let s := s.setRaster d { x with m := x.second }
  let s := (s.setCf d 0x01 1 sLOCKED).incCf d 0x6C 4 1
  let s := (s.bump bMSC 3).event .mscRelock d 0
  let s := if jumped then (s.encsOf d).foldl (fun s r => s.restartFor d r) (s.offsetAfresh d lead x.nextPic) else s
  s.moveRows d

/-- Entry into RELOCK: the second model starts with the next marker, at the running lp. -/
def State.enterRelock (s : State) (d : Nat) : State :=
  (s.setRaster d { s.raster d with second := { lp := (s.raster d).m.lp } }).setCf d 0x01 1 sRELOCK

/-- A rejected marker (R165, R166). -/
def State.markerReject (s : State) (d : Nat) : State :=
  let s := (s.incCf d 0x64 4 1).bump bMSC 1
  let run := min 255 (s.cf d 0x46 1 + 1)
  let s := s.setCf d 0x46 1 run
  let st := s.cf d 0x01 1
  if st = sRELOCK then s.setRaster d { s.raster d with second := { (s.raster d).second with good := 0 } }
  else if st = sACQUIRE then s.setRaster d { s.raster d with m := { (s.raster d).m with good := 0 } }
  else if (st = sLOCKED ∨ st = sLOST) ∧ 3 ≤ run then s.enterRelock d
  else s

/-- The model updated by a marker that passed, and the slew change it reports (R164). -/
def State.markerApply (s : State) (d f l t : Nat) (steer : Int) : State :=
  let st := s.cf d 0x01 1
  let m := s.modelOf d
  let tt := Int.ofNat t * fx
  let m' := if m.markers = 0 then m.start (if st = sRELOCK then m.lp else s.lpNominal d) f l tt
    else (m.update (s.totalLines d) f l tt (decide (st = sACQUIRE) || decide (st = sRELOCK))).2
  let x := s.raster d
  -- from the timestamp of this marker on the predicted period is scaled by a newly reported slew (R164)
  let lp3 := m'.lp * (100000000 + x.steerRep) / (100000000 + steer)
  let m' := if steer = x.steerRep then m' else { m' with lp := lp3, phase := m'.phase + Int.ofNat l * (m'.lp - lp3) }
  let s := s.setRaster d (if st = sRELOCK then { x with second := m', steerRep := steer } else { x with m := m', steerRep := steer })
  let s := (s.incCf d 0x60 4 1).bump bMSC 0
  let s := ((s.setCf d 0x46 1 0).setCf d 0x44 2 l).setCf d 0x48 8 t
  let need := max 2 (fld s.mscLock 24 8)
  let s := if st = sACQUIRE ∧ need ≤ m'.good then s.lockIn d
    else if st = sRELOCK ∧ need ≤ m'.good then
      let old := x.m
      -- the frame count has jumped when the running model would give this line to another frame
      let p := old.phase + (frameDiff f old.frameRef * Int.ofNat (s.totalLines d) + Int.ofNat l) * old.lp
      s.relockIn d (decide (Int.natAbs (Int.ofNat (s.totalLines d) * old.lp) < 2 * (tt - p).natAbs))
    else if st = sLOST then s.setCf d 0x01 1 sLOCKED
    else s
  s.showModel d

/-- A received marker (R165 to R168). In SUSPENDED its arrival starts ACQUIRE. -/
def State.markerOp (s : State) (d f l t : Nat) (steer : Int) : State :=
  if s.cf d 0x01 1 = sCLOSED then s
  else
    let s := if s.cf d 0x01 1 = sSUSPENDED then
        (s.setCf d 0x01 1 sACQUIRE).setRaster d { s.raster d with m := {}, second := {} }
      else s
    let s := (s.setRaster d { s.raster d with lastRx := s.ns, missed := 0 }).setCf d 0x47 1 0
    if s.markerOk d f l t steer then s.markerApply d f l t steer else s.markerReject d

/-- MARKER_MISSING: another 64 + MISS_SLACK lines have passed without a marker (R167). -/
def State.missingOp (s : State) (d : Nat) : State :=
  let st := s.cf d 0x01 1
  let x := s.raster d
  let gap := (Int.ofNat (64 + fld s.mscLock 16 8) * x.m.lp / fx).toNat
  if st = sCLOSED ∨ st = sSUSPENDED ∨ x.m.markers = 0 ∨ s.ns < x.lastRx + (x.missed + 1) * gap then s
  else
    let s := s.setRaster d { x with missed := x.missed + 1 }
    let s := (s.incCf d 0x68 4 1).bump bMSC 2
    let run := min 255 (s.cf d 0x47 1 + 1)
    let s := s.setCf d 0x47 1 run
    if st = sLOCKED ∧ 3 ≤ run then ((s.setCf d 0x01 1 sLOST).incCf d 0x94 4 1).event .mscRasterLost d 0 else s

/-- SESSION_SUSPEND: 250 ms since the last applied marker (R166, R167). -/
def State.suspendOp (s : State) (d : Nat) : State :=
  let st := s.cf d 0x01 1
  if st = sCLOSED ∨ st = sSUSPENDED ∨ s.ns < s.cf d 0x48 8 + 250 * ms then s
  else ((s.setCf d 0x01 1 sSUSPENDED).suspFrom d).event .mscSuspend d 0

/-! ### Steering (R169, R262) -/

/-- φ of a member against the lead, in ns, reduced to within half a frame period. -/
def State.phi (s : State) (lead d n : Nat) : Int :=
  let p := Int.ofNat (s.framePeriod lead)
  let x := s.scanNs d 0 n - s.scanNs lead 0 n
  if p = 0 then x else (x + p / 2) % p - p / 2

/-- The slew for a phase error (R169), in 0.01 ppm. -/
def State.slewFor (s : State) (lead : Nat) (phi : Int) : Int :=
  let c := s.mscSteer
  let top := Int.ofNat (100 * max 1 (min 200 (fld c 16 8)))
  let span := Int.ofNat (max 1 (fld c 8 8) * s.framePeriod lead)
  if phi.natAbs ≤ fld c 0 8 * us then 0 else if span = 0 then 0 else clampI (-top) top (phi * 100000000 / span)

end Sys2Proof.Machine
end

