-- ==== Sys2Proof/Machine/Jobs.lean ====
section
/-! DEFINITION. The row-job table (R171, R174), the costs of jobs (R176), their order (R175), and the loads and
capacities of lanes, pipes, memory and ports that placement and admission use (R177, R179). -/

namespace Sys2Proof.Machine

open Sys2Proof

/-! ### The table (R174) -/

def State.job (s : State) (i : Nat) : Job := Tbl.get {} s.msc.jobs i
def State.putJob (s : State) (j : Job) : State := { s with msc := { s.msc with jobs := Tbl.put s.msc.jobs j.idx j } }

/-- A job entered at the lowest free index, whose generation rises; none when the table is full. -/
def State.newJob (s : State) (j : Job) : Option State :=
  match firstFrom (fun k => (Tbl.find s.msc.jobs k).isNone) 0 8192 with
  | none => none
  | some i =>
    let g := wrapAdd (Tbl.get 0 s.msc.gens i) 1 19
    let jobs := Tbl.put s.msc.jobs i { j with idx := i, gen := g }
    some { s with msc := { s.msc with jobs := jobs, gens := Tbl.put s.msc.gens i g, high := max s.msc.high jobs.length } }

/-- A job created, or left waiting for an entry with its deadline kept, behind those that wait already; MSC_JOBTAB_FULL at most once per
10 ms. -/
def State.createJob (s : State) (j : Job) : State :=
  match (if s.msc.waiting.isEmpty then s.newJob j else none) with
  | some t => t
  | none =>
    let s := ({ s with msc := { s.msc with waiting := s.msc.waiting ++ [j] } }).bump bMSC 6
    let due := match s.msc.fullAt with
      | none => true
      | some t => decide (t + 10 * ms ≤ s.ns)
    if due then ({ s with msc := { s.msc with fullAt := some s.ns } }).event .mscJobtabFull noCtx 0 else s

/-! ### Rows and costs (R176) -/

/-- Refresh windows that fall inside a run of `run` ns from now. -/
def State.windowsIn (s : State) (run : Nat) : Nat :=
  let w := max s.mem.nextWindow s.ns - s.ns
  if run ≤ w then 0 else 1 + (run - w - 1) / max 1 s.mem.trefi

/-- run and stalls. -/
def State.withStalls (s : State) (run : Nat) : Nat := run + 280 * s.windowsIn run

/-- What is left of a domain's wake, that takes `full` ns from power 0 (R20). -/
def State.wakeLeft (s : State) (power : Nat) (at_ : Option Nat) (full : Nat) : Nat :=
  if power = 2 then 0 else match at_ with
    | some t => t - s.ns
    | none => full

/-- Switch and wake of a job of context `r` on lane `l`. -/
def State.laneExtra (s : State) (r l : Nat) : Nat :=
  let x := s.lane l
  let exposed := decide (x.active ≠ some r) && !(decide (x.prefetch = some r) && decide (x.prefetchAt ≤ s.ns))
  (if exposed then 2 * us else 0) + s.wakeLeft x.power x.wakeAt (20 * us)

/-- The cost of row `row` of encode context `r` on lane `l`. -/
def State.encCost (s : State) (r row l : Nat) (skip : Bool) : Nat :=
  let run := runNs (s.cf r 0x04 2 * s.linesOf r row) 2682 * (s.enc r).factor / 65536
  s.withStalls (if skip then run / 16 else run) + s.laneExtra r (s.memberFor l row)

/-- The cost of a decoded row of context `r` on lane `l`. -/
def State.decCost (s : State) (r l : Nat) : Nat :=
  let n := s.cf r 0x04 2 * ceilDiv (s.cf r 0x06 2) (max 1 (s.cf r 0x26 2))
  let run := runNs n (if s.isAv1 r then 2682 else 5364) * (s.dec r).factor / 65536
  s.withStalls run + s.laneExtra r l

def State.pipe (s : State) (p : Nat) : Pipe := Tbl.get {} s.cmp.pipes p
def State.setPipe (s : State) (p : Nat) (x : Pipe) : State := { s with cmp := { s.cmp with pipes := Tbl.put s.cmp.pipes p x } }

/-- The first pipe that will be free: a powered free one, else a sleeping one, other than `x`. -/
def State.freePipe (s : State) (x : Nat) : Option Nat :=
  let free := (List.range 8).filter (fun p => decide (p ≠ x) && !(s.pipe p).mapped && (s.pipe p).job.isNone)
  match free.find? (fun p => decide ((s.pipe p).power = 2)) with
  | some p => some p
  | none => free.head?

/-- The cost of a composed row for encode context `r`, on the pipe that would take it. -/
def State.cmpCost (s : State) (r row : Nat) : Nat :=
  s.withStalls (runNs (s.cf r 0x04 2 * s.linesOf r row) 12927) +
    (match s.freePipe 8 with
     | some p => s.wakeLeft (s.pipe p).power (s.pipe p).wakeAt (15 * us)
     | none => 0)

/-- ASM_US in ns. -/
def State.asmNs (s : State) : Nat := fld s.mscSched 8 8 * us

/-! ### Order (R175) -/

def State.bandOf (s : State) (r : Nat) : Nat := s.cf r 0x0B 1

/-- The key of a job, in ns. -/
def State.jobKey (s : State) (j : Job) : Int :=
  let adv := if j.band = 0 then fld s.mscBand 0 16 else if j.band = 1 then fld s.mscBand 16 16 else 0
  Int.ofNat j.deadline - Int.ofNat (adv * us)

/-- Job `a` goes before job `b`: by key, then band, then index. -/
def State.before (s : State) (a b : Job) : Bool :=
  let ka := s.jobKey a
  let kb := s.jobKey b
  if ka ≠ kb then decide (ka < kb) else if a.band ≠ b.band then decide (a.band < b.band) else decide (a.idx < b.idx)

def State.firstJob (s : State) (l : List Job) : Option Job :=
  l.foldl (fun b j => match b with
    | none => some j
    | some k => if s.before j k then some j else some k) none

/-! ### Capacities (R21, R47, R75, R177) -/

/-- Pixel rate of a context whose record has width, height and a picture rate in common places (R89, R90). -/
def State.pixRate (s : State) (r : Nat) : Nat :=
  s.cf r 0x04 2 * s.cf r 0x06 2 * s.cf r 0x10 2 / max 1 (s.cf r 0x12 2)

/-- One lane's figure for decode work, in samples per second; encode and AV1 work counts twice (R75). -/
def State.laneCap (s : State) : Nat := if s.mem.hot then 459600000 else 498000000
def State.ctxLoad (s : State) (r : Nat) : Nat :=
  if Tbl.find s.opens r = some 4 && !s.isAv1 r then s.pixRate r else 2 * s.pixRate r

/-- The load of the contexts placed on lane or carriageway lead `l`. -/
def State.laneLoad (s : State) (l : Nat) : Nat := (s.ctxsOn l).foldl (fun a r => a + s.ctxLoad r) 0

/-- The lane is in service: mapped in, and enabled (R88). -/
def State.laneUp (s : State) (l : Nat) : Bool :=
  !(s.lane l).mapped && !(s.lane l).quarantined && (s.unit (laneKey l)).en
/-- A carriageway is in service while every member is (R77). -/
def State.cwUp (s : State) (l : Nat) : Bool := (s.members l).all (fun m => s.laneUp m)

/-- Net pipe rate, and sustained memory rate in bytes per second over the channels in use. -/
def State.pipeRate (s : State) : Nat := if s.mem.hot then 1110000000 else 1200000000
def State.pipesUp (s : State) : Nat := ((List.range 8).filter (fun p => !(s.pipe p).mapped)).length
def State.memRate (s : State) : Nat :=
  (if s.mem.hot then 138400000000 else 150000000000) * (if s.mem.degraded.isSome then 15 else 16) / 16

/-- The layer figure of a composition context (R177, R191): 1.0 per layer, or its ratio of areas rounded up. -/
def State.layerFigure (s : State) (c : Nat) : Nat :=
  (List.range (s.cf c 0x0A 1)).foldl (fun a i =>
    let d := s.dram (s.cf c 0x10 8 + 32 * i) 32
    if rd d 0 1 = 0 then a + 1
    else
      let crop := rd d 12 2 * rd d 14 2
      let x := fld (s.cf c (0x44 + 12 * i) 4) 0 13
      let y := fld (s.cf c (0x44 + 12 * i) 4) 16 13
      let w := min (rd d 16 2) (s.cf c 0x04 2 - x)
      let h := min (rd d 18 2) (s.cf c 0x06 2 - y)
      a + if w * h = 0 then 0 else if rd d 0 1 = 3 then 1 else max 1 (ceilDiv crop (w * h))) 0

/-- beta x rate of a context in units of 0.1 byte per second: encode 4.0, decode 3.0, composition 2.0 + 1.0 per layer,
times 1.6 for 10-bit samples. -/
def State.memUse (s : State) (r : Nat) : Nat :=
  let ten := fun (b : Bool) (n : Nat) => if b then n * 16 / 10 else n
  match Tbl.find s.opens r with
  | some 3 => ten (tb (s.cf r 0x02 2) 4) (40 * s.pixRate r)
  | some 4 => ten (decide (s.cf r 0x0A 1 = 10)) (30 * s.pixRate r)
  | some 5 =>
    let e := s.cf r 0x08 2
    ten (tb (s.cf r 0x02 2) 3) ((20 + 10 * s.layerFigure r) * s.pixRate e)
  | _ => 0
def State.memDemand (s : State) : Nat :=
  s.opens.foldl (fun a e => a + s.memUse e.1) 0 / 10 + 10000000000

/-- Output pixel rate of the composition contexts. -/
def State.cmpDemand (s : State) : Nat :=
  s.opens.foldl (fun a e => if e.2 = 5 then a + s.pixRate (s.cf e.1 0x08 2) else a) 0

/-- ASM_MTUp, and the demand of a port in kb/s (R177, check 9). (DEDUCED, log 76.) -/
def State.mtuOf (s : State) (p : Nat) : Nat := max 576 (fld (Tbl.get 1500 s.regs (0xF01000 + 4 * p)).toNat 0 14)
def State.portDemand (s : State) (p : Nat) : Nat :=
  (s.opens.filter (fun e => decide (e.2 = 1) && decide (s.cf e.1 0x04 2 = p))).foldl (fun a e =>
    let m := s.mtuOf p
    a + ceilDiv (s.cf e.1 0x14 4 * (m + 38)) (m - 52)) 0

/-! ### Placement (R20, R179) -/

/-- The lane is of a role that takes the context's work, and of its mode and size (R75, R76, R78). -/
def State.suits (s : State) (l r : Nat) (spare : Bool) : Bool :=
  let x := s.lane l
  let enc := decide (Tbl.find s.opens r = some 3)
  let size := if enc then max 1 (s.cf r 0x15 1) else 1
  let role := if enc then decide (x.role = 0 ∨ x.role = 1) else decide (x.role = 0 ∨ x.role = 2)
  decide (max 1 x.cwSize = size) && decide (x.cwLead = l ∨ size = 1) && s.cwUp l && !(s.drainingCw l) &&
    (role || (spare && decide (x.role = 3)))

/-- When the first row job of a context that is to be placed falls due: of its jobs as they stand; else HORIZON row periods from now where a
display of it is paced, and one frame period for a decode context (R171, R174). None where nothing is due yet. (DEDUCED, log 114.) -/
def State.firstDue (s : State) (r : Nat) : Option Nat :=
  let jobs := s.msc.jobs.filter (fun e => decide (e.2.ctx = r) && (decide (e.2.op = .encode) || decide (e.2.op = .decode)))
  match jobs with
  | e :: l => some (l.foldl (fun a x => min a x.2.deadline) e.2.deadline)
  | [] =>
    if Tbl.find s.opens r = some 4 then
      if s.cf r 0x10 2 = 0 then none else some (s.ns + oneSec * s.cf r 0x12 2 / s.cf r 0x10 2)
    else match (s.sessOf r).filter (fun d => s.paced d) with
      | d :: l => some (l.foldl (fun a x => min a (s.ns + max 1 (fld s.mscSched 24 4) * s.rowPeriod x))
          (s.ns + max 1 (fld s.mscSched 24 4) * s.rowPeriod d))
      | [] => none

/-- A powered-down lane takes a new context only if the deadline of the context's first row job absorbs the wake (R20). -/
def State.absorbs (s : State) (r l : Nat) : Bool :=
  if (s.lane l).power = 2 then true
  else match s.firstDue r with
    | some t => decide (s.ns + (if Tbl.find s.opens r = some 4 then s.decCost r l else s.encCost r 0 l false) ≤ t)
    | none => true

/-- The lane that R179 chooses: the fullest that stays within 0.92, else the emptiest within 1.00. `r` is not on it. -/
def State.choose (s : State) (r : Nat) (spare spill : Bool) : Option Nat :=
  let w := s.ctxLoad r
  let after := fun l => (s.laneLoad l + w)
  let cap := fun l => s.laneCap * max 1 (s.lane l).cwSize
  let cands := (List.range 64).filter (fun l => s.suits l r spare && s.absorbs r l)
  let good := cands.filter (fun l => decide (100 * after l ≤ 92 * cap l))
  let fit := cands.filter (fun l => spill || decide (after l ≤ cap l))
  match good with
  | g :: gs => some (gs.foldl (fun b l => if after b * cap l < after l * cap b then l else b) g)
  | [] => match fit with
    | f :: fs => some (fs.foldl (fun b l => if after l * cap b < after b * cap l then l else b) f)
    | [] => none

end Sys2Proof.Machine
end

