-- ==== Sys2Proof/Machine/Samples.lean ====
section
/-! DEFINITION. Layers and samples (R186, R189, R190, R192, R193, R197 to R199): what a layer is, and what the samples of a composed row
are. Colours are Y'CbCr 4:4:4 of 12 bits, Cb and Cr about zero, premultiplied by their alpha. -/

namespace Sys2Proof.Machine

open Sys2Proof

def State.cmpCtx (s : State) (c : Nat) : CmpCtx := Tbl.get {} s.cmp.ctxs c
def State.setCmpCtx (s : State) (c : Nat) (x : CmpCtx) : State := { s with cmp := { s.cmp with ctxs := Tbl.put s.cmp.ctxs c x } }
def State.surface (s : State) (h : Nat) : Surface := Tbl.get {} s.cmp.surfs h
def State.setSurface (s : State) (h : Nat) (x : Surface) : State := { s with cmp := { s.cmp with surfs := Tbl.put s.cmp.surfs h x } }

/-- CMP_CFG (R200). -/
def State.cmpCfg (s : State) : Nat := (Tbl.get 0x12 s.regs 0xE00040).toNat

/-! ### Layers (R186, R189, R197, R198) -/

/-- A layer as a picture sees it: descriptor fields and active position. -/
structure Layer where
  type : Nat
  flags : Nat
  source : Nat
  cropX : Nat
  cropY : Nat
  cropW : Nat
  cropH : Nat
  dstW : Nat
  dstH : Nat
  phaseX : Nat
  phaseY : Nat
  x : Nat
  y : Nat
  alpha : Nat
  deriving DecidableEq, Repr

def layerOf (d : Bytes) (pos alpha : Nat) : Layer :=
  { type := rd d 0 1, flags := rd d 1 1, source := rd d 4 4, cropX := rd d 8 2, cropY := rd d 10 2, cropW := rd d 12 2, cropH := rd d 14 2,
    dstW := rd d 16 2, dstH := rd d 18 2, phaseX := rd d 20 2, phaseY := rd d 22 2, x := fld pos 0 13, y := fld pos 16 13, alpha := fld alpha 0 8 }

/-- The descriptor of slot `i` in the context's layer table. -/
def State.layerDesc (s : State) (c i : Nat) : Bytes := s.dram (s.cf c 0x10 8 + 32 * i) 32
def State.layer (s : State) (c i : Nat) : Layer := layerOf (s.layerDesc c i) (s.cf c (0x44 + 12 * i) 4) (s.cf c (0x4A + 12 * i) 2)
def State.layers (s : State) (c : Nat) : List Layer := (List.range (s.cf c 0x0A 1)).map (fun i => s.layer c i)

/-! ### Source samples (R186, R187, R192, R199) -/

/-- A sample in the output's space, with its pixel alpha of 0 to 255. -/
structure Px where
  y : Int := 0
  cb : Int := 0
  cr : Int := 0
  a : Nat := 0
  deriving DecidableEq, Repr

/-- An ARGB8888 word: alpha, bits of a component, and R', G', B'. -/
def argb8 (w : Nat) : Nat × Nat × (Nat × Nat × Nat) := (fld w 24 8, 8, (fld w 16 8, fld w 8 8, fld w 0 8))

/-- An ARGB2101010 word: its two bits of alpha stand for 0, 85, 170 and 255. -/
def argb10 (w : Nat) : Nat × Nat × (Nat × Nat × Nat) := (fld w 30 2 * 85, 10, (fld w 20 10, fld w 10 10, fld w 0 10))

/-- A colour as the context's output sees it; a straight colour is multiplied by its alpha, a premultiplied one stands. -/
def State.pxOf (s : State) (c : Nat) (premult : Bool) (v : Nat × Nat × (Nat × Nat × Nat)) : Px :=
  let f := s.cf c 0x02 2
  let k := Config.yccOf (fld f 0 2) (tb f 2) (if premult then 255 else v.1) v.2.1 v.2.2
  { y := k.1, cb := k.2.1, cr := k.2.2, a := v.1 }

/-- The background colour: 10-bit offset values (R197). -/
def State.background (s : State) (c : Nat) : Px :=
  let b := s.cf c 0x0C 4
  { y := Int.ofNat (fld b 20 10) * 4, cb := (Int.ofNat (fld b 10 10) - 512) * 4, cr := (Int.ofNat (fld b 0 10) - 512) * 4, a := 255 }

/-- The front buffer of a surface as the picture bound it. -/
def State.frontAt (s : State) (c h : Nat) : Nat :=
  let x := s.surface h
  match (s.cmpCtx c).surfs.find? (fun e => decide (e.1 = h)) with
  | some e => if e.2 then x.base + x.size else x.base
  | none => if x.back then x.base + x.size else x.base

/-- A sample of a surface at (u, v); one whose fetch is poisoned takes the background colour (R199). -/
def State.surfPx (s : State) (c : Nat) (l : Layer) (u v : Nat) : Px :=
  let x := s.surface l.source
  let n := if x.format = 2 then 1 else 4
  let a := s.frontAt c l.source + v * x.pitch + u * n
  if s.poisoned a n then s.background c
  else
    let w := rd (s.dram a n) 0 n
    s.pxOf c (tb l.flags 0)
      (if x.format = 1 then argb10 w
       else if x.format = 2 then argb8 (rd (Tbl.get [] (s.cmpCtx c).pals l.source) (4 * w) 4) else argb8 w)

/-- A source sample of layer `i`. A decoded sample has alpha 255; `n` gives the content of the picture that a DECODED layer reads. -/
def State.srcPx (s : State) (c : Nat) (n : Nat → Nat) (i : Nat) (l : Layer) (u v : Nat) : Px :=
  if l.type = 1 then s.surfPx c l u v
  else if l.type = 2 then
    let k := Config.decodedPx (n i) (fld (s.cf c 0x02 2) 0 3) u v
    { y := k.1, cb := k.2.1, cr := k.2.2, a := 255 }
  else s.pxOf c false (argb8 l.source)

/-! ### The scaler (R190) -/

/-- The coefficient set of a ratio: 1 or more, 1/2 to 1, 1/4 to 1/2, below 1/4. -/
def tapSet (dst crop : Nat) : Nat := if crop ≤ dst then 0 else if crop ≤ 2 * dst then 1 else if crop ≤ 4 * dst then 2 else 3

/-- The source position of destination sample `i`, in 1/64 sample. -/
def srcPos (dst crop phase i : Nat) : Nat := phase + 64 * i * crop / max 1 dst

/-- The sample `k` of a crop of `n`, whose edge samples are repeated. -/
def edge (n : Nat) (k : Int) : Nat := min k.toNat (n - 1)

/-- The source samples under the taps `lo` to `lo + n - 1` about position `p` of a crop. -/
def taps (crop p : Nat) (lo : Int) (n : Nat) : List Nat := (List.range n).map (fun k => edge crop (Int.ofNat (p / 64) + lo + Int.ofNat k))

/-- Four components filtered each. -/
def filterPx (f : List Int → Int) (l : List Px) : Px :=
  { y := f (l.map (·.y)), cb := f (l.map (·.cb)), cr := f (l.map (·.cr)),
    a := min 255 (f (l.map (fun p => Int.ofNat p.a))).toNat }

/-- Destination sample `i` of source line `v`: passed through at ratio 1 and phase 0, filtered otherwise. -/
def State.scaleX (s : State) (c : Nat) (n : Nat → Nat) (k : Nat) (l : Layer) (i v : Nat) : Px :=
  if l.dstW = l.cropW ∧ l.phaseX = 0 then s.srcPx c n k l (l.cropX + i) (l.cropY + v)
  else
    let p := srcPos l.dstW l.cropW l.phaseX i
    filterPx (Config.filterX (tapSet l.dstW l.cropW) (p % 64))
      ((taps l.cropW p (-3) 8).map (fun u => s.srcPx c n k l (l.cropX + u) (l.cropY + v)))

/-- Destination sample (i, j) of a layer. -/
def State.scaled (s : State) (c : Nat) (n : Nat → Nat) (k : Nat) (l : Layer) (i j : Nat) : Px :=
  if l.type = 3 then s.srcPx c n k l i j
  else if l.dstH = l.cropH ∧ l.phaseY = 0 then s.scaleX c n k l i j
  else
    let p := srcPos l.dstH l.cropH l.phaseY j
    filterPx (Config.filterY (tapSet l.dstH l.cropH) (p % 64)) ((taps l.cropH p (-2) 6).map (fun v => s.scaleX c n k l i v))

/-! ### Blending (R193) -/

/-- The denominator of one layer's blend. -/
def blendDen : Int := 255 * 255 * 255

/-- A component over another: C x k + out x (1 - a), as numerators over the same power of the denominator. -/
def overlay (col out : Int) (p l g : Nat) (den : Int) : Int :=
  col * (Int.ofNat (l * g) * 255) * den + out * (blendDen - Int.ofNat (p * l * g))

/-- An output sample: the layers blended from the bottom up over the background, as numerators over a denominator that is the same
for every sample of the context. -/
def State.blend (s : State) (c : Nat) (n : Nat → Nat) (x y : Nat) : (Int × Int × Int) × Int :=
  let g := s.cf c 0x0B 1
  let b := s.background c
  let ls := (List.range (s.cf c 0x0A 1)).map (fun i => (i, s.layer c i))
  ls.foldl (fun (o : (Int × Int × Int) × Int) e =>
    let l := e.2
    if l.type ≠ 0 ∧ l.x ≤ x ∧ x < l.x + l.dstW ∧ l.y ≤ y ∧ y < l.y + l.dstH then
      let q := s.scaled c n e.1 l (x - l.x) (y - l.y)
      let f := fun col out => overlay col out q.a l.alpha g o.2
      ((f q.y o.1.1, f q.cb o.1.2.1, f q.cr o.1.2.2), o.2 * blendDen)
    else ((o.1.1 * blendDen, o.1.2.1 * blendDen, o.1.2.2 * blendDen), o.2 * blendDen)) ((b.y, b.cb, b.cr), 1)

/-- Rounded to nearest. (DEDUCED, log 99.) -/
def roundDiv (a d : Int) : Int := (2 * a + d) / (2 * d)

/-- The bits of a component, and a value clamped to its range: limited unless OUT_FULL. -/
def State.outBits (s : State) (c : Nat) : Nat := if tb (s.cf c 0x02 2) 3 then 10 else 8
def State.clampOut (s : State) (c : Nat) (hi : Int) (v : Int) : Nat :=
  let b := s.outBits c
  (if tb (s.cf c 0x02 2) 2 then clampI 0 (2 ^ b - 1) v else clampI (16 * 2 ^ (b - 8)) (hi * 2 ^ (b - 8)) v).toNat

/-- The luma sample at (x, y). -/
def State.lumaAt (s : State) (c : Nat) (n : Nat → Nat) (x y : Nat) : Nat :=
  let v := s.blend c n x y
  s.clampOut c 235 (roundDiv v.1.1 (v.2 * 2 ^ (12 - s.outBits c)))

/-- The chroma samples of 2 x 2 samples at (x, y): [1 2 1] / 4 about x on two lines, and their mean. -/
def State.chromaAt (s : State) (c : Nat) (n : Nat → Nat) (x y : Nat) : Nat × Nat :=
  let w := s.cf c 0x04 2
  let h := s.cf c 0x06 2
  let at_ := fun (i j : Nat) => s.blend c n (min i (w - 1)) (min j (h - 1))
  let six := fun (f : Int × Int × Int → Int) =>
    f (at_ (x - 1) y).1 + 2 * f (at_ x y).1 + f (at_ (x + 1) y).1 +
    f (at_ (x - 1) (y + 1)).1 + 2 * f (at_ x (y + 1)).1 + f (at_ (x + 1) (y + 1)).1
  let d := 8 * (at_ x y).2 * 2 ^ (12 - s.outBits c)
  let out := fun v : Int => s.clampOut c 240 (roundDiv v d + 2 ^ (s.outBits c - 1))
  (out (six (fun v => v.2.1)), out (six (fun v => v.2.2)))

/-- Unit column `k` of the row whose lines begin at `y0`, `rows` of them: lines below the picture repeat its last active line. -/
def State.composeUnit (s : State) (c : Nat) (n : Nat → Nat) (y0 rows unit k : Nat) : CompUnit :=
  let w := s.cf c 0x04 2
  let h := s.cf c 0x06 2
  let x0 := k * unit
  let xs := (List.range (min unit (w - x0))).map (fun i => x0 + i)
  let ys := (List.range rows).map (fun j => min (y0 + j) (h - 1))
  let cx := (List.range (ceilDiv xs.length 2)).map (fun i => x0 + 2 * i)
  let cy := (List.range (rows / 2)).map (fun j => if y0 + 2 * j < h then y0 + 2 * j else h - 2)
  let ch := cy.map (fun y => cx.map (fun x => s.chromaAt c n x y))
  { col := k, luma := ys.map (fun y => xs.map (fun x => s.lumaAt c n x y)),
    cb := ch.map (fun r => r.map (·.1)), cr := ch.map (fun r => r.map (·.2)) }

end Sys2Proof.Machine
end

