-- ==== Sys2Proof/Machine/Compose.lean ====
section
/-! DEFINITION. The compositor (R184 to R200): surfaces and layers, what a row needs of its sources, dirty units, and
the composition of a row by a pipe. What the samples of a row are stands in Machine/Samples.lean. -/

namespace Sys2Proof.Machine

open Sys2Proof

/-- Reach of the scaler in output samples (R190, R195): 4 and 3 source samples, none where samples pass unchanged. -/
def reach (taps dst crop phase : Nat) : Nat := if dst = crop ∧ phase = 0 then 0 else ceilDiv (taps * dst) (max 1 crop)

/-- The source lines, from the crop's top, that the output lines before `y1` need: up to the last tap of the last of them (R188, R190). -/
def Layer.linesFor (l : Layer) (y1 : Nat) : Nat :=
  let n := min (y1 - l.y) l.dstH
  if n = 0 then 0
  else if l.dstH = l.cropH ∧ l.phaseY = 0 then n
  else min l.cropH (srcPos l.dstH l.cropH l.phaseY (n - 1) / 64 + 4)

/-- The layer has samples on output lines [y0, y1) of an output `w` samples wide (R189). -/
def Layer.touches (l : Layer) (w y0 y1 : Nat) : Bool :=
  decide (l.type ≠ 0) && decide (l.y < y1) && decide (y0 < l.y + l.dstH) && decide (l.x < w) && decide (0 < l.dstW)

/-! ### Sources present (R171, R188) -/

/-- Output picture `pic` of composition context `c` has started. -/
def State.cmpStarted (s : State) (c pic : Nat) : Bool := (s.cmpCtx c).started && decide (pic ≤ s.cf c 0x18 4)

/-- The frame buffer of decode context `r` that picture `pic` of composition context `c` reads: the bound one, or, before the picture starts, the
one that it would bind now. -/
def State.boundOf (s : State) (c r pic : Nat) : Option W32 :=
  if s.cmpStarted c pic then (s.cmpCtx c).bound.find? (fun h => decide ((s.frame h).context = r)) else (s.dec r).released

/-- Lines of frame buffer `h` of decode context `r` that have been written. -/
def State.linesIn (s : State) (r : Nat) (h : W32) : Nat :=
  let f := s.frame h
  if tb f.attr 3 then min f.height (f.rowsDone * rowSize (fld (s.cf r 0x02 2) 0 2) f.height (s.cf r 0x26 2)) else f.height

/-- The lines of a job's row. -/
def State.jobLines (s : State) (j : Job) : Nat × Nat :=
  let e := s.cf j.ctx 0x08 2
  (j.row * s.rowLines e, j.row * s.rowLines e + s.linesOf e j.row)

/-- The source rows that a composition row needs of a layer are present. -/
def State.layerPresent (s : State) (j : Job) (l : Layer) : Bool :=
  let y := s.jobLines j
  if l.type = 2 ∧ l.touches (s.cf j.ctx 0x04 2) y.1 y.2 then
    match s.boundOf j.ctx l.source j.pic with
    | some h => decide (min (s.frame h).height (l.cropY + l.linesFor y.2) ≤ s.linesIn l.source h)
    | none => true
  else true

/-- Every source row that a composition row needs is present. -/
def State.sourcesPresent (s : State) (j : Job) : Bool := (s.layers j.ctx).all (fun l => s.layerPresent j l)

/-- A free slot stands in the source ring of the encode context. -/
def State.slotFree (s : State) (c : Nat) : Bool :=
  decide ((s.cmpCtx c).ringRows.length < max 1 (s.cf (s.cf c 0x08 2) 0x20 1))

/-- The key of a source-ring slot's row. -/
def slotKey (pic row : Nat) : Nat := pic * 4096 + row

/-! ### Releases (R171) -/

/-- Every composition job whose inputs exist is released, in the order of the table. Before row 0 of a picture is released, its recon_fb is
allocated. -/
def State.releaseJobs (s : State) : State :=
  s.msc.jobs.foldl (fun s e =>
    let j := s.job e.1
    if j.op = .compose ∧ ¬ j.released ∧ s.slotFree j.ctx ∧ (s.sourcesPresent j ∨ s.msc.repeats.contains e.1) then
      let s := if j.row = 0 then s.takeRecon (s.cf j.ctx 0x08 2) j.pic else s
      let x := s.cmpCtx j.ctx
      (s.putJob { j with released := true }).setCmpCtx j.ctx { x with ringRows := Tbl.put x.ringRows (slotKey j.pic j.row) j.row }
    else s) s

/-- The encode job of a composed row released. -/
def State.releaseEncode (s : State) (e pic row : Nat) : State :=
  s.msc.jobs.foldl (fun s x =>
    let j := s.job x.1
    if j.op = .encode ∧ j.ctx = e ∧ j.pic = pic ∧ j.row = row ∧ ¬ j.released then s.putJob { j with released := true } else s) s

/-- A source-ring slot consumed by the lane. -/
def State.slotDone (s : State) (e pic row : Nat) : State :=
  s.opens.foldl (fun s x =>
    if x.2 = 5 ∧ s.cf x.1 0x08 2 = e then
      let c := s.cmpCtx x.1
      s.setCmpCtx x.1 { c with ringRows := Tbl.del c.ringRows (slotKey pic row), ring := Tbl.del c.ring (slotKey pic row) }
    else s) s

/-! ### Dirty units (R195, R196) -/

/-- The unit size, columns and rows of a composition context. -/
def State.unitOf (s : State) (c : Nat) : Nat := s.rowLines (s.cf c 0x08 2)

/-- Units of rectangle [x0, x1) x [y0, y1) set to DIRTY_HOLD. -/
def State.markRect (s : State) (c x0 y0 x1 y1 : Nat) : State :=
  let u := s.unitOf c
  let w := s.cf c 0x04 2
  let h := s.cf c 0x06 2
  let x1 := min x1 w
  let y1 := min y1 h
  if x1 ≤ x0 ∨ y1 ≤ y0 then s
  else
    let hold := max 1 (fld s.cmpCfg 0 4)
    let rows := (List.range (ceilDiv y1 u - y0 / u)).map (fun i => y0 / u + i)
    let cols := (List.range (ceilDiv x1 u - x0 / u)).map (fun i => x0 / u + i)
    let keys := rows.flatMap (fun r => cols.map (fun k => r * 1024 + k))
    let x := s.cmpCtx c
    s.setCmpCtx c { x with ages := keys.foldl (fun t k => Tbl.put t k hold) x.ages,
                           fresh := x.fresh ++ keys.filter (fun k => !x.fresh.contains k) }

def State.markAll (s : State) (c : Nat) : State := s.markRect c 0 0 (s.cf c 0x04 2) (s.cf c 0x06 2)

/-- A layer's destination, widened by the scaler's reach. -/
def State.markLayer (s : State) (c : Nat) (l : Layer) : State :=
  if l.type = 0 then s
  else
    let rx := reach 4 l.dstW l.cropW l.phaseX
    let ry := reach 3 l.dstH l.cropH l.phaseY
    s.markRect c (l.x - rx) (l.y - ry) (l.x + l.dstW + rx) (l.y + l.dstH + ry)

/-- A rectangle of a source, mapped through a layer's crop, scale and position, and widened by the reach (R195). -/
def State.markMapped (s : State) (c : Nat) (l : Layer) (rx ry rw rh : Nat) : State :=
  let x0 := max rx l.cropX
  let y0 := max ry l.cropY
  let x1 := min (rx + rw) (l.cropX + l.cropW)
  let y1 := min (ry + rh) (l.cropY + l.cropH)
  if x1 ≤ x0 ∨ y1 ≤ y0 then s
  else
    let wx := reach 4 l.dstW l.cropW l.phaseX
    let wy := reach 3 l.dstH l.cropH l.phaseY
    let fx := fun (v : Nat) => (v - l.cropX) * l.dstW / max 1 l.cropW
    let cx := fun (v : Nat) => ceilDiv ((v - l.cropX) * l.dstW) (max 1 l.cropW)
    let fy := fun (v : Nat) => (v - l.cropY) * l.dstH / max 1 l.cropH
    let cy := fun (v : Nat) => ceilDiv ((v - l.cropY) * l.dstH) (max 1 l.cropH)
    s.markRect c (l.x + fx x0 - wx) (l.y + fy y0 - wy) (l.x + cx x1 + wx) (l.y + cy y1 + wy)

/-- Every non-zero age not set since the last picture start falls by 1. -/
def ageStep (ages : Tbl Nat) (fresh : List Nat) : Tbl Nat :=
  ages.filterMap (fun e => if fresh.contains e.1 then some e else if e.2 ≤ 1 then none else some (e.1, e.2 - 1))

/-! ### Picture start (R64, R187, R188, R194, R195, R199) -/

/-- The bindings of the picture that ends are dropped: COMPOSE_SRC is cleared with the last one (R148). -/
def State.unbind (s : State) (c pipe : Nat) : State :=
  let s := (s.cmpCtx c).bound.foldl (fun s h =>
    let n := Tbl.get 0 s.cmp.binds (hKey h) - 1
    let s := { s with cmp := { s.cmp with binds := if n = 0 then Tbl.del s.cmp.binds (hKey h) else Tbl.put s.cmp.binds (hKey h) n } }
    if n = 0 then s.unmark (aPipe pipe) h mCOMPOSE else s) s
  s.setCmpCtx c { s.cmpCtx c with bound := [], surfs := [], pals := [] }

/-- The released pictures of the context's DECODED layers, and the front buffers of its surfaces, are bound. -/
def State.bind (s : State) (c pipe : Nat) : State :=
  let ls := s.layers c
  let s := (ls.filter (fun l => decide (l.type = 2))).foldl (fun s l =>
    match (s.dec l.source).released with
    | some h =>
      if (s.cmpCtx c).bound.contains h then s
      else
        let s := { s with cmp := { s.cmp with binds := Tbl.put s.cmp.binds (hKey h) (Tbl.get 0 s.cmp.binds (hKey h) + 1) } }
        let s := if tb (s.buf (hKey h)).marks mCOMPOSE then s else s.setMark (aPipe pipe) h mCOMPOSE
        s.setCmpCtx c { s.cmpCtx c with bound := (s.cmpCtx c).bound ++ [h] }
    | none => s) s
  let l := (ls.filter (fun l => decide (l.type = 1))).map (fun l => (l.source, (s.surface l.source).back))
  s.setCmpCtx c { s.cmpCtx c with surfs := l, pals := l.foldl (fun t x => Tbl.put t x.1 (s.surface x.1).palette) [] }

/-- Shadows of slot `i` applied, with the units of its old and new destinations marked. -/
def State.applySlot (s : State) (c i : Nat) : State :=
  let o := s.layer c i
  let pos := s.cf c (0x44 + 12 * i) 4
  let s := if tb pos 31 then (s.setCf c (0x44 + 12 * i) 4 (fld (s.cf c (0x40 + 12 * i) 4) 0 31)) else s
  let al := s.cf c (0x4A + 12 * i) 2
  let s := if tb al 15 then s.setCf c (0x4A + 12 * i) 2 (fld (s.cf c (0x48 + 12 * i) 2) 0 8) else s
  let d := Tbl.find (s.cmpCtx c).pendDesc i
  let s := match d with
    | some b => s.store (s.cf c 0x10 8 + 32 * i) (padTo 32 b)
    | none => s
  if tb pos 31 || tb al 15 || d.isSome then (s.markLayer c o).markLayer c (s.layer c i) else s

/-- The output picture `pic` of context `c` starts on pipe `p`. -/
def State.cmpPicStart (s : State) (c p pic : Nat) (restart : Bool) : State :=
  let s := s.unbind c p
  let s := (List.range (s.cf c 0x0A 1)).foldl (fun s i => s.applySlot c i) s
  let s := s.setCmpCtx c { s.cmpCtx c with pendDesc := [] }
  let x := s.cmpCtx c
  let s := match x.pendGa with
    | some g => (s.setCf c 0x0B 1 g).markAll c
    | none => s
  let s := match x.pendBg with
    | some g => (s.setCf c 0x0C 4 g).markAll c
    | none => s
  let s := s.setCmpCtx c { s.cmpCtx c with pendGa := none, pendBg := none }
  let s := s.bind c p
  let s := if !(x.started) || restart then s.markAll c else s
  let s := ((s.layers c).filter (fun l => decide (l.type = 2))).foldl (fun s l => s.markLayer c l) s
  let x := s.cmpCtx c
  let ages := ageStep x.ages x.fresh
  let s := s.setCmpCtx c { x with ages := ages, fresh := [], started := true, cleanEn := tb s.cmpCfg 4, done := 0 }
  let s := if ages.isEmpty then s else s.incCf c 0x30 4 1
  ((s.setCf c 0x18 4 pic).setCf c 0x1C 2 0).setCf c 0x01 1 2

/-- The unit columns of row `row` left clean (R196). -/
def State.cleanCols (s : State) (c row : Nat) (full : Bool) : List Nat :=
  let e := s.cf c 0x08 2
  let x := s.cmpCtx c
  if full || !x.cleanEn || !(tb (s.cf c 0x02 2) 4) then []
  else
    let r := s.enc e
    let now := decide (r.cur.pic = s.cf c 0x18 4) && r.cur.open_
    let lo := if now then r.cur.colStart else r.front
    let hi := if now then r.cur.colEnd else if r.sweeping then s.colEnd e else lo
    (List.range (s.colsOf e)).filter (fun k =>
      (Tbl.find x.ages (row * 1024 + k)).isNone && !(decide (lo ≤ k) && decide (k < hi)))

/-! ### A row on a pipe (R171, R184, R196, R452) -/

/-- The flags of the encode picture that the row feeds, SKIP_PIC, restart and IDR, as they are decided or stand to be. -/
def State.cmpFlags (s : State) (e pic : Nat) : Bool × Bool × Bool :=
  if (s.enc e).marks.any (fun m => decide (m.1 = pic)) then s.markOf e pic else (false, (s.enc e).restartNext, (s.enc e).idrNext)

/-- The row was released with sources that are missing (R172). -/
def State.repeated (s : State) (j : Job) : Bool := s.msc.repeats.contains j.idx

/-- The content of the picture that layer `i` of a job's row reads: that of the bound picture; for a missing source that of the context's picture
released before (R172), and a free one where no picture is. -/
def State.contentOf (s : State) (j : Job) (i : Nat) : Nat :=
  let l := s.layer j.ctx i
  if l.type ≠ 2 then 0
  else if s.repeated j && !(s.layerPresent j l) then
    match (s.dec l.source).before with
    | some p => p.1
    | none => s.free
  else match s.boundOf j.ctx l.source j.pic with
    | some h => (s.frame h).content
    | none => s.free

/-- A picture that the row reads is CONCEALED or SYNTHESIZED (R188). -/
def State.readsConcealed (s : State) (j : Job) : Bool :=
  let y := s.jobLines j
  (s.layers j.ctx).any (fun l => decide (l.type = 2) && l.touches (s.cf j.ctx 0x04 2) y.1 y.2 &&
    (if s.repeated j && !(s.layerPresent j l) then ((s.dec l.source).before.map (·.2)).getD false
     else match s.boundOf j.ctx l.source j.pic with
       | some h => decide ((s.frame h).attr % 4 ≠ 0)
       | none => false))

/-- The unit columns of a job's row that CMP composes (R196). -/
def State.composedCols (s : State) (j : Job) : List Nat :=
  let e := s.cf j.ctx 0x08 2
  let f := s.cmpFlags e j.pic
  let clean := s.cleanCols j.ctx j.row (f.1 || f.2.2)
  (List.range (s.colsOf e)).filter (fun k => !clean.contains k)

/-- The row of a job written into its source-ring slot: the units that are not clean, which are the slot's map (R196). -/
def State.writeSlot (s : State) (j : Job) : State :=
  let c := j.ctx
  let e := s.cf c 0x08 2
  let row := (s.composedCols j).map (fun k => s.composeUnit c (s.contentOf j) (j.row * s.rowLines e) (s.rowLines e) (s.unitOf c) k)
  let x := s.cmpCtx c
  (s.setCmpCtx c { x with ring := Tbl.put x.ring (slotKey j.pic j.row) row }).draw

/-- COMPOSE_ROW: pipe `p` starts its job. -/
def State.composeOp (s : State) (p : Nat) (poisoned : Bool) : State :=
  let x := s.pipe p
  match x.job with
  | none => s
  | some j =>
    if x.begun || decide (x.power ≠ 2) || x.mapped || !(s.running bCMP) || s.flt.safe then s
    else
      let c := j.ctx
      let e := s.cf c 0x08 2
      let s := if s.cmpStarted c j.pic then s else s.cmpPicStart c p j.pic (s.cmpFlags e j.pic).2.1
      let late := j.deadline < s.ns + s.cmpCost e j.row
      let s := if late then s.bump bCMP 4 else s
      let s := if poisoned then
          let s := (s.incCf c 0x38 4 1).bump bCMP 3
          if (s.cmpCtx c).poisonPic = some j.pic then s
          else (s.setCmpCtx c { s.cmpCtx c with poisonPic := some j.pic }).event .cmpSrcPoison c j.pic
        else s
      let s := s.writeSlot j
      s.setPipe p { s.pipe p with begun := true, start := s.ns, poisoned := poisoned, conc := s.readsConcealed j, idleAt := none }

/-- The row's composition counted in the context's record and CMP's counters. -/
def State.composeCount (s : State) (j : Job) (conc : Bool) : State :=
  let c := j.ctx
  let e := s.cf c 0x08 2
  let units := (s.composedCols j).length
  let clean := s.colsOf e - units
  let samples := min (s.cf c 0x04 2) (units * s.unitOf c) * s.linesOf e j.row
  let s := (s.incCf c 0x20 8 1).incCf c 0x28 8 clean
  let s := if conc then s.incCf c 0x34 4 1 else s
  let s := s.setCf c 0x1C 2 (j.row + 1)
  ((s.bump bCMP 0).bumpU bCMP 0 1 samples).bumpU bCMP 0 2 clean

/-- CMP_PIPE_FAULT: a second failure of the pipe within 60 s is lasting and maps it out (R452, R453, R455). -/
def State.pipeFault (s : State) (p : Nat) : State :=
  let x := s.pipe p
  let again := match x.faultAt with
    | some t => decide (s.ns ≤ t + 60 * oneSec)
    | none => false
  let s := s.raise fCmpPipe p 0
  let s := s.setPipe p { x with job := none, begun := false, faultAt := some s.ns, idleAt := none, mapped := x.mapped || again }
  if again then
    let s := (s.decideFault fCmpPipe p true).setHealth hPIPE
    { s with flt := { s.flt with capChanged := true } }
  else s

/-- The row stands in the source ring: its encode job is released, and with the last row of the picture its bindings end (R148). -/
def State.rowComposed (s : State) (p : Nat) (j : Job) (conc : Bool) : State :=
  let s := s.composeCount j conc
  let s := { s with msc := { s.msc with repeats := s.msc.repeats.filter (fun i => decide (i ≠ j.idx)) } }
  let x := s.cmpCtx j.ctx
  let s := if s.cf j.ctx 0x18 4 = j.pic then
      let s := s.setCmpCtx j.ctx { x with done := x.done + 1 }
      if s.cf (s.cf j.ctx 0x08 2) 0x4E 2 ≤ x.done + 1 then s.unbind j.ctx p else s
    else s
  (s.freeJob j).releaseEncode (s.cf j.ctx 0x08 2) j.pic j.row

/-- COMPOSE_ROW_COMPLETE. A failed row is released again once, to another pipe; after two failures it is abandoned:
made from the source's previous picture (R453). -/
def State.composeDoneOp (s : State) (p : Nat) (ok : Bool) : State :=
  let x := s.pipe p
  match x.job with
  | none => s
  | some j =>
    if !x.begun then s
    else if ok then
      let s := s.setPipe p { x with job := none, begun := false, idleAt := none }
      let s := if j.retry ∧ (s.fltSrc fCmpPipe).outcome = .pending then s.decideFault fCmpPipe (j.fromLane - 65) false else s
      s.rowComposed p j x.conc
    else
      let s := s.pipeFault p
      if j.retry then
        let s := s.raise fRowAbandoned j.ctx j.row
        let d := j.sess
        let s := if d = 0xFFFF then s else s.incCf d 0x90 4 1
        s.rowComposed p j x.conc
      else s.putJob { j with retry := true, placed := false, released := true, attempts := j.attempts + 1, fromLane := 65 + p }

/-! ### Surfaces and layer commands (R186 to R189, R194, R195, R198) -/

/-- Bytes per sample of a surface format: ARGB8888, ARGB2101010, I8. -/
def formatBytes (f : Nat) : Nat := if f = 2 then 1 else 4

/-- The composition contexts that bind surface `h` in a layer, with the slot. -/
def State.bindersOf (s : State) (h : Nat) : List (Nat × Nat) :=
  (s.opens.filter (fun e => decide (e.2 = 5))).flatMap (fun e =>
    ((List.range (s.cf e.1 0x0A 1)).filter (fun i =>
      let l := s.layer e.1 i
      decide (l.type = 1) && decide (l.source = h))).map (fun i => (e.1, i)))

/-- A layer descriptor within the limits of R189, given the size of its source. -/
def layerOk (l : Layer) (srcW srcH : Nat) : Bool :=
  let ratio := fun (dst crop : Nat) => decide (0 < crop) && decide (crop ≤ 8 * dst) && decide (dst ≤ 8 * crop)
  if l.type = 0 ∨ l.type = 3 then decide (l.type = 0) || (decide (0 < l.dstW) && decide (0 < l.dstH))
  else if 3 < l.type then false
  else ratio l.dstW l.cropW && ratio l.dstH l.cropH && decide (l.cropX + l.cropW ≤ srcW) && decide (l.cropY + l.cropH ≤ srcH) &&
    decide (l.phaseX ≤ 63) && decide (l.phaseY ≤ 63)

/-- The size of a layer's source. -/
def State.sourceSize (s : State) (l : Layer) : Nat × Nat :=
  if l.type = 1 then ((s.surface l.source).width, (s.surface l.source).height)
  else if l.type = 2 then (s.cf l.source 0x04 2, s.cf l.source 0x06 2)
  else (0, 0)

/-- A source that exists: a created surface, or an open decode context. -/
def State.sourceOk (s : State) (l : Layer) : Bool :=
  if l.type = 1 then (Tbl.find s.cmp.surfs l.source).isSome
  else if l.type = 2 then decide (Tbl.find s.opens l.source = some 4) else true

/-- The front and back buffers of a surface exchanged, with the palette, and the units of its layers marked (R187, R195). -/
def State.flip (s : State) (h : Nat) (rect : Option (Nat × Nat × Nat × Nat)) : State :=
  let x := s.surface h
  let s := s.setSurface h { x with back := !x.back, palette := x.newPalette }
  (s.bindersOf h).foldl (fun s e =>
    let l := s.layer e.1 e.2
    match rect with
    | some (rx, ry, rw, rh) => s.markMapped e.1 l rx ry rw rh
    | none => s.markLayer e.1 l) s

end Sys2Proof.Machine
end

