-- ==== Sys2Proof/Machine/Ports.lean ====
section
/-! DEFINITION. The ports (R309 to R325): link state, received frames, PAUSE and PFC, the pause watchdog, MDIO,
time inputs and receiver retraining. -/

namespace Sys2Proof.Machine

open Sys2Proof

/-- An Imnunis link. -/
def State.link (s : State) (l : Nat) : CasLink := Tbl.get {} s.cas.links l
def State.setLink (s : State) (l : Nat) (x : CasLink) : State :=
  { s with cas := { s.cas with links := Tbl.put s.cas.links l x } }

/-! ### Credits by the dependency graph (R45) -/

/-- The channels of a graph, each after every channel that it may wait on. -/
def depOrder (edges : List (Nat × Nat)) : List Nat → Nat → List Nat
  | _, 0 => []
  | left, n + 1 =>
    let go := left.filter (fun c => edges.all (fun e => decide (e.1 ≠ c) || !left.contains e.2))
    if go.isEmpty then left else go ++ depOrder edges (left.filter (fun c => !go.contains c)) n

def depNodes (edges : List (Nat × Nat)) : List Nat := (edges.flatMap (fun e => [e.1, e.2])).eraseDups

/-- A channel's initial credits: 16 cells of a switch source (R275), and those of a virtual channel (R330); a queue is empty. -/
def State.initChannel (s : State) : DepChan → State
  | .cells u g c => { s with swc := { s.swc with credits := Tbl.put s.swc.credits (credKey u g c) 16 } }
  | .queue _ => s
  | .link l vc => s.setLink l { s.link l with credits := setAt (s.link l).credits vc (getAt 0 [16, 64, 64, 256] vc) }

/-- SWC, TMG and CAS initialise the credits of the channels that `sel` names, in the order of the graph. (DEDUCED, log 83.) -/
def State.startCredits (s : State) (sel : DepChan → Bool) : State :=
  let nodes := depNodes s.way.deps
  let order := (depOrder s.way.deps nodes (nodes.length + 1)).filter (fun n => sel (Config.depChan n))
  let s := order.foldl (fun s n => s.initChannel (Config.depChan n)) s
  { s with way := { s.way with ready := s.way.ready.filter (fun n => !order.contains n) ++ order } }

/-- The channels of link `l`, and of the queues of a port. -/
def ofLink (l : Nat) : DepChan → Bool
  | .link k _ => decide (k = l)
  | _ => false
def State.ofPort (s : State) (p : Nat) : DepChan → Bool
  | .queue q => decide ((s.queue q).dest = p)
  | _ => false

/-! ### Link state (R310 to R313) -/

/-- The port's administrative enable (R310): EN of its header. -/
def State.portEn (s : State) (p : Nat) : Bool := (s.unit (portKey p)).en
def State.portMode (s : State) (p : Nat) : Nat := fld (s.prtCfg p) 30 2
def State.portAn (s : State) (p : Nat) : Bool := tb (s.prtCfg p) 29

/-- The port's block is OFF in the waymap, so it never comes up (R310). -/
def State.portOff (s : State) (p : Nat) : Bool := decide (Tbl.get 0 s.way.portClass (p / 8) = 0)

/-- The port leaves UP: LINK_DOWNS, PRT_LINK_DOWN, its copies discarded (R282) and its received pauses ended (R293). -/
def State.leaveUp (s : State) (p : Nat) : State :=
  if (s.port p).ph = .up then
    let s := s.setPort p { s.port p with ph := .down, pauses := [], released := [], xoff := 0 }
    let s := (s.flushDest p).bumpU bPRT (p + 1) 11 1
    s.event (.portLink p false) p p
  else s

/-- The port goes to a state that is not UP. -/
def State.toPhase (s : State) (p : Nat) (ph : LinkPh) : State :=
  let s := s.leaveUp p
  s.setPort p { s.port p with ph := ph, lossAt := none }

/-- A port block's domain starts to wake. -/
def State.wakeBlock (s : State) (b : Nat) : State :=
  if Tbl.get false s.plt.blockOn b || (Tbl.find s.plt.blockWake b).isSome then s
  else { s with plt := { s.plt with blockWake := Tbl.put s.plt.blockWake b (s.ns + 200 * us) } }

/-- SIGNAL_DETECT: an enabled port that is down trains (R313). -/
def State.signalDetect (s : State) (p : Nat) : State :=
  if s.portEn p && !(s.port p).mapped && !s.portOff p && decide ((s.port p).ph = .down) then s.toPhase p .training
  else s

/-- Negotiation holds the link down: half duplex only, or a remote fault (R311, R312). -/
def State.negBad (s : State) (p : Nat) (n : NegResult) : Bool :=
  match s.portMode p with
  | 0 => n.halfOnly
  | 1 => s.portAn p && (n.halfOnly || n.remoteFault)
  | _ => false

/-- PCS_SYNC: synchronisation with negotiation complete puts the port in HOLD for 10 ms; in UP or HOLD it ends an
interruption shorter than the debounce (R313). -/
def State.pcsSync (s : State) (p : Nat) (n : NegResult) : State :=
  let x := s.port p
  match x.ph with
  | .training | .retrain =>
    if s.negBad p n then s.setPort p { x with negFail := true }
    else
      let ok := if s.portMode p = 1 ∧ s.portAn p then n.pauseOk else true
      s.setPort p { x with ph := .hold, holdDue := s.ns + 10 * ms, negFail := false, pauseOk := ok, lossAt := none }
  | .up | .hold => s.setPort p { x with lossAt := none }
  | .down | .degraded => s

/-- LINK_HOLD_EXPIRE: after 10 ms in HOLD the port is UP (R313). -/
def State.holdExpireLink (s : State) (p : Nat) : State :=
  let x := s.port p
  if decide (x.ph = .hold) && decide (x.holdDue ≤ s.ns) then
    let s := (s.setPort p { x with ph := .up, retrainDue := none }).startCredits (s.ofPort p)
    (s.event (.portLink p true) p p).txDecide p
  else s

/-- PCS_SYNC_LOSS: the 200 µs debounce starts (R313). -/
def State.syncLoss (s : State) (p : Nat) : State :=
  let x := s.port p
  if x.ph = .up ∨ x.ph = .hold then s.setPort p { x with lossAt := some (x.lossAt.getD s.ns) } else s

/-- LINK_LOSS_TIMEOUT: a loss that lasted 200 µs takes the port to TRAINING (R313). -/
def State.lossTimeout (s : State) (p : Nat) : State :=
  match (s.port p).lossAt with
  | some t => if t + 200 * us ≤ s.ns then s.toPhase p .training else s
  | none => s

/-- SGMII_CONTROL_WORD_CHANGE (R312): the PHY's link, speed and duplex. -/
def State.sgmii (s : State) (p : Nat) (linkUp : Bool) (speed : Nat) (full : Bool) : State :=
  if s.portMode p ≠ 0 ∨ (s.port p).mapped ∨ s.portEn p = false then s
  else if !full then
    let s := if (s.port p).ph = .up ∨ (s.port p).ph = .hold then s.toPhase p .training else s
    s.setPort p { s.port p with negFail := true }
  else if !linkUp then
    if (s.port p).ph = .up ∨ (s.port p).ph = .hold then s.toPhase p .training else s
  else
    let s := s.setPort p { s.port p with negFail := false, speed := speed, pauseOk := true }
    if (s.port p).ph = .training ∨ (s.port p).ph = .retrain then
      s.setPort p { s.port p with ph := .hold, holdDue := s.ns + 10 * ms }
    else s

/-! ### Received pauses (R277, R293, R316, R318) -/

/-- SWC_PSW_CFG (R287). -/
def State.pswCfg (s : State) : Nat := (Tbl.get (w32 (2 ^ 31 + 100)) s.regs 0x900058).toNat

/-- A pause on one class ends; reassertion within 1 µs counts as continuous (R277). -/
def State.endPause (s : State) (p c : Nat) : State :=
  match Tbl.find (s.port p).pauses c with
  | some x => s.setPort p { s.port p with pauses := Tbl.del (s.port p).pauses c,
                                          released := Tbl.put (s.port p).released c (s.ns, x.since) }
  | none => s

/-- A pause of `q` quanta on one class: a refresh keeps its start; zero quanta release it. -/
def State.takePause (s : State) (p q c : Nat) : State :=
  if q = 0 then s.endPause p c
  else
    let ends := s.ns + s.quantaNs p q
    let x := s.port p
    let y : PauseSt := match Tbl.find x.pauses c with
      | some y => { y with ends := ends }
      | none =>
        match Tbl.find x.released c with
        | some (t, since) =>
          if s.ns ≤ t + us then { ends := ends, since := since, ignored := false, limitMs := fld s.pswCfg 0 10 }
          else { ends := ends, since := s.ns, ignored := false, limitMs := fld s.pswCfg 0 10 }
        | none => { ends := ends, since := s.ns, ignored := false, limitMs := fld s.pswCfg 0 10 }
    s.setPort p { x with pauses := Tbl.put x.pauses c y }

/-- The quanta that a frame gives class `c`. -/
def quantaFor (f : PauseFrame) (c : Nat) : Nat := (getAt 0 f.quanta (if f.pfc then c else 0)).toNat

/-- The classes that a frame names: a PAUSE names none, and holds every class (R293). -/
def pauseClasses (f : PauseFrame) : List Nat := if f.pfc then bitsOf f.classes.toNat 8 else List.range 8

/-- PAUSE_FRAME_RECEIVED: consumed, counted, honoured whatever PFC_EN says (R318); a release lets an idle port decide. -/
def State.pauseFrame (s : State) (p : Nat) (f : PauseFrame) : State :=
  if (s.port p).ph ≠ .up then s
  else
    let s := s.bumpU bPRT (p + 1) (if f.pfc then 8 else 7) 1
    let s := (pauseClasses f).foldl (fun s c => s.takePause p (quantaFor f c) c) s
    if (pauseClasses f).any (fun c => decide (quantaFor f c = 0)) then s.txDecide p else s

/-- PAUSE_EXPIRE: the quanta have run out without refresh (R293). -/
def State.pauseExpire (s : State) (p c : Nat) : State :=
  match Tbl.find (s.port p).pauses c with
  | some x => if x.ends ≤ s.ns then (s.endPause p c).txDecide p else s
  | none => s

/-- PAUSE_STORM: a pause that has held a class for TIME_MS is ignored while the watchdog is enabled (R277). -/
def State.pauseStorm (s : State) (p c : Nat) : State :=
  match Tbl.find (s.port p).pauses c with
  | some x =>
    if tb s.pswCfg 31 && !x.ignored && decide (s.ns < x.ends) && decide (x.since + x.limitMs * ms ≤ s.ns) then
      let s := s.setPort p { s.port p with pauses := Tbl.put (s.port p).pauses c { x with ignored := true } }
      let s := (s.bump bSWC 6)
      let s := { s with swc := { s.swc with evstat := setBit s.swc.evstat 0 } }
      (s.event .swcPauseStorm p (p + c * 2 ^ 16)).txDecide p
    else s
  | none => s

/-- PSW_CFG_WRITE (R277, R287): EN = 0 ends all ignoring at once; EN = 1 times every pause in force from the write. -/
def State.pswWrite (s : State) (v : W32) : State :=
  let old := s.pswCfg
  let t := fld v.toNat 0 10
  let t := if 10 ≤ t ∧ t ≤ 1000 then t else fld old 0 10
  let en := tb v.toNat 31
  let s := { s with regs := Tbl.put s.regs 0x900058 (w32 (b2n en * 2 ^ 31 + t)) }
  (Tbl.keys s.prt.ports).foldl (fun s p =>
    s.setPort p { s.port p with pauses := (s.port p).pauses.map (fun e =>
      (e.1, if en then { e.2 with since := s.ns } else { e.2 with ignored := false })) }) s

/-- PFC_REFRESH: every QUANTA / 2 quanta the port repeats XOFF while a request lasts (R317). -/
def State.pfcRefreshOp (s : State) (p : Nat) : State :=
  let x := s.port p
  if decide (x.ph = .up) && decide (x.xoff ≠ 0) && decide (x.pfcDue ≤ s.ns) then
    let s := s.setPort p { x with pfcDue := s.ns + s.quantaNs p (s.quanta p / 2) }
    (s.emit (.pause p (decide (s.pfcEn p ≠ 0)) x.xoff (s.quanta p))).bumpU bPRT (p + 1) 9 1
  else s

/-! ### Received frames (R224, R231, R276, R303, R314, R315, R386) -/

/-- The flow that matches a frame (R224, R227), by ascending context number. -/
def State.flowOf (s : State) (p : Nat) (f : RxFrame) : Option Nat :=
  ((s.opens.filter (fun e => decide (e.2 = 2))).map Prod.fst).find? (fun r =>
    let fl := s.cf r 0x02 2
    let n := if tb fl 0 then 16 else 4
    let addr := fun off => (List.range n).map (fun i => s.ctxByte r (off + i))
    (decide (s.cf r 0x04 2 = 0xFFFF) || decide (s.cf r 0x04 2 = p)) &&
    (!tb fl 4 || decide (f.vlan.map BitVec.toNat = some (fld (s.cf r 0x06 2) 0 12)) ||
      (decide (fld (s.cf r 0x06 2) 0 12 = 0) && f.vlan.isNone)) &&
    decide (addr 0x08 = f.dstAddr) && decide (s.cf r 0x28 2 = f.dstUdp.toNat) &&
    (!tb fl 1 || decide (addr 0x18 = f.srcAddr)) && (!tb fl 2 || decide (s.cf r 0x2C 4 = f.ssrc.toNat)))

/-- The context partition of a kind (R36): its first record and its size. (DEDUCED, log 90.) -/
def State.partBase (s : State) (k : Nat) : Nat := (s.way.ctxParts.take (k - 1)).foldl (· + ·) 0
def State.partSize (s : State) (k : Nat) : Nat := getAt 0 s.way.ctxParts (k - 1)

/-- The ingress class of a frame (R315). -/
def State.ingressClass (s : State) (p : Nat) (f : RxFrame) : Nat :=
  if f.erelm then 7
  else match f.vlan with
    | some _ => if tb (s.prtCfg p) 26 then f.pcp.toNat else fld (s.prtCfg p) 23 3
    | none => fld (s.prtCfg p) 23 3

/-- A frame of the exception ring given to a posted buffer: the frame's bytes and the completion of the RX entry,
whose result holds port, class, length and ingress stamp (R376). -/
def State.excDeliver (s : State) (r : Nat) (e : ExcFrame) : Option State :=
  match (s.ring r).flight with
  | [] => none
  | b :: _ =>
    let w := fld e.port 0 16 + fld e.cls 0 3 * 2 ^ 16 + fld e.length 0 12 * 2 ^ 20
    let s := s.toHost b.e.addr.toNat (e.bytes.take b.e.len.toNat)
    some (s.complete r b.e (if s.hqe.bme then cOK else cHOST_DMA) 0 (leBytes 4 w ++ leBytes 8 e.stamp))

/-- HQE_EXC_CFG (R391). -/
def State.excCfg (s : State) : Nat := (Tbl.get (w32 (1000 * 2 ^ 16)) s.regs 0x400070).toNat

/-- A frame that matches no flow and no handler (R386): to the exception ring, waiting at most WAIT_US. -/
def State.exception (s : State) (p cls : Nat) (f : RxFrame) : State :=
  let r := fld s.excCfg 0 14
  if tb s.excCfg 31 = false ∨ s.hqe.attached = false ∨ (s.ring r).kind ≠ kRX ∨ (s.ring r).ph = .free then s.bump bHQE 6
  else
    let s := s.bump bHQE 5
    let e : ExcFrame := { port := p, cls := cls, length := f.length, stamp := s.ingressStamp p,
                          due := s.ns + fld s.excCfg 16 15 * us, bytes := f.bytes }
    if s.hqe.exc.isEmpty then
      match s.excDeliver r e with
      | some s => s
      | none => { s with hqe := { s.hqe with exc := [e] } }
    else { s with hqe := { s.hqe with exc := s.hqe.exc ++ [e] } }

/-- A frame written to the switch for flow `r` in class `cls`, in the flow's ingress queue (R224, R269). -/
def State.writeFlow (s : State) (p r cls len : Nat) (bytes : Bytes) : State :=
  let (s', hs) := s.allocMany (aPortBlk (p / 8)) 0 1 false (cellsFor len)
  if hs.length < cellsFor len then s'
  else
    let s := s'.writeCells len hs [] true
    let q := Tbl.get 0 s.flowQ r
    let s := s.addIng p cls hs.length
    let c : Copy := { kind := .forward, dest := (s.queue q).dest, cls := cls, queue := q, head := hs, len := len,
                      src := p / 8, sess := none, port := some p, inCls := cls, data := bytes }
    ((s.newCopy c).1).pfcSync p

/-- Frames beyond the headroom, once the pool is below BACKPRESSURE, are discarded at the port (R276). -/
def State.beyondHeadroom (s : State) (p c n : Nat) : Bool :=
  decide (s.swc.xoffAt + Tbl.get 0 s.swc.headroom (acctKey p c) < Tbl.get 0 s.swc.ingUse (acctKey p c) + n) &&
  decide ((s.pool 0).free < (s.pool 0).cfg.bp) && Tbl.get false s.swc.xoffSent (acctKey p c)

def State.headroomDiscard (s : State) (p : Nat) : State :=
  let s := s.bump bSWC 7
  let s := { s with swc := { s.swc with evstat := setBit s.swc.evstat 4 } }
  match Tbl.find s.swc.headroomAt p with
  | some t => if t + oneSec ≤ s.ns then
      ({ s with swc := { s.swc with headroomAt := Tbl.put s.swc.headroomAt p s.ns } }).event .swcHeadroom p p else s
  | none => ({ s with swc := { s.swc with headroomAt := Tbl.put s.swc.headroomAt p s.ns } }).event .swcHeadroom p p

/-- FRAME_RECEIVED (R314): the first failed check counts; a good frame is classified, mirrored, matched and policed.
(DESIGN CHOICE, log 29.) (DEDUCED, log 66.) -/
def State.frameRx (s : State) (p : Nat) (f : RxFrame) : State :=
  if (s.port p).ph ≠ .up then s
  else if !f.fcsOk then s.bumpU bPRT (p + 1) 4 1
  else if f.length < 64 then s.bumpU bPRT (p + 1) 5 1
  else if fld (s.prtCfg p) 0 14 < f.length then s.bumpU bPRT (p + 1) 6 1
  else
    let s := (s.bumpU bPRT (p + 1) 0 1).bumpU bPRT (p + 1) 1 f.length
    let cls := s.ingressClass p f
    let n := cellsFor f.length
    if s.beyondHeadroom p cls n then s.headroomDiscard p
    else
      let k : Copy := { kind := .forward, len := f.length, data := f.bytes }
      if f.erelm then (s.mirrorAll false none p k).ptpRx p f.bytes
      else
        match s.flowOf p f with
        | none => (s.mirrorAll false none p k).exception p cls f
        | some r =>
          let s := s.mirrorAll false none p k
          match s.police (r - s.partBase 2) f.length p cls with
          | (s, .drop) => s
          | (s, .pass) => (s.mirrorAll false (some r) p k).writeFlow p r cls f.length f.bytes
          | (s, .mark) => (s.mirrorAll false (some r) p k).writeFlow p r 0 f.length f.bytes

/-- Posted buffers filled with the frames that wait, in class order (R386). -/
def State.excFill (s : State) (r : Nat) : Nat → State
  | 0 => s
  | fuel + 1 =>
    match leastBy (fun e => 7 - e.cls) s.hqe.exc with
    | none => s
    | some e =>
      match s.excDeliver r e with
      | none => s
      | some s => State.excFill { s with hqe := { s.hqe with exc := s.hqe.exc.erase e } } r fuel

/-- EXC_WAIT_TIMEOUT: a frame that found no buffer within WAIT_US is discarded and counted (R386). -/
def State.excTimeout (s : State) : State :=
  let late := s.hqe.exc.filter (fun e => decide (e.due ≤ s.ns))
  ({ s with hqe := { s.hqe with exc := s.hqe.exc.filter (fun e => decide (s.ns < e.due)) } }).bumpU bHQE 0 6 late.length

/-! ### Receiver adaptation (R323 to R325) -/

/-- A lasting receiver fault: the port is mapped out (R325, R455). -/
def State.degradePort (s : State) (p : Nat) : State :=
  let s := s.toPhase p .degraded
  let s := s.setPort p { s.port p with mapped := true, retrainDue := none, failAt := none, rank := 0 }
  let s := { s with glb := { s.glb with cntPorts := s.glb.cntPorts + 1 }, flt := { s.flt with capChanged := true } }
  (s.setHealth hPORT).raise fPrtDegraded p 0

/-- The port leaves UP and its adaptation restarts; it has 500 ms to reach UP (R324). -/
def State.beginRetrain (s : State) (p : Nat) : State :=
  let s := s.toPhase p .retrain
  s.setPort p { s.port p with retrainDue := some (s.ns + 500 * ms), lowCount := 0, rank := (s.port p).rank + 1 }

/-- A failure of the port's receiver that starts a retrain (R325): the first of 60 s retrains, a second is lasting.
(DEDUCED, log 69.) -/
def State.portFailure (s : State) (p : Nat) : State :=
  match (s.port p).failAt with
  | some t =>
    if s.ns < t + 60 * oneSec then s.degradePort p
    else ((s.setPort p { s.port p with failAt := some s.ns, rank := 0 }).event (.portRetrain p) p p).beginRetrain p
  | none => ((s.setPort p { s.port p with failAt := some s.ns, rank := 0 }).event (.portRetrain p) p p).beginRetrain p

/-- EYE_MEASUREMENT (R323, R324). -/
def State.eye (s : State) (p m : Nat) : State :=
  if (s.port p).ph ≠ .up then s
  else
    let warn := fld (Tbl.get 12 s.regs (prtAddr p 0x28)).toNat 0 6
    let fail := fld (Tbl.get 6 s.regs (prtAddr p 0x2C)).toNat 0 6
    let x := s.port p
    let raise_ := decide (m < warn) && !x.lowRaised
    let low := if m < fail then x.lowCount + 1 else 0
    let s := s.setPort p { x with margin := m, lowCount := low,
                                  lowRaised := decide (m < warn) || (x.lowRaised && decide (m < warn + 2)) }
    let s := if raise_ then s.event (.portMargin p) p m else s
    if 2 ≤ low then s.portFailure p else s

/-- RETRAIN_TIMEOUT: a retrain that has not reached UP within 500 ms is followed by a second one, whose failure is
lasting (R325, R459). -/
def State.retrainTimeout (s : State) (p : Nat) : State :=
  match (s.port p).retrainDue with
  | some t =>
    if t ≤ s.ns ∧ (s.port p).ph ≠ .up then
      if 2 ≤ (s.port p).rank then s.degradePort p else s.beginRetrain p
    else s
  | none => s

/-- RETRAIN_WINDOW_EXPIRE: 60 s after a first failure with none following, the fault was transient (R325). -/
def State.windowExpire (s : State) (p : Nat) : State :=
  match (s.port p).failAt with
  | some t =>
    if t + 60 * oneSec ≤ s.ns ∧ (s.port p).ph = .up then
      (s.setPort p { s.port p with failAt := none, rank := 0 }).bumpU bPRT (p + 1) 10 1
    else s
  | none => s

/-! ### MDIO (R319, R336) -/

def State.mdio (s : State) (b : Nat) : MdioSt := Tbl.get {} s.prt.mdio b
def State.setMdio (s : State) (b : Nat) (x : MdioSt) : State :=
  { s with prt := { s.prt with mdio := Tbl.put s.prt.mdio b x } }

/-- A write of PRT_MDIO_CMD with GO that starts the frame of clause and operation given. A GO while BUSY is ignored.
(DEDUCED, log 54.) -/
def State.mdioGo (s : State) (b : Nat) (v : W32) (c45 : Bool) (op : Nat) : State :=
  if (s.mdio b).busy ∨ tb v.toNat 31 = false ∨ tb v.toNat 28 ≠ c45 ∨ fld v.toNat 26 2 ≠ op then s
  else (s.setMdio b { busy := true, err := false, word := w32 (fld v.toNat 0 29) }).emit (.mdio b v)

/-- MDIO_FRAME_COMPLETE: a read takes the response; one without a turnaround sets ERR and returns 0xFFFF. -/
def State.mdioDone (s : State) (b : Nat) (r : Option W16) : State :=
  let x := s.mdio b
  if !x.busy then s
  else
    let w := x.word.toNat
    let isRead := if tb w 28 then decide (2 ≤ fld w 26 2) else decide (fld w 26 2 = 3)
    if isRead then
      match r with
      | some d => s.setMdio b { busy := false, err := false, word := w32 (setFld w 0 16 d.toNat) }
      | none => s.setMdio b { busy := false, err := true, word := w32 (setFld w 0 16 0xFFFF) }
    else s.setMdio b { x with busy := false }

/-! ### Time (R322, R474) -/

/-- PPS_IN_EDGE: stamped, and used by the servo when PPS is the source, unless it is more than 1 ms from the expected
second. Only module 0 of a cascade disciplines its time from it. -/
def State.ppsEdge (s : State) (modId : Nat) : State :=
  if s.clk.src ≠ .pps ∨ modId ≠ 0 then s
  else
    match s.clk.ppsAt with
    | some t =>
      let off : Int := Int.ofNat s.ns - Int.ofNat (t + oneSec)
      if off.natAbs ≤ ms then { s with clk := { s.clk with ppsAt := some s.ns, slew := Config.servo off } } else s
    | none => { s with clk := { s.clk with ppsAt := some s.ns } }

end Sys2Proof.Machine
end

