-- ==== Sys2Proof/Machine/Cascade.lean ====
section
/-! DEFINITION. The Imnunis links (R326 to R335): bring-up, lanes mapped out, link frames with replay and credits,
and the exchange of time. -/

namespace Sys2Proof.Machine

open Sys2Proof

/-- A counter of link `l` (R337). -/
def State.bumpLink (s : State) (l n k : Nat) : State := s.bumpU bCAS (l + 1) n k

/-- The module that link `l` of module `m` leads to (R24). -/
def peerOf (m l : Nat) : Nat := (m + l + 1) % 4

/-- The numbers of set bits of a 4-bit lane mask. -/
def laneCount (m : Nat) : Nat := (bitsOf m 4).length

/-- The rate of a link in kb/s (R26): 25 Gb/s for each lane in use. -/
def State.linkKbps (s : State) (l : Nat) : Nat := laneCount (s.link l).inUse * 25000000

/-- The rate in kb/s of the streams that module 0 has admitted for other modules between modules `a` and `b`, in either direction (R26). -/
def State.remoteLoad (s : State) (a b : Nat) : Nat :=
  (s.cas.loads.filter (fun x => (decide (x.1 = a) && decide (x.2.1 = b)) || (decide (x.1 = b) && decide (x.2.1 = a)))).foldl
    (fun t x => t + x.2.2) 0

/-! ### Link frames (R328 to R330) -/

/-- The channel whose credits the next frame returns, and how many: at most 63 of the first channel that has any (R328, R330). -/
def CasLink.creditVc (x : CasLink) : Nat := ((List.range 4).find? (fun v => decide (0 < getAt 0 x.returns v))).getD 0
def CasLink.creditCount (x : CasLink) : Nat := min 63 (getAt 0 x.returns x.creditVc)

/-- Those credits have been returned. -/
def State.credited (s : State) (l : Nat) : State :=
  let x := s.link l
  s.setLink l { x with returns := setAt x.returns x.creditVc (getAt 0 x.returns x.creditVc - x.creditCount) }

/-- Frames that no acknowledgement has named yet are resent in order (go-back-N), each counted once more. -/
def State.resend (s : State) (l : Nat) : State :=
  let x := s.link l
  let s := x.replay.foldl (fun s f => s.emit (.linkFrame l f.vc false f.seq ((x.expect + 4095) % 4096) 0 0 f.payload)) s
  s.setLink l { x with replay := x.replay.map (fun f => { f with sends := f.sends + 1, at_ := s.ns }) }

/-- The link retrains from step 1, keeping its replay buffer (R329). -/
def State.linkRetrain (s : State) (l : Nat) : State :=
  let x := s.link l
  (s.setLink l { x with ph := .retrain, step := 1, inUse := fld (15 - x.out) 0 4,
                        retrainDue := some (s.ns + 100 * ms) }).bumpLink l 6 1

/-- A replay of the frames kept: one whose fourth sending has failed makes the link retrain (R329). -/
def State.replayOp (s : State) (l : Nat) : State :=
  if (s.link l).replay.any (fun f => decide (4 ≤ f.sends)) then
    ((s.bumpLink l 3 1).event .casReplayFail l l).linkRetrain l
  else s.resend l

/-- Waiting frames sent, by precedence of their channels, against credit and while the replay buffer has room. -/
def State.linkPump (s : State) (l : Nat) : Nat → State
  | 0 => s
  | fuel + 1 =>
    let x := s.link l
    let ok := fun (e : Nat × Bytes) =>
      decide (0 < getAt 0 x.credits e.1) && !(x.mediaClosed && decide (e.1 = 3))
    match leastBy (fun e => e.1) (x.txq.filter ok) with
    | none => s
    | some e =>
      if x.ph ≠ .up ∨ 1024 ≤ x.replay.length then s
      else
        let f : ReplayFrame := { seq := x.nextSeq, vc := e.1, payload := e.2, sends := 1, at_ := s.ns }
        let s := s.setLink l { x with txq := x.txq.erase e, replay := x.replay ++ [f],
                                      nextSeq := (x.nextSeq + 1) % 4096,
                                      credits := setAt x.credits e.1 (getAt 0 x.credits e.1 - 1) }
        let s := s.credited l
        let s := (s.emit (.linkFrame l e.1 false f.seq ((x.expect + 4095) % 4096) x.creditVc x.creditCount f.payload)).bumpLink l 0 1
        State.linkPump s l fuel

/-- A payload given to a channel of link `l`. -/
def State.linkSend (s : State) (l vc : Nat) (b : Bytes) : State :=
  let x := s.link l
  let s := s.setLink l { x with txq := x.txq ++ [(vc, b)] }
  s.linkPump l (x.txq.length + 1)

/-- An acknowledgement or a nak without payload, with the credits that it returns. -/
def State.linkAck (s : State) (l : Nat) (nak : Bool) : State :=
  let x := s.link l
  (s.credited l).emit (.linkFrame l 0 nak 0 (if nak then x.expect else (x.expect + 4095) % 4096) x.creditVc x.creditCount [])

/-- `a` lies at or after `b` within half of the 12-bit numbers. -/
def seq12le (b a : Nat) : Bool := decide ((a + 4096 - b) % 4096 < 2048)

/-- Frames acknowledged leave the replay buffer; those that needed a retry count in REPLAYED (R329). -/
def State.linkAcked (s : State) (l upTo : Nat) : State :=
  let x := s.link l
  let done := x.replay.filter (fun f => seq12le f.seq upTo)
  (s.setLink l { x with replay := x.replay.filter (fun f => !seq12le f.seq upTo) }).bumpLink l 2
    ((done.filter (fun f => decide (1 < f.sends))).length)

/-- Copies of link `l` that wait unadmitted withhold MEDIA credit from the peer (R275, R330). (DEDUCED, log 74.) -/
def State.mediaHeld (s : State) (l : Nat) : Bool :=
  s.swc.copies.any (fun e => decide (e.2.place = .held) && decide (e.2.src / 64 = peerOf s.plt.cascId l) &&
    decide (e.2.kind = .forward)) || !(s.link l).rxq.isEmpty

/-! ### Media cells received (R25, R283) -/

/-- The enabled queue of a destination and class with the lowest number; a number that no descriptor has when none is. -/
def State.queueFor (s : State) (dest cls : Nat) : Nat :=
  ((s.tmg.queues.find? (fun e => decide (e.2.dest = dest) && decide (e.2.cls = cls) && e.2.en)).map Prod.fst).getD (2 ^ 18)

/-- The frame of a media cell, by its copy: the frame's first cell takes its buffers. None while the CELL pool lacks them. -/
def State.mediaCopy (s : State) (l : Nat) (m : MediaCell) : Option (State × Nat) :=
  let x := s.link l
  match Tbl.find x.frames m.frame with
  | some i => some (s, i)
  | none =>
    let k := max 1 (ceilDiv m.len 128)
    let (t, cells) := s.allocMany (aLink l) 0 1 false k
    if cells.length ≠ k then none
    else
      let t := t.writeCells m.len cells [] false
      let (t, i) := t.newCopy { kind := .forward, dest := m.dest, cls := m.cls, queue := t.queueFor m.dest m.cls, head := cells, len := m.len,
                                src := m.src, made := t.ns }
      some (t.setLink l { t.link l with frames := Tbl.put (t.link l).frames m.frame i }, i)

/-- A cell that is written and numbered: it goes to the resequencer of its destination's group. (DESIGN CHOICE, log 115.) -/
def State.mediaRx (s : State) (l : Nat) (m : MediaCell) : Option State :=
  match s.mediaCopy l m with
  | none => none
  | some (t, i) =>
    let c := t.copy i
    let t := t.setCopy i { c with data := c.data ++ m.bytes }
    let t := if m.last then t.setLink l { t.link l with frames := Tbl.del (t.link l).frames m.frame } else t
    some (t.rsqCell { group := ⟨s.groupOf m.dest % 40, Nat.mod_lt _ (by decide)⟩, src := BitVec.ofNat 8 m.src, seq := BitVec.ofNat 16 m.seq,
                      copyId := i, last := m.last })

/-- The media payloads of link `l` that find buffers are taken, oldest first. -/
def State.mediaTake (s : State) (l : Nat) : Nat → State
  | 0 => s
  | fuel + 1 =>
    match (s.link l).rxq with
    | [] => s
    | b :: r =>
      match s.mediaRx l (Config.mediaIn b) with
      | none => s
      | some t => State.mediaTake (t.setLink l { t.link l with rxq := r }) l fuel

/-- A payload accepted: media cells go to the switch, and messages wait for firmware. -/
def State.linkTake (s : State) (l vc : Nat) (b : Bytes) : State :=
  if vc = 3 then
    let s := s.setLink l { s.link l with rxq := (s.link l).rxq ++ [b] }
    let s := s.mediaTake l (s.link l).rxq.length
    if (s.link l).rxq.isEmpty then s else s.nullReturn
  else { s with cas := { s.cas with inbox := s.cas.inbox ++ [(l, b)] } }

/-- MEDIA credits fall due once no cell of the link waits for admission (R275, R330). -/
def State.mediaFreed (s : State) (l : Nat) : State :=
  let x := s.link l
  if s.mediaHeld l then s else s.setLink l { x with returns := setAt x.returns 3 (getAt 0 x.returns 3 + x.owed), owed := 0 }

/-- The credit of a frame taken falls due as its buffer is free (R330). -/
def State.linkFreed (s : State) (l vc : Nat) : State :=
  let x := s.link l
  if vc = 3 then (s.setLink l { x with owed := x.owed + 1 }).mediaFreed l
  else s.setLink l { x with returns := setAt x.returns vc (getAt 0 x.returns vc + 1) }

/-- Credits that have fallen due since are returned in a frame without payload. -/
def State.linkReturn (s : State) (l : Nat) : State :=
  let s := if 0 < (s.link l).owed then s.mediaFreed l else s
  if (s.link l).ph = .up ∧ 0 < (s.link l).creditCount then s.linkAck l false else s

/-- LINK_FRAME_RECEIVED (R328 to R330). -/
def State.linkFrameRx (s : State) (l : Nat) (f : LinkFrame) : State :=
  let x := s.link l
  if x.ph ≠ .up then s
  else if !f.crcOk then (s.bumpLink l 5 1).linkAck l true
  else
    let s := if f.nak then s.linkAcked l ((f.ack.toNat + 4095) % 4096) else s.linkAcked l f.ack.toNat
    let x := s.link l
    let vc := f.crVc.toNat
    let s := s.setLink l { x with credits := setAt x.credits vc (getAt 0 x.credits vc + f.crCount.toNat) }
    let s := if f.nak then s.replayOp l else s
    let s := if f.payload.isEmpty then s
      else
        let x := s.link l
        if f.seq.toNat = x.expect then
          let s := s.setLink l { x with expect := (x.expect + 1) % 4096 }
          (((s.bumpLink l 1 1).linkTake l f.vc.toNat f.payload).linkFreed l f.vc.toNat).linkAck l false
        else if seq12le f.seq.toNat x.expect then s.linkAck l false
        else s.linkAck l true
    s.linkPump l (s.link l).txq.length

/-- REPLAY_TIMEOUT: the oldest frame has waited 2 µs without acknowledgement (R329). -/
def State.replayTimeout (s : State) (l : Nat) : State :=
  match (s.link l).replay with
  | f :: _ => if decide (f.at_ + 2 * us ≤ s.ns) && decide ((s.link l).ph = .up) then s.replayOp l else s
  | [] => s

/-! ### Bring-up (R327, R331) -/

/-- Lanes that failed a training are excluded; a lane excluded twice within 60 s is mapped out (R331). -/
def State.excludeLanes (s : State) (l bad : Nat) : State :=
  (bitsOf bad 4).foldl (fun s i =>
    let x := s.link l
    if tb x.out i then s
    else
      match Tbl.find x.excluded i with
      | some t =>
        if s.ns < t + 60 * oneSec then
          let s := s.setLink l { x with out := x.out + 2 ^ i, inUse := if tb x.inUse i then x.inUse - 2 ^ i else x.inUse }
          let s := { s with glb := { s.glb with cntCasLanes := s.glb.cntCasLanes + 1 },
                            flt := { s.flt with capChanged := true } }
          (s.setHealth hCASCADE).raise fCasLaneOut l i
        else s.setLink l { x with excluded := Tbl.put x.excluded i s.ns,
                                  inUse := if tb x.inUse i then x.inUse - 2 ^ i else x.inUse }
      | none => s.setLink l { x with excluded := Tbl.put x.excluded i s.ns,
                                     inUse := if tb x.inUse i then x.inUse - 2 ^ i else x.inUse }) s

/-- Two digests compared: equal, or one module runs the base image of the other's detour (R46, R55). -/
def State.digestCompare (s : State) (l : Nat) (alike : Bool) : State :=
  if alike then s.setLink l { s.link l with mediaClosed := false }
  else
    let zero := decide (s.plt.cascId = 0)
    let withZero := zero || decide (peerOf s.plt.cascId l = 0)
    if !withZero then s
    else
      let s := { s with sec := { s.sec with wm := { s.sec.wm with mismatch := true } } }
      if zero then (s.setLink l { s.link l with mediaClosed := true }).event .secWmMismatch l (peerOf 0 l) else s

/-- The digests exchanged in step 5. -/
def State.digestOp (s : State) (l : Nat) (r : TrainResult) : State :=
  s.digestCompare l (decide (r.peerDigest = s.way.digest) || r.peerDetourOf)

/-- The link enters UP: initial credits, and unacknowledged frames are resent (R327, R329, R330). Modules 1 to 3 send module 0 their waymap
digest (R46). -/
def State.linkUp (s : State) (l : Nat) : State :=
  let x := s.link l
  let s := s.setLink l { x with ph := .up, step := 7, retrainDue := none, retryDue := none,
                                credits := [16, 64, 64, 256], returns := [0, 0, 0, 0], owed := 0 }
  let s := s.startCredits (ofLink l)
  let s := (s.resend l).linkPump l x.txq.length
  if s.plt.cascId ≠ 0 ∧ peerOf s.plt.cascId l = 0 then s.linkSend l 0 (Config.meshOut (.digest s.way.digest)) else s

/-- The link begins bring-up at step 1 with every lane that is not mapped out. -/
def State.linkTrain (s : State) (l : Nat) : State :=
  let x := s.link l
  let ph := if x.ph = .retrain then CasPh.retrain else CasPh.training
  s.setLink l { x with ph := ph, step := 1, inUse := 15 - x.out, retryDue := some (s.ns + 100 * ms) }

/-- The link goes down: its copies are discarded (R335), the replay buffer is lost, CAS_LINK_DOWN is raised. -/
def State.linkDown (s : State) (l : Nat) : State :=
  let x := s.link l
  let s := s.setLink l { x with ph := .down, step := 0, replay := [], txq := [], rxq := [], frames := [], retrainDue := none, inUse := 0 }
  ((s.flushDest (261 + l)).event .casLinkDown l l)

/-- CAS_TRAIN_STEP_COMPLETE: a step ends and the next begins; a step that fails restarts the sequence (R327). -/
def State.trainStep (s : State) (l : Nat) (r : TrainResult) : State :=
  let x := s.link l
  if !(decide (x.ph = .training) || decide (x.ph = .retrain)) then s
  else if x.step ≤ 3 ∧ r.lanesBad.toNat ≠ 0 then
    let s := s.excludeLanes l r.lanesBad.toNat
    let y := s.link l
    if y.inUse = 0 then s.setLink l { y with ph := if y.out = 15 then .failed else .down, step := 0 }
    else s.setLink l { y with step := 1 }
  else if !r.ok then s.setLink l { x with step := 1 }
  else if x.step = 4 then
    if r.peerId.toNat ≠ peerOf s.plt.cascId l ∨ r.peerCasc.toNat ≠ s.cas.size then
      (s.setLink l { x with ph := .down, step := 0, miswire := true, peer := r.peerId.toNat }).raise fCasMiswire l r.peerId.toNat
    else s.setLink l { x with step := 5, peer := r.peerId.toNat }
  else if x.step = 5 then
    let s := s.digestOp l r
    s.setLink l { s.link l with step := 6 }
  else if x.step = 6 then s.linkUp l
  else s.setLink l { x with step := x.step + 1 }

/-- CAS_PEER_RETRY: while no peer answers the link retries every 100 ms (R327). -/
def State.peerRetry (s : State) (l : Nat) : State :=
  let x := s.link l
  if s.running (linkKey l) && (decide (x.ph = .down) || decide (x.ph = .training)) && !x.miswire then
    match x.retryDue with
    | some t => if t ≤ s.ns then s.linkTrain l else s
    | none => s.linkTrain l
  else s

/-! ### Time (R333) -/

/-- With no link to follow, a module other than 0 that was locked enters holdover. -/
def State.timeLost (s : State) : State :=
  if s.plt.cascId ≠ 0 ∧ s.cas.locked ∧ !(s.cas.links.any (fun e => decide (e.2.ph = .up))) then
    ({ s with cas := { s.cas with locked := false, holdover := true } }).event .casTimeHoldover noCtx 0
  else s

/-- CAS_RETRAIN_TIMEOUT: a retraining link not UP within 100 ms goes down (R329, R333, R335). -/
def State.casRetrainTimeout (s : State) (l : Nat) : State :=
  match (s.link l).retrainDue with
  | some t => if t ≤ s.ns ∧ (s.link l).ph ≠ .up then (s.linkDown l).timeLost else s
  | none => s

/-- CAS_TIME_EXCHANGE: offset of this module's time against the module followed; time is slewed by at most 250 ppm.
On rejoining with more than 1 ms, time steps forward or slews backward and CAS_TIME_STEP is raised. -/
def State.timeExchange (s : State) (l : Nat) (off : Int) : State :=
  if s.plt.cascId = 0 then s
  else if (s.link l).ph ≠ .up then s.timeLost
  else
    let direct := decide (peerOf s.plt.cascId l = 0)
    let directUp := (List.range 3).any (fun i => decide (peerOf s.plt.cascId i = 0) && decide ((s.link i).ph = .up))
    if !direct && directUp then s
    else
      let slew := clampI (-250000) 250000 (Config.servo off)
      let rejoin := s.cas.holdover && decide (ms < off.natAbs)
      let s := { s with cas := { s.cas with locked := true, holdover := false, path := l, offset := off },
                        clk := { s.clk with slew := slew } }
      if rejoin then
        let s := if 0 < off then { s with time := s.time + off.toNat * 2 ^ 16 } else s
        s.event .casTimeStep noCtx (unsgn off 64)
      else s

/-- The link over which this module takes its time: its direct link to module 0 when that is up, else another that is (R333). -/
def State.timeLink (s : State) : Nat :=
  let direct := (3 - s.plt.cascId) % 4
  if (s.link direct).ph = .up then direct
  else ((List.range 3).find? (fun i => decide ((s.link i).ph = .up))).getD direct

/-! ### Messages between modules (R26, R334) -/

/-- The link of module `m` that leads to module `k`. -/
def linkTo (m k : Nat) : Nat := (k + 7 - m) % 4

/-- A message to the module at the other end of link `l`. -/
def State.tell (s : State) (l vc : Nat) (m : MeshMsg) : State := s.linkSend l vc (Config.meshOut m)

/-- A session whose stream leaves by another module is admitted or given up: a module other than 0 tells module 0, which counts it (R26). -/
def State.tellStream (s : State) (d : Nat) (opens : Bool) : State :=
  let p := s.cf d 0x04 2
  let m := s.plt.cascId
  if p < 0x8000 ∨ m = 0 then s else s.tell (linkTo m 0) 2 (.stream opens m (p / 256 % 128) (s.cf d 0x14 4))

end Sys2Proof.Machine
end

