-- ==== Sys2Proof/Machine/Inflow.lean ====
section
/-! DEFINITION. How the rows of a decode context come from its sources (R160, R171, R226): decode jobs, the rows that an input flow releases,
and the guard of each flow. -/

namespace Sys2Proof.Machine

open Sys2Proof

/-! ### Decode jobs (R171) -/

/-- A composition job reads row `row` of decode context `r`: a layer that takes its source there needs lines of it. -/
def State.readsRow (s : State) (j : Job) (r row : Nat) : Bool :=
  let y := s.jobLines j
  let n := rowSize (fld (s.cf r 0x02 2) 0 2) (s.cf r 0x06 2) (s.cf r 0x26 2)
  (s.layers j.ctx).any (fun l => decide (l.type = 2) && decide (l.source = r) && l.touches (s.cf j.ctx 0x04 2) y.1 y.2 &&
    decide (l.cropY < (row + 1) * n) && decide (row * n < l.cropY + l.linesFor y.2))

/-- The earliest deadline less cost of the composition rows that read row `row` of decode context `r`, if any waits for it. -/
def State.readersDue (s : State) (r row : Nat) : Option Nat :=
  s.msc.jobs.foldl (fun b e =>
    let j := e.2
    if j.op = .compose ∧ ¬ j.placed ∧ s.readsRow j r row then
      let t := j.deadline - s.cmpCost (s.cf j.ctx 0x08 2) j.row
      some (match b with
        | some x => min x t
        | none => t)
    else b) none

/-- A decode row's job, released: its data is complete, or declared lost, which `lost` says of a chunk of it; `inPic`
is its picture's number in the flow that brings it. -/
def State.createDecode (s : State) (r row : Nat) (data : W32) (lost : Bool) (inPic : Nat) : State :=
  let period := if s.cf r 0x10 2 = 0 then 0 else oneSec * s.cf r 0x12 2 / s.cf r 0x10 2
  let due := (s.readersDue r row).getD (s.ns + period)
  let j : Job := { op := .decode, ctx := r, pic := s.cf r 0x1C 4, row := row, band := s.bandOf r, deadline := due, data := data,
                   released := true, lastRow := decide (0 < s.cf r 0x26 2) && decide (s.cf r 0x26 2 ≤ row + 1), lost := lost, inPic := inPic }
  if Tbl.find s.opens r = some 4 then s.createJob j else s

/-! ### Rows of an input flow (R160, R226) -/

def State.djq (s : State) (f : Nat) : DjQ := Tbl.get {} s.asm.dj f
def State.setDj (s : State) (f : Nat) (x : DjQ) : State := { s with asm := { s.asm with dj := Tbl.put s.asm.dj f x } }

/-- A queue whose oldest gap's timer starts at the first packet that arrived beyond it (R160): of the packets that are queued. -/
def DjQ.regap (x : DjQ) : DjQ :=
  let l := x.arrived.filter (fun e => x.queue.any (fun k => decide (k.seq.toNat = e.1)))
  { x with arrived := l, gapAt := match l with
      | [] => none
      | e :: r => some (r.foldl (fun a y => min a y.2) e.2) }

/-- A packet queued beyond a gap. -/
def DjQ.hold (x : DjQ) (k : RtpIn) (now : Nat) : DjQ :=
  ({ x with queue := x.queue ++ [k], arrived := x.arrived ++ [(k.seq.toNat, now)] }).regap

/-- Rows [a, b) of the picture in progress have a chunk marked LOST. -/
def DjQ.markLost (x : DjQ) (a b : Nat) : DjQ := { x with lost := x.lost ++ (List.range (b - a)).map (fun i => a + i) }

/-- Rows of the picture in progress up to `n` released: their data is complete or declared lost. -/
def State.releaseRows (s : State) (f n : Nat) : Nat → State
  | 0 => s
  | fuel + 1 =>
    let x := s.djq f
    if n ≤ x.rel then s
    else
      let s := (s.createDecode (s.cf f 0x30 2) x.rel (Config.inputChunk s.free) (x.lost.contains x.rel) x.count).draw
      State.releaseRows (s.setDj f { x with rel := x.rel + 1 }) f n fuel

/-- The next row released when the bytes past the last row's end reach the guard (R226, step 2). -/
def State.guardRow (s : State) (f : Nat) : State :=
  let x := s.djq f
  let rows := s.cf (s.cf f 0x30 2) 0x26 2
  if x.ended = x.rel ∧ x.short ≤ x.rel ∧ x.ts.isSome ∧ max 1024 (s.cf f 0x38 4) ≤ x.bytes - x.used ∧ (rows = 0 ∨ x.rel < rows) then
    s.releaseRows f (x.rel + 1) 1
  else s

/-- The rest of the picture in progress is complete, or lost, and the next picture begins. -/
def State.endInputPic (s : State) (f : Nat) (lost : Bool) : State :=
  let x := s.djq f
  if x.ts.isNone then s
  else
    let rows := s.cf (s.cf f 0x30 2) 0x26 2
    let x := if lost then x.markLost x.full rows else x
    let s := s.setDj f { x with full := max x.full rows }
    let s := s.releaseRows f rows (rows + 1)
    let x := s.djq f
    let guard := max 1024 (2 * x.largest)
    (s.setDj f { x with ts := none, bytes := 0, rel := 0, full := 0, short := 0, used := 0, ended := 0,
                        largestPrev := x.largest, largest := 0, lost := [], count := x.count + 1 }).setCf f 0x38 4 guard

/-- The input flow of a decode context. -/
def State.flowFor (s : State) (r : Nat) : Option Nat :=
  let f := s.cf r 0x0C 2
  if tb (s.cf r 0x02 2) 2 ∧ Tbl.find s.opens f = some 2 then some f else none

/-- A decoded row of a flow has ended: the bytes that it consumed count for the guard of its picture, and of the next (R226). -/
def State.inputRowEnd (s : State) (j : Job) (bytes : Nat) : State :=
  match s.flowFor j.ctx with
  | none => s
  | some f =>
    let x := s.djq f
    if j.inPic = x.count then
      (s.setDj f { x with used := x.used + bytes, ended := x.ended + 1, largest := max x.largest bytes }).guardRow f
    else if j.inPic + 1 = x.count then
      let n := max x.largestPrev bytes
      ((s.setDj f { x with largestPrev := n }).setCf f 0x38 4 (max 1024 (2 * n))).guardRow f
    else s

end Sys2Proof.Machine
end

