-- ==== Sys2Proof/Machine/Msc.lean ====
section
/-! DEFINITION. The milestone scheduler's commands (R171 to R181): creation and dispatch of row jobs, completion of a
row, the service of machine checks with the retry rule (R115, R453), placement again, and overload. -/

namespace Sys2Proof.Machine

open Sys2Proof

/-! ### Creation (R170, R171, R174) -/

/-- The composition context that feeds encode context `e`. -/
def State.cmpFor (s : State) (e : Nat) : Option Nat :=
  (s.opens.find? (fun x => decide (x.2 = 5) && decide (s.cf x.1 0x08 2 = e))).map Prod.fst

/-- The jobs of row `row` of picture `pic` of encode context `e`, with its milestone. -/
def State.rowJobs (s : State) (e sess pic row deadline : Nat) : List Job :=
  if e = 0xFFFF ∨ (s.enc e).suspended then []
  else
    let l := s.cf e 0x14 1
    let skip := (s.markOf e pic).1
    let enc : Job := { op := .encode, ctx := e, sess := sess, pic := pic, row := row, band := s.bandOf e, deadline := deadline,
                       lastRow := decide (s.cf e 0x4E 2 ≤ row + 1) }
    match s.cmpFor e with
    | none => [{ enc with released := true, skip := skip }]
    | some c =>
      [{ op := .compose, ctx := c, sess := sess, pic := pic, row := row, band := s.bandOf e,
         deadline := deadline - s.asmNs - s.encCost e row l skip }, enc]

/-- The jobs of a row entered. Row 0 without composition is released at once, after its recon_fb has been allocated (R171). -/
def State.enterJobs (s : State) (l : List Job) : State :=
  l.foldl (fun s j =>
    let s := if j.op = .encode ∧ j.released ∧ j.row = 0 then s.takeRecon j.ctx j.pic else s
    s.createJob j) s

/-- The jobs of one tile row, once: its milestone is the earliest of its members', and a spread of more than 4 row
periods raises MSC_FAMILY_PHASE once per picture (R170). -/
def State.createTile (s : State) (d pic : Nat) (x : Nat × Nat) : State :=
  let e := s.cf x.1 0x04 2
  let m := (s.enc e).made
  if pic < m.1 ∨ (pic = m.1 ∧ x.2 < m.2) then s
  else
    let l := s.tileMilestones x.1 x.2 pic
    let lo := l.foldl min (l.headD 0)
    let hi := l.foldl max (l.headD 0)
    let fam := s.cf x.1 0x02 2
    let s := if (4 * s.rowPeriod d : Int) < hi - lo ∧ Tbl.find s.msc.phaseAt fam ≠ some pic then
        ({ s with msc := { s.msc with phaseAt := Tbl.put s.msc.phaseAt fam pic } }).event .mscFamilyPhase fam pic
      else s
    let s := s.setEnc e { s.enc e with made := (pic, x.2 + 1) }
    s.enterJobs (s.rowJobs e 0xFFFF pic x.2 lo.toNat)

/-- The time at which the jobs of a row fall due: its milestone less HORIZON row periods. -/
def State.rowDue (s : State) (d pic row : Nat) : Int :=
  s.milestone d row pic - Int.ofNat (max 1 (fld s.mscSched 24 4) * s.rowPeriod d)

/-- A display's rows are created: it is open and paced. -/
def State.creates (s : State) (d : Nat) : Bool := decide (Tbl.find s.opens d = some 1) && s.paced d

/-- Another display's next row is due, and its milestone is earlier than `m`: creation runs in milestone order (R174). -/
def State.earlierRow (s : State) (d : Nat) (m : Int) : Bool :=
  s.opens.any (fun e =>
    let x := s.raster e.1
    decide (e.1 ≠ d) && s.creates e.1 && decide (s.milestone e.1 x.nextRow x.nextPic < m) &&
    decide (s.rowDue e.1 x.nextPic x.nextRow ≤ Int.ofNat s.ns))

/-- ROW_JOB_CREATE, when the row is the display's next, module time has reached its milestone less HORIZON row periods, and no other display's
row comes before it. -/
def State.createRow (s0 : State) (d pic row : Nat) : State :=
  let s := if row = 0 then s0.applyLead d else s0
  let x := s.raster d
  let m := s.milestone d row pic
  if s.creates d && decide (x.nextPic = pic) && decide (x.nextRow = row) && decide (s.rowDue d pic row ≤ Int.ofNat s.ns) &&
      !s.earlierRow d m && s.running bMSC && !s.flt.safe then
    let last := decide (s.displayRows d ≤ row + 1)
    let kept := x.miles.filter (fun e => decide (pic ≤ e.1 / 4096 + 2))
    let s := s.setRaster d { x with nextRow := if last then 0 else row + 1, nextPic := if last then pic + 1 else pic,
                                    miles := Tbl.put kept (mileKey pic row) m }
    let e := s.cf d 0x38 2
    let s := if e ≠ 0xFFFF then s.enterJobs (s.rowJobs e d pic row m.toNat)
      else (s.tilesAt d row).foldl (fun s t => s.createTile d pic t) s
    s.releaseJobs
  else s0

/-- JOB_TABLE_ENTRY_FREED: the oldest waiting creation proceeds. -/
def State.entryFreed (s : State) : State :=
  match s.msc.waiting with
  | [] => s
  | j :: r =>
    match s.newJob j with
    | some t => ({ t with msc := { t.msc with waiting := r } }).releaseJobs
    | none => s

/-! ### Sources (R10, R160, R171, R172) -/

/-- SOURCE_ROW_ARRIVAL: the row's data of a decode context, a coded-as-is row of an encode context, or a row of any other
source has arrived, and the jobs that wait for it are released. -/
def State.sourceRow (s : State) (src row : Nat) : State :=
  match Tbl.find s.opens src with
  | some 4 => (s.createDecode src row nullHandle false 0).releaseJobs
  | some 3 =>
    match s.firstJob ((s.msc.jobs.map Prod.snd).filter (fun j => decide (j.op = .encode) && decide (j.ctx = src) &&
        decide (j.row = row) && !j.released)) with
    | some j => (if row = 0 then s.takeRecon src j.pic else s).putJob { j with released := true }
    | none => s
  | _ => s.releaseJobs

/-- SOURCE_REPEAT: at its deadline less its cost a composition row is released with missing sources from their previous
picture. -/
def State.repeatRow (s : State) (i : Nat) : State :=
  match Tbl.find s.msc.jobs i with
  | none => s
  | some j =>
    let e := s.cf j.ctx 0x08 2
    if j.op = .compose ∧ ¬ j.released ∧ j.deadline ≤ s.ns + s.cmpCost e j.row ∧ ¬ s.sourcesPresent j ∧
        ¬ s.msc.repeats.contains i then
      let ds := if j.sess ≠ 0xFFFF then [j.sess] else s.sessOf e
      let s := ds.foldl (fun s d => s.incCf d 0x90 4 1) s
      ({ s with msc := { s.msc with repeats := s.msc.repeats ++ [i] } }).releaseJobs
    else s

/-! ### Dispatch (R175) -/

/-- Dispatch is stopped for a suspended context, and for one all of whose displays are unpaced (R166, R167, R180). -/
def State.mayRun (s : State) (j : Job) : Bool :=
  let enc := fun (e : Nat) => !(s.enc e).suspended && ((s.sessOf e).isEmpty || (s.sessOf e).any (fun d => s.paced d))
  match j.op with
  | .encode => enc j.ctx
  | .compose => enc (s.cf j.ctx 0x08 2)
  | .decode => !(s.dec j.ctx).suspended
  | _ => true

/-- The lane may take work: in service, not draining or being loaded, no member halted, and its carriageway's microcode alike (R77, R117,
R121). -/
def State.laneTakes (s : State) (l : Nat) : Bool :=
  s.cwUp l && !(s.drainingCw l) &&
    (s.members l).all (fun m => decide ((s.lane m).mc = (s.lane l).mc) && decide ((s.lane m).ms ≠ .halted) && !(s.lane m).loading)

/-- A powered-down lane starts to wake (R20). -/
def State.wakeLane (s : State) (l : Nat) : State :=
  if (s.lane l).power = 0 then s.setLane l { s.lane l with power := 1, wakeAt := some (s.ns + 20 * us) } else s

/-- A job put into the queue of lane `l`, in a carriageway into its lead's (R76): at the end, or for a carriageway's retry ahead of the rows that
follow it. Its lane wakes, and prefetches its context (R87). -/
def State.enqueueJob (s : State) (l : Nat) (j : Job) : State :=
  let j := { j with placed := true }
  let q := s.leadFor l
  let m := s.memberFor q j.row
  let s := ((s.putJob j).wakeLane q).wakeLane m
  let x := s.lane q
  let s := s.setLane q { x with queue := if j.retry && decide (1 < x.cwSize) then j :: x.queue else x.queue ++ [j], idleAt := none, gate := false }
  (s.setLane m { s.lane m with idleAt := none, gate := false }).prefetchNext m

/-- LANE_DEPTH. -/
def State.laneDepth (s : State) : Nat := max 1 (fld s.mscSched 16 5)

/-- The flags of an encode job as its picture was decided; as row 0 is dispatched the picture is decided, its bucket drained, and its buffer
marked. Without a buffer the picture is skipped (R64, R125, R148, R155). A decode context is ACTIVE from its first dispatch (R90). -/
def State.flagJob (s : State) (j : Job) : State × Job :=
  if j.op ≠ .encode then ((if j.op = .decode ∧ s.cf j.ctx 0x01 1 = 1 then s.setCf j.ctx 0x01 1 2 else s), j)
  else
    let first := decide (j.row = 0) && decide ((s.enc j.ctx).drained ≠ some j.pic)
    let s := if first then
        let (t, ok) := ((s.picStart j.ctx j.pic).takeRecon j.ctx j.pic).markRecon j.ctx j.pic
        if ok then t
        else t.setEnc j.ctx { t.enc j.ctx with
          marks := (t.enc j.ctx).marks.map (fun m => if m.1 = j.pic then (m.1, true, m.2.2.1, m.2.2.2) else m) }
      else s
    let f := s.markOf j.ctx j.pic
    (s, { j with skip := j.skip || f.1, restart := f.2.1, idr := f.2.2 })

/-- The retry's lane (R453): a SPARE lane that fits, awake before sleeping; else an awake lane of the same role with room; else the original. A
carriageway job stays on its carriageway. -/
def State.retryLane (s : State) (j : Job) (l : Nat) : Option Nat :=
  let x := s.lane l
  if 1 < x.cwSize then (if s.cwUp l then some (s.leadFor l) else none)
  else
    let cost := fun m => if j.op = .encode then s.encCost j.ctx j.row m j.skip else s.decCost j.ctx m
    let can := fun m => decide ((s.lane m).queue.length < 16) && s.laneUp m && decide ((s.lane m).cwSize ≤ 1) && decide ((s.lane m).ms ≠ .halted) &&
      !(s.lane m).draining
    let spare := (List.range 64).filter (fun m => can m && decide ((s.lane m).role = 3) && decide (s.ns + cost m ≤ j.deadline))
    let same := (List.range 64).filter (fun m => can m && decide (m ≠ l) && decide ((s.lane m).role = x.role) && decide ((s.lane m).power = 2) &&
      decide (s.laneLoad m + s.ctxLoad j.ctx ≤ s.laneCap))
    match spare.find? (fun m => decide ((s.lane m).power = 2)) with
    | some m => some m
    | none => match spare.head? with
      | some m => some m
      | none => match same.head? with
        | some m => some m
        | none => if s.laneUp l then some l else none

/-- The lane to which a job goes: the one named in its context's record, or for a retry that of R453. -/
def State.laneOfJob (s : State) (j : Job) : Option Nat :=
  if j.retry && decide (j.fromLane < 64) then s.retryLane j j.fromLane else some (s.cf j.ctx 0x14 1)

/-- JOB_DISPATCH to a lane or lead. -/
def State.dispatchLane (s : State) (l : Nat) : State :=
  if !(s.running bMSC) || s.flt.safe || !(s.laneTakes l) || decide (s.laneDepth ≤ (s.lane (s.leadFor l)).queue.length) then s
  else
    let ok := fun (j : Job) => j.released && !j.placed && decide (j.op ≠ .compose) && decide (s.laneOfJob j = some l) && s.mayRun j && s.inStep j
    match s.firstJob ((s.msc.jobs.map Prod.snd).filter ok) with
    | none => s
    | some j =>
      let (s, j) := s.flagJob j
      s.enqueueJob l j

/-- A pipe is given a job, and wakes for it (R20). -/
def State.givePipe (s : State) (p : Nat) (j : Job) : State :=
  let x := s.pipe p
  let x := if x.power = 0 then { x with power := 1, wakeAt := some (s.ns + 15 * us) } else x
  (s.putJob { j with placed := true }).setPipe p { x with job := some { j with placed := true }, begun := false, idleAt := none }

/-- JOB_DISPATCH to the pipes. A row with no unit to compose takes no pipe time (R196). -/
def State.dispatchPipes (s : State) : State :=
  if !(s.running bMSC) || s.flt.safe then s
  else
    match s.firstJob ((s.msc.jobs.map Prod.snd).filter (fun j => j.released && !j.placed && decide (j.op = .compose) && s.mayRun j)) with
    | none => s
    | some j =>
      if s.cmpStarted j.ctx j.pic && (s.composedCols j).isEmpty then (s.writeSlot j).rowComposed 0 j (s.readsConcealed j)
      else match s.freePipe (if j.retry then j.fromLane - 65 else 8) with
        | none => s
        | some p => s.givePipe p j

def State.dispatch (s : State) (t : DispTarget) : State :=
  match t with
  | .lane l => s.dispatchLane l.val
  | .pipes => s.dispatchPipes

/-! ### Golden copies (R117, R118) -/

/-- GLB_MCVER and GLB_MCDIG: the lowest version of the lanes not mapped out (R117). -/
def State.showMc (s : State) : State :=
  let l := ((List.range 64).filter (fun l => !(s.lane l).mapped)).map (fun l => (s.lane l).mc)
  match leastBy (fun (m : McId) => m.ver.toNat) l with
  | some m => { s with glb := { s.glb with mcver := m.ver, mcdig := m.dig } }
  | none => s

/-- When every lane that is not mapped out runs the patch, copy 1 becomes the base (R118). -/
def State.promotePatch (s : State) : State :=
  match s.golden.patch with
  | some p =>
    if !s.golden.patching && (List.range 64).all (fun l => (s.lane l).mapped || decide ((s.lane l).mc = p)) then
      let g := { s.golden with base := p, image := s.golden.patchImage, svn := s.golden.patchSvn, patch := none, patchImage := [],
                               patchSvn := 0, at0 := s.golden.at1, at1 := s.golden.at0 }
      let s := { s with golden := g, sec := { s.sec with mcDigest := s.sec.mc2Digest, mc2Digest := [] } }
      (List.range 64).foldl (fun s l => s.setLane l { s.lane l with copy1 := false }) s
    else s
  | none => s

/-! ### Quarantine and retries (R74, R77, R115, R453, R455) -/

/-- A job returns to MSC with its flags and deadline. -/
def State.returnJob (s : State) (j : Job) : State := if (s.job j.idx).gen = j.gen then s.putJob { j with placed := false } else s

/-- The jobs of a lane's queue return to MSC with their flags and deadlines (R88, R115). -/
def State.unqueue (s : State) (l : Nat) : State :=
  let q := (s.lane l).queue
  let s := s.setLane l { s.lane l with queue := [] }
  q.foldl (fun s j => s.returnJob j) s

/-- A row in execution returns to MSC: nothing of it has become visible (R74). -/
def State.returnRun (s : State) (l : Nat) : State :=
  match (s.lane l).run with
  | some r =>
    let s := s.endRun l
    if r.visible then s else s.returnJob r.job
  | none => s

/-- A lasting fault maps the lane out, and its carriageway goes out of service with it: the jobs of their queue, and the rows in execution, return
to MSC. -/
def State.quarantine (s : State) (l : Nat) : State :=
  let x := s.lane l
  let fresh := !x.mapped
  let halted := decide (x.ms = .halted)
  let s := (s.members l).foldl (fun s m => (s.returnRun m).unqueue m) s
  let y := s.lane l
  let s := s.setLane l { y with quarantined := true, mapped := true, outcome := .lasting, failed := none, rebuild := false, check := false,
                                ms := if halted then .halted else .idle, frames := [], trapActive := 0, trapPending := 0 }
  let s := { s with glb := { s.glb with cntLanes := if fresh then s.glb.cntLanes + 1 else s.glb.cntLanes },
                    flt := { s.flt with capChanged := true } }
  (s.setHealth hLANE).promotePatch.showMc

/-- A failed job returns to MSC with RETRY set and its deadline unchanged, and is dispatched again, if its context is dispatched at all
(R166). -/
def State.retryJob (s : State) (j : Job) (l : Nat) : State :=
  let j := { j with retry := true, attempts := j.attempts + 1, fromLane := l, placed := false }
  match (if s.mayRun j then s.retryLane j l else none) with
  | some m => s.enqueueJob m j
  | none => s.putJob j

/-- A decode row concealed in place of its decoding (R156, R453). -/
def State.concealJob (s : State) (j : Job) (l : Nat) : State :=
  let r := j.ctx
  let s := (s.applyStaged r j.staged).incCf r 0xAC 4 1
  if j.noop || (s.dec r).skipping then (if j.lastRow then s.decPicDone r l else s)
  else
    let s := ((s.incCf r 0x88 8 1).setCf r 0x24 2 (j.row + 1)).decRowDone r l j.row (b2n (!(s.dec r).segBad)) 0 (List.range (s.decCols r)) []
    if j.lastRow || decide (s.cf r 0x26 2 ≤ j.row + 1) then s.decPicDone r l else s

/-- Both attempts failed: ROW_ABANDONED (R453). An encoded row is coded as skip on any working lane, and the next picture restarts the sweep. -/
def State.abandonRow (s : State) (j : Job) (l : Nat) : State :=
  let s := s.raise fRowAbandoned j.ctx j.row
  match j.op with
  | .encode => ((s.putJob { j with skip := true, retry := false, placed := false, attempts := 2, fromLane := 64 }).incCf j.ctx 0xAC 4 1).restartRefresh
      j.ctx
  | _ => ((s.concealJob j l).freeJob j).inputRowEnd j 0

/-- A halted lane goes on where its check left it. -/
def Lane.resumed (x : Lane) : Lane :=
  { x with ms := if x.run.isNone then .idle else if x.frames.isEmpty then .run else .trap }

/-- The lane released to its next queued job, with every member that its check halted, once no member's check waits. -/
def State.releaseLane (s : State) (l : Nat) : State :=
  let s := s.endRun l
  let s := s.setLane l { s.lane l with frames := [], trapActive := 0, trapPending := 0, check := false, ms := .halted }
  if (s.members l).any (fun m => (s.lane m).check) then s
  else (s.members l).foldl (fun s m => if (s.lane m).ms = .halted then s.setLane m (s.lane m).resumed else s) s

/-- The word of the golden copy that matches the lane's LMC_VERSION (R115, R121). -/
def State.goldenWord (s : State) (l : Nat) (nano : Bool) (addr : Nat) : Nat :=
  let img := if (s.lane l).copy1 then s.golden.patchImage else s.golden.image
  if nano then Config.mcNano img addr % 2 ^ 200 else Config.mcMicro img addr % 2 ^ 27

/-- Step 1 of R115: the golden word written to the store and read back. The result says whether its parity holds. -/
def State.reload (s : State) (l : Nat) (nano : Bool) (addr : Nat) (readback : Bool) : State × Bool :=
  let w := s.goldenWord l nano addr
  let x := s.lane l
  if nano then (s.setLane l { x with nano := Tbl.put x.nano addr w }, readback && decide (nanoSyndrome w = 0))
  else (s.setLane l { x with micro := Tbl.put x.micro addr w }, readback && decide (microSyndrome w = 0))

/-- The row job that a lane's check has failed. -/
def State.failedJob (s : State) (l : Nat) : Option Job :=
  match (s.lane l).run with
  | some r => if r.visible then none else some r.job
  | none => none

/-- The failed job after its lane's service: to be tried again, or abandoned with the first lane's fault lasting (R115, step 7). -/
def State.afterCheck (s : State) (l : Nat) (failed : Option Job) : State :=
  match failed with
  | none => s
  | some j =>
    if j.retry then
      let o := j.fromLane
      let s := if o < 64 ∧ ¬ (s.lane o).quarantined then (s.decideFault fLaneMchk o true).quarantine o else s
      s.abandonRow j l
    else s.retryJob j l

/-- SVP's service of a machine check, with a golden copy that reads (R115, steps 1 to 7). -/
def State.serveCheck (s : State) (l : Nat) (readback : Bool) : State :=
  let x := s.lane l
  let nano := tb x.mchk 29
  let addr := fld x.mchk 0 13
  let failed := s.failedJob l
  let (s, good) := s.reload l nano addr readback
  let s := if !good || x.record.contains (nano, addr) then (s.decideFault fLaneMchk l true).quarantine l
    else
      let s := s.setLane l { s.lane l with record := x.record ++ [(nano, addr)], outcome := .pending }
      s.releaseLane l
  s.afterCheck l failed

/-- MCHK_SERVICE. Checks are served one at a time. With an unreadable golden copy the lane stays halted until the copy is rebuilt (R116). -/
def State.mchkServe (s : State) (l : Nat) (golden readback : Bool) : State :=
  let x := s.lane l
  if decide (x.ms = .halted) && x.check && !(s.lanes.any (fun e => e.2.rebuild)) then
    if golden then s.serveCheck l readback else s.setLane l { x with rebuild := true }
  else s

/-! ### Completion (R74, R76, R115 step 6, R174) -/

/-- A retry has completed: the first failure was transient. -/
def State.retryDone (s : State) (j : Job) : State :=
  let o := j.fromLane
  if j.retry && decide (o < 64) then
    let x := s.lane o
    if x.outcome = .pending then
      (s.setLane o { x with outcome := .transient, mchkTransient := satAdd x.mchkTransient 1 0xFFFF }).decideFault fLaneMchk o false
    else s
  else s

/-- Rows of a carriageway complete in raster order (R76): the row above, or the picture before, has completed. -/
def State.rasterTurn (s : State) (l : Nat) (j : Job) : Bool :=
  let e := s.enc j.ctx
  let p := if e.cur.pic = j.pic then e.cur else e.prev
  decide ((s.lane l).cwSize ≤ 1) || decide (j.op ≠ .encode) ||
    (if j.row = 0 then decide (e.cur.pic ≠ j.pic) || !e.prev.open_ else (Tbl.get {} p.rows (j.row - 1)).done)

/-- The lane's row has ended: END_JOB may complete the job. -/
def State.runVisible (s : State) (l : Nat) : State :=
  s.setLane l { s.lane l with run := (s.lane l).run.map (fun r => { r with visible := true }), idleAt := none }

/-- A row's results have become visible, and MSC is told. -/
def State.rowTold (s : State) (l : Nat) (j : Job) : State :=
  ((((s.runVisible l).retryDone j).freeJob j).slotDone j.ctx j.pic j.row).releaseJobs

/-- A coded row finds no SLICE buffer (R17, R111): cause 1, once per stall. -/
def State.sliceTrap (s : State) (l : Nat) : State := if (s.lane l).stallAt.isSome then s else s.trapOp l 1

/-- ROW_COMPLETE: the row's results become visible together and MSC is told. A completion whose generation has passed is counted and discarded.
(DEDUCED, log 60.) -/
def State.rowCompleteOp (s : State) (l : Nat) (f : RowFacts) : State :=
  let x := s.lane l
  match x.run with
  | none => s
  | some r =>
    let j := r.job
    if r.visible || decide (x.ms = .halted) || decide (x.power ≠ 2) then s
    else if (s.job j.idx).gen ≠ j.gen ∨ (Tbl.find s.msc.jobs j.idx).isNone then (s.bump bMSC 7).runVisible l
    else if !s.rasterTurn l j then s
    else match j.op with
      | .encode =>
        match s.takeSlices l j.ctx (ceilDiv f.bits 8) with
        | (t, none) => t.sliceTrap l
        | (t, some hs) => ((t.stallEnds l).encodeDone l r f hs).rowTold l j
      | _ => ((s.decodeDone l r f).rowTold l j).inputRowEnd j r.bytes

/-! ### Placement again (R179) -/

/-- Contexts whose lane no longer serves them. -/
def State.displaced (s : State) : List Nat :=
  (s.opens.filter (fun e => (decide (e.2 = 3) || decide (e.2 = 4)) &&
    (let l := s.cf e.1 0x14 1
     decide (64 ≤ l) || !(s.cwUp l) || (s.lane l).draining || decide (s.laneCap * max 1 (s.lane l).cwSize < s.laneLoad l)))).map Prod.fst

/-- The remaining encode capacity, in Mpixel/s (R177, R182). -/
def State.encLimit (s : State) : Nat :=
  let n := ((List.range 64).filter (fun l => s.laneUp l && decide ((s.lane l).role ≠ 3))).length
  n * s.laneCap / 2 * 92 / 100 / 1000000

/-- A lane of the carriageway is mapped out: a SPARE lane may replace it (R34). -/
def State.lostLane (s : State) (l : Nat) : Bool :=
  decide (l < 64) && (s.members l).any (fun m => (s.lane m).mapped || (s.lane m).quarantined)

/-- MSC places the affected contexts again, and tells the host the new capacity. What fits nowhere goes to the suitable
lane with the least load, where R180 acts on it. -/
def State.replaceAll (s : State) : State :=
  let s := s.displaced.foldl (fun s r =>
    let old := s.cf r 0x14 1
    let s' := s.setCf r 0x14 1 0xFF
    let pick := match s'.choose r false false with
      | some l => some l
      | none => match (if s.lostLane old then s'.choose r true false else none) with
        | some l => some l
        | none => if old < 64 ∧ s.cwUp old then some old else s'.choose r false true
    let s := s'.setCf r 0x14 1 (pick.getD 0xFF)
    if pick = some old then s else
      match pick with
      | some l => s.wakeLane l
      | none => s) s
  s.event .mscCapacity noCtx s.encLimit

/-! ### Overload (R180) -/

/-- Late rows of the last 10 ms that count against resource `x`: a port, or the lead of the lane that coded them. -/
def State.lateOn (s : State) (x : Nat) : Nat :=
  (s.swc.lateRows.filter (fun e => decide (s.ns ≤ e.1 + 10 * ms) &&
    (if e.2.1 then decide (x = 128 + e.2.2) else decide (e.2.2 < 64) && decide (x = s.leadFor e.2.2)))).length

/-- The rate of what a session's port word names in kb/s: nine tenths of a port's line rate (R177), or the whole link to another module
(R26). -/
def State.lineKbps (s : State) (p : Nat) : Nat := s.rate p * 1000
def State.pathKbps (s : State) (p : Nat) : Nat :=
  if p < 0x8000 then s.lineKbps p * 9 / 10 else s.linkKbps ((p / 256 % 128 + 7 - s.plt.cascId) % 4)

/-- The demand of the sessions that cross a link, or use a port. -/
def State.pathDemand (s : State) (p : Nat) : Nat :=
  if p < 0x8000 then s.portDemand p
  else (s.opens.filter (fun e => decide (e.2 = 1) && decide (0x8000 ≤ s.cf e.1 0x04 2) && decide (s.cf e.1 0x04 2 / 256 = p / 256))).foldl
    (fun a e => a + s.cf e.1 0x14 4) 0

/-- The demand on a resource exceeds its capacity at the current column. -/
def State.overDemand (s : State) (x : Nat) : Bool :=
  if x < 64 then decide (s.laneCap * max 1 (s.lane x).cwSize < s.laneLoad x)
  else if x = 64 then decide (s.pipeRate * s.pipesUp < s.cmpDemand)
  else if x = 65 then decide (s.memRate < s.memDemand)
  else decide (s.pathKbps (x - 128) < s.pathDemand (x - 128))

def State.overloaded (s : State) (x : Nat) : Bool :=
  s.overDemand x || decide (max 1 (fld s.mscSched 0 8) < s.lateOn x)

/-- The encode contexts that use resource `x`, and the decode contexts on a lane. -/
def State.usersOf (s : State) (x : Nat) : List Nat :=
  (s.opens.filter (fun e => (decide (e.2 = 3) && (s.resOf e.1).contains x) ||
    (decide (e.2 = 4) && decide (x < 66) && (decide (x = 65) || decide (s.cf e.1 0x14 1 = x))))).map Prod.fst

def State.ctxSuspended (s : State) (r : Nat) : Bool :=
  if Tbl.find s.opens r = some 3 then (s.enc r).suspended else (s.dec r).suspended
def State.ctxOrd (s : State) (r : Nat) : Nat := if Tbl.find s.opens r = some 3 then (s.enc r).ord else (s.dec r).ord
/-- The suspension of a context, which its sessions' suspended_ms counts (R181): until none of their contexts is suspended and they are
paced again. -/
def State.setSuspended (s : State) (r : Nat) (b : Bool) : State :=
  if Tbl.find s.opens r = some 3 then
    let s := s.setEnc r { s.enc r with suspended := b }
    (s.sessOf r).foldl (fun s d =>
      if b then s.suspFrom d
      else if (s.encsOf d).any (fun e => (s.enc e).suspended) || !(s.paced d) then s.showSusp d
      else s.suspEnd d) s
  else s.setDec r { s.dec r with suspended := b }

def State.setOvl (s : State) (x : Nat) (o : OvlRes) : State := { s with msc := { s.msc with ovl := Tbl.put s.msc.ovl x o } }

/-- A suspended context resumes as after a suspension (R137). -/
def State.resume (s : State) (r : Nat) : State :=
  let s := s.setSuspended r false
  let s := if Tbl.find s.opens r = some 3 then ((s.setCfI r 0x60 4 0).setCfI r 0x6C 4 0).restartRefresh r else s
  s.event .mscResume r 0

/-- The measure for an overloaded resource. The detail holds the measure in [15:8] and its level in [7:0]. -/
def State.takeMeasure (s : State) (x : Nat) : State :=
  let o := s.ovlOf x
  let users := s.usersOf x
  let bg := users.filter (fun r => decide (s.bandOf r = 2) && !s.ctxSuspended r)
  match bg with
  | r :: rs =>
    let v := rs.foldl (fun b r => if s.ctxOrd b < s.ctxOrd r then r else b) r
    let s := (s.setSuspended v true).setOvl x { o with suspended := o.suspended ++ [v], clearAt := none }
    (s.event .mscSuspend v 0).event .mscOverload x (256 + (o.suspended.length + 1))
  | [] =>
    if users.any (fun r => decide (s.bandOf r = 1)) && decide (o.skip8 < 6) then
      (s.setOvl x { o with skip8 := o.skip8 + 1, clearAt := none }).event .mscOverload x (512 + (o.skip8 + 1))
    else
      let b := min 12 (o.bias + 2)
      let t := s.setOvl x { o with bias := b, clearAt := none }
      if b = o.bias then t else t.event .mscOverload x (768 + b)

/-- One measure undone, in reverse order. -/
def State.undoMeasure (s : State) (x : Nat) : State :=
  let o := s.ovlOf x
  if 0 < o.bias then (s.setOvl x { o with bias := o.bias - 1 }).event .mscOverload x (768 + (o.bias - 1))
  else if 0 < o.skip8 then (s.setOvl x { o with skip8 := o.skip8 - 1 }).event .mscOverload x (512 + (o.skip8 - 1))
  else match o.suspended with
    | r :: rest =>
      ((s.setOvl x { o with suspended := rest }).resume r).event .mscOverload x (256 + rest.length)
    | [] => s

/-- One resource evaluated. -/
def State.evalRes (s : State) (x : Nat) : State :=
  let o := s.ovlOf x
  if s.overloaded x then s.takeMeasure x
  else if decide (0 < o.bias) || decide (0 < o.skip8) || !o.suspended.isEmpty then
    match o.clearAt with
    | none => s.setOvl x { o with clearAt := some s.ns }
    | some t => if t + oneSec ≤ s.ns then s.undoMeasure x else s
  else s

/-- OVERLOAD_EVALUATE, every 10 ms. (DEDUCED, log 97.) -/
def State.evalOverload (s : State) : State :=
  if s.msc.ovlAt + 10 * ms ≤ s.ns ∧ s.running bMSC then
    let s := { s with msc := { s.msc with ovlAt := s.ns } }
    let lanes := (List.range 64).filter (fun l => !(s.ctxsOn l).isEmpty || (Tbl.find s.msc.ovl l).isSome)
    let ports := (s.opens.filter (fun e => decide (e.2 = 1))).map (fun e => 128 + s.cf e.1 0x04 2)
    let res := lanes ++ [64, 65] ++ (ports ++ (s.msc.ovl.map Prod.fst).filter (fun k => decide (128 ≤ k))).eraseDups
    let s := res.foldl (fun s x => s.evalRes x) s
    { s with swc := { s.swc with lateRows := s.swc.lateRows.filter (fun e => decide (s.ns < e.1 + 10 * ms)) } }
  else s

/-! ### Idle and waking domains (R20, R441) -/

/-- DOMAIN_READY for a lane or a pipe. A waking lane runs vector 0x00C0 (R108, R110). -/
def State.laneWoken (s : State) (l : Nat) : State :=
  match (s.lane l).wakeAt with
  | some t => if t ≤ s.ns then (s.setLane l { s.lane l with power := 2, wakeAt := none, idleAt := none }).initLane l else s
  | none => s

def State.pipeWoken (s : State) (p : Nat) : State :=
  match (s.pipe p).wakeAt with
  | some t => if t ≤ s.ns then s.setPipe p { s.pipe p with power := 2, wakeAt := none, idleAt := none } else s
  | none => s

end Sys2Proof.Machine
end

