-- ==== Sys2Proof/Machine/Levels.lean ====
section
/-! DEFINITION. Codec levels (R78, R205, R206): the lowest level that admits a picture size, sample rate and bitrate.
The limits are those of the codecs' own standards (PRESUMED: the manual names the levels and does not print their
limits); the grids are those of R205. -/

namespace Sys2Proof.Machine

open Sys2Proof

/-- An HEVC level: general_level_idc, luma samples of a picture, luma samples per second, Main and High tier kb/s, and the
largest grid. -/
structure HevcLevel where
  idc : Nat
  ps : Nat
  sr : Nat
  main : Nat
  high : Nat
  cols : Nat
  rows : Nat
  deriving DecidableEq, Repr

/-- The general limits of HEVC levels. (PRESUMED, log 65.) -/
def hevcLevels : List HevcLevel :=
  [⟨30, 36864, 552960, 128, 128, 1, 1⟩, ⟨60, 122880, 3686400, 1500, 1500, 1, 1⟩, ⟨63, 245760, 7372800, 3000, 3000, 1, 1⟩,
   ⟨90, 552960, 16588800, 6000, 6000, 2, 2⟩, ⟨93, 983040, 33177600, 10000, 10000, 3, 3⟩,
   ⟨120, 2228224, 66846720, 12000, 30000, 5, 5⟩, ⟨123, 2228224, 133693440, 20000, 50000, 5, 5⟩,
   ⟨150, 8912896, 267386880, 25000, 100000, 10, 11⟩, ⟨153, 8912896, 534773760, 40000, 160000, 10, 11⟩,
   ⟨156, 8912896, 1069547520, 60000, 240000, 10, 11⟩, ⟨180, 35651584, 1069547520, 60000, 240000, 20, 22⟩,
   ⟨183, 35651584, 2139095040, 120000, 480000, 20, 22⟩, ⟨186, 35651584, 4278190080, 240000, 800000, 20, 22⟩]

/-- The lowest HEVC level that admits a picture of w x h at num / den pictures per second, kbps and a grid. -/
def hevcLevel (w h num den kbps cols rows : Nat) : Option Nat :=
  (hevcLevels.find? (fun l => decide (w * h ≤ l.ps) && decide (w * w ≤ 8 * l.ps) && decide (h * h ≤ 8 * l.ps) &&
    decide (w * h * num ≤ l.sr * den) && decide (kbps ≤ l.high) && decide (cols ≤ l.cols) && decide (rows ≤ l.rows))).map
    HevcLevel.idc

/-- The bitrate asks for High tier at a level: Main tier is signalled before it (R78, R206). -/
def hevcHigh (idc kbps : Nat) : Bool := hevcLevels.any (fun l => decide (l.idc = idc) && decide (l.main < kbps))

/-- H.264 levels: level_idc, macroblocks per second, macroblocks of a picture, kb/s of Baseline and Main. -/
def avcLevels : List (Nat × Nat × Nat × Nat) :=
  [(10, 1485, 99, 64), (11, 3000, 396, 192), (12, 6000, 396, 384), (13, 11880, 396, 768), (20, 11880, 396, 2000),
   (21, 19800, 792, 4000), (22, 20250, 1620, 4000), (30, 40500, 1620, 10000), (31, 108000, 3600, 14000),
   (32, 216000, 5120, 20000), (40, 245760, 8192, 20000), (41, 245760, 8192, 50000), (42, 522240, 8704, 50000),
   (50, 589824, 22080, 135000), (51, 983040, 36864, 240000), (52, 2073600, 36864, 240000)]

/-- The lowest H.264 level for w x h at num / den and kbps, with the profile's factor (High: 1.25). -/
def avcLevel (w h num den kbps profile : Nat) : Option Nat :=
  let mw := ceilDiv w 16
  let mh := ceilDiv h 16
  (avcLevels.find? (fun l =>
    decide (mw * mh * num ≤ l.2.1 * den) && decide (mw * mh ≤ l.2.2.1) && decide (mw * mw ≤ 8 * l.2.2.1) &&
    decide (mh * mh ≤ 8 * l.2.2.1) && decide (4 * kbps ≤ (if profile = 100 then 5 else 4) * l.2.2.2))).map Prod.fst

/-! ### Display grids (R205, R206) -/

/-- The cells of a display's grid: tile and destination. -/
def State.gridOf (s : State) (d : Nat) : List (Nat × Dest) :=
  (s.shownTiles d).flatMap (fun t => ((s.dests t).filter (fun x => decide (x.sess = d))).map (fun x => (t, x)))

def gridCols (g : List (Nat × Dest)) : Nat := g.foldl (fun a x => max a (x.2.col + 1)) 0
def gridRows (g : List (Nat × Dest)) : Nat := g.foldl (fun a x => max a (x.2.row + 1)) 0

/-- The width of grid column `c` and the height of grid row `r`. -/
def State.colWidth (s : State) (g : List (Nat × Dest)) (c : Nat) : Nat :=
  match g.find? (fun x => decide (x.2.col = c)) with
  | some x => s.cf x.1 0x08 2
  | none => 0
def State.rowHeight (s : State) (g : List (Nat × Dest)) (r : Nat) : Nat :=
  match g.find? (fun x => decide (x.2.row = r)) with
  | some x => s.cf x.1 0x0A 2
  | none => 0

/-- The level of a display stream of grid `g` on session `d` (R206); none when no level admits it. -/
def State.gridLevel (s : State) (d : Nat) (g : List (Nat × Dest)) : Option Nat :=
  let kbps := g.foldl (fun a x => a + s.tileTarget x.1) 0
  let num := s.cf d 0x10 2
  let den := max 1 (s.cf d 0x12 2)
  if tb (s.cf d 0x02 2) 2 then
    let prof := match g with
      | x :: _ => s.cf (s.cf x.1 0x04 2) 0x08 1
      | [] => 100
    avcLevel (s.cf d 0x08 2) (s.cf d 0x0A 2) num den kbps prof
  else
    let w := (List.range (gridCols g)).foldl (fun a c => a + s.colWidth g c) 0
    let h := (List.range (gridRows g)).foldl (fun a r => a + s.rowHeight g r) 0
    hevcLevel w h num den kbps (gridCols g) (gridRows g)

end Sys2Proof.Machine
end

