-- ==== Sys2Proof/Machine/Rewrite.lean ====
section
/-! DEFINITION. What ASM writes for each display (R207, R209 to R212, R217): its parameter sets, its slice segment headers, and the
decoding-order numbers of its segments. -/

namespace Sys2Proof.Machine

open Sys2Proof

/-! ### The grid of a display (R205, R209) -/

/-- Widths of the columns and heights of the rows of the picture that a display shows: of its grid, or of its one encode context. -/
def State.shownCols (s : State) (d : Nat) : List Nat :=
  if s.cf d 0x38 2 = 0xFFFF then (List.range (gridCols (s.gridOf d))).map (fun c => s.colWidth (s.gridOf d) c) else [s.cf d 0x08 2]
def State.shownRows (s : State) (d : Nat) : List Nat :=
  if s.cf d 0x38 2 = 0xFFFF then (List.range (gridRows (s.gridOf d))).map (fun r => s.rowHeight (s.gridOf d) r) else [s.cf d 0x0A 2]

/-- Tile columns of an HEVC display stream. -/
def State.streamCols (s : State) (d : Nat) : Nat := if tb (s.cf d 0x02 2) 2 then 1 else max 1 (s.shownCols d).length

/-- The encode context from which a display's parameter sets are taken: its own, or one of the group's lead family (R209). -/
def State.setsFrom (s : State) (d : Nat) : Nat :=
  if s.cf d 0x38 2 ≠ 0xFFFF then s.cf d 0x38 2
  else match s.shownTiles d with
    | t :: _ => (s.familyEncs (s.cf (s.cf t 0x02 2) 0x04 2)).headD (s.cf t 0x04 2)
    | [] => 0xFFFF

/-- The level of a display stream (R206), and whether it is signalled in High tier. -/
def State.streamLevel (s : State) (d e : Nat) : Nat :=
  if s.cf d 0x38 2 ≠ 0xFFFF then s.cf e 0x09 1 else (s.gridLevel d (s.gridOf d)).getD 0
def State.streamHigh (s : State) (d e : Nat) : Bool :=
  if s.cf d 0x38 2 ≠ 0xFFFF then (s.enc e).high
  else !s.isAvc e && hevcHigh (s.streamLevel d e) ((s.gridOf d).foldl (fun a x => a + s.tileTarget x.1) 0)

/-! ### Parameter sets (R209, R212) -/

/-- Values written over those of a parameter set, or beside them. -/
def overwrite (l new : List (String × Int)) : List (String × Int) :=
  l.filter (fun x => !(new.any (fun y => decide (y.1 = x.1)))) ++ new

/-- Elements of an array, by name. -/
def indexed (name : String) (l : List Nat) : List (String × Int) :=
  ((List.range l.length).zip l).map (fun x => (name ++ "[" ++ toString x.1 ++ "]", Int.ofNat x.2))

/-- A size in whole units. -/
def wholeUnits (n u : Nat) : Nat := ceilDiv n u * u

def State.displaySps (s : State) (d e : Nat) : List (String × Int) :=
  let w := s.cf d 0x08 2
  let h := s.cf d 0x0A 2
  let num (n : Nat) : Int := Int.ofNat n
  if s.isAvc e then
    overwrite (s.spsValues e) [("seq_parameter_set_id", 0), ("pic_height_in_map_units_minus1", num (ceilDiv h 16) - 1),
      ("frame_cropping_flag", num (b2n (decide (h % 16 ≠ 0) || decide (w % 16 ≠ 0)))),
      ("frame_crop_right_offset", num ((wholeUnits w 16 - w) / 2)), ("frame_crop_bottom_offset", num ((wholeUnits h 16 - h) / 2)),
      ("level_idc", num (s.streamLevel d e))]
  else
    let cw := ((s.shownCols d).map (fun x => wholeUnits x 32)).foldl (· + ·) 0
    let ch := ((s.shownRows d).map (fun x => wholeUnits x 32)).foldl (· + ·) 0
    overwrite (s.spsValues e) [("sps_video_parameter_set_id", 0), ("sps_seq_parameter_set_id", 0),
      ("pic_width_in_luma_samples", num cw), ("pic_height_in_luma_samples", num ch),
      ("conformance_window_flag", num (b2n (decide (cw ≠ w) || decide (ch ≠ h)))), ("conf_win_left_offset", 0),
      ("conf_win_right_offset", num ((cw - w) / 2)), ("conf_win_top_offset", 0), ("conf_win_bottom_offset", num ((ch - h) / 2)),
      ("general_level_idc", num (s.streamLevel d e)), ("general_tier_flag", num (b2n (s.streamHigh d e)))]

def State.displayPps (s : State) (d e : Nat) : List (String × Int) :=
  if s.isAvc e then s.ppsValues e
  else
    let cols := s.shownCols d
    let rows := s.shownRows d
    let num (n : Nat) : Int := Int.ofNat n
    overwrite (s.ppsValues e) ([("pps_pic_parameter_set_id", 0), ("pps_seq_parameter_set_id", 0),
      ("tiles_enabled_flag", num (b2n (decide (1 < cols.length * rows.length)))),
      ("num_tile_columns_minus1", num cols.length - 1), ("num_tile_rows_minus1", num rows.length - 1), ("uniform_spacing_flag", 0),
      ("loop_filter_across_tiles_enabled_flag", 0), ("pps_loop_filter_across_slices_enabled_flag", 0), ("init_qp_minus26", 0)] ++
      indexed "column_width_minus1" (cols.map (fun x => ceilDiv x 32 - 1)) ++
      indexed "row_height_minus1" (rows.map (fun x => ceilDiv x 32 - 1)))

/-- A NAL unit ahead of a picture, as display `d` gets it: the sets of the group lead, rewritten. -/
def State.displayHead (s : State) (d : Nat) (k : HeadKind) : HeadKind :=
  let e := s.setsFrom d
  match k with
  | .vps _ => .vps (overwrite (s.vpsValues e) [("vps_video_parameter_set_id", 0), ("general_level_idc", Int.ofNat (s.streamLevel d e)),
      ("general_tier_flag", Int.ofNat (b2n (s.streamHigh d e)))])
  | .sps _ => .sps (s.displaySps d e)
  | .pps _ => .pps (s.displayPps d e)
  | .recovery n x b g => .recovery n x b g

/-! ### Slice segment headers (R210, R211) -/

/-- PicWidthInCtbsY of a display, and the bits of its slice_segment_address: Ceil(Log2(PicSizeInCtbsY)). -/
def State.widthCtbs (s : State) (d : Nat) : Nat := ((s.shownCols d).map (fun x => ceilDiv x 32)).foldl (· + ·) 0
def State.addrBits (s : State) (d : Nat) : Nat :=
  let n := s.widthCtbs d * ((s.shownRows d).map (fun x => ceilDiv x 32)).foldl (· + ·) 0
  if n ≤ 1 then 0 else Nat.log2 (n - 1) + 1

/-- The place of row `row` of the tile at column `col` and row `r` of the grid in decoding order, which is tile-scan order (R207). -/
def State.donOf (s : State) (d col r row : Nat) : Nat :=
  let units := fun (x : Nat × Dest) => ceilDiv (s.cf x.1 0x0A 2) 32
  ((s.gridOf d).filter (fun x => decide (x.2.row < r) || (decide (x.2.row = r) && decide (x.2.col < col)))).foldl (fun a x => a + units x) row

/-- The length of a signed Exp-Golomb code. -/
def seBits (v : Int) : Nat := 2 * Nat.log2 ((if 0 < v then 2 * v.natAbs - 1 else 2 * v.natAbs) + 1) + 1

/-- Bytes of a slice segment header: the first-segment flag, the PPS identifier, beyond the first segment the dependent flag and the address,
`rest` bits of an independent segment, num_entry_point_offsets where tiles or synchronisation give it one, and byte_alignment(). -/
def segHdrBytes (first : Bool) (bits rest : Nat) (entry : Bool) : Nat :=
  ceilDiv (2 + (if first then 0 else 1 + bits) + rest + b2n entry + 1) 8

/-- Bytes of a rewritten header; `k` numbers the copied fields of an independent segment. -/
def State.segBytes (s : State) (d e k : Nat) (h : SegHdr) : Nat :=
  let entry := decide (1 < (s.shownCols d).length * (s.shownRows d).length) || s.entropySync e
  segHdrBytes h.first h.addressBits (match h.qpDelta with
    | some q => Config.sliceOther k + seBits q
    | none => 0) entry + (if h.dependent then 0 else Config.sliceEmulation k h.address)

/-- Bytes of the header of a dependent segment as the lane coded it: its own picture's address, tiles in TILE mode. -/
def State.laneHdrBytes (s : State) (e : Nat) : Nat :=
  let own := s.colsOf e * s.cf e 0x4E 2
  segHdrBytes false (if own ≤ 1 then 0 else Nat.log2 (own - 1) + 1) 0 (decide (s.encMode e = 1) || s.entropySync e)

end Sys2Proof.Machine
end

