-- ==== Sys2Proof/Machine/Asm.lean ====
section
/-! DEFINITION. Stream assembly (R201 to R229): packets, heads and shared bodies, the transmission order of each
display, the retransmit cache, and the input flows. Coded payload is not modelled; lengths, cells, references,
RTP headers and extensions are. -/

namespace Sys2Proof.Machine

open Sys2Proof

def State.net (s : State) (d : Nat) : Net := Tbl.get {} s.asm.nets d

/-- ASM_RTX_CFG (R228): MAX_RTX. -/
def State.maxRtx (s : State) : Nat := max 1 (fld (Tbl.get (w32 (40 * 2 ^ 16 + 3)) s.regs 0xF00040).toNat 0 3)
def State.extId (s : State) : Nat := fld (Tbl.get 1 s.regs 0xF00048).toNat 0 4

/-! ### Destinations of a coded row (R170, R208, R214) -/

/-- The sessions that a coded row goes to, in dest_table order: session, display row, place in the row, column, and the
session's tile. -/
structure Target where
  sess : Nat
  tile : Nat
  row : Nat
  place : Nat
  col : Nat
  x0 : Nat
  gridRow : Nat
  deriving DecidableEq, Repr

def State.targets (s : State) (e row : Nat) : List Target :=
  let t := s.cf e 0x0E 2
  if t = 0xFFFF then
    (s.opens.filter (fun x => decide (x.2 = 1) && decide (s.cf x.1 0x38 2 = e) && s.media x.1)).map (fun x =>
      { sess := x.1, tile := 0xFFFF, row := row, place := 0, col := 0, x0 := 0, gridRow := 0 })
  else
    ((s.dests t).filter (fun x => s.paced x.sess)).map (fun x =>
      let r := x.y0 + row
      { sess := x.sess, tile := t, row := r,
        place := ((s.rowTiles x.sess r).filter (fun y => decide (y.2.col < x.col))).length, col := x.col,
        x0 := x.x0, gridRow := x.row })

/-! ### Packets (R210, R217, R218) -/

/-- The header of row `row` of context `e` for one of its displays (R210, R217). -/
def State.segHdr (s : State) (t : Target) (row pic : Nat) (h : SliceHdr) : SegHdr :=
  let addr := t.row * s.widthCtbs t.sess + t.x0
  { first := decide (addr = 0), dependent := h.dependent, address := addr, addressBits := s.addrBits t.sess,
    qpDelta := if h.dependent then none else some (h.qp - 26),
    donl := if 1 < s.streamCols t.sess then some ((Config.donBase t.sess pic + s.donOf t.sess t.col t.gridRow row) % 2 ^ 16) else none }

/-- Bytes of IP and UDP headers. -/
def ipUdp (v6 : Bool) : Nat := (if v6 then 40 else 20) + 8

/-- The sizes of the fragments of `n` payload bytes at `cap` bytes each. -/
def fragments (n cap : Nat) : Nat → List Nat
  | 0 => []
  | fuel + 1 => if n ≤ cap then [n] else cap :: fragments (n - cap) cap fuel

/-- A packet's parts before its destinations are known: body bytes, and head bytes beyond the common ones; the first packet of a segment also
has the destination's DONL and segment header. -/
structure Frag where
  body : Nat
  extra : Nat
  first : Bool := false
  deriving DecidableEq, Repr

/-- The packets of a segment of `data` bytes of slice data: `hdr` bytes of NAL unit header and at most `lead` of DONL and segment header, in at
most `cap` bytes of RTP payload. A NAL unit that fits is one packet; a larger one is fragments, each with the 3 (HEVC) or 2
(H.264) bytes of its payload and FU headers. DONL goes with the first. -/
def packetise (data hdr lead cap : Nat) : List Frag :=
  if hdr + lead + data ≤ cap then [{ body := data, extra := hdr, first := true }]
  else
    let room := cap - (hdr + 1)
    match fragments (lead + data) room (lead + data + 1) with
    | [] => []
    | f :: r => { body := f - lead, extra := hdr + 1, first := true } :: r.map (fun n => { body := n, extra := hdr + 1 })

/-- A body chain for `n` bytes and `d` destinations, with count d + 1; none when the pool has not the cells. -/
def State.newBody (s : State) (u n d : Nat) : Option (State × Option Nat) :=
  if n = 0 then some (s, none)
  else
    let k := ceilDiv n 128
    let (t, cells) := s.allocMany (aAsm u) 0 (d + 1) false k
    if cells.length = k then
      let b : BodyRef := { cells := cells, holds := d }
      some ({ t with asm := { t.asm with bodies := Tbl.put t.asm.bodies t.asm.nextBody b, nextBody := t.asm.nextBody + 1 } },
        some t.asm.nextBody)
    else none

/-- Bodies of every packet of a segment, for `d` destinations. -/
def State.newBodies (s : State) (u d : Nat) : List Frag → Option (State × List (Option Nat))
  | [] => some (s, [])
  | f :: r =>
    match s.newBody u f.body d with
    | none => none
    | some (t, b) =>
      match State.newBodies t u d r with
      | none => none
      | some (t, l) => some (t, b :: l)

/-- Some byte of `n` from `off` on in the SLICE buffers of a row is poisoned. -/
def State.slicePoison (s : State) : List W32 → Nat → Nat → Bool
  | [], _, _ => false
  | h :: r, off, n =>
    (decide (off < 4096) && decide (0 < n) && s.poisoned (s.bufAt h + off) (min n (4096 - off))) ||
    State.slicePoison s r (off - 4096) (n - (4096 - off))

/-- The packets whose bytes ASM reads poisoned, which it discards (R365): the packets carry `bytes` bytes in their order, from
`off` on, `lead` of them the lane's headers. -/
def State.badFrags (s : State) (slices : List W32) (off bytes lead : Nat) : List Frag → List Bool
  | [] => []
  | [_] => [s.slicePoison slices off (bytes - off)]
  | f :: r =>
    let n := f.body + (if f.first then lead else 0)
    s.slicePoison slices off n :: State.badFrags s slices (off + n) bytes lead r

/-- The packets that a session takes: heads with the Ethernet header and, in the first, `own` bytes of DONL and segment header; and the frames'
lengths. -/
def State.sessPkts (s : State) (d own : Nat) (nal : Nat → PktNal) (fs : List Frag) (bs : List (Option Nat)) (bad : List Bool) : List PktD :=
  let n := s.net d
  let eth := 14 + (if n.vlan.isSome then 4 else 0)
  ((List.range fs.length).zip (fs.zip (bs.zip bad))).map (fun x =>
    let f := x.2.1
    let head := eth + ipUdp n.ipv6 + 24 + f.extra + (if f.first then own else 0)
    { body := x.2.2.1, head := head, len := max 64 (head + f.body + 4), lost := x.2.2.2, nal := nal x.1,
      payload := head + f.body - eth - ipUdp n.ipv6 - 24 })

/-- The parameter sets and the recovery point SEI ahead of a display picture (R209, R211): each its own packet, built for the display
alone. -/
def State.headPkts (s : State) (d donl : Nat) (l : List HeadNal) : List PktD :=
  let x := s.net d
  let fix := 14 + (if x.vlan.isSome then 4 else 0) + ipUdp x.ipv6 + 24 + donl
  l.map (fun h =>
    let head := fix + h.len
    { body := none, head := head, len := max 64 (head + 4), nal := .head (s.displayHead d h.kind), payload := h.len + donl })

/-- A segment placed among those that wait for a session's turn. -/
def State.addSeg (s : State) (d : Nat) (g : Seg) : State :=
  { s with asm := { s.asm with segs := Tbl.put s.asm.segs d (Tbl.get [] s.asm.segs d ++ [g]) } }

/-! ### Passing packets on (R208, R215, R216, R218, R275) -/

/-- RTP header and extension of a packet (R215, R216). -/
def State.rtpBytes (s : State) (d seq pic row col : Nat) (rowEnd picEnd : Bool) : Bytes :=
  let n := s.net d
  let num := s.cf d 0x10 2
  let ts := (n.tsBase.toNat + (if num = 0 then 0 else pic * 90000 * s.cf d 0x12 2 / num)) % 2 ^ 32
  beBytes 1 0x90 ++ beBytes 1 (b2n picEnd * 128 + n.pt % 128) ++ beBytes 2 seq ++ beBytes 4 ts ++ beBytes 4 n.ssrc.toNat ++
  beBytes 2 0xBEDE ++ beBytes 2 2 ++ beBytes 1 (s.extId * 16 + 6) ++ beBytes 4 pic ++
  beBytes 2 (row % 4096 * 16 + b2n rowEnd * 2 + b2n picEnd) ++ beBytes 1 (col % 32 * 8)

/-- A destination's share of a packet that is not sent: its reference on the body, and its hold. -/
def State.dropShare (s : State) (u : Nat) (p : PktD) : State :=
  match p.body with
  | none => s
  | some b =>
    let x := Tbl.get {} s.asm.bodies b
    let s := x.cells.foldl (fun s c => s.decRef (aAsm u) c) s
    if x.holds ≤ 1 then
      x.cells.foldl (fun s c => s.decRef (aAsm u) c) { s with asm := { s.asm with bodies := Tbl.del s.asm.bodies b } }
    else { s with asm := { s.asm with bodies := Tbl.put s.asm.bodies b { x with holds := x.holds - 1 } } }

/-- A packet that ASM discards takes its sequence number (R365: the endpoint reports it lost). (DEDUCED, log 101.) -/
def State.losePkt (s : State) (d u : Nat) (p : PktD) : State :=
  let s := s.dropShare u p
  { s with asm := { s.asm with seqs := Tbl.put s.asm.seqs d ((Tbl.get 0 s.asm.seqs d + 1) % 2 ^ 16) } }

/-- One packet passed to the switch: its head taken, its copy written, its hold kept. -/
def State.passPkt (s : State) (d u : Nat) (g : Seg) (p : PktD) (rowEnd picEnd : Bool) : Option State :=
  if p.lost then some (s.losePkt d u p) else
  let dest := s.destOf d
  let body := match p.body with
    | some b => (Tbl.get {} s.asm.bodies b).cells
    | none => []
  let k := max 1 (ceilDiv p.head 128)
  if !(s.hasCredit u (s.groupOf dest) 6 (k + body.length)) then none
  else
    let (t, cells) := s.allocMany (aAsm u) 0 2 false k
    if cells.length ≠ k then none
    else
      let seq := Tbl.get 0 t.asm.seqs d
      let c : Copy := {
        kind := .rtp, dest := dest, cls := 6, queue := (Tbl.find t.sessQ d).getD (t.queueFor dest 6), head := cells, body := body, len := p.len,
        milestone := g.milestone, nal := p.nal, fromAsm := true, unit := some u, sess := some d, rtpSeq := seq, pic := g.pic, row := g.row,
        rowEnd := rowEnd, lane := g.lane, made := t.ns, data := t.rtpBytes d seq g.pic g.row g.col rowEnd picEnd }
      let first := match p.body with
        | some b => !(t.asm.cache.any (fun e => decide (e.2.body = some b)))
        | none => false
      let t := (t.takeCredit u (s.groupOf dest) 6 c.n).writeCells p.len cells body first
      let (t, _) := t.newCopy c
      let t := { t with asm := { t.asm with seqs := Tbl.put t.asm.seqs d ((seq + 1) % 2 ^ 16) } }
      let t := t.setHeld (heldKey d seq) { copy := c, body := p.body }
      let t := (t.bump bASM 0).bumpU bASM 0 1 p.len
      some (if g.tile = 0xFFFF then t else t.incCf g.tile 0x20 8 p.payload)

/-- A packet that stays for want of cells, not of credits, was answered with the null handle (R347). -/
def State.pktStays (s : State) (d u : Nat) (p : PktD) : State :=
  let body := match p.body with
    | some b => (Tbl.get {} s.asm.bodies b).cells.length
    | none => 0
  if s.hasCredit u (s.groupOf (s.destOf d)) 6 (max 1 (ceilDiv p.head 128) + body) then s.nullReturn else s

/-- The packets of a segment in order; those that lack credits or cells stay. -/
def State.passPkts (s : State) (d u : Nat) (g : Seg) (rowEnd picEnd : Bool) : List PktD → State × List PktD
  | [] => (s, [])
  | p :: r =>
    let last := r.isEmpty
    match s.passPkt d u g p (rowEnd && last) (picEnd && last) with
    | some t => State.passPkts t d u g rowEnd picEnd r
    | none => (s.pktStays d u p, p :: r)

/-- A session's waiting segments passed on in transmission order (R208), as far as credits allow. -/
def State.flushSess (s : State) (d : Nat) : Nat → State
  | 0 => s
  | fuel + 1 =>
    let segs := Tbl.get [] s.asm.segs d
    let n := Tbl.get (0, 0, 0) s.asm.next d
    match segs.find? (fun g => decide (g.pic = n.1) && decide (g.row = n.2.1) && decide (g.place = n.2.2)) with
    | none => s
    | some g =>
      let after := s.nextPlace d n
      let rowEnd := decide (after.2.1 ≠ n.2.1) || decide (after.1 ≠ n.1)
      let u := Config.asmUnit g.enc % 4
      let (t, left) := s.passPkts d u g rowEnd (decide (after.1 ≠ n.1)) g.pkts
      let rest := segs.filter (fun x => decide (x ≠ g))
      if left.isEmpty then
        let t := { t with asm := { t.asm with segs := Tbl.put t.asm.segs d rest, next := Tbl.put t.asm.next d after } }
        let t := if g.tile = 0xFFFF then t else t.incCf g.tile 0x18 8 1
        State.flushSess t d fuel
      else
        { t with asm := { t.asm with segs := Tbl.put t.asm.segs d ({ g with pkts := left } :: rest) } }

/-- A display of one encode context that waits for a picture which never comes takes its stream up at the picture whose row 0 arrives. -/
def State.takeUp (s : State) (e pic row d : Nat) : State :=
  match Tbl.find s.asm.next d with
  | some (p, r, q) =>
    if s.cf d 0x38 2 = e ∧ row = 0 ∧ r = 0 ∧ q = 0 ∧ p < pic ∧ (Tbl.get [] s.asm.segs d).isEmpty then
      { s with asm := { s.asm with next := Tbl.put s.asm.next d (pic, 0, 0) } }
    else s
  | none => s

/-- The row that ASM takes: its packets built, its bodies shared, its segments placed, and its SLICE buffers freed. A row for
which the CELL pool has no room stays (R276). -/
def State.takeRow (s : State) (e : Nat) (r : CodedRow) : Option State :=
  let u := Config.asmUnit e % 4
  let avc := s.isAvc e
  let s := (s.targets e r.row).foldl (fun s t => s.takeUp e r.pic r.row t.sess) s
  let ts := (s.targets e r.row).filter (fun t =>
    let n := Tbl.find s.asm.next t.sess
    match n with
    | some (p, _, _) => decide (p ≤ r.pic)
    | none => false)
  let mtu := ts.foldl (fun a t => min a (s.mtuOf (s.cf t.sess 0x04 2))) 9000
  let v6 := ts.any (fun t => (s.net t.sess).ipv6)
  let cap := mtu - ipUdp v6 - 24
  -- what heads the segment for each display: DONL, and the header as it is rewritten; H.264 slices stay as they are
  let k := s.free
  let donl := fun (t : Target) => if !avc && decide (1 < s.streamCols t.sess) then 2 else 0
  let hdr := fun (t : Target) => s.segHdr t r.row r.pic r.hdr
  let own := fun (t : Target) => if avc then 0 else donl t + s.segBytes t.sess e k (hdr t)
  let lane := if avc then 0 else if r.row = 0 then Config.sliceHdr k else s.laneHdrBytes e
  let nal := if avc then 1 else 2
  let most := ts.foldl (fun a t => max a (own t)) 0
  let fs := packetise (r.bytes - nal - lane) nal most cap
  let carries := fun (t : Target) (i : Nat) => if avc then PktNal.slice r.hdr i else PktNal.segment (hdr t) i
  let s := if !avc && decide (r.row = 0) then s.draw else s
  let bad := s.badFrags r.slices 0 r.bytes (nal + lane) fs
  let group := fun (s : State) (l : List Target) =>
    match s.newBodies u l.length fs with
    | none => none
    | some (t, bs) =>
      some (l.foldl (fun t x =>
        let m := (t.mileOf x.sess x.row r.pic).toNat
        let first := if x.row = 0 ∧ x.place = 0 then t.headPkts x.sess (donl x) r.heads else []
        let g : Seg := { enc := e, tile := x.tile, pic := r.pic, row := x.row, place := x.place, col := x.col,
                         pkts := first ++ t.sessPkts x.sess (own x) (carries x) fs bs bad, at_ := r.at_, lane := r.lane, milestone := m }
        t.addSeg x.sess g) t)
  let a := ts.take 1022
  let b := ts.drop 1022
  let built := if a.isEmpty then some s else
    match group s a with
    | none => none
    | some t => if b.isEmpty then some t else group t b
  match built with
  | none => none
  | some t =>
    let t := r.slices.foldl (fun t h => (t.xferRef (aLane r.lane) h (aAsm u)).freeRef (aAsm u) h) t
    some ({ t with asm := { t.asm with rows := Tbl.put t.asm.rows e ((Tbl.get [] t.asm.rows e).drop 1) } })

/-- ASM_ENQUEUE: the context's oldest coded row is taken, and the packets of the displays that it serves go to the switch in
their order. -/
def State.asmEnqueueOp (s : State) (e : Nat) : State :=
  if !(s.running bASM) || s.flt.safe then s
  else
    let s := match Tbl.get [] s.asm.rows e with
      | [] => s
      | r :: _ => (s.takeRow e r).getD s.nullReturn
    s.asm.segs.foldl (fun s x => s.flushSess x.1 (Tbl.get [] s.asm.segs x.1).length) s

/-! ### Holds (R219 to R223, R256) -/

/-- A head hold released: its head cells, and the body's when it was the last of the body's holds. -/
def State.releaseHold (s : State) (k : Nat) : State :=
  match Tbl.find s.asm.cache k with
  | none => s
  | some h =>
    let s := { s with asm := { s.asm with cache := Tbl.del s.asm.cache k } }
    let a := aAsm ((h.copy.unit).getD 0)
    let s := h.copy.head.foldl (fun s c => s.decRef a c) s
    match h.body with
    | none => s
    | some b =>
      let x := Tbl.get {} s.asm.bodies b
      if x.holds ≤ 1 then
        x.cells.foldl (fun s c => s.decRef a c) { s with asm := { s.asm with bodies := Tbl.del s.asm.bodies b } }
      else { s with asm := { s.asm with bodies := Tbl.put s.asm.bodies b { x with holds := x.holds - 1 } } }

/-- HOLD_EXPIRE. -/
def State.holdExpire (s : State) (d seq : Nat) : State :=
  match Tbl.find s.asm.cache (heldKey d seq) with
  | some h =>
    match h.expiry with
    | some t => if t ≤ s.ns then (s.releaseHold (heldKey d seq)).bump bASM 5 else s
    | none => s
  | none => s

/-- Every hold of a session released (R246). -/
def State.releaseHolds (s : State) (d : Nat) : State :=
  (s.asm.cache.filter (fun e => decide (e.1 / 2 ^ 16 = d))).foldl (fun s e => s.releaseHold e.1) s

/-- Waiting segments of a session dropped, with its share of their bodies. -/
def State.dropSegs (s : State) (d : Nat) : State :=
  let l := Tbl.get [] s.asm.segs d
  let s := { s with asm := { s.asm with segs := Tbl.del s.asm.segs d } }
  l.foldl (fun s g => g.pkts.foldl (fun s p => s.dropShare (Config.asmUnit g.enc % 4) p) s) s

/-- Early release (R223): oldest first by first transmission, until the CELL pool's free count is above WARN. -/
def State.earlyRelease (s : State) : Nat → State
  | 0 => s
  | fuel + 1 =>
    if (s.pool 0).cfg.warn < (s.pool 0).free then s
    else
      match leastBy (fun k => (Tbl.get {} s.asm.cache k).firstTx) ((s.asm.cache.filter (fun e => decide (e.2.st = .sent))).map Prod.fst) with
      | none => s
      | some k => State.earlyRelease ((s.releaseHold k).bump bASM 4) fuel

/-- The pressure on the retransmit cache, evaluated at the end of a command: an episode begins at BACKPRESSURE, and
its source de-asserts when the pool is above WARN again. -/
def State.rtxPressure (s : State) : State :=
  let hi := decide ((s.pool 0).cfg.warn < (s.pool 0).free)
  if s.poolDefined 0 ∧ (s.pool 0).bpOn ∧ ¬ hi then
    let s := if s.asm.pressure then s
      else ({ s with asm := { s.asm with pressure := true } }).event .asmRtxPressure noCtx 0
    s.earlyRelease s.asm.cache.length
  else if s.asm.pressure ∧ hi then ({ s with asm := { s.asm with pressure := false } }).deassertSrc 0x440
  else s

/-! ### Retransmission (R221, R222) -/

/-- Every cell of a packet can be pinned (R342). -/
def State.canPin (s : State) (c : Copy) : Bool :=
  (c.head ++ c.body).all (fun h =>
    let b := s.buf (hKey h)
    !(s.stale h) && b.alloc && decide (0 < b.count) && decide (b.count < 1023))

/-- What a LOSS finds for one packet. -/
inductive LossAns where
  | sent
  | nothing
  | refresh
  deriving DecidableEq, Repr

/-- One packet of a LOSS. -/
def State.answerLoss (s : State) (d seq : Nat) : State × LossAns :=
  let k := heldKey d seq
  match Tbl.find s.asm.cache k with
  | none =>
    let n := serial16 (Tbl.get 0 s.asm.seqs d) seq
    if 0 < n ∧ n ≤ 32768 then (s, .refresh) else (s, .nothing)
  | some h =>
    if h.again then (s, .nothing)
    else if h.st = .queued then (s.bump bASM 9, .nothing)
    else if s.maxRtx ≤ h.rtxN then (s, .refresh)
    else if !(s.canPin h.copy) then (s.bump bBPM 6, .refresh)
    else
      let s := (h.copy.head ++ h.copy.body).foldl (fun s c => (s.incRef true c).1) s
      let c := { h.copy with place := .arriving, rtx := true, late := false, milestone := s.ns, unit := none, chargeable := false,
                             own := 0, shared := 0, joined := 0 }
      let (s, _) := s.newCopy c
      ((s.setHeld k { h with rtxN := h.rtxN + 1, again := true }).bump bASM 2, .sent)

/-- The packets that a range of a LOSS names: `n` from `first`, or, for a count of 0, those transmitted from it onward. -/
def State.lossSeqs (s : State) (d : Nat) (r : W16 × W16) : List Nat :=
  if r.2.toNat ≠ 0 then (List.range r.2.toNat).map (fun i => (r.1.toNat + i) % 2 ^ 16)
  else
    let n := serial16 (Tbl.get 0 s.asm.seqs d) r.1.toNat
    ((List.range (if n ≤ 32768 then n else 0)).map (fun i => (r.1.toNat + i) % 2 ^ 16)).filter (fun q =>
      match Tbl.find s.asm.cache (heldKey d q) with
      | some h => decide (h.st = .sent)
      | none => true)

/-! ### Input flows (R159, R160, R225, R226) -/

/-- A packet passed on to the decode context. -/
def State.passOn (s : State) (f : Nat) (k : RtpIn) : State :=
  let s := if (s.djq f).ts.isSome ∧ (s.djq f).ts ≠ some k.ts then s.endInputPic f false else s
  let x := s.djq f
  let s := s.setDj f { x with ts := some k.ts, bytes := x.bytes + k.bytes, full := max x.full k.rowsDone }
  let s := s.releaseRows f k.rowsDone (k.rowsDone + 1)
  s.guardRow f

/-- Queued packets that follow without a gap are passed on. -/
def State.djDrain (s : State) (f : Nat) : Nat → State
  | 0 => s
  | fuel + 1 =>
    let x := s.djq f
    match x.queue.find? (fun k => decide (k.seq.toNat = x.expect)) with
    | some k =>
      let s := s.setDj f { x with queue := x.queue.filter (fun y => decide (y.seq ≠ k.seq)), expect := (x.expect + 1) % 2 ^ 16,
                                  passed := x.passed + 1 }
      State.djDrain (s.passOn f k) f fuel
    | none => s.setDj f x.regap

/-- The chunks that missing numbers before packet `k` affect are marked LOST: in the picture in progress its row in progress and those that `k`
completes; else the rest of that picture, or, where that is complete, the first rows of the next (R160). -/
def State.markChunks (s : State) (f : Nat) (k : RtpIn) : State :=
  let x := s.djq f
  if x.ts = some k.ts then s.setDj f (x.markLost x.full (max (x.full + 1) k.rowsDone))
  else
    let rows := s.cf (s.cf f 0x30 2) 0x26 2
    let next := decide (0 < rows) && decide (rows ≤ x.full) || x.ts.isNone
    let s := s.endInputPic f true
    if next then s.setDj f ((({ s.djq f with ts := some k.ts } : DjQ)).markLost 0 (max 1 k.rowsDone)) else s

/-- The oldest gap declared lost: the numbers before the nearest queued packet (R160). -/
def State.declareLost (s : State) (f : Nat) (overrun : Bool) : State :=
  let x := s.djq f
  match leastBy (fun k => serial16 k.seq.toNat x.expect) x.queue with
  | none => s
  | some k =>
    let n := serial16 k.seq.toNat x.expect
    let s := if overrun then s.incCf f 0x54 4 n else s.incCf f 0x50 4 n
    let s := s.markChunks f k
    let s := s.setDj f { s.djq f with expect := k.seq.toNat, passed := x.passed + n }
    s.djDrain f (x.queue.length + 1)

/-- DEJITTER_TIMEOUT. -/
def State.dejitterTimeout (s : State) (f : Nat) : State :=
  match (s.djq f).gapAt with
  | some t => if t + s.cf f 0x34 4 * us ≤ s.ns then s.declareLost f false else s
  | none => s

/-- RTP_PACKET_IN. (DEDUCED, log 30.) -/
def State.rtpIn (s : State) (f : Nat) (k : RtpIn) : State :=
  if Tbl.find s.opens f ≠ some 2 then s
  else if !k.accepted then
    let s := (s.bump bASM 7).incCf f 0x5C 4 1
    if (s.djq f).unsupp then s else (s.setDj f { s.djq f with unsupp := true }).event .asmInUnsupp f 0
  else
    let s := (((s.bump bASM 6).incCf f 0x40 8 1).incCf f 0x48 8 k.bytes).setCf f 0x01 1 2
    let x := s.djq f
    let ahead := serial16 k.seq.toNat x.expect
    let behind := serial16 x.expect k.seq.toNat
    let fresh := fun (s : State) => (s.setDj f { s.djq f with started := true, ssrc := k.ssrc, expect := (k.seq.toNat + 1) % 2 ^ 16,
                                                              passed := 1, queue := [], arrived := [], gapAt := none }).passOn f k
    if !x.started then fresh s
    else if k.ssrc ≠ x.ssrc ∨ (32768 < ahead ∧ x.passed < behind) then
      fresh ((s.incCf f 0x64 4 1).endInputPic f true)
    else if ahead = 0 then
      let s := s.setDj f { x with expect := (x.expect + 1) % 2 ^ 16, passed := x.passed + 1 }
      (s.passOn f k).djDrain f (x.queue.length + 1)
    else if 32768 < ahead ∨ x.queue.any (fun y => decide (y.seq = k.seq)) then s.incCf f 0x58 4 1
    else
      let s := if max 16 (s.cf f 0x32 2) ≤ x.queue.length then s.declareLost f true else s
      let x := s.djq f
      if x.expect = k.seq.toNat then
        ((s.setDj f { x with expect := (x.expect + 1) % 2 ^ 16, passed := x.passed + 1 }).passOn f k).djDrain f (x.queue.length + 1)
      else if 32768 < serial16 k.seq.toNat x.expect then s.incCf f 0x58 4 1
      else s.setDj f (x.hold k s.ns)

/-- The job at the head of a lane's queue is a row of a flow released by the guard alone, and its data ran out: the attempt
is abandoned with no visible result, and ASM releases the row again when it is complete or lost (R226). -/
def State.shortRow (s : State) (l : Nat) : Option State :=
  match s.headJob l with
  | none => none
  | some j =>
    if j.op ≠ .decode then none
    else match s.flowFor j.ctx with
      | none => none
      | some f =>
        let x := s.djq f
        if x.full ≤ j.row ∧ j.row < x.rel then
          let s := ((s.popJob l).freeJob j).setDj f { x with rel := j.row, short := j.row + 1 }
          some ((s.incCf f 0x60 4 1).bump bASM 8)
        else none

end Sys2Proof.Machine
end

