-- ==== Sys2Proof/Machine/Layout.lean ====
section
/-! DEFINITION. Layouts (R201 to R206, R212, R214): the destination entries of tiles, members joining and leaving, and the
check of a LAYOUT_SET. -/

namespace Sys2Proof.Machine

open Sys2Proof

/-! ### Destination tables (R214) -/

def destBytes (x : Dest) : Bytes :=
  leBytes 2 x.sess ++ leBytes 1 x.x0 ++ leBytes 1 x.y0 ++ leBytes 1 x.col ++ leBytes 1 x.row ++ zeros 2

def destOfBytes (b : Bytes) (sess : Nat) : Dest :=
  { sess := sess, x0 := rd b 2 1, y0 := rd b 3 1, col := rd b 4 1, row := rd b 5 1 }

def State.setDests (s : State) (t : Nat) (l : List Dest) : State :=
  (s.store (s.cf t 0x10 8) (l.flatMap destBytes)).setCf t 0x0C 2 l.length

/-- The member counts of the families (R213). -/
def State.countMembers (s : State) : State :=
  (s.opens.filter (fun e => decide (e.2 = 6))).foldl (fun s e => s.setCf e.1 0x08 2 (s.familyMembers e.1).length) s

/-- The display leaves every tile. -/
def State.leaveTiles (s : State) (d : Nat) : State :=
  ((s.shownTiles d).foldl (fun s t => s.setDests t ((s.dests t).filter (fun x => decide (x.sess ≠ d)))) s).countMembers

/-! ### Joining (R204) -/

/-- The encode context from which a session's stream takes its profile and level. -/
def State.leadEnc (s : State) (d : Nat) : Nat :=
  if s.cf d 0x38 2 ≠ 0xFFFF then s.cf d 0x38 2
  else match s.shownTiles d with
    | t :: _ => s.cf t 0x04 2
    | [] => 0xFFFF

/-- The first picture of the display's context or group whose row 0 is not yet dispatched. -/
def State.joinPic (s : State) (d : Nat) : Nat :=
  (s.groupEncs (s.leadEnc d)).foldl (fun a e => max a (match (s.enc e).drained with
    | some p => p + 1
    | none => 0)) 0

/-- The display's stream begins with picture `joinPic`; nothing of an earlier one is sent any more. -/
def State.joinAt (s : State) (d : Nat) : State :=
  let s := s.dropSegs d
  { s with asm := { s.asm with next := Tbl.put s.asm.next d (s.joinPic d, 0, 0) } }

/-- A display of tiles takes its stream up at the group's next picture, which restarts the refresh of the group; another one whose stream had
ended, at its context's next. -/
def State.rejoin (s : State) (d : Nat) : State :=
  match s.shownTiles d with
  | [] => if (Tbl.find s.asm.next d).isNone then s.joinAt d else s
  | t :: _ => (s.joinAt d).restartFor d (s.cf t 0x04 2)

/-- A layout takes the place of the display's former one. -/
def State.applyLayout (s : State) (d : Nat) (l : List (Nat × Bytes)) : State :=
  let s := s.leaveTiles d
  let s := l.foldl (fun s x => s.setDests x.1 (s.dests x.1 ++ [destOfBytes x.2 d])) s
  let s := { s with asm := { s.asm with lay := Tbl.del s.asm.lay d } }
  ((s.setCf d 0x38 2 0xFFFF).countMembers).rejoin d

/-- The display's stream stands at a picture boundary. -/
def State.atPicBoundary (s : State) (d : Nat) : Bool :=
  match Tbl.find s.asm.next d with
  | some (_, r, p) => decide (r = 0) && decide (p = 0)
  | none => true

/-! ### The check of a layout (R203, R205, R206, R207, R212) -/

/-- The start of column `c` and of row `r` in CTU columns and rows (macroblock rows for strips). -/
def State.colStart (s : State) (g : List (Nat × Dest)) (c : Nat) : Nat :=
  (List.range c).foldl (fun a i => a + ceilDiv (s.colWidth g i) 32) 0
def State.rowStart0 (s : State) (g : List (Nat × Dest)) (u r : Nat) : Nat :=
  (List.range r).foldl (fun a i => a + ceilDiv (s.rowHeight g i) u) 0

/-- Every tile of the grid is open, of one group, and of the display's codec. -/
def State.gridTiles (s : State) (d : Nat) (g : List (Nat × Dest)) : Bool :=
  match g with
  | [] => false
  | (t, _) :: _ =>
    let grp := s.cf (s.cf t 0x02 2) 0x04 2
    g.all (fun x => decide (Tbl.find s.opens x.1 = some 7) && decide (s.cf (s.cf x.1 0x02 2) 0x04 2 = grp) &&
      decide (tb (s.cf (s.cf x.1 0x02 2) 0x02 2) 0 = tb (s.cf d 0x02 2) 2) &&
      decide (((s.dests x.1).filter (fun y => decide (y.sess ≠ d))).length < 1024))

/-- The shape of the grid: each cell holds exactly one tile, sizes agree along columns and rows, and the places are those of the
sizes. -/
def State.gridShape (s : State) (d : Nat) (g : List (Nat × Dest)) : Bool :=
  let strip := tb (s.cf d 0x02 2) 2
  let c := gridCols g
  let r := gridRows g
  let u := if strip then 16 else 32
  decide (g.length = c * r) && decide (c ≤ 20) && decide (r ≤ 22 ∨ strip) && (!strip || decide (c = 1)) &&
  (List.range c).all (fun i => (List.range r).all (fun j => g.any (fun x => decide (x.2.col = i) && decide (x.2.row = j)))) &&
  g.all (fun x =>
    let w := s.cf x.1 0x08 2
    let h := s.cf x.1 0x0A 2
    decide (w = s.colWidth g x.2.col) && decide (h = s.rowHeight g x.2.row) &&
    decide (x.2.x0 = s.colStart g x.2.col) && decide (x.2.y0 = s.rowStart0 g u x.2.row) &&
    (decide (w % 32 = 0) || decide (x.2.col + 1 = c) || strip) && (decide (h % u = 0) || decide (x.2.row + 1 = r)) &&
    (!strip || decide (s.cf x.1 0x0E 2 = x.2.y0)))

/-- A tile whose size is not whole units sits at the same edge of every display that shows it (R203); a strip is whole macroblock rows. -/
def State.gridEdges (s : State) (d : Nat) (g : List (Nat × Dest)) : Bool :=
  tb (s.cf d 0x02 2) 2 || g.all (fun x =>
    let w := s.cf x.1 0x08 2
    let h := s.cf x.1 0x0A 2
    (s.dests x.1).all (fun y =>
      let o := s.gridOf y.sess
      decide (y.sess = d) || ((decide (w % 32 = 0) || (decide (y.col + 1 = gridCols o) && decide (x.2.col + 1 = gridCols g))) &&
        (decide (h % 32 = 0) || (decide (y.row + 1 = gridRows o) && decide (x.2.row + 1 = gridRows g))))))

/-- The grid covers the display: as many rows and columns of units as its active area, the rest of the last ones outside the window that the
display shows (R209, R212). A strip has the display's width. (DEDUCED, log 124.) -/
def State.gridCovers (s : State) (d : Nat) (g : List (Nat × Dest)) : Bool :=
  let w := (List.range (gridCols g)).foldl (fun a c => a + s.colWidth g c) 0
  let h := (List.range (gridRows g)).foldl (fun a r => a + s.rowHeight g r) 0
  if tb (s.cf d 0x02 2) 2 then decide (s.cf d 0x08 2 = w) && decide (ceilDiv (s.cf d 0x0A 2) 16 = ceilDiv h 16)
  else decide (ceilDiv (s.cf d 0x08 2) 32 = ceilDiv w 32) && decide (ceilDiv (s.cf d 0x0A 2) 32 = ceilDiv h 32) &&
    decide (s.cf d 0x08 2 ≤ wholeUnits w 32) && decide (s.cf d 0x0A 2 ≤ wholeUnits h 32)

/-- The endpoint has declared that it decodes in row-interleaved order (R207). -/
def State.rioOk (s : State) (d : Nat) (g : List (Nat × Dest)) : Bool :=
  decide (gridCols g ≤ 1) || (match (Tbl.get {} s.erelm.sess d).hello with
    | some b => tb b.caps.toNat 5
    | none => false)

def State.layoutOk (s : State) (d : Nat) (g : List (Nat × Dest)) : Bool :=
  s.gridTiles d g && s.gridShape d g && s.gridEdges d g && s.gridCovers d g && s.rioOk d g && (s.gridLevel d g).isSome

/-- Every member of the families has the rate of the display (R177, check 4). -/
def State.layoutTiming (s : State) (d : Nat) (g : List (Nat × Dest)) : Bool :=
  g.all (fun x =>
    let r := s.cf (s.cf x.1 0x02 2) 0x0C 4
    decide (fld r 16 16 * s.cf d 0x12 2 = fld r 0 16 * s.cf d 0x10 2))

end Sys2Proof.Machine
end

