-- ==== Sys2Proof/Machine/Erelm.lean ====
section
/-! DEFINITION. The module's side of the Erelm endpoint protocol (R230 to R266): transport, sequences, sessions, time
responses, markers, acknowledgements, loss and refresh, steering and status. -/

namespace Sys2Proof.Machine

open Sys2Proof

def State.es (s : State) (d : Nat) : ESess := Tbl.get {} s.erelm.sess d
def State.setEs (s : State) (d : Nat) (x : ESess) : State := { s with erelm := { s.erelm with sess := Tbl.put s.erelm.sess d x } }

/-- A counter of R266, in its order: sent, retransmissions, duplicates, malformed, tag failures, LOSS, packets named,
REFRESH_REQ, commitments, ROW_ACK, bogus, failures, reopens. -/
def State.esCount (s : State) (d i k : Nat) : State :=
  let x := s.es d
  s.setEs d { x with counts := setAt x.counts i (getAt 0 x.counts i + k) }

/-- Message types (R234). -/
def tOPEN : Nat := 0x02
def tCOMMIT : Nat := 0x14
def tSTEER : Nat := 0x15
def tKEEP : Nat := 0x20
def tSTATUS : Nat := 0x21
def tCLOSE : Nat := 0x22

/-! ### Sending (R231, R232, R236 to R238, R264) -/

/-- The 16-byte header. -/
def erelmHeader (type : Nat) (tag unrel : Bool) (sess seq ack len : Nat) : Bytes :=
  beBytes 2 (2 ^ 12 + type % 256 * 16 + b2n tag * 8 + b2n unrel * 4) ++ beBytes 2 sess ++ beBytes 4 seq ++ beBytes 4 ack ++
  beBytes 2 len ++ zeros 2

def State.keyed (s : State) (d : Nat) : Bool := decide ((s.net d).keyId ≠ 0)

/-- The tag of a message of session `d`. -/
def State.tagOf (s : State) (d : Nat) (header payload : Bytes) : Bytes :=
  Config.kmac (s.es d).ks (header ++ payload) 128 "ERELM"

def State.ackNo (s : State) (d : Nat) : Nat :=
  let e := (s.es d).expected
  if e = 1 then 0 else e - 1

/-- A message given to the switch as a class-7 copy of the session's port. Every message carries the acknowledgement. -/
def State.sendRaw (s : State) (d type seq : Nat) (unrel : Bool) (payload : Bytes) : State :=
  let n := s.net d
  let h := erelmHeader type (s.keyed d) unrel d seq (s.ackNo d) payload.length
  let b := h ++ (if s.keyed d then s.tagOf d h payload else []) ++ payload
  let len := max 64 (14 + (if n.vlan.isSome then 4 else 0) + ipUdp n.ipv6 + b.length + 4)
  let s := s.setEs d { s.es d with lastTx := s.ns, ackAt := none }
  let s := s.emit (.erelm d type seq (s.ackNo d) payload)
  let k := cellsFor len
  let (t, cells) := s.allocMany (aSp (s.cf d 0x07 1 % 4)) 0 1 true k
  if cells.length = k then
    let dest := t.destOf d
    let c : Copy := { kind := .erelm, dest := dest, cls := 7, queue := t.queueFor dest 7, head := cells, len := len,
                      sess := some d, data := b, stampTx := decide (type = tKEEP ∧ payload.length = 32) }
    let t := t.writeCells len cells [] false
    (t.newCopy c).1
  else t

/-- Reliable messages that wait are sent while fewer than 8 are unacknowledged. -/
def State.pumpEs (s : State) (d : Nat) : Nat → State
  | 0 => s
  | fuel + 1 =>
    let x := s.es d
    match x.queue with
    | [] => s
    | (t, p) :: r =>
      if 8 ≤ x.unacked.length then s
      else
        let q := if x.last = 0xFFFFFFFF then 1 else x.last + 1
        let m : EMsg := { seq := q, type := t, payload := p, sends := 1, at_ := s.ns }
        let s := s.setEs d { x with queue := r, last := q, unacked := x.unacked ++ [m] }
        State.pumpEs ((s.sendRaw d t q false p).esCount d 0 1) d fuel

/-- A reliable message of the module. After CLOSE nothing more is queued (R248). -/
def State.sendRel (s : State) (d type : Nat) (payload : Bytes) : State :=
  let x := s.es d
  if x.ph = .closing ∨ x.ph = .shutdown then s
  else (s.setEs d { x with queue := x.queue ++ [(type, payload)] }).pumpEs d (x.queue.length + 1)

/-- A KEEPALIVE. -/
def State.sendKeep (s : State) (d : Nat) (payload : Bytes) : State := s.sendRaw d tKEEP (s.es d).last true payload

/-! ### Ends of sessions (R245 to R248) -/

/-- Sequences, queues and time exchange of an incarnation forgotten. -/
def ESess.clear (x : ESess) (ph : EPh) : ESess :=
  { x with ph := ph, last := 0, unacked := [], queue := [], expected := 1, ackAt := none, prevReq := 0, resp := none, begun := false }

/-- The session's closing has ended: the record closes and CTX_CLOSE completes, or, after a shutdown, it waits for HELLO. -/
def State.closeDone (s : State) (d : Nat) : State :=
  let x := s.es d
  let s := s.releaseHolds d
  if x.ph = .closing then
    let s := { s with erelm := { s.erelm with sess := Tbl.del s.erelm.sess d } }
    let s := (((s.tellStream d false).setCf d 0x01 1 sCLOSED).dropSegs d).leaveTiles d
    -- the shadow of a lead still pending is discarded (R65), and the session's class-6 queue drains
    let s := s.setCf d 0x30 2 (fld (s.cf d 0x32 2) 0 4)
    let s := s.setCf d 0x32 2 (fld (s.cf d 0x32 2) 0 4)
    let q := Tbl.find s.sessQ d
    let s := { s with sessQ := Tbl.del s.sessQ d, asm := { s.asm with lay := Tbl.del s.asm.lay d } }
    let s := match q with
      | some q => (s.setQueue q { s.queue q with draining := true }).closeIfEmpty q
      | none => s
    let s := { s with opens := Tbl.del s.opens d, msc := { s.msc with rasters := Tbl.del s.msc.rasters d },
                      asm := { s.asm with next := Tbl.del s.asm.next d, seqs := Tbl.del s.asm.seqs d, nets := Tbl.del s.asm.nets d } }
    match x.closer with
    | some r =>
      match (s.ring r.ring.val).flight.find? (fun f => decide (f.e.sseq = r.sseq)) with
      | some f => s.complete r.ring.val f.e cOK 0 []
      | none => s
    | none => s
  else s.setEs d (x.clear .waitHello)

/-- The running session has ended: its holds are released, and no row that waits in ASM is sent any more (R245, R246). -/
def State.endStream (s : State) (d : Nat) : State :=
  let s := (s.releaseHolds d).dropSegs d
  { s with asm := { s.asm with next := Tbl.del s.asm.next d } }

/-- A failed session (R246): 0 RETRIES, 1 SILENCE. -/
def State.failEs (s : State) (d cause : Nat) : State :=
  let x := s.es d
  if x.ph = .closing ∨ x.ph = .shutdown then s.closeDone d
  else
    let s := ((s.event .erelmFail d cause).esCount d 11 1).endStream d
    s.setEs d ((s.es d).clear .waitHello)

/-- ERELM_RETRANSMIT: the oldest message has waited 2 ms. -/
def State.erelmRetransmitOp (s : State) (d : Nat) : State :=
  let x := s.es d
  match x.unacked with
  | [] => s
  | m :: _ =>
    if s.ns < m.at_ + 2 * ms then s
    else if 5 ≤ m.sends then s.failEs d 0
    else
      let s := s.setEs d { x with unacked := x.unacked.map (fun m => { m with sends := m.sends + 1, at_ := s.ns }) }
      let s := x.unacked.foldl (fun s m => s.sendRaw d m.type m.seq false m.payload) s
      s.esCount d 1 x.unacked.length

/-- ACK_DUE: an acknowledgement has nothing to travel on. -/
def State.ackDueOp (s : State) (d : Nat) : State :=
  match (s.es d).ackAt with
  | some t => if t ≤ s.ns then s.sendKeep d [] else s
  | none => s

/-- KEEPALIVE_DUE: 100 ms without a message sent. -/
def State.keepDueOp (s : State) (d : Nat) : State :=
  let x := s.es d
  if (x.ph = .open_ ∨ x.ph = .opening) ∧ x.lastTx + 100 * ms ≤ s.ns then s.sendKeep d [] else s

/-- SESSION_SILENCE: 1 s without a valid message from the peer. -/
def State.silenceOp (s : State) (d : Nat) : State :=
  let x := s.es d
  if (x.ph = .open_ ∨ x.ph = .opening ∨ x.ph = .closing ∨ x.ph = .shutdown) ∧ x.lastRx + oneSec ≤ s.ns then s.failEs d 1 else s

/-! ### Receiving (R233, R237, R264) -/

/-- The header as it arrived, for its tag. -/
def hdrBytes (h : ErelmHdr) (type : Nat) : Bytes :=
  erelmHeader type h.tag.isSome h.unrel h.session.toNat h.seq.toNat h.ack.toNat h.payload.length

/-- A CLOSE that the peer has acknowledged ends the session (R248). -/
def State.closeAcked (s : State) (d : Nat) : State :=
  let x := s.es d
  if (x.ph = .closing ∨ x.ph = .shutdown) ∧ x.unacked.isEmpty then s.closeDone d else s

/-- The session that a message names passes the checks of R233, or is counted as malformed. `anyTag` lets an untagged OPEN_ACK
with KEY_UNKNOWN through. An ack that covers the module's CLOSE ends the session (R248). -/
def State.accept (s : State) (h : ErelmHdr) (type : Nat) (anyTag : Bool) : State × Option Nat :=
  let d := h.session.toNat
  let x := s.es d
  let n := s.net d
  if Tbl.find s.opens d ≠ some 1 then (s, none)
  else if h.version ≠ 1 ∨ !h.lengthOk ∨ n.epAddr ≠ h.srcAddr ∨ n.epUdp ≠ h.srcUdp.toNat then (s.esCount d 3 1, none)
  else if x.ph = .waitHello then (s, none)
  else if s.keyed d ∧ !anyTag ∧ (x.ks.isEmpty ∨ h.tag ≠ some (s.tagOf d (hdrBytes h type) h.payload)) then
    let due := match x.tagAt with
      | none => true
      | some t => decide (t + 10 * oneSec ≤ s.ns)
    let s := s.esCount d 4 1
    let s := if due then (s.setEs d { s.es d with tagAt := some s.ns }).event .erelmTagFail d 0 else s
    (s, none)
  else
    -- an ack confirms every reliable message up to and including its number
    let left := x.unacked.filter (fun m => decide (2 ^ 31 ≤ serial32 h.ack.toNat m.seq))
    let s := s.setEs d { x with lastRx := s.ns, unacked := left }
    let s := s.pumpEs d x.queue.length
    if type ≠ 0x22 ∧ (x.ph = .closing ∨ x.ph = .shutdown) ∧ (s.es d).unacked.isEmpty then (s.closeDone d, none) else (s, some d)

/-- R237 for a reliable message: processed when it is the expected one; its acknowledgement falls due in 200 us. -/
def State.reliable (s : State) (d : Nat) (h : ErelmHdr) : State × Bool :=
  let x := s.es d
  let due := some (x.ackAt.getD (s.ns + 200 * us))
  if h.seq.toNat = x.expected then
    (s.setEs d { x with expected := if x.expected = 0xFFFFFFFF then 1 else x.expected + 1, ackAt := due }, true)
  else if 0 < serial32 x.expected h.seq.toNat ∧ serial32 x.expected h.seq.toNat < 2 ^ 31 then
    ((s.setEs d { x with ackAt := due }).esCount d 2 1, false)
  else (s, false)

/-! ### HELLO, OPEN, OPEN_ACK (R241 to R247) -/

/-- The detail of ERELM_HELLO: the four fields that the host takes from it (R242), total_lines highest. (DEDUCED, log 77.) -/
def helloDetail (b : HelloBody) : Nat :=
  ((b.totalLines.toNat * 2 ^ 16 + b.rateNum.toNat) * 2 ^ 16 + b.rateDen.toNat) * 2 ^ 16 + b.caps.toNat

/-- The payload of OPEN (R243). -/
def State.openPayload (s : State) (d : Nat) : Bytes :=
  let x := s.es d
  let n := s.net d
  let e := s.leadEnc d
  beBytes 8 x.nonceM.toNat ++ beBytes 8 x.nonceE.toNat ++ beBytes 1 (fld (s.cf e 0x02 2) 0 2) ++ beBytes 1 (s.cf e 0x08 1) ++
  beBytes 1 (s.streamLevel d e) ++ beBytes 1 (if tb (s.cf e 0x02 2) 4 then 10 else 8) ++ beBytes 2 (s.cf d 0x08 2) ++
  beBytes 2 (s.cf d 0x0A 2) ++ beBytes 2 n.rtpPort ++ beBytes 1 n.pt ++ beBytes 1 (s.streamCols d) ++ beBytes 4 n.ssrc.toNat ++
  beBytes 1 (fld (s.cf d 0x32 2) 0 4) ++ beBytes 1 1 ++ beBytes 1 (s.holdMs / ms) ++ zeros 1 ++ beBytes 4 n.keyId.toNat

/-- OPEN sent: a fresh nonce, sequences from 1, and for a keyed session its derived key. Without the key the session stays in
WAIT_HELLO and SEC_KEY_MISSING is raised. -/
def State.sendOpen (s : State) (d : Nat) (b : HelloBody) : State :=
  let n := s.net d
  match (if s.keyed d then Tbl.find s.sec.keys n.keyId.toNat else some []) with
  | none => s.event .secKeyMissing d n.keyId.toNat
  | some k =>
    let m := Config.nonce s.free
    let ks := if s.keyed d then Config.kmac k (beBytes 8 m.toNat ++ beBytes 8 b.nonceE.toNat ++ beBytes 2 d) 256 "ERELM-SK" else []
    let x := (s.es d).clear .opening
    let s := (s.draw).setEs d { x with nonceM := m, nonceE := b.nonceE, ks := ks, hello := some b, lastRx := s.ns,
                                       cum := (Tbl.get 0 s.asm.seqs d + 65535) % 65536 }
    s.sendRel d tOPEN (s.openPayload d)

/-- The open display session that a HELLO's source address and port name (R242). -/
def State.helloSess (s : State) (h : ErelmHdr) : Option Nat :=
  (s.asm.nets.find? (fun e => decide (Tbl.find s.opens e.1 = some 1) && decide (e.2.epAddr = h.srcAddr) &&
    decide (e.2.epUdp = h.srcUdp.toNat))).map Prod.fst

/-- HELLO. (DEDUCED, log 77.) -/
def State.helloOp (s : State) (h : ErelmHdr) (b : HelloBody) : State :=
  let bad := decide (h.version ≠ 1) || !h.lengthOk
  let other := fun (d : Nat) => decide (h.session ≠ 0xFFFF) && decide (h.session.toNat ≠ d)
  match s.helloSess h with
  | some d =>
    if bad || other d then s.esCount d 3 1
    else
      let x := s.es d
      match x.ph with
      | .waitHello => s.sendOpen d b
      | .open_ =>
        let s := ((s.endStream d).event .erelmReopen d 0).esCount d 12 1
        (s.setEs d ((s.es d).clear .waitHello)).sendOpen d b
      | _ => s
  | none =>
    if bad || decide (h.session ≠ 0xFFFF) then s
    else
      let due := match s.erelm.helloAt.find? (fun e => decide (e.1 = h.srcAddr)) with
        | none => true
        | some e => decide (e.2 + 10 * oneSec ≤ s.ns)
      if due then
        let l := s.erelm.helloAt.filter (fun e => decide (e.1 ≠ h.srcAddr)) ++ [(h.srcAddr, s.ns)]
        ({ s with erelm := { s.erelm with helloAt := l } }).event .erelmHello noCtx (helloDetail b)
      else s

/-- OPEN_ACK. -/
def State.openAckOp (s : State) (h : ErelmHdr) (result : Nat) : State :=
  match s.accept h 0x03 (decide (result = 6)) with
  | (s, none) => s
  | (s, some d) =>
    let (s, go) := s.reliable d h
    if !go || decide ((s.es d).ph ≠ .opening) then s
    else if result = 0 then
      let s := s.setEs d { s.es d with ph := .open_ }
      let s := (s.setCf d 0x01 1 sACQUIRE).setRaster d { s.raster d with m := {}, second := {} }
      let caps := match (s.es d).hello with
        | some b => b.caps.toNat
        | none => 0
      let s := s.setCf d 0x02 2 (setFld (s.cf d 0x02 2) 0 1 (fld caps 6 1))
      s.event .erelmOpen d 0
    else
      let x := s.es d
      (s.setEs d { x with ph := .refused, unacked := [], queue := [] }).event .erelmRefused d result

/-! ### Commitments (R136, R253, R260) -/

/-- The picture that a restart takes, and its clean picture: the first whose row 0 no context of the merge group has dispatched (R136). -/
def State.restartPic (s : State) (d : Nat) : Nat × Nat :=
  let e := s.leadEnc d
  let n := match (s.enc e).marks with
    | m :: _ => m.1 + 1
    | [] => (s.raster d).nextPic
  (n, if (s.enc e).idrNext then n else s.cleanPic e n)

/-- REFRESH_COMMIT sent: 0 LOSS, 1 REQUEST, 2 START, 3 JOIN, 4 RESUME, 5 RELOCK. The restart will use the SLACK of its commitment (R136). -/
def State.commitTo (s : State) (d answers reason : Nat) : State :=
  let s := s.commitSlack (s.leadEnc d)
  let (n, clean) := s.restartPic d
  let show_ := (n + s.cf d 0x40 4) % 2 ^ 32
  let p := beBytes 4 answers ++ beBytes 4 n ++ beBytes 4 clean ++ beBytes 4 show_ ++ beBytes 1 reason ++ zeros 3
  ((s.sendRel d tCOMMIT p).esCount d 8 1).bump bASM 3

/-- A restart for a display: a commitment, and REFRESH_RESTART for its context or merge group. -/
def State.refreshFor (s : State) (d answers reason : Nat) : State :=
  (s.commitTo d answers reason).restartFor d (s.leadEnc d)

/-- Layouts whose boundary has come are applied; a display whose rows are dispatched is told of the picture with which it joins (R204, R253). -/
def State.dueLayouts (s : State) : State :=
  s.asm.lay.foldl (fun s e =>
    if s.atPicBoundary e.1 then
      let s := s.applyLayout e.1 e.2
      if s.paced e.1 then s.commitTo e.1 0 3 else s
    else s) s

/-! ### Markers and status (R249, R262, R263) -/

/-- STATUS sent when the raster state enters or leaves RASTER_LOST or SUSPENDED. -/
def State.rasterStatus (s : State) (d old : Nat) : State :=
  let new := s.cf d 0x01 1
  let code := fun n => if n = sLOST then 1 else if n = sSUSPENDED then 2 else 0
  if code old = code new ∨ (s.es d).ph ≠ .open_ then s
  else s.sendRel d tSTATUS (beBytes 1 (code new) ++ zeros 3)

/-- The reason of the commitment that a lock sends, if it sends one: the first of a session is START, or JOIN for a display of tiles (R253); a later
one ends a suspension. -/
def lockReason (old new : Nat) (begun tiles jumped : Bool) : Option Nat :=
  if new ≠ sLOCKED then none
  else if old = sRELOCK then (if jumped then some 5 else none)
  else if old = sACQUIRE ∨ old = sSUSPENDED then some (if begun then 4 else if tiles then 3 else 2)
  else none

/-- MARKER: accepted in OPEN only. -/
def State.markerMsg (s : State) (h : ErelmHdr) (f l : Nat) (steer : Int) (t : Nat) : State :=
  match s.accept h 0x10 false with
  | (s, none) => s
  | (s, some d) =>
    if (s.es d).ph ≠ .open_ then s
    else
      let old := s.cf d 0x01 1
      let off := s.cf d 0x40 4
      let s := s.markerOp d f l t steer
      let s := if (old = sACQUIRE ∨ old = sSUSPENDED) ∧ s.cf d 0x01 1 = sLOCKED then s.rejoin d else s
      let s := match lockReason old (s.cf d 0x01 1) (s.es d).begun (!(s.shownTiles d).isEmpty) (decide (off ≠ s.cf d 0x40 4)) with
        | some r =>
          let s := s.refreshFor d 0 r
          s.setEs d { s.es d with begun := true }
        | none => s
      s.rasterStatus d old

/-- MARKER_MISSING and SESSION_SUSPEND, with the STATUS that they send. -/
def State.missingMsg (s : State) (d : Nat) : State := (s.missingOp d).rasterStatus d (s.cf d 0x01 1)
def State.suspendMsg (s : State) (d : Nat) : State := (s.suspendOp d).rasterStatus d (s.cf d 0x01 1)

/-! ### Rows, losses, requests (R255 to R259) -/

/-- ROW_ACK. -/
def State.rowAckMsg (s : State) (h : ErelmHdr) (cum : Nat) (lateTotal : W32) : State :=
  match s.accept h 0x11 false with
  | (s, none) => s
  | (s, some d) =>
    let s := (s.setEs d { s.es d with late := lateTotal }).esCount d 9 1
    let prev := (s.es d).cum
    let n := serial16 cum prev
    let assigned := decide (0 < serial16 (Tbl.get 0 s.asm.seqs d) cum) && decide (serial16 (Tbl.get 0 s.asm.seqs d) cum ≤ 32768)
    let unsent := !assigned || (match Tbl.find s.asm.cache (heldKey d cum) with
      | some x => decide (x.st = .queued)
      | none => false)
    if n = 0 ∨ 32768 ≤ n then s
    else if unsent then s.esCount d 10 1
    else
      let s := (List.range n).foldl (fun s i => s.releaseHold (heldKey d ((prev + 1 + i) % 65536))) s
      s.setEs d { s.es d with cum := cum }

/-- LOSS (R221, R258). -/
def State.lossMsg (s : State) (h : ErelmHdr) (ranges : List (W16 × W16)) : State :=
  match s.accept h 0x12 false with
  | (s, none) => s
  | (s, some d) =>
    let (s, go) := s.reliable d h
    if !go || decide ((s.es d).ph ≠ .open_) then s
    else
      let seqs := ranges.flatMap (fun r => s.lossSeqs d r)
      let s := (s.esCount d 5 1).esCount d 6 seqs.length
      let (s, bad) := seqs.foldl (fun (a : State × Bool) q =>
        let (t, r) := a.1.answerLoss d q
        (t, a.2 || decide (r = .refresh))) (s, false)
      if bad then s.refreshFor d h.seq.toNat 0 else s

/-- REFRESH_REQ. -/
def State.refreshMsg (s : State) (h : ErelmHdr) : State :=
  match s.accept h 0x13 false with
  | (s, none) => s
  | (s, some d) =>
    let (s, go) := s.reliable d h
    if !go || decide ((s.es d).ph ≠ .open_) then s
    else (s.esCount d 7 1).refreshFor d h.seq.toNat 1

/-! ### KEEPALIVE, STATUS, CLOSE (R239, R248, R263) -/

/-- KEEPALIVE; a request is answered with a response. -/
def State.keepMsg (s : State) (h : ErelmHdr) (req : Option W64) : State :=
  match s.accept h 0x20 false with
  | (s, none) => s
  | (s, some d) =>
    match req with
    | none => s
    | some q =>
      if Tbl.find s.erelm.sess d = none ∨ (s.es d).ph ≠ .open_ then s
      else
        let x := s.es d
        let tx := match x.resp with
          | some c => Tbl.get 0 s.swc.stamps c
          | none => 0
        let p := beBytes 8 q.toNat ++ beBytes 8 (s.ingressStamp h.port.val) ++ beBytes 8 (if tx = 0 then 0 else x.prevReq.toNat) ++ beBytes 8 tx
        let s := match x.resp with
          | some c => { s with swc := { s.swc with stamps := Tbl.del s.swc.stamps c } }
          | none => s
        let n := s.swc.nextCopy
        let s := s.sendKeep d p
        s.setEs d { s.es d with prevReq := q, resp := if s.swc.nextCopy = n then none else some n }

/-- STATUS of the endpoint. -/
def State.statusMsg (s : State) (h : ErelmHdr) (b : StatusBody) : State :=
  match s.accept h 0x21 false with
  | (s, none) => s
  | (s, some d) =>
    let (s, go) := s.reliable d h
    if !go then s
    else
      let was := (s.es d).status.map (fun x => x.panel)
      let s := s.setEs d { s.es d with status := some b, late := b.lateTotal }
      if b.panel = 2 ∧ was ≠ some 2 then s.event .erelmEpFault d 0 else s

/-- CLOSE of the endpoint. -/
def State.closeMsg (s : State) (h : ErelmHdr) (reason : Nat) : State :=
  match s.accept h 0x22 false with
  | (s, none) => s
  | (s, some d) =>
    let (s, go) := s.reliable d h
    if !go then s.closeAcked d
    else
      let s := (s.sendKeep d []).event .erelmClose d reason
      let x := s.es d
      if x.ph = .closing ∨ x.ph = .shutdown then s.closeDone d
      else (s.endStream d).setEs d (x.clear .waitHello)

/-- The module closes a session: 1 HOST, 2 SHUTDOWN. One that is not open closes at once. -/
def State.closeEs (s : State) (d reason : Nat) (by_ : Option CmdRef) : State :=
  let x := s.es d
  let ph : EPh := if reason = 2 then .shutdown else .closing
  if x.ph = .open_ ∨ x.ph = .opening then
    let s := s.sendRel d tCLOSE (beBytes 1 reason ++ zeros 3)
    -- after CLOSE the module sends no media (R248)
    let s := (s.endStream d).dropMedia d
    s.setEs d { s.es d with ph := ph, closer := by_ }
  else if reason = 2 then s
  else (s.setEs d { x with ph := .closing, closer := by_ }).closeDone d

/-! ### Steering (R169, R262) -/

/-- STEER sent to a member. -/
def State.steerTo (s : State) (d : Nat) (x : Int) : State :=
  ((s.sendRel d tSTEER (beBytes 2 (unsgn x 16) ++ zeros 2)).setCfI d 0x50 2 x).incCf d 0x98 4 1

/-- STEER_EVALUATE: once every PERIOD pictures of the family, PERIOD being that of the last evaluation (R182). phase_err is kept for every
member but the lead. -/
def State.steerOp (s : State) (fam : Nat) : State :=
  match s.leadOf fam with
  | none => s
  | some lead =>
    let n := s.cf fam 0x10 4
    let period := max 1 ((Tbl.find s.msc.steerPer fam).getD (fld s.mscSteer 8 8))
    let due := match Tbl.find s.msc.steerAt fam with
      | none => true
      | some p => decide (p + period ≤ n)
    if Tbl.find s.opens fam ≠ some 6 ∨ !due then s
    else
      let m := { s.msc with steerAt := Tbl.put s.msc.steerAt fam n, steerPer := Tbl.put s.msc.steerPer fam (fld s.mscSteer 8 8) }
      let s := ({ s with msc := m }).setCf fam 0x18 2 lead
      (s.lockedMembers fam).foldl (fun s d =>
        if d = lead then s
        else
          let ph := s.phi lead d n
          let s := s.setCfI d 0x54 4 (clampI (-2147483648) 2147483647 ph)
          let v := s.slewFor lead ph
          if tb s.mscSteer 31 ∧ s.steerOk d ∧ v ≠ s.cfI d 0x50 2 then s.steerTo d v else s) s

/-- MSC_STEER written with EN 0: STEER(0) to every member whose steer is not 0 (R182). -/
def State.steerOff (s : State) : State :=
  (s.opens.filter (fun e => decide (e.2 = 1))).foldl (fun s e =>
    if s.cfI e.1 0x50 2 ≠ 0 ∧ (s.es e.1).ph = .open_ then s.steerTo e.1 0 else s) s

/-- SESSION_QUERY's words: the counters of R266, late_total, and the fields of the last STATUS. -/
def State.sessionWords (s : State) (d : Nat) : List Nat :=
  let x := s.es d
  x.counts ++ [x.late.toNat] ++ (match x.status with
    | some b => [b.lateTotal.toNat, b.decodeErrors.toNat, b.bsOverruns.toNat, b.temperature.toNat, b.panel.toNat, b.uptime.toNat]
    | none => [0, 0, 0, 0, 0, 0])

end Sys2Proof.Machine
end

