-- ==== Sys2Proof/Machine/Admit.lean ====
section
/-! DEFINITION. Contexts opened, changed, closed and queried (R36, R65, R68, R89, R90, R123, R124, R149, R162, R177, R178,
R197, R203, R213, R214, R227), layouts (R204) and the session's network parameters (R215, R230). -/

namespace Sys2Proof.Machine

open Sys2Proof

/-- Kinds of context record (R36). -/
def kSESS : Nat := 1
def kFLOW : Nat := 2
def kENC : Nat := 3
def kDEC : Nat := 4
def kCMP : Nat := 5
def kFAM : Nat := 6
def kTILE : Nat := 7

def State.isOpen (s : State) (r k : Nat) : Bool := decide (Tbl.find s.opens r = some k)

/-- A reference to another context: none, or one that is open of the kind named. -/
def State.refOk (s : State) (r k : Nat) : Bool := decide (r = 0xFFFF) || s.isOpen r k

/-- The lowest-numbered free record of a kind's partition (R36). -/
def State.freeRec (s : State) (k : Nat) : Option Nat :=
  firstFrom (fun r => (Tbl.find s.opens r).isNone) (s.partBase k) (s.partSize k)

/-! ### Bounds of boundary-applied values (R38, R39) -/

/-- The hardware range of a parameter. -/
def hwRange (id : Nat) : Nat × Nat :=
  match id with
  | 0x0101 => (64, 400000)
  | 0x0201 => (1, 1250000)
  | 0x0202 => (1, 1250000)
  | 0x0203 => (64, 65535)
  | 0x0301 => (0, 255)
  | 0x0302 => (0, 8191)
  | 0x0401 => (1, 8)
  | 0x0501 => (1, 255)
  | 0x0502 => (0, 65535)
  | _ => (0, 0)

def State.bound (s : State) (id : Nat) : Nat × Nat := (Tbl.find s.way.bounds id).getD (hwRange id)
def State.inBounds (s : State) (id v : Nat) : Bool := decide ((s.bound id).1 ≤ v) && decide (v ≤ (s.bound id).2)

/-! ### Pools named by a record (R146, R347) -/

def State.poolIs (s : State) (p type : Nat) : Bool := s.poolDefined p && decide ((s.pool p).cfg.type = type)

/-- Storage of a frame buffer of w x h samples, and of a write-out buffer. -/
def frameSize (w h : Nat) (ten : Bool) : Nat :=
  let n := 3 * w * h * (if ten then 2 else 1) / 2
  n + ceilDiv n 256
def writeOutSize (w h : Nat) (ten : Bool) : Nat := 3 * (ceilDiv (w * (if ten then 2 else 1)) 256 * 256) * h / 2

/-! ### The image of an open: a value where the host may set one, or its default for 0 (R123, R159) -/

/-- The default `d` where the image gives 0. (DEDUCED, log 51.) -/
def orDefault (v d : Nat) : Nat := if v = 0 then d else v

/-- The default `d` where the image gives all-ones in a field of `n` bytes that may be set to 0. (DEDUCED, log 51.) -/
def onesDefault (n v d : Nat) : Nat := if v = 2 ^ (8 * n) - 1 then d else v

/-- A record's bytes built from fields (offset, size, value). -/
def recordOf (l : List (Nat × Nat × Nat)) : Bytes := l.foldl (fun b f => splice b f.1 (leBytes f.2.1 f.2.2)) (zeros 256)

/-- Fields of an image carried over unchanged. -/
def carried (img : Bytes) (l : List (Nat × Nat)) : List (Nat × Nat × Nat) := l.map (fun f => (f.1, f.2, rd img f.1 f.2))

/-- What a check of an image comes to: a record, or a completion code. -/
abbrev Image := Except Nat Bytes

/-! #### Display session (R162) -/

def portOk (p : Nat) : Bool := decide (p < 256) || (decide (0x8000 ≤ p) && decide (p < 0x8400))

def State.sessImage (s : State) (b : Bytes) : Image :=
  let lines := rd b 0x0C 2
  let row := rd b 0x0E 2
  let lead := fld (rd b 0x30 2) 0 4
  if !portOk (rd b 0x04 2) || decide (2 < rd b 0x06 1) || decide (lines < rd b 0x0A 2 + 1) || decide (8191 < lines) ||
      !([16, 32].contains row) || decide (rd b 0x10 2 = 0) || decide (rd b 0x12 2 = 0) || decide (rd b 0x08 2 = 0) ||
      decide (rd b 0x0A 2 = 0) || decide (rd b 0x2C 4 = 0) || decide (lead = 0) || decide (8 < lead) then .error cBAD_PARAM
  else if !s.inBounds 0x0401 lead then .error cOUT_OF_BOUNDS
  else if !s.refOk (rd b 0x38 2) kENC || !s.refOk (rd b 0x3A 2) kCMP || !s.refOk (rd b 0x3C 2) kFAM then .error cSTATE
  else .ok (recordOf ([(0x00, 1, kSESS), (0x01, 1, sACQUIRE), (0x02, 2, fld (rd b 0x02 2) 1 2 * 2), (0x30, 2, lead), (0x32, 2, lead)] ++
    carried b [(0x04, 2), (0x06, 1), (0x08, 2), (0x0A, 2), (0x0C, 2), (0x0E, 2), (0x10, 2), (0x12, 2), (0x14, 4), (0x2C, 4),
               (0x34, 4), (0x38, 2), (0x3A, 2), (0x3C, 2)]))

/-! #### Input flow (R159, R227) -/

def State.flowImage (s : State) (b : Bytes) : Image :=
  let depth := orDefault (rd b 0x32 2) 512
  let timeout := orDefault (rd b 0x34 4) 5000
  let p := rd b 0x04 2
  if decide (depth < 16) || decide (4096 < depth) || decide (timeout < 100) || decide (200000 < timeout) ||
      (decide (255 < p) && decide (p ≠ 0xFFFF)) then .error cBAD_PARAM
  else if !s.refOk (rd b 0x30 2) kDEC then .error cSTATE
  else .ok (recordOf ([(0x00, 1, kFLOW), (0x01, 1, 1), (0x02, 2, fld (rd b 0x02 2) 0 5), (0x32, 2, depth), (0x34, 4, timeout), (0x38, 4, 1024),
      (0x06, 2, fld (rd b 0x06 2) 0 12)] ++
    carried b [(0x04, 2), (0x08, 16), (0x18, 16), (0x28, 2), (0x2A, 1), (0x2C, 4), (0x30, 2)]))

/-! #### Encode context (R78, R79, R82, R89, R123) -/

/-- The limits of R78: least and greatest width and height, samples per second, highest level, kb/s. None: the mode does not
exist. -/
structure EncLimit where
  minW : Nat
  maxW : Nat
  maxH : Nat
  rate : Nat
  level : Nat
  kbps : Nat
  deriving DecidableEq, Repr

def encLimits (avc : Bool) (mode size profile : Nat) : Option EncLimit :=
  if avc then
    (if (mode = 0 ∨ mode = 3) ∧ size = 1 then some ⟨128, 4096, 2304, 249000000, 51, if profile = 100 then 300000 else 240000⟩ else none)
  else if (mode = 0 ∨ mode = 1) ∧ size = 1 then some ⟨128, 4096, 2176, 249000000, 153, 160000⟩
  else if mode = 2 ∧ size = 2 then some ⟨256, 4096, 2176, 498000000, 153, 160000⟩
  else if mode = 2 ∧ size = 4 then some ⟨512, 8192, 4352, 996000000, 180, 240000⟩
  else if mode = 2 ∧ size = 8 then some ⟨1024, 8192, 4352, 1992000000, 183, 400000⟩
  else none

/-- The rate-control parameters with their defaults: qp_min, qp_max, qp_init, bucket, borrow, period. A default period below the field's range
is raised to 2. -/
structure RcParams where
  qpMin : Nat
  qpMax : Nat
  qpInit : Nat
  bucket : Nat
  borrow : Nat
  period : Nat
  deriving DecidableEq, Repr

/-- The rate-control parameters of an image, with their defaults (R123). A picture rate that rounds below 2 gets a default refresh_period of 2:
R123 begins the range there and does not say so of the default. (DESIGN CHOICE, log 123.) -/
def rcParams (b : Bytes) (ten : Bool) (num den target : Nat) : RcParams :=
  let q := if ten then 12 else 0
  let avg := target * 1000 * den / num
  { qpMin := onesDefault 1 (rd b 0x58 1) (q + 10), qpMax := onesDefault 1 (rd b 0x59 1) (q + 48),
    qpInit := onesDefault 1 (rd b 0x5A 1) (q + 32), bucket := orDefault (rd b 0x5C 4) (4 * avg),
    borrow := onesDefault 4 (rd b 0x64 4) (avg / 2),
    period := orDefault (rd b 0x70 2) (max 2 (min 256 ((2 * num + den) / (2 * den)))) }

/-- The ranges of R123. -/
def RcParams.ok (p : RcParams) (ten : Bool) (avg : Nat) : Bool :=
  let q := if ten then 12 else 0
  decide (p.qpMin ≤ p.qpMax) && decide (p.qpMax ≤ 51 + q) && decide (p.qpMin ≤ p.qpInit) && decide (p.qpInit ≤ p.qpMax) &&
  decide (avg ≤ p.bucket) && decide (p.bucket ≤ 64 * avg) && decide (p.bucket ≤ 2147483647) && decide (p.borrow ≤ p.bucket / 2) &&
  decide (2 ≤ p.period) && decide (p.period ≤ 256)

/-- The level signalled for an encode context (R78). -/
def encLevel (avc : Bool) (profile w h num den kbps : Nat) : Option Nat :=
  if avc then avcLevel w h num den kbps profile else hevcLevel w h num den kbps 1 1

def State.encImage (s : State) (b : Bytes) : Image :=
  let flags := rd b 0x02 2
  let codec := fld flags 0 2
  let avc := decide (codec = 1)
  let mode := fld flags 2 2
  let ten := tb flags 4
  let size := orDefault (rd b 0x15 1) 1
  let w := rd b 0x04 2
  let h := rd b 0x06 2
  let num := rd b 0x10 2
  let den := rd b 0x12 2
  let target := rd b 0x50 4
  let profile := if avc then rd b 0x08 1 else if ten then 2 else 1
  let tiled := decide (mode = 1 ∨ mode = 3)
  let rp := rcParams b ten num den target
  let fam := rd b 0x0C 2
  match encLimits avc mode size profile with
  | none => .error cBAD_PARAM
  | some l =>
    let level := encLevel avc profile w h num den target
    if decide (1 < codec) || (avc && (ten || !([66, 77, 100].contains profile))) || decide (num = 0) || decide (den = 0) ||
        decide (w % 8 ≠ 0) || decide (h % 8 ≠ 0) || decide (w < l.minW) || decide (l.maxW < w) || decide (h < 64) ||
        decide (l.maxH < h) || decide (l.rate * den < w * h * num) || decide (l.kbps < target) || decide (target < 64) ||
        decide (400000 < target) || decide (2 < rd b 0x0B 1) || decide (rd b 0x0A 1 = 0) || decide (4 < rd b 0x0A 1) ||
        decide (rd b 0x20 1 < 4) || decide (16 < rd b 0x20 1) || decide (rd b 0x18 8 % 256 ≠ 0) || decide (rd b 0x28 8 % 4096 ≠ 0) ||
        (decide (mode = 1) && decide (w < 256)) || (decide (mode = 3) && decide (h % 16 ≠ 0)) || (level.all (fun v => decide (l.level < v))) ||
        !rp.ok ten (target * 1000 * den / num) || !s.poolIs (rd b 0x21 1) tSLICE || !s.poolIs (rd b 0x22 1) tFRAME ||
        decide ((s.pool (rd b 0x22 1)).cfg.bufSize < frameSize w h ten) || (tiled && decide (fam = 0xFFFF)) then .error cBAD_PARAM
    else if !s.inBounds 0x0101 target then .error cOUT_OF_BOUNDS
    else if !s.refOk fam kFAM || !s.refOk (rd b 0x0E 2) kTILE || !s.refOk (rd b 0x16 2) kSESS then .error cSTATE
    else if decide (fam ≠ 0xFFFF) && (decide (s.cf fam 0x0A 2 ≠ rp.period) || !tiled || decide (tb (s.cf fam 0x02 2) 1 ≠ ten)) then .error cBAD_PARAM
    else .ok (recordOf ([(0x00, 1, kENC), (0x01, 1, 1), (0x02, 2, fld flags 0 9), (0x08, 1, profile), (0x09, 1, level.getD 0),
        (0x14, 1, 0xFF), (0x15, 1, size), (0x24, 4, 0xFFFFFFFF), (0x30, 4, 0xFFFFFFFF), (0x34, 4, 0xFFFFFFFF),
        (0x38, 4, 0xFFFFFFFF), (0x3C, 4, 0xFFFFFFFF), (0x4E, 2, ceilDiv h (if avc then 16 else 32)), (0x50, 4, target),
        (0x54, 4, target), (0x58, 1, rp.qpMin), (0x59, 1, rp.qpMax), (0x5A, 1, rp.qpInit), (0x5B, 1, rp.qpInit),
        (0x5C, 4, rp.bucket), (0x64, 4, rp.borrow), (0x70, 2, rp.period)] ++
      carried b [(0x04, 2), (0x06, 2), (0x0A, 1), (0x0B, 1), (0x0C, 2), (0x0E, 2), (0x10, 2), (0x12, 2), (0x16, 2), (0x18, 8),
                 (0x20, 1), (0x21, 1), (0x22, 1), (0x28, 8)]))

/-! #### Decode context (R83, R90) -/

def State.decImage (s : State) (b : Bytes) : Image :=
  let flags := rd b 0x02 2
  let codec := fld flags 0 2
  let depth := orDefault (rd b 0x0A 1) 8
  let ten := decide (depth = 10)
  let w := rd b 0x04 2
  let h := rd b 0x06 2
  let rate := if codec = 2 then 249000000 else 498000000
  if decide (2 < codec) || (decide (depth ≠ 8) && !ten) || (decide (codec = 1) && ten) || (decide (codec = 2) && tb flags 2) ||
      decide (w = 0) || decide (h = 0) || decide (4096 < w) || decide ((if codec = 1 then 2304 else 2176) < h) ||
      decide (rd b 0x10 2 = 0) || decide (rd b 0x12 2 = 0) || decide (rate * rd b 0x12 2 < w * h * rd b 0x10 2) ||
      decide (2 < rd b 0x0B 1) || !s.poolIs (rd b 0x0E 1) tFRAME || decide ((s.pool (rd b 0x0E 1)).cfg.bufSize < frameSize w h ten) ||
      (tb flags 3 && (!s.poolIs (rd b 0x0F 1) tFRAME ||
        decide ((s.pool (rd b 0x0F 1)).cfg.bufSize < writeOutSize w (if codec = 1 then ceilDiv h 16 * 16 else ceilDiv h 8 * 8) ten))) then .error cBAD_PARAM
  else if !s.refOk (rd b 0x0C 2) kFLOW then .error cSTATE
  else .ok (recordOf ([(0x00, 1, kDEC), (0x01, 1, 1), (0x02, 2, fld flags 0 4), (0x0A, 1, depth), (0x14, 1, 0xFF),
      (0x18, 4, 0xFFFFFFFF)] ++ (List.range 16).map (fun i => (0x30 + 4 * i, 4, 0xFFFFFFFF)) ++
    carried b [(0x04, 2), (0x06, 2), (0x0B, 1), (0x0C, 2), (0x0E, 1), (0x0F, 1), (0x10, 2), (0x12, 2)]))

/-! #### Composition context (R189, R194, R197) -/

def State.posOk (s : State) (v : Nat) : Bool := s.inBounds 0x0302 (fld v 0 13) && s.inBounds 0x0302 (fld v 16 13)

def State.cmpImage (s : State) (b : Bytes) : Image :=
  let n := rd b 0x0A 1
  let e := rd b 0x08 2
  let slots := List.range 16
  if decide (n = 0) || decide (16 < n) || decide (rd b 0x10 8 % 512 ≠ 0) || decide (2 < fld (rd b 0x02 2) 0 2) then .error cBAD_PARAM
  else if !s.isOpen e kENC then .error cSTATE
  else if decide (rd b 0x04 2 ≠ s.cf e 0x04 2) || decide (rd b 0x06 2 ≠ s.cf e 0x06 2) then .error cBAD_PARAM
  else if !((List.range n).all (fun i => s.posOk (rd b (0x40 + 12 * i) 4) && s.inBounds 0x0301 (fld (rd b (0x48 + 12 * i) 2) 0 8))) then
    .error cOUT_OF_BOUNDS
  else .ok (recordOf ([(0x00, 1, kCMP), (0x01, 1, 1), (0x02, 2, fld (rd b 0x02 2) 0 5), (0x0C, 4, fld (rd b 0x0C 4) 0 30)] ++
    carried b [(0x04, 2), (0x06, 2), (0x08, 2), (0x0A, 1), (0x0B, 1), (0x10, 8)] ++
    slots.flatMap (fun i =>
      let p := fld (rd b (0x40 + 12 * i) 4) 0 13 + fld (rd b (0x40 + 12 * i) 4) 16 13 * 2 ^ 16
      let a := fld (rd b (0x48 + 12 * i) 2) 0 8
      [(0x40 + 12 * i, 4, p), (0x44 + 12 * i, 4, p), (0x48 + 12 * i, 2, a), (0x4A + 12 * i, 2, a)])))

/-! #### Tile family and tile (R201 to R203, R213, R214) -/

/-- `r` is the record the family will take: a group of 0xFFFF names itself. -/
def State.famImage (s : State) (b : Bytes) (r : Nat) : Image :=
  let g := if rd b 0x04 2 = 0xFFFF then r else rd b 0x04 2
  let rate := rd b 0x0C 4
  if decide (fld rate 0 16 = 0) || decide (fld rate 16 16 = 0) || decide (rd b 0x0A 2 < 2) || decide (256 < rd b 0x0A 2) then
    .error cBAD_PARAM
  else if g ≠ r ∧ ¬ (s.isOpen g kFAM = true ∧ s.cf g 0x04 2 = g) then .error cSTATE
  else if g ≠ r ∧ (s.cf g 0x02 2 ≠ fld (rd b 0x02 2) 0 2 ∨ s.cf g 0x0A 2 ≠ rd b 0x0A 2) then .error cBAD_PARAM
  else .ok (recordOf ([(0x00, 1, kFAM), (0x01, 1, 1), (0x02, 2, fld (rd b 0x02 2) 0 2), (0x04, 2, g), (0x18, 2, 0xFFFF)] ++
    carried b [(0x0A, 2), (0x0C, 4)]))

def State.tileImage (s : State) (b : Bytes) : Image :=
  let fam := rd b 0x02 2
  let strip := tb (s.cf fam 0x02 2) 0
  let w := rd b 0x08 2
  let h := rd b 0x0A 2
  if !s.isOpen fam kFAM || !s.refOk (rd b 0x04 2) kENC || !s.refOk (rd b 0x06 2) kCMP then .error cSTATE
  else if decide (rd b 0x10 8 % 64 ≠ 0) || (!strip && (decide (w < 256) || decide (h < 64))) || decide (4096 < w) ||
      decide ((if strip then 2304 else 2176) < h) || (strip && decide (h % 16 ≠ 0)) || (!strip && decide (rd b 0x0E 2 ≠ 0)) ||
      decide (440 ≤ s.cf fam 0x06 2) then .error cBAD_PARAM
  else .ok (recordOf ([(0x00, 1, kTILE), (0x01, 1, 1)] ++
    carried b [(0x02, 2), (0x04, 2), (0x06, 2), (0x08, 2), (0x0A, 2), (0x0E, 2), (0x10, 8)]))

/-- The record that an image of a kind gives. -/
def State.imageOf (s : State) (k r : Nat) (b : Bytes) : Image :=
  let b := padTo 256 b
  if k = kSESS then s.sessImage b else if k = kFLOW then s.flowImage b else if k = kENC then s.encImage b
  else if k = kDEC then s.decImage b else if k = kCMP then s.cmpImage b else if k = kFAM then s.famImage b r
  else if k = kTILE then s.tileImage b else .error cBAD_PARAM

/-! ### Admission (R177, R178) -/

/-- The egress descriptors of a local port beyond the two that firmware opens (R289), or the internal ones for a link. -/
def State.freeEgress (s : State) (p : Nat) : Option Nat :=
  if p < 256 then firstFrom (fun q => !(s.queue q).en) (p * s.way.qPerPort + 2) (s.way.qPerPort - 2)
  else
    let base := (s.way.queueParts.take 3).foldl (· + ·) 0
    firstFrom (fun q => !(s.queue q).en) base (getAt 0 s.way.queueParts 3)
def State.freeIngress (s : State) : Option Nat :=
  firstFrom (fun q => !(s.queue q).en) (getAt 0 s.way.queueParts 0) (getAt 0 s.way.queueParts 1)

/-- Check 4: the rates of a family, and the codec of the families that a session shows. -/
def State.timingOk (s : State) (k r : Nat) : Bool :=
  let fam := if k = kSESS then s.cf r 0x3C 2 else if k = kENC then s.cf r 0x0C 2 else if k = kFAM then s.cf r 0x04 2 else 0xFFFF
  let num := if k = kFAM then fld (s.cf r 0x0C 4) 16 16 else s.cf r 0x10 2
  let den := if k = kFAM then fld (s.cf r 0x0C 4) 0 16 else s.cf r 0x12 2
  if decide (fam = 0xFFFF) then true
  else
    let x := s.cf fam 0x0C 4
    decide (fld x 16 16 * den = fld x 0 16 * num) &&
    (if k = kSESS then decide (tb (s.cf fam 0x02 2) 0 = tb (s.cf r 0x02 2) 2) && decide (tb (s.cf r 0x02 2) 2 = decide (s.cf r 0x0E 2 = 16))
     else if k = kENC then decide (tb (s.cf fam 0x02 2) 0 = s.isAvc r) else true)

/-- Check 6: the aggregate over the lanes in service. -/
def State.sumOk (s : State) : Bool :=
  let n := ((List.range 64).filter (fun l => s.laneUp l && decide ((s.lane l).role ≠ 3))).length
  let load := s.opens.foldl (fun a e => if e.2 = 3 ∨ e.2 = 4 then a + s.ctxLoad e.1 else a) 0
  decide (100 * load ≤ 92 * n * s.laneCap)

/-- Check 9 for a record: the port of a session within 0.90 of its line rate, and each encode target within its session's budget. -/
def State.portBudgetOk (s : State) (k r : Nat) : Bool :=
  if k = kSESS then
    let p := s.cf r 0x04 2
    let e := s.cf r 0x38 2
    (decide (255 < p) || decide (10 * s.portDemand p ≤ 9 * s.lineKbps p)) &&
    (decide (e = 0xFFFF) || decide (s.targetAct e ≤ s.cf r 0x14 4))
  else if k = kENC then
    let d := s.cf r 0x16 2
    decide (d = 0xFFFF) || decide (s.targetAct r ≤ s.cf d 0x14 4)
  else true

/-- A session's port exists in the structure. -/
def State.portThere (s : State) (k r : Nat) : Bool :=
  decide (k ≠ kSESS) || decide (255 < s.cf r 0x04 2) || !s.portOff (s.cf r 0x04 2)

/-- Check 10 (R26, R334): at module 0, the streams that cross a link, its own and those that it has admitted for other modules. On another
module the answer for the session comes from module 0, if its link is up. -/
def State.cascadeOk (s : State) (k r : Nat) : Bool :=
  let p := s.cf r 0x04 2
  if k ≠ kSESS ∨ p < 0x8000 then true
  else if s.plt.cascId = 0 then
    let l := (p / 256 % 128 + 3) % 4
    decide ((s.link l).ph = .up) && decide (s.pathDemand p + s.remoteLoad 0 (p / 256 % 128) ≤ s.linkKbps l)
  else
    let l := (7 - s.plt.cascId) % 4
    decide ((s.link l).ph = .up) && Config.module0Admits s.free

/-- The checks of R177 on the state `t` in which the new record `r` of kind `k` stands; the first failure's code. Every check holds over all
that is open, with the new work. (DEDUCED, log 51.) -/
def State.refusal (t : State) (k r : Nat) : Option Nat :=
  let coded := decide (k = kENC) || decide (k = kDEC)
  if k = kSESS ∧ (t.freeEgress (t.destOf r)).isNone then some 0x24
  else if k = kFLOW ∧ t.freeIngress.isNone then some 0x24
  else if !(t.timingOk k r && t.opens.all (fun e => t.timingOk e.2 e.1)) then some 0x26
  else if coded && !((List.range 64).any (fun l => t.suits l r false)) then some 0x27
  else if (coded && (t.choose r false false).isNone) || !t.sumOk then some 0x20
  else if 92 * t.pipeRate * t.pipesUp < 100 * t.cmpDemand then some 0x21
  else if t.memRate < t.memDemand then some 0x22
  else if !(t.portThere k r && t.portBudgetOk k r && t.opens.all (fun e => t.portBudgetOk e.2 e.1)) then some 0x25
  else if !t.cascadeOk k r then some 0x20
  else none

/-! ### Opening (R36, R68, R384) -/

/-- The SP that owns a session (R49). -/
def State.spOf (s : State) (d : Nat) : Nat :=
  match s.way.sessSp.find? (fun e => decide (e.1 ≤ d) && decide (d ≤ e.2.1)) with
  | some e => e.2.2
  | none => 1

/-- A queue descriptor enabled for destination `dest` and class `c`. -/
def State.enableQueue (s : State) (q dest c : Nat) : State :=
  s.setQueue q { en := true, dest := dest, cls := c, shaper := 0xFFFF }

/-- References to the new record set in the records that it names, where they name none. -/
def State.linkBack (s : State) (r k off : Nat) (t : Nat) : State :=
  if s.isOpen r k && decide (s.cf r off 2 = 0xFFFF) then s.setCf r off 2 t else s

/-- The module's own state of a record that opens. -/
def State.startCtx (s : State) (k r : Nat) : State :=
  if k = kSESS then
    let dest := s.destOf r
    let q := (s.freeEgress dest).getD 0
    let s := (s.enableQueue q dest 6).setCf r 0x07 1 (s.spOf r)
    let seq := (Config.rtpStart s.free).toNat
    let s := { s.draw with
      sessQ := Tbl.put s.sessQ r q
      erelm := { s.erelm with sess := Tbl.put s.erelm.sess r {} }
      msc := { s.msc with rasters := Tbl.put s.msc.rasters r {} }
      asm := { s.asm with seqs := Tbl.put s.asm.seqs r seq, next := Tbl.del s.asm.next r, nets := Tbl.del s.asm.nets r } }
    (s.linkBack (s.cf r 0x38 2) kENC 0x16 r).tellStream r true
  else if k = kFLOW then
    let q := s.freeIngress.getD 0
    let s := s.enableQueue q (256 + Config.asmUnit r % 4) 5
    let s := { s with flowQ := Tbl.put s.flowQ r q, asm := { s.asm with dj := Tbl.put s.asm.dj r {} } }
    s.linkBack (s.cf r 0x30 2) kDEC 0x0C r
  else if k = kENC then
    let n := s.msc.admitOrd
    let s := { s with msc := { s.msc with admitOrd := n + 1 } }
    let s := s.setEnc r { ord := n, high := !s.isAvc r && hevcHigh (s.cf r 0x09 1) (s.cf r 0x50 4) }
    let s := match s.choose r false false with
      | some l => (s.setCf r 0x14 1 l).wakeLane l
      | none => s
    ((s.linkBack (s.cf r 0x16 2) kSESS 0x38 r).linkBack (s.cf r 0x0E 2) kTILE 0x04 r)
  else if k = kDEC then
    let n := s.msc.admitOrd
    let s := { s with msc := { s.msc with admitOrd := n + 1 } }
    let s := s.setDec r { ord := n }
    let s := match s.choose r false false with
      | some l => (s.setCf r 0x14 1 l).wakeLane l
      | none => s
    s.linkBack (s.cf r 0x0C 2) kFLOW 0x30 r
  else if k = kCMP then
    let s := s.setCmpCtx r {}
    let e := s.cf r 0x08 2
    (s.linkBack (s.cf e 0x16 2) kSESS 0x3A r).linkBack (s.cf e 0x0E 2) kTILE 0x06 r
  else if k = kTILE then
    let fam := s.cf r 0x02 2
    (s.incCf fam 0x06 2 1).linkBack (s.cf r 0x04 2) kENC 0x0E r
  else s

/-- CTX_OPEN: completion code, detail and result. (DEDUCED, log 103.) -/
def State.openCtx (s : State) (k : Nat) (b : Bytes) : State × Nat × Nat × Bytes :=
  if k = 0 ∨ 7 < k then (s, cBAD_PARAM, 0, [])
  else if s.way.fallback then (s.bump bMSC 5, cREFUSED, 0x28, [])
  else match s.freeRec k with
    | none => (s.bump bMSC 5, cREFUSED, 0x23, [])
    | some r =>
      match s.imageOf k r b with
      | .error c => (s, c, 0, [])
      | .ok img =>
        let t := State.noCarry { s.setCtx r 0 img with opens := Tbl.put s.opens r k } r
        let t := if k = kSESS then t.drawCarry r else t
        -- the layer table starts with every slot OFF
        let t := if k = kCMP then t.store (t.cf r 0x10 8) (zeros 512) else t
        match t.refusal k r with
        | some c => (s.bump bMSC 5, cREFUSED, c, [])
        | none => (t.startCtx k r, cOK, 0, leBytes 2 r)

/-! ### Changing (R65, R124, R194, R244) -/

/-- A context's unit is running: rows are dispatched (R63). -/
def State.ctxRuns (s : State) (r : Nat) : Bool :=
  match Tbl.find s.opens r with
  | some 1 => s.paced r
  | _ => decide (s.cf r 0x01 1 = 2)

/-- A shadow of `n` bytes at `off` written, with its active field behind it (R62, R63, R65). -/
def State.shadowWrite (s : State) (r off n v : Nat) : State :=
  if s.ctxRuns r then (s.setCf r off n v).setCf r (off + n) n (fld (s.cf r (off + n) n) 0 (8 * n - 1) + 2 ^ (8 * n - 1))
  else (s.setCf r off n v).setCf r (off + n) n v

def State.changeEnc (s : State) (r : Nat) (b : Bytes) : State × Nat × Nat :=
  let v := rd b 0x50 4
  match encLimits (s.isAvc r) (fld (s.cf r 0x02 2) 2 2) (s.cf r 0x15 1) (s.cf r 0x08 1) with
  | none => (s, cBAD_PARAM, 0)
  | some l =>
    if v < 64 ∨ 400000 < v ∨ l.kbps < v then (s, cBAD_PARAM, 0)
    else if !s.inBounds 0x0101 v then (s, cOUT_OF_BOUNDS, 0)
    else (s.shadowWrite r 0x50 4 v, cOK, 0)

/-- A session's parameters: the lead at its boundary, the others at once; a refused session waits for HELLO again (R245). -/
def State.changeSess (s : State) (d : Nat) (b : Bytes) : State × Nat × Nat :=
  let b' := splice (splice (splice b 0x04 (leBytes 2 (s.cf d 0x04 2))) 0x38 (leBytes 2 (s.cf d 0x38 2))) 0x3A (leBytes 2 (s.cf d 0x3A 2))
  match s.sessImage b' with
  | .error c => (s, c, 0)
  | .ok img =>
    let t := [(0x06, 1), (0x08, 2), (0x0A, 2), (0x0C, 2), (0x0E, 2), (0x10, 2), (0x12, 2), (0x14, 4), (0x2C, 4), (0x34, 4),
              (0x3C, 2)].foldl (fun (s : State) f => s.setCf d f.1 f.2 (rd img f.1 f.2)) s
    let t := t.setCf d 0x02 2 (fld (s.cf d 0x02 2) 0 1 + fld (rd img 0x02 2) 1 2 * 2)
    let lead := fld (rd img 0x30 2) 0 4
    let rows := match (s.es d).hello with
      | some h => h.bufRows.toNat
      | none => 16
    -- R244: a lead that the endpoint's rows cannot hold
    if decide (lead ≠ fld (s.cf d 0x30 2) 0 4) && decide (rows ≤ lead) then (s, cBAD_PARAM, 0)
    else if !t.timingOk kSESS d then (s.bump bMSC 5, cREFUSED, 0x26)
    else if !t.portBudgetOk kSESS d then (s.bump bMSC 5, cREFUSED, 0x25)
    else if !t.cascadeOk kSESS d then (s.bump bMSC 5, cREFUSED, 0x20)
    else
      let t := t.shadowWrite d 0x30 2 (rd img 0x30 2)
      let t := if (t.es d).ph = .refused then t.setEs d ((t.es d).clear .waitHello) else t
      (t, cOK, 0)

/-- Positions and alphas whose value differs from the shadow; global alpha and background at the same boundary (R194). -/
def State.changeCmp (s : State) (c : Nat) (b : Bytes) : State × Nat × Nat :=
  let slots := List.range (s.cf c 0x0A 1)
  if !(slots.all (fun i => s.posOk (rd b (0x40 + 12 * i) 4) && s.inBounds 0x0301 (fld (rd b (0x48 + 12 * i) 2) 0 8))) then
    (s, cOUT_OF_BOUNDS, 0)
  else
    let s := slots.foldl (fun s i =>
      let p := fld (rd b (0x40 + 12 * i) 4) 0 13 + fld (rd b (0x40 + 12 * i) 4) 16 13 * 2 ^ 16
      let a := fld (rd b (0x48 + 12 * i) 2) 0 8
      let s := if p = s.cf c (0x40 + 12 * i) 4 then s else s.shadowWrite c (0x40 + 12 * i) 4 p
      if a = s.cf c (0x48 + 12 * i) 2 then s else s.shadowWrite c (0x48 + 12 * i) 2 a) s
    let x := s.cmpCtx c
    let ga := if rd b 0x0B 1 = s.cf c 0x0B 1 then x.pendGa else some (rd b 0x0B 1)
    let bg := if fld (rd b 0x0C 4) 0 30 = s.cf c 0x0C 4 then x.pendBg else some (fld (rd b 0x0C 4) 0 30)
    (s.setCmpCtx c { x with pendGa := ga, pendBg := bg }, cOK, 0)

/-- CTX_CHANGE. The kinds that have nothing to change take the image and ignore it. -/
def State.changeCtx (s : State) (r : Nat) (b : Bytes) : State × Nat × Nat :=
  let b := padTo 256 b
  match Tbl.find s.opens r with
  | none => (s, if 40960 ≤ r then cBAD_PARAM else cSTATE, 0)
  | some 1 => s.changeSess r b
  | some 3 => s.changeEnc r b
  | some 5 => s.changeCmp r b
  | some _ => (s, cOK, 0)

/-! ### Closing (R65, R149, R204, R219, R248) -/

/-- Row jobs of a context dropped: from the table, the lanes' queues, the pipes, and the row a lane executes. -/
def State.dropJobs (s : State) (r : Nat) : State :=
  let hit := fun (j : Job) => decide (j.ctx = r)
  let s := s.lanes.foldl (fun s e =>
    let x := s.lane e.1
    let s := s.setLane e.1 { x with queue := x.queue.filter (fun j => !hit j), failed := x.failed.filter (fun j => !hit j),
                                    active := x.active.filter (fun c => decide (c ≠ r)),
                                    prefetch := x.prefetch.filter (fun c => decide (c ≠ r)) }
    match x.run with
    | some run => if hit run.job then s.endRun e.1 else s
    | none => s) s
  let s := s.cmp.pipes.foldl (fun s e =>
    match e.2.job with
    | some j => if hit j then s.setPipe e.1 { s.pipe e.1 with job := none, begun := false, idleAt := none } else s
    | none => s) s
  { s with msc := { s.msc with jobs := s.msc.jobs.filter (fun e => !hit e.2), waiting := s.msc.waiting.filter (fun j => !hit j) } }

/-- A record closed: its image stays, with state 0 (R68). -/
def State.shutRec (s : State) (r : Nat) : State := { s.setCf r 0x01 1 0 with opens := Tbl.del s.opens r }

def State.closeEnc (s : State) (r : Nat) : State :=
  let l := s.cf r 0x14 1
  let s := s.dropJobs r
  let held := (s.encRefs r ++ [w32 (s.cf r 0x24 4)] ++ (s.enc r).recons.map Prod.snd).filter (fun h => decide (h ≠ nullHandle))
  let s := s.clearHolds l held.eraseDups
  let s := (Tbl.get [] s.asm.rows r).foldl (fun s c => c.slices.foldl (fun s h => s.freeRef (aLane c.lane) h) s) s
  let s := s.setCf r 0x50 4 (s.targetAct r)
  let s := s.setCf r 0x54 4 (s.targetAct r)
  let s := (s.opens.filter (fun e => decide (e.2 = 1) && decide (s.cf e.1 0x38 2 = r))).foldl (fun s e => s.setCf e.1 0x38 2 0xFFFF) s
  { s.shutRec r with msc := { s.msc with encs := Tbl.del s.msc.encs r }, asm := { s.asm with rows := Tbl.del s.asm.rows r } }

/-- What the row in execution makes of a decode record, as a close finds it: its picture's buffer is one of the context's. -/
def State.showStaged (s : State) (r : Nat) : State :=
  s.lanes.foldl (fun s e => match e.2.run with
    | some x => if x.job.op = .decode ∧ x.job.ctx = r ∧ ¬ x.visible then s.applyStaged r x.job.staged else s
    | none => s) (s.msc.jobs.foldl (fun s e => if e.2.op = .decode ∧ e.2.ctx = r then s.applyStaged r e.2.staged else s) s)

def State.closeDec (s : State) (r : Nat) : State :=
  let l := s.cf r 0x14 1
  let s := (s.showStaged r).dropJobs r
  let x := s.dec r
  let held := (x.refs ++ x.waiting ++ [w32 (s.cf r 0x18 4)] ++ x.released.toList).filter (fun h => decide (h ≠ nullHandle))
  let s := s.clearHolds l held.eraseDups
  let s := match x.lastGood with
    | some h => s.decRefA (aLane l) h
    | none => s
  { s.shutRec r with msc := { s.msc with decs := Tbl.del s.msc.decs r } }

def State.closeCmp (s : State) (c : Nat) : State :=
  let s := (s.dropJobs c).unbind c 0
  let s := (List.range 16).foldl (fun s i =>
    let p := fld (s.cf c (0x44 + 12 * i) 4) 0 31
    let a := fld (s.cf c (0x4A + 12 * i) 2) 0 15
    (((s.setCf c (0x40 + 12 * i) 4 p).setCf c (0x44 + 12 * i) 4 p).setCf c (0x48 + 12 * i) 2 a).setCf c (0x4A + 12 * i) 2 a) s
  { s.shutRec c with cmp := { s.cmp with ctxs := Tbl.del s.cmp.ctxs c } }

def State.closeFlow (s : State) (f : Nat) : State :=
  let q := Tbl.find s.flowQ f
  let s := { s.shutRec f with flowQ := Tbl.del s.flowQ f, asm := { s.asm with dj := Tbl.del s.asm.dj f } }
  match q with
  | some q => (s.setQueue q { s.queue q with draining := true }).closeIfEmpty q
  | none => s

/-- An object that others still name (R383 STATE): a family with tiles or encode contexts, a tile that a display shows, an encode
context with a composition context or tile. -/
def State.boundCtx (s : State) (r : Nat) : Bool :=
  match Tbl.find s.opens r with
  | some 3 => s.opens.any (fun e => (decide (e.2 = 5) && decide (s.cf e.1 0x08 2 = r)) || (decide (e.2 = 7) && decide (s.cf e.1 0x04 2 = r)))
  | some 6 => s.opens.any (fun e => (decide (e.2 = 7) && decide (s.cf e.1 0x02 2 = r)) || (decide (e.2 = 3) && decide (s.cf e.1 0x0C 2 = r)) ||
      (decide (e.2 = 6) && decide (e.1 ≠ r) && decide (s.cf e.1 0x04 2 = r)))
  | some 7 => decide (0 < s.cf r 0x0C 2)
  | _ => false

/-- CTX_CLOSE: none when the command completes later, with the session's closing (R248). -/
def State.closeCtx (s : State) (c : CmdRef) (r : Nat) : State × Option Nat :=
  if s.boundCtx r then (s, some cSTATE)
  else match Tbl.find s.opens r with
    | none => (s, some (if 40960 ≤ r then cBAD_PARAM else cSTATE))
    | some 1 => (s.closeEs r 1 (some c), none)
    | some 2 => (s.closeFlow r, some cOK)
    | some 3 => (s.closeEnc r, some cOK)
    | some 4 => (s.closeDec r, some cOK)
    | some 5 => (s.closeCmp r, some cOK)
    | some 7 =>
      let fam := s.cf r 0x02 2
      (((s.setCf fam 0x06 2 (s.cf fam 0x06 2 - 1)).setCf r 0x0C 2 0).shutRec r, some cOK)
    | some _ => (s.shutRec r, some cOK)

/-! ### Layouts and network parameters (R204, R215, R230, R245) -/

/-- The entries of a grid table, with the tile that each names. -/
def gridEntries (b : Bytes) : List (Nat × Bytes) :=
  (List.range (b.length / 8)).map (fun i =>
    let e := (b.drop (8 * i)).take 8
    (Config.layoutTile e, e))

/-- LAYOUT_SET. -/
def State.setLayout (s : State) (d : Nat) (b : Bytes) : State × Nat × Nat :=
  if !s.isOpen d kSESS then (s, if 40960 ≤ d then cBAD_PARAM else cSTATE, 0)
  else
    let l := gridEntries b
    let g := l.map (fun e => (e.1, destOfBytes e.2 d))
    if s.sec.wm.state = 2 then (s, cREFUSED, 0x28)
    else if !s.layoutOk d g then (s, cBAD_PARAM, 0)
    else if !s.layoutTiming d g then (s.bump bMSC 5, cREFUSED, 0x26)
    else
      let s := { s with asm := { s.asm with lay := Tbl.put s.asm.lay d l } }
      (s.dueLayouts, cOK, 0)

/-- SESSION_NET. -/
def State.setNet (s : State) (d : Nat) (n : Net) : State × Nat :=
  if !s.isOpen d kSESS then (s, if 40960 ≤ d then cBAD_PARAM else cSTATE)
  else if n.pt < 96 ∨ 127 < n.pt ∨ (n.keyId ≠ 0 ∧ (Tbl.find s.sec.keys n.keyId.toNat).isNone = true) then (s, cBAD_PARAM)
  else
    let s := { s with asm := { s.asm with nets := Tbl.put s.asm.nets d n } }
    (if (s.es d).ph = .refused then s.setEs d ((s.es d).clear .waitHello) else s, cOK)

end Sys2Proof.Machine
end

