-- ==== Sys2Proof/Machine/Control.lean ====
section
/-! DEFINITION. Control (chapter 18): claims and completes of event targets (R400 to R402), the session processors (R394),
and the DMA engine (R405 to R410). -/

namespace Sys2Proof.Machine

open Sys2Proof

/-! ### Claim, complete, thaw (R399 to R402) -/

/-- CLAIM: what the read returns goes out, and the source is put in service. -/
def State.claimOp (s : State) (t : Nat) : State :=
  let x := s.tgt t
  if x.frozen || !s.tgtEn t || !s.tgtClaims t then s.emit (.claimed t 0)
  else match s.best t with
    | none => (s.bump bEVC 3).emit (.claimed t 0)
    | some n =>
      if 8 ≤ x.stack.length then ((s.setTgt t { x with stackFull := true }).bump bEVC 4).emit (.claimed t 0)
      else
        let s := s.setTgt t { x with stack := (n, s.tgtThr t) :: x.stack, thr := s.prio n }
        ((s.setSrc n { s.src n with ph := .inService, again := false }).bump bEVC 2).emit (.claimed t n)

/-- COMPLETE: the top of the stack is finished, or the target freezes on a completion-order fault. -/
def State.completeOp (s : State) (t n : Nat) : State :=
  let x := s.tgt t
  if x.frozen then s
  else match x.stack with
    | (m, thr) :: rest =>
      if m = n then ((s.setTgt t { x with stack := rest, thr := thr }).release n).signalLeft t
      else
        let s := (s.setTgt t { x with frozen := true }).bump bEVC 5
        let s := if tb (s.fltCfg fEvcOrder) 4 then s else s.event .evcOrder t n
        s.raise fEvcOrder t n
    | [] =>
      let s := (s.setTgt t { x with frozen := true }).bump bEVC 5
      let s := if tb (s.fltCfg fEvcOrder) 4 then s else s.event .evcOrder t n
      s.raise fEvcOrder t n

/-- THAW: the stack's sources are pending again, and the target serves. (DEDUCED, log 35.) -/
def State.thawOp (s : State) (t : Nat) : State :=
  let x := s.tgt t
  let s := s.setTgt t { x with frozen := false, stack := [], thr := 0 }
  let s := x.stack.foldl (fun s e =>
    let y := s.src e.1
    if isLevel e.1 && !y.asserted then s.setSrc e.1 { y with ph := .idle, again := false, target := none }
    else (s.setSrc e.1 { y with ph := .pending, again := false, target := none }).assign e.1) s
  s.reassign

/-! ### Session processors (R394) -/

def State.cpu (s : State) (p : Nat) : Cpu := Tbl.get {} s.cpus p
def State.setCpu (s : State) (p : Nat) (x : Cpu) : State := { s with cpus := Tbl.put s.cpus p x }

/-- A processor that gives service `b` runs. -/
def State.serves (s : State) (b : Nat) : Bool := s.cpus.any (fun e => tb e.2.services b && decide (e.2.ph = .run))

/-- The commands that the processor has consumed and not completed complete ABORTED. -/
def State.abortCommands (s : State) : State :=
  s.hqe.rings.foldl (fun s e =>
    if (s.ring e.1).kind = kCMD then
      (s.ring e.1).flight.foldl (fun s f => s.complete e.1 f.e cABORTED 0 []) s
    else s) s

/-- The services of processor `p` move to the lowest-numbered SP in service. -/
def State.moveServices (s : State) (p : Nat) : State :=
  match [1, 2, 3, 4].find? (fun q => decide (q ≠ p) && decide ((s.cpu q).ph = .run)) with
  | none => s
  | some q =>
    let a := (s.cpu p).services
    let b := (s.cpu q).services
    let s := s.setCpu q { s.cpu q with services := maskOf ((List.range 6).filter (fun i => tb a i || tb b i)) }
    let s := s.setCpu p { s.cpu p with services := 0 }
    let s := { s with way := { s.way with sessSp := s.way.sessSp.map (fun (e : Nat × Nat × Nat) => if e.2.2 + 1 = p then (e.1, e.2.1, q - 1) else e) } }
    let mine := s.opens.filter (fun (e : Nat × Nat) => decide (e.2 = 1) && decide (s.cf e.1 0x07 1 + 1 = p))
    mine.foldl (fun (s : State) (e : Nat × Nat) => s.setCf e.1 0x07 1 (q - 1)) s

/-- SP_REPORT_MISSED. -/
def State.spMissed (s : State) (sp : Nat) : State :=
  let p := sp + 1
  let x := s.cpu p
  if x.ph ≠ .run then s
  else
    let s := if tb x.services 0 then s.abortCommands else s
    let again := x.watched && (match x.restartAt with
      | some t => decide (s.ns ≤ t + 60 * oneSec)
      | none => false)
    if again then
      let s := s.setCpu p { s.cpu p with ph := .mappedOut, watched := false }
      ((s.moveServices p).setHealth hSP).raise fCpuSpLost p 0
    else s.setCpu p { s.cpu p with ph := .restarting, restarts := satAdd x.restarts 1 255, restartAt := some s.ns, watched := true }

/-- SP_RESTART_COMPLETE: 3 ms after the restart. -/
def State.spRestarted (s : State) (sp : Nat) : State :=
  let p := sp + 1
  let x := s.cpu p
  match x.restartAt with
  | some t => if x.ph = .restarting ∧ t + 3 * ms ≤ s.ns then s.setCpu p { x with ph := .run } else s
  | none => s

/-- SP_HOLD_EXPIRE: the restart has held for 60 s. -/
def State.spHeld (s : State) (sp : Nat) : State :=
  let p := sp + 1
  let x := s.cpu p
  match x.restartAt with
  | some t => if x.watched ∧ x.ph = .run ∧ t + 60 * oneSec ≤ s.ns then s.setCpu p { x with watched := false } else s
  | none => s

/-! ### DMA (R405 to R410) -/

def State.dmaCh (s : State) (c : Nat) : DmaCh := Tbl.get {} s.dma.chans c
def State.setDmaCh (s : State) (c : Nat) (x : DmaCh) : State := { s with dma := { s.dma with chans := Tbl.put s.dma.chans c x } }

def dmaAddr (c off : Nat) : Nat := 0x601000 + 0x40 * c + off
def State.dmaReg (s : State) (c off : Nat) : Nat := (Tbl.get 0 s.regs (dmaAddr c off)).toNat
def State.dmaSrc (s : State) (c : Nat) : Nat := s.dmaReg c 0x10 + s.dmaReg c 0x14 * 2 ^ 32
def State.dmaDst (s : State) (c : Nat) : Nat := s.dmaReg c 0x18 + s.dmaReg c 0x1C * 2 ^ 32
def State.dmaCount (s : State) (c : Nat) : Nat := s.dmaReg c 0x20
/-- Source and destination in host memory; priority; IRQ. -/
def State.dmaSrcHost (s : State) (c : Nat) : Bool := tb (s.dmaReg c 0x24) 21
def State.dmaDstHost (s : State) (c : Nat) : Bool := tb (s.dmaReg c 0x24) 20
def State.dmaPrio (s : State) (c : Nat) : Nat := fld (s.dmaReg c 0x24) 22 2
def State.dmaPaced (s : State) (c : Nat) : Bool := tb (s.dmaReg c 0x2C) 31

/-- The range lies in the usable memory, and for a host channel in a carve-out that the host may access (flag 0). -/
def State.dmaRangeOk (s : State) (c a n : Nat) : Bool :=
  decide (a + n ≤ s.memEnd) &&
  (decide (c < 16) || s.way.carves.any (fun e => tb e.2.2.2 0 && decide (e.2.1 ≤ a) && decide (a + n ≤ e.2.1 + e.2.2.1)))

/-- The ring of a host ring queue descriptor, with whether it is the completion side (R375, R49). -/
def State.ringOfQueue (s : State) (q : Nat) : Option (Nat × Bool) :=
  let base := getAt 0 s.way.queueParts 0 + getAt 0 s.way.queueParts 1
  if base ≤ q ∧ q < base + getAt 0 s.way.queueParts 2 then some ((q - base) / 2, decide ((q - base) % 2 = 1)) else none

/-- The queue that a paced channel watches is enabled, and its fill (R408). -/
def State.dmaFill (s : State) (q : Nat) : Option Nat :=
  match s.ringOfQueue q with
  | some (r, cq) =>
    let x := s.ring r
    if x.ph = .free then none
    else some (min 65535 (if cq then serial32 x.produced.toNat x.headSeen.toNat else (x.waiting.filter Option.isSome).length))
  | none => if (s.queue q).en then some (min 65535 (s.queue q).cells) else none

/-- ERR of a GO that is refused; 0 when it is accepted. -/
def State.dmaErr (s : State) (c : Nat) : Nat :=
  let n := s.dmaCount c
  let marks := s.dmaReg c 0x30
  if (!s.dmaSrcHost c && !s.dmaRangeOk c (s.dmaSrc c) n) || (!s.dmaDstHost c && !s.dmaRangeOk c (s.dmaDst c) n) then 1
  else if s.dmaPaced c && (decide (fld marks 16 16 ≤ fld marks 0 16) || (s.dmaFill (fld (s.dmaReg c 0x2C) 0 18)).isNone) then 2
  else if s.dma.buserr then 3
  else if n = 0 then 6
  else 0

/-- A channel is ready to move data. -/
def State.dmaReady (s : State) (c : Nat) : Bool :=
  (s.dmaCh c).busy && s.running (dmaKey c) && (!s.dmaPaced c || (s.dmaCh c).armed)

/-- The writable fields of XCTL taken while BUSY reads 0, and DONE cleared by writing 1. -/
def State.dmaXctl (s : State) (c : Nat) (v : W32) : State :=
  let x := s.dmaCh c
  let s := if x.busy then s else { s with regs := Tbl.put s.regs (dmaAddr c 0x24) (w32 (fld v.toNat 20 5 * 2 ^ 20)) }
  if tb v.toNat 28 then s.setDmaCh c { x with done := false } else s

/-- The frame buffers that lie in [a, a + n) of module memory, in whole or in part. -/
def State.framesIn (s : State) (a n : Nat) : List W32 :=
  (s.bpm.bufs.filter (fun e => e.2.alloc)).filterMap (fun e =>
    let h := mkHandle (e.1 / 2 ^ 19) e.2.gen (e.1 % 2 ^ 19)
    if s.isFrame h && decide (s.bufAt h < a + n) && decide (a < s.bufAt h + (s.pool (hPool h)).cfg.bufSize) then some h else none)

/-- A transfer in progress counts on the frame buffers that it reads or writes (R149); its end releases them. -/
def State.dmaHold (s : State) (c : Nat) : State :=
  let n := s.dmaCount c
  let l := (if s.dmaSrcHost c then [] else s.framesIn (s.dmaSrc c) n) ++ (if s.dmaDstHost c then [] else s.framesIn (s.dmaDst c) n)
  l.eraseDups.foldl (fun s h =>
    let (s, ok) := s.incRef false h
    if ok then s.setDmaCh c { s.dmaCh c with holds := (s.dmaCh c).holds ++ [h] } else s) s
def State.dmaRelease (s : State) (c : Nat) : State :=
  let l := (s.dmaCh c).holds
  l.foldl (fun s h => s.decRefA aDma h) (s.setDmaCh c { s.dmaCh c with holds := [] })

/-- GO, with RESUME from where the channel stopped. -/
def State.dmaGo (s : State) (c : Nat) (v : W32) (resume : Bool) : State :=
  let x := s.dmaCh c
  if !(s.unit (dmaKey c)).en || x.busy then s.ignw (dmaKey c)
  else
    let s := s.dmaXctl c v
    let e := s.dmaErr c
    let x := s.dmaCh c
    if e ≠ 0 then s.setDmaCh c { x with err := e }
    else
      let n := if resume then min x.remain (s.dmaCount c) else s.dmaCount c
      let p := s.dmaPrio c
      let outranked := (List.range 32).any (fun d => s.dmaReady d && decide (s.dmaPrio d < p)) &&
        !((List.range 32).any (fun d => s.dmaReady d && decide (p ≤ s.dmaPrio d)))
      let armed := match s.dmaFill (fld (s.dmaReg c 0x2C) 0 18) with
        | some f => decide (fld (s.dmaReg c 0x30) 16 16 ≤ f)
        | none => false
      let s := s.setDmaCh c { x with busy := true, err := 0, remain := n, armed := armed, wait := s.dmaPaced c && !armed }
      (if outranked && s.dmaReady c then s.bump bDMA 2 else s).dmaHold c

/-- `n` bytes moved by channel `c` from where it stands; `src` are those read from the host. -/
def State.dmaMove (s : State) (c n : Nat) (src : Bytes) : State :=
  let x := s.dmaCh c
  let at_ := s.dmaCount c - x.remain
  let b := if s.dmaSrcHost c then padTo n src else s.dram (s.dmaSrc c + at_) n
  let s := if n = 0 then s else if s.dmaDstHost c then s.toHost (s.dmaDst c + at_) b else s.store (s.dmaDst c + at_) b
  (s.setDmaCh c { x with remain := x.remain - n }).bumpU bDMA 0 0 n

/-- A channel stopped in a transfer: what it had written by then stands, and ERR says why. -/
def State.dmaStop (s : State) (c err : Nat) : State :=
  let x := s.dmaCh c
  if !x.busy then s
  else
    let n := min x.remain (Config.dmaMoved s.free c)
    let s := s.dmaMove c n (Config.dmaBytes s.free)
    ((s.setDmaCh c { s.dmaCh c with busy := false, err := err, wait := false, armed := false }).dmaRelease c).draw

/-- A failed access: every channel stops (R409). -/
def State.dmaBusError (s : State) (addr : W64) (host write : Bool) : State :=
  if s.dma.chans.any (fun e => e.2.busy) then
    let s := (List.range 32).foldl (fun s c => s.dmaStop c 4) s
    let s := { s with dma := { s.dma with buserr := true, errWrite := write, errHost := host, errAddr := addr } }
    (s.bump bDMA 4).raise fDmaBuserr 0 0
  else s

/-- DMA_TRANSFER_DONE: the last write is visible. A paced channel that waits moves nothing; a read of poisoned memory fails. -/
def State.dmaDone (s : State) (c : Nat) (src : Bytes) : State :=
  let x := s.dmaCh c
  if !s.dmaReady c then s
  else
    let a := s.dmaSrc c + (s.dmaCount c - x.remain)
    if !s.dmaSrcHost c && s.poisoned a x.remain && decide (0 < x.remain) then s.dmaBusError (BitVec.ofNat 64 a) false false
    else
      let s := s.dmaMove c x.remain src
      let s := ((s.setDmaCh c { s.dmaCh c with busy := false, done := true, wait := false, armed := false }).dmaRelease c).bump bDMA 1
      if tb (s.dmaReg c 0x24) 24 then s.event (.dmaDone c) c 0 else s

/-- The requests of paced channels, by their marks (R408). -/
def State.dmaPace (s : State) : State :=
  s.dma.chans.foldl (fun s e =>
    let c := e.1
    let x := s.dmaCh c
    if !x.busy || !s.dmaPaced c then s
    else match s.dmaFill (fld (s.dmaReg c 0x2C) 0 18) with
      | none => s
      | some f =>
        let m := s.dmaReg c 0x30
        if !x.armed && decide (fld m 16 16 ≤ f) then s.setDmaCh c { x with armed := true, wait := false }
        else if x.armed && decide (f ≤ fld m 0 16) then
          (s.setDmaCh c { x with armed := false, wait := true }).bump bDMA 3
        else s) s

end Sys2Proof.Machine
end

