-- ==== Sys2Proof/Machine/Images.lean ====
section
/-! DEFINITION. Signed images (chapters 2 and 19): the flash, the keys, the header and signature of an image, bundles and
their bank, and the checks of a waymap (R40 to R43, R412 to R421). -/

namespace Sys2Proof.Machine

open Sys2Proof

/-! ### Flash (R413) -/

/-- `n` bytes of flash from `a`; an erased byte reads 0xFF. (PRESUMED, log 8.) -/
def flashGet (t : Tbl Byte) (a : Nat) : Nat → Bytes
  | 0 => []
  | n + 1 => Tbl.get 0xFF t a :: flashGet t (a + 1) n

def flashPut (t : Tbl Byte) (a : Nat) : Bytes → Tbl Byte
  | [] => t
  | b :: r => flashPut (Tbl.set 0xFF t a b) (a + 1) r

/-- A region erased: its bytes read 0xFF. -/
def flashErase (t : Tbl Byte) (a n : Nat) : Tbl Byte := t.filter (fun e => decide (e.1 < a) || decide (a + n ≤ e.1))

def State.readFlash (s : State) (a n : Nat) : Bytes := flashGet s.flash.data a n

/-- A region of `n` bytes erased, and bytes written at its start. -/
def State.writeFlash (s : State) (a n : Nat) (b : Bytes) : State :=
  { s with flash := { s.flash with data := flashPut (flashErase s.flash.data a n) a b } }

def bankOff (b : Nat) : Nat := if b = 0 then 0 else 0x1800000
def bankSize : Nat := 0x1800000
def slotOff (k : Nat) : Nat := if k = 0 then 0x3000000 else 0x3400000
def slotSize : Nat := 0x400000
def patchOff : Nat := 0x3800000
def patchSize : Nat := 0x200000

/-! ### Keys (R411, R412) -/

/-- signer_id of a public key: the first 8 bytes of its digest. -/
def signerId (key : Bytes) : Bytes := (Config.shake256 key 32).take 8

/-- A vendor slot is used when the ROM key's digest is the fused one and it is not revoked. -/
def State.vendorOk (s : State) (i : Nat) : Bool :=
  decide (Config.shake256 (Config.vendorKey i) 32 = Config.vendorHash i) && !tb s.flash.revoked i

def State.vendorFor (s : State) (id : Bytes) : Option Nat :=
  (List.range 4).find? (fun i => s.vendorOk i && decide (signerId (Config.vendorKey i) = id))

/-- The customer key that `id` names, when one is enrolled and its digest is CUST_HASH. -/
def State.custFor (s : State) (id : Bytes) : Option Bytes :=
  if !s.flash.custHash.isEmpty && decide (Config.shake256 s.flash.custKey 32 = s.flash.custHash) &&
     decide (signerId s.flash.custKey = id) then some s.flash.custKey else none

def State.enrolled (s : State) : Bool := !s.flash.custHash.isEmpty

/-! ### Image header and signature (R415, R416) -/

def imgMagic : Bytes := [0x46, 0x56, 0x49, 0x4D]
def imgKind (b : Bytes) : Nat := rd b 4 1
def imgLen (b : Bytes) : Nat := rd b 8 4
def imgVer (b : Bytes) : Nat := rd b 12 4
def imgSvn (b : Bytes) : Nat := rd b 19 1
def imgSigner (b : Bytes) : Bytes := (b.drop 20).take 8
def imgDevice (b : Bytes) : Bytes := (b.drop 28).take 16

/-- The header's constants are right, and header, body and signature fit `max` bytes (R421, BAD_HEADER). -/
def imgHdrOk (b : Bytes) (max : Nat) : Bool :=
  decide (64 ≤ b.length) && decide (b.take 4 = imgMagic) && decide (rd b 5 1 = 1) && decide (rd b 6 2 = 64) &&
  decide (rd b 16 2 = 0x9256) && decide (rd b 18 1 ≤ 0xB1) && decide (imgLen b % 8 = 0) && decide (64 ≤ imgLen b) &&
  decide (imgLen b + 114 ≤ max)

/-- The signature over bytes 0 to body_len - 1 verifies. -/
def sigOk (key b : Bytes) (context : String) (n : Nat) : Bool :=
  Config.edVerify key (Config.shake256 (b.take n) 64) context ((b.drop n).take 114)

/-- Codes of R421. -/
def eHEADER : Nat := 0x30
def eKIND : Nat := 0x31
def eSIGNATURE : Nat := 0x32
def eKEY : Nat := 0x33
def eROLLBACK : Nat := 0x34
def eDEVICE : Nat := 0x35
def eNOTENROLLED : Nat := 0x36
def eENROLLED : Nat := 0x37
def eCHALLENGE : Nat := 0x38
def eFULL : Nat := 0x39
def eFLASH : Nat := 0x3A
def eRUNNING : Nat := 0x3B
def eFUSE : Nat := 0x3C

/-- A vendor-signed image verified under `context`: 0, or the code. -/
def State.vendorCode (s : State) (b : Bytes) (context : String) : Nat :=
  match s.vendorFor (imgSigner b) with
  | none => eKEY
  | some i => if sigOk (Config.vendorKey i) b context (imgLen b) then 0 else eSIGNATURE

/-! ### Bundles and banks (R414, R417, R418) -/

/-- The image at a flash offset, as long as its header says. -/
def State.imageAt (s : State) (off : Nat) : Bytes := s.readFlash off (imgLen (s.readFlash off 64) + 114)

/-- A bundle verified: 0, or the code of R421 that REASON_A or REASON_B records. -/
def State.bundleCode (s : State) (b : Bytes) : Nat :=
  if imgKind b ≠ 1 then eKIND
  else
    let c := s.vendorCode b "FV9256-FW"
    if c ≠ 0 then c else if imgSvn b < s.flash.fwCtr then eROLLBACK else 0

def State.bankCode (s : State) (b : Nat) : Nat :=
  if imgHdrOk (s.readFlash (bankOff b) 64) bankSize then s.bundleCode (s.imageAt (bankOff b)) else eHEADER

/-- A component of a bundle, by type: 1 firmware, 2 microcode, 3 default waymap. -/
def component (b : Bytes) (type : Nat) : Bytes :=
  match (List.range 3).find? (fun i => decide (rd b (64 + 16 * i) 2 = type)) with
  | some i => (b.drop (rd b (64 + 16 * i + 2) 4)).take (rd b (64 + 16 * i + 6) 4)
  | none => []

/-- The bank that BOOT_SEL prefers: with AUTO the one whose header shows the higher version, A on equal ones. (DEDUCED, log 48.) -/
def State.preferredBank (s : State) (sel : Nat) : Nat :=
  if sel = 1 then 0
  else if sel = 2 then 1
  else
    let a := s.readFlash 0 64
    let b := s.readFlash (bankOff 1) 64
    if !imgHdrOk b bankSize then 0
    else if !imgHdrOk a bankSize then 1
    else if imgVer b ≤ imgVer a then 0 else 1

/-! ### Waymap images (R29 to R43) -/

/-- A section: its type, modules mask and body. -/
structure WmSec where
  type : Nat := 0
  mods : Nat := 0
  body : Bytes := []
  deriving DecidableEq, Repr

def wmMagic : Bytes := [0x57, 0x59, 0x4D, 0x50]
def wmVer (b : Bytes) : Nat := rd b 12 4
def wmCasc (b : Bytes) : Nat := rd b 19 1
def wmDetour (b : Bytes) : Bool := tb (rd b 22 2) 0

/-- The sections that body_len holds, and whether each fits it. -/
def wmParse (b : Bytes) (last off : Nat) : Nat → List WmSec × Bool
  | 0 => ([], true)
  | n + 1 =>
    if off = last then ([], true)
    else if last < off + 8 then ([], false)
    else
      let len := rd b (off + 4) 4
      if last < off + 8 + len then ([], false)
      else
        let rest := wmParse b last (off + 8 + ceilDiv len 8 * 8) n
        ({ type := rd b off 2, mods := rd b (off + 2) 1, body := (b.drop (off + 8)).take len } :: rest.1, rest.2)

def wmSecs (b : Bytes) : List WmSec := (wmParse b (rd b 8 4) 64 1025).1

/-- Module `m`'s section of a type. -/
def secFor (l : List WmSec) (m type : Nat) : Option Bytes :=
  (l.find? (fun x => decide (x.type = type) && tb x.mods m)).map WmSec.body

def lanesT : Nat := 3
def blocksT : Nat := 4
def queuesT : Nat := 5
def contextsT : Nat := 6
def poolsT : Nat := 7
def memmapT : Nat := 10
def boundsT : Nat := 12
def degradedT : Nat := 13

/-- Pool entries of a POOLS body (R37). -/
def poolEntries (b : Bytes) : List (Nat × PoolCfg) :=
  (List.range (b.length / 32)).map (fun i =>
    let e := (b.drop (32 * i)).take 32
    (rd e 0 1, { type := rd e 1 1, resClass := rd e 2 1, carve := rd e 3 1, bufSize := rd e 4 4, count := rd e 8 4,
                 warn := rd e 12 4, bp := rd e 16 4, reserve := rd e 20 4 }))

def rising : List Nat → Bool
  | a :: b :: r => decide (a < b) && rising (b :: r)
  | _ => true

/-- A POOLS body's values and order (R33). -/
def poolsShape (b : Bytes) : Bool :=
  let l := poolEntries b
  l.all (fun e => decide (e.2.type ≤ 3) && decide (e.2.resClass ≤ 4) && (decide (e.2.resClass = 0) || decide (e.2.type = 2))) &&
  rising (l.map Prod.fst) &&
  (match l with
   | (0, c) :: rest => decide (c.type = 0) && rest.all (fun e => decide (e.2.type ≠ 0))
   | _ => false)

/-- A body's length fits its layout (R33). -/
def bodyFits (type : Nat) (b : Bytes) : Bool :=
  match type with
  | 3 => decide (b.length = 256)
  | 4 => decide (b.length = 128)
  | 5 => decide (b.length = 20)
  | 6 => decide (b.length = 32)
  | 7 => decide (b.length ≠ 0) && decide (b.length % 32 = 0)
  | 12 => decide (b.length % 12 = 0)
  | 13 => Config.wmBodyOk 13 b && decide ((Config.wmDegraded b).2.2.length ≠ 0) &&
          decide ((Config.wmDegraded b).2.2.length % 32 = 0)
  | t => Config.wmBodyOk t b

/-- A body's fields hold values that its layout defines, and pool order holds (R33). -/
def bodyValues (type : Nat) (b : Bytes) : Bool :=
  match type with
  | 3 => (List.range 64).all (fun l => decide (rd b (4 * l) 1 ≤ 3))
  | 4 => (List.range 32).all (fun i => decide (rd b (4 * i) 1 ≤ 3) && decide (rd b (4 * i + 1) 1 ≤ 31))
  | 7 => poolsShape b
  | 13 => poolsShape (Config.wmDegraded b).2.2
  | _ => true

def firstBad (l : List WmSec) (ok : WmSec → Bool) : Option Nat := (l.findIdx? (fun x => !ok x))

/-- A later section of a mandatory type for a module of the image that an earlier one already serves. -/
def dupSection (mods : Nat) : List WmSec → List WmSec → Nat → Option Nat
  | [], _, _ => none
  | x :: r, seen, i =>
    if decide (1 ≤ x.type) && decide (x.type ≤ 12) &&
       seen.any (fun y => decide (y.type = x.type) && (List.range mods).any (fun m => tb x.mods m && tb y.mods m)) then some i
    else dupSection mods r (x :: seen) (i + 1)

/-- The lowest mandatory type missing for a module of the image. -/
def missingType (l : List WmSec) (mods : Nat) : Option Nat :=
  (List.range' 1 12).find? (fun t => (List.range mods).any (fun m => (secFor l m t).isNone))

/-- DEGRADED sections: at most 16 for a module of the image, no channel twice, no channel above 15 (R33). -/
def degradedBad (mods : Nat) : List WmSec → List WmSec → Nat → Option Nat
  | [], _, _ => none
  | x :: r, seen, i =>
    if x.type ≠ degradedT then degradedBad mods r seen (i + 1)
    else
      let c := (Config.wmDegraded x.body).1
      let clash := (List.range mods).any (fun m => tb x.mods m &&
        (decide (16 ≤ (seen.filter (fun y => tb y.mods m)).length) ||
         seen.any (fun y => tb y.mods m && decide ((Config.wmDegraded y.body).1 = c))))
      if 15 < c || clash then some i else degradedBad mods r (x :: seen) (i + 1)

/-- Check 6: the section structure and bodies. The answer holds SKIND and SECTION. -/
def check6 (b : Bytes) : Option (Nat × Nat) :=
  let (l, ok) := wmParse b (rd b 8 4) 64 1025
  let n := rd b 20 2
  if !ok then some (0, l.length)
  else if n = 0 ∨ 1024 < n ∨ n ≠ l.length then some (1, 0)
  else match firstBad l (fun x => decide (0x8000 ≤ x.type) || (decide (1 ≤ x.type) && decide (x.type ≤ 13))) with
    | some i => some (0, i)
    | none => match dupSection (wmCasc b) l [] 0 with
      | some i => some (0, i)
      | none => match missingType l (wmCasc b) with
        | some t => some (2, t)
        | none => match firstBad l (fun x => decide (0x8000 ≤ x.type) || bodyFits x.type x.body) with
          | some i => some (0, i)
          | none => match degradedBad (wmCasc b) l [] 0 with
            | some i => some (0, i)
            | none => (firstBad l (fun x => decide (0x8000 ≤ x.type) || bodyValues x.type x.body)).map (fun i => (0, i))

/-- Check 7: casc_size and this module's number. -/
def check7 (l : List WmSec) (casc cascId : Nat) : Option Nat :=
  match l.findIdx? (fun x => decide (x.type = 1) && decide (Config.wmCascade x.body ≠ casc)) with
  | some i => some i
  | none => if casc ≤ cascId ∨ casc = 0 ∨ 4 < casc then l.findIdx? (fun x => decide (x.type = 1)) else none

def aligned2M (n : Nat) : Bool := decide (n % 0x200000 = 0)

/-- Carve-outs: 2 MiB aligned, inside the usable memory, none overlapping another. -/
def carvesOk (l : List WmCarve) (usable : Nat) : Bool :=
  l.all (fun c => aligned2M c.1 && aligned2M c.2.1 && decide (c.1 + c.2.1 ≤ usable)) &&
  (List.range l.length).all (fun i => (List.range i).all (fun j =>
    let a := getAt (0, 0, 0) l i
    let b := getAt (0, 0, 0) l j
    decide (a.1 + a.2.1 ≤ b.1) || decide (b.1 + b.2.1 ≤ a.1)))

/-- The pools of one carve-out fit it; cells, frame buffers and pools are within the module's numbers. A pool whose carve index names no
carve-out fails here too: R37 and R42 name no check for it. (DESIGN CHOICE, log 120.) -/
def poolsFit (pools : List (Nat × PoolCfg)) (carves : List WmCarve) : Bool :=
  decide (pools.length ≤ 64) && pools.all (fun e => decide (e.1 < 64) && decide (e.2.count ≤ 2 ^ 19)) &&
  pools.all (fun e => decide (e.2.type ≠ 0) || decide (e.2.count ≤ 393216)) &&
  decide (((pools.filter (fun e => decide (e.2.type = 2))).map (fun e => e.2.count)).foldl (· + ·) 0 ≤ 8192) &&
  pools.all (fun e => decide (e.2.type = 0) || (decide (e.2.carve < carves.length) &&
    decide (((pools.filter (fun f => decide (f.2.type ≠ 0) && decide (f.2.carve = e.2.carve))).map
      (fun f => f.2.count * f.2.bufSize)).foldl (· + ·) 0 ≤ (getAt (0, 0, 0) carves e.2.carve).2.1)))

def counts (b : Bytes) (n : Nat) : List Nat := (List.range n).map (fun i => rd b (4 * i) 4)
def sumList (l : List Nat) : Nat := l.foldl (· + ·) 0

/-- Egress queues of a port are counted for each of 256 ports (R36). -/
def queueTotals (b : Bytes) : List Nat := 256 * rd b 0 4 :: (counts b 5).drop 1

/-- The queue counts fit (check 8). A count of egress queues that is no multiple of 8, or lies outside 8 to 1,024, fails here too: R36 states the
limit, and R42 names no check for it. (DESIGN CHOICE, log 120.) -/
def queuesFit (b : Bytes) : Bool :=
  decide (rd b 0 4 % 8 = 0) && decide (8 ≤ rd b 0 4) && decide (rd b 0 4 ≤ 1024) && decide (sumList (queueTotals b) ≤ 262144)

/-- The carve-outs that module `m` of the image has. -/
def carvesFor (l : List WmSec) (m : Nat) : List WmCarve := Config.wmMemmap ((secFor l m memmapT).getD [])

/-- Check 8: the section whose content breaks a partition. -/
def check8 (l : List WmSec) : Option Nat :=
  firstBad l (fun x =>
    if x.type = queuesT then queuesFit x.body
    else if x.type = contextsT then decide (sumList (counts x.body 8) ≤ 40960)
    else if x.type = memmapT then carvesOk (Config.wmMemmap x.body) 0x780000000
    else if x.type = poolsT then (List.range 8).all (fun m => !tb x.mods m || poolsFit (poolEntries x.body) (carvesFor l m))
    else if x.type = degradedT then
      let c := Config.wmMemmap (Config.wmDegraded x.body).2.1
      carvesOk c 0x708000000 && poolsFit (poolEntries (Config.wmDegraded x.body).2.2) c
    else true)

/-- Check 9: thresholds in order, and the consumer minima of R43. -/
def poolsReserved (l : List (Nat × PoolCfg)) : Bool :=
  l.all (fun e => decide (e.2.warn ≤ e.2.count) && decide (e.2.bp ≤ e.2.warn) && decide (e.2.reserve ≤ e.2.bp) &&
    (decide (e.2.type ≠ 0) || decide (4096 ≤ e.2.reserve)) && (decide (e.2.type ≠ 1) || decide (1024 ≤ e.2.reserve))) &&
  (match l.find? (fun e => decide (e.2.type = 3)) with
   | some e => decide (256 ≤ e.2.reserve)
   | none => false)

def check9 (l : List WmSec) : Option Nat :=
  firstBad l (fun x =>
    if x.type = poolsT then poolsReserved (poolEntries x.body)
    else if x.type = degradedT then poolsReserved (poolEntries (Config.wmDegraded x.body).2.2) else true)

/-- The edges left after removing, again and again, those whose source no edge enters: none when there is no cycle.
(DEDUCED, log 83.) -/
def trimEdges (e : List (Nat × Nat)) : Nat → List (Nat × Nat)
  | 0 => e
  | n + 1 => trimEdges (e.filter (fun x => e.any (fun y => decide (y.2 = x.1)))) n

def acyclic (e : List (Nat × Nat)) : Bool := (trimEdges e (e.length + 1)).isEmpty

def check10 (l : List WmSec) : Option Nat := firstBad l (fun x => decide (x.type ≠ 11) || acyclic (Config.wmEdges x.body))

/-- Check 11: carriageways (R34). -/
def laneEntryOk (b : Bytes) (l : Nat) : Bool :=
  let role := rd b (4 * l) 1
  let size := rd b (4 * l + 1) 1
  let lead := rd b (4 * l + 2) 1
  if size = 1 then decide (lead = l)
  else (decide (size = 2) || decide (size = 4) || decide (size = 8)) && decide (lead % size = 0) && decide (lead ≤ l) &&
    decide (l < lead + size) && decide (role ≠ 2) && decide (role ≠ 3) &&
    (List.range size).all (fun i => decide (rd b (4 * (lead + i) + 1) 1 = size) && decide (rd b (4 * (lead + i) + 2) 1 = lead))

def check11 (l : List WmSec) : Option Nat :=
  firstBad l (fun x => decide (x.type ≠ lanesT) || (List.range 64).all (laneEntryOk x.body))

/-- Maximum rate of a port block's class, in Gb/s (R35). -/
def classRate (c : Nat) : Nat := if c = 1 then 8 else if c = 2 then 20 else if c = 3 then 80 else 0

/-- Check 12: MC_10G in blocks 0 to 7 only, 128 Gb/s for a group (R50). -/
def blocksOk (b : Bytes) : Bool :=
  (List.range 32).all (fun i => decide (rd b (4 * i) 1 ≠ 3) || decide (i < 8)) &&
  (List.range 32).all (fun g => decide (sumList (((List.range 32).filter (fun i => decide (rd b (4 * i + 1) 1 = g))).map
    (fun i => classRate (rd b (4 * i) 1))) ≤ 128))

def check12 (l : List WmSec) : Option Nat := firstBad l (fun x => decide (x.type ≠ blocksT) || blocksOk x.body)

/-- Check 13: compact routing (R397). -/
def check13 (l : List WmSec) (casc : Nat) : Option Nat :=
  firstBad l (fun x => decide (x.type ≠ 9) ||
    (let e := Config.wmEvents x.body
     e.banked || (decide (casc ≤ 1) && decide (e.targets.length ≤ 8) && e.targets.all (fun t => decide (t ≤ 7)))))

/-- The entries of a BOUNDS body: ID, minimum, maximum (R38). -/
def boundEntries (b : Bytes) : List (Nat × Nat × Nat) :=
  (List.range (b.length / 12)).map (fun i => (rd b (12 * i) 2, rd b (12 * i + 4) 4, rd b (12 * i + 8) 4))

def boundIds : List Nat := [0x0101, 0x0201, 0x0202, 0x0203, 0x0301, 0x0302, 0x0401, 0x0501, 0x0502]

def noRepeat : List Nat → Bool
  | [] => true
  | a :: r => !r.contains a && noRepeat r

/-- Check 14: BOUNDS. -/
def check14 (l : List WmSec) : Option Nat :=
  firstBad l (fun x => decide (x.type ≠ boundsT) ||
    (let e := boundEntries x.body
     noRepeat (e.map Prod.fst) && e.all (fun y => boundIds.contains y.1 && decide (y.2.1 ≤ y.2.2) &&
       decide ((hwRange y.1).1 ≤ y.2.1) && decide (y.2.2 ≤ (hwRange y.1).2))))

/-- Checks 1 to 3 of R42, on the header: the code, or 0. -/
def wmHeader (b : Bytes) (avail : Nat) : Nat :=
  if avail < 64 ∨ b.length < 64 ∨ b.take 4 ≠ wmMagic ∨ rd b 4 2 ≠ 1 ∨ rd b 6 2 ≠ 64 then 1
  else if rd b 8 4 < 72 ∨ rd b 8 4 % 8 ≠ 0 ∨ avail < rd b 8 4 + 114 ∨ 0x400000 < rd b 8 4 + 114 then 2
  else if rd b 16 2 ≠ 0x9256 ∨ 0xB1 < rd b 18 1 then 3
  else 0

/-- Checks 4 and 5: the key of R41 and the signature. -/
def State.wmSigned (s : State) (b : Bytes) : Nat :=
  let id := (b.drop 40).take 8
  let key := if s.enrolled then s.custFor id else (s.vendorFor id).map Config.vendorKey
  match key with
  | none => 4
  | some k => if sigOk k b "FV9256-WM" (rd b 8 4) then 0 else 5

/-- The first of `l` that fails: code, SKIND 0 and SECTION. (DEDUCED, log 81.) -/
def firstCheck : List (Nat × Option Nat) → Option (Nat × Nat × Nat)
  | [] => none
  | (c, some i) :: _ => some (c, 0, i)
  | (_, none) :: r => firstCheck r

/-- Checks 6 to 14; check 7 only where `strap` is given (R45: the default waymap has none). -/
def wmBody (b : Bytes) (strap : Option Nat) : Option (Nat × Nat × Nat) :=
  match check6 b with
  | some (k, i) => some (6, k, i)
  | none =>
    let l := wmSecs b
    firstCheck [(7, match strap with | some m => check7 l (wmCasc b) m | none => none), (8, check8 l), (9, check9 l),
      (10, check10 l), (11, check11 l), (12, check12 l), (13, check13 l (wmCasc b)), (14, check14 l)]

/-- WAYMAP_CHECK (R42): REASON, SKIND and SECTION of the first failure. -/
def State.wmCheck (s : State) (b : Bytes) (avail : Nat) : Option (Nat × Nat × Nat) :=
  let h := wmHeader b avail
  if h ≠ 0 then some (h, 1, 0)
  else
    let k := s.wmSigned b
    if k ≠ 0 then some (k, 1, 0) else wmBody b (some s.plt.cascId)

/-- The image in a waymap slot, and its check; only the header is read where it fails checks 1 to 3. -/
def State.slotImage (s : State) (k : Nat) : Bytes := s.readFlash (slotOff k) (rd (s.readFlash (slotOff k) 64) 8 4 + 114)
def State.slotCheck (s : State) (k : Nat) : Option (Nat × Nat × Nat) :=
  let h := wmHeader (s.readFlash (slotOff k) 64) slotSize
  if h ≠ 0 then some (h, 1, 0) else s.wmCheck (s.slotImage k) slotSize

/-- The waymap digest (R31). -/
def wmDigest (b : Bytes) : Bytes := Config.shake256 (b.take (rd b 8 4)) 64

end Sys2Proof.Machine
end

