-- ==== Sys2Proof/Machine/RegTable.lean ====
section
/-! DEFINITION. The table of the configuration registers (R6, R7, R57, R60): the fields of each, the values that leave a field
unchanged, the locks of static fields, and what a restart returns to its reset value (R61). -/

namespace Sys2Proof.Machine

open Sys2Proof

/-! ### Descriptions -/

/-- Which values a field takes; any other leaves it unchanged, save where a row says what it is taken as. -/
inductive Chk where
  | any
  | range (lo hi : Nat)
  | clampTo (hi : Nat)            -- a value above is taken as `hi`
  | clampNz (hi : Nat)            -- 0 leaves it unchanged; a value above is taken as `hi`
  | signed (w : Nat) (lo hi : Int)
  | pow2 (lo hi : Nat)
  | zeroOr (lo hi : Nat)
  | rxRing                        -- an RX ring
  | notAbove (lo w : Nat)         -- not above another field of the same write
  | portMode (p : Nat)            -- a mode of the port's class (R309)
  deriving DecidableEq, Repr

/-- A stored field: its place, its check, and whether it is static. -/
structure RField where
  lo : Nat
  w : Nat
  chk : Chk := .any
  static : Bool := false
  deriving DecidableEq, Repr

/-- What locks the static fields of a register. -/
inductive Lock where
  | none
  | unit (key : Nat)              -- RUNNING of a header
  | own                           -- EN, bit 31 of the register as it read before the write
  | reg (a : Nat)                 -- EN, bit 31 of another register
  deriving DecidableEq, Repr

/-- A register: reset word, header that counts ignored writes, lock, fields. -/
structure RegDesc where
  reset : Nat := 0
  key : Nat := 0
  lock : Lock := .none
  fields : List RField := []
  deriving DecidableEq, Repr

/-- The modes that a port class allows (R309): MC_1G 0 and 1, MC_2G5 1 and 2, MC_10G 3. -/
def modeOk (cls m : Nat) : Bool :=
  if cls = 1 then decide (m ≤ 1) else if cls = 2 then decide (m = 1) || decide (m = 2) else if cls = 3 then decide (m = 3) else false

def rw (lo w : Nat) : RField := { lo := lo, w := w }
def rwc (lo w : Nat) (c : Chk) : RField := { lo := lo, w := w, chk := c }
def st (lo w : Nat) : RField := { lo := lo, w := w, static := true }
def stc (lo w : Nat) (c : Chk) : RField := { lo := lo, w := w, chk := c, static := true }

/-! ### The registers, block by block -/

/-- Reset values of PLT's configuration registers (R447). -/
def pwrCfgReset : Nat := 20
def wakeCfgReset : Nat := 2 ^ 30 + 2 ^ 29
def gateCfgReset : Nat := 10 * 2 ^ 16 + 100
def pfailCfgReset : Nat := 90 * 2 ^ 16 + 2

/-- PLT (R447). -/
def pltDesc (o : Nat) : Option RegDesc :=
  if o = 0x44 then some { reset := pwrCfgReset, fields := [rw 31 1, rwc 0 8 (.range 1 255)] }
  else if o = 0x4C then some { reset := wakeCfgReset, fields := [rw 29 3, rw 0 24] }
  else if o = 0x50 then some { reset := gateCfgReset, fields := [rwc 16 16 (.range 1 65535), rwc 0 16 (.range 1 65535)] }
  else if o = 0x60 then some { reset := pfailCfgReset, fields := [rwc 16 9 (.range 60 300), rw 0 2] }
  else none

/-- FLT (R461). -/
def fltDesc (o : Nat) : Option RegDesc :=
  if o = 0x44 then some { reset := 32, fields := [rwc 0 10 (.range 1 512)] }
  else if 0x1000 ≤ o ∧ o < 0x3000 ∧ o % 16 = 0 then some { reset := fltCfgReset ((o - 0x1000) / 16), fields := [rw 7 2, rw 0 5] }
  else none

/-- HQE (R391). -/
def hqeDesc (o : Nat) : Option RegDesc :=
  if o = 0x44 then some { reset := 2000, fields := [rwc 0 16 (.zeroOr 100 60000)] }
  else if 0x50 ≤ o ∧ o ≤ 0x64 ∧ o % 4 = 0 then some { key := bHQE, lock := .unit bHQE, fields := [st 0 32] }
  else if o = 0x68 then some { reset := 64, key := bHQE, lock := .unit bHQE, fields := [stc 0 13 (.pow2 16 4096)] }
  else if o = 0x70 then some { reset := 1000 * 2 ^ 16, fields := [rw 31 1, rw 16 15, rwc 0 14 .rxRing] }
  else if o = 0x74 then some { fields := [rw 0 1] }
  else if 0x10000 ≤ o ∧ o < 0x18000 ∧ o % 4 = 0 then some { fields := [rw 0 32] }
  else none

/-- EVC (R403): host targets. -/
def evcDesc (o : Nat) : Option RegDesc :=
  if 0x10A0 ≤ o ∧ o < 0x1400 ∧ o % 32 = 0 then
    some { key := bEVC, lock := .own, fields := [rw 31 1, st 30 1, rw 26 4, st 0 11] }
  else none

/-- MEM (R370). -/
def memDesc (o : Nat) : Option RegDesc :=
  if o = 0x40 then some { reset := 0x18C00040, key := bMEM, lock := .unit bMEM,
                          fields := [rwc 24 8 (.range 1 255), rw 22 2, st 0 10] }
  else if o = 0x44 then some { reset := 4, fields := [rwc 0 6 (.range 1 63)] }
  else none

/-- SWC (R287). -/
def swcDesc (o : Nat) : Option RegDesc :=
  if o = 0x40 then some { reset := 3, key := bSWC, lock := .unit bSWC, fields := [stc 0 3 (.range 1 4)] }
  else if o = 0x50 then some { reset := 0x14000100, key := bSWC, lock := .unit bSWC,
                               fields := [rwc 24 8 (.range 1 255), rw 16 8, stc 0 9 (.range 1 256)] }
  else if o = 0x58 then some { reset := 2 ^ 31 + 100, fields := [rw 31 1, rwc 0 10 (.range 10 1000)] }
  else if o = 0x5C then some { reset := 50, key := bSWC, lock := .unit bSWC, fields := [stc 0 10 (.range 10 1000)] }
  else if 0x200 ≤ o ∧ o < 0x240 ∧ o % 16 = 0 then
    some { key := bSWC, lock := .own, fields := [rw 31 1, stc 28 3 (.range 0 5), stc 16 9 (.range 0 255), st 0 7] }
  else if 0x200 ≤ o ∧ o < 0x240 ∧ o % 16 = 4 then
    some { key := bSWC, lock := .reg (0x900000 + o - 4), fields := [st 30 2, st 0 16] }
  else none

/-- The offset is the CFG word of a bucket group: port shapers, queue shapers, policers. -/
def isBucketCfg (o : Nat) : Bool :=
  (decide (0x2000 ≤ o) && decide (o < 0x3000) || decide (0x20000 ≤ o) && decide (o < 0x80000)) && decide (o % 16 = 8)

/-- TMG (R307). -/
def tmgDesc (o : Nat) : Option RegDesc :=
  if 0x1000 ≤ o ∧ o < 0x2000 ∧ o % 16 = 0 then
    some { reset := 1000 * 2 ^ 16 + 12 * 2 ^ 8 + 20, key := bTMG, lock := .unit (portKey ((o - 0x1000) / 16)),
           fields := [rwc 16 12 (.range 100 4000), rw 8 8, stc 0 8 (.signed 8 (-32) 63)] }
  else if isBucketCfg o then
    some { reset := 16384, key := bTMG, lock := .own,
           fields := rw 31 1 :: stc 0 24 (.range 1 16777215) ::
             (if 0x60000 ≤ o then [stc 29 2 (.range 0 2)] else []) }
  else none

/-- Port `p`'s window (R336). -/
def prtDesc (p o : Nat) : Option RegDesc :=
  let k := portKey p
  if o = 0x20 then some { reset := prtCfgReset.toNat, key := k, lock := .unit k,
                          fields := [stc 30 2 (.portMode p), st 29 1, st 27 2, st 26 1, st 23 3, st 15 8, stc 0 14 (.range 64 9216)] }
  else if o = 0x28 then some { reset := 12, fields := [rw 0 6] }
  else if o = 0x2C then some { reset := 6, fields := [rw 0 6] }
  else if o = 0x30 then some { reset := 0xFFFF, key := k, lock := .unit k, fields := [stc 0 16 (.range 1 65535)] }
  else if o = 0x34 then some { fields := [rw 0 16] }
  else if o = 0x38 then some { fields := [rw 0 32] }
  else if o = 0x44 ∧ p % 32 = 0 then some { reset := 19, fields := [rwc 0 7 (.range 3 127)] }
  else none

/-- MSC (R145, R182). -/
def mscDesc (o : Nat) : Option RegDesc :=
  if o = 0x40 then some { reset := 0x02020504, key := bMSC, lock := .unit bMSC,
                          fields := [stc 24 4 (.range 1 8), stc 16 5 (.range 1 16), st 8 8, stc 0 8 (.range 1 255)] }
  else if o = 0x44 then some { reset := 0x08100000, key := bMSC, lock := .unit bMSC, fields := [stc 24 8 (.range 2 255), st 16 8] }
  else if o = 0x48 then some { reset := 0x80641014, fields := [rw 31 1, rwc 16 8 (.clampNz 200), rwc 8 8 (.range 1 255), rw 0 8] }
  else if o = 0x4C then some { reset := 0x006400C8, key := bMSC, lock := .unit bMSC, fields := [stc 16 16 (.notAbove 0 16), st 0 16] }
  else if o = 0x400 then some { reset := 6 * 2 ^ 28 + 100 * 2 ^ 16 + 100,
                                fields := [rwc 28 4 (.clampTo 12), rwc 16 12 (.range 1 4095), rw 0 16] }
  else if o = 0x404 then some { reset := 4, fields := [rw 0 4] }
  else none

/-- CMP (R200) and ASM (R228). -/
def cmpDesc (o : Nat) : Option RegDesc :=
  if o = 0x40 then some { reset := 0x12, key := bCMP, lock := .unit bCMP, fields := [rw 4 1, stc 0 4 (.range 1 15)] } else none

def asmDesc (o : Nat) : Option RegDesc :=
  if o = 0x40 then some { reset := 40 * 2 ^ 16 + 3, fields := [rwc 16 8 (.range 5 200), rwc 0 3 (.range 1 7)] }
  else if o = 0x48 then some { reset := 1, key := bASM, lock := .unit bASM, fields := [stc 0 4 (.range 1 14)] }
  else if 0x1000 ≤ o ∧ o < 0x1400 ∧ o % 4 = 0 then some { reset := 1500, fields := [rwc 0 14 (.range 576 9000)] }
  else none

/-- A lane's window (R98, R99, R100). -/
def lanDesc (l o : Nat) : Option RegDesc :=
  if 0x200 ≤ o ∧ o ≤ 0x21C ∧ o % 4 = 0 then
    some { key := laneKey l, lock := .own, fields := [rw 31 1, st 30 1, st 29 1, rw 28 1, st 0 10] }
  else if o = 0x228 ∧ l % 8 = 0 then some { fields := [rw 0 1] }
  else if o = 0x280 then some { reset := 10, key := laneKey l, lock := .own, fields := [rw 31 1, stc 0 5 (.range 4 16)] }
  else if o = 0x284 then some { reset := 1, fields := [rw 0 24] }
  else none

/-- The register at a BAR0 address, where a write stores fields (R71). -/
def regDesc (a : Nat) : Option RegDesc :=
  let o := a % 0x100000
  if 0x1000000 ≤ a then if a < 0x1400000 then lanDesc ((a - 0x1000000) / 0x10000) (a % 0x10000) else none
  else match a / 0x100000 with
    | 0 => if o = 0x50 then some { fields := [rw 0 32] } else none
    | 1 => pltDesc o
    | 2 => fltDesc o
    | 4 => hqeDesc o
    | 5 => evcDesc o
    | 7 => memDesc o
    | 9 => swcDesc o
    | 10 => tmgDesc o
    | 11 => prtDesc (o / 0x1000) (o % 0x1000)
    | 13 => mscDesc o
    | 14 => cmpDesc o
    | 15 => asmDesc o
    | _ => none

/-! ### Restarts (R61) -/

/-- The header that owns a register's RW fields, for the restart of R61. -/
def ownerOf (a : Nat) : Nat :=
  let o := a % 0x100000
  if 0x1000000 ≤ a then laneKey ((a - 0x1000000) / 0x10000)
  else if a / 0x100000 = 11 then portKey (o / 0x1000)
  else if a / 0x100000 = 6 ∧ 0x1000 ≤ o then dmaKey ((o - 0x1000) / 0x40)
  else a / 0x100000

def isFwDma (k : Nat) : Bool := decide (384 ≤ k) && decide (k < 400)

/-- The fields of a register that a deferred restart returns to their reset values: those that are not static, enables of buckets among them
(R61, R307). -/
def resetReg (k : Nat) (e : Nat × W32) : Nat × W32 :=
  match regDesc e.1 with
  | some d =>
    if ownerOf e.1 = k then
      (e.1, w32 (d.fields.foldl (fun w f =>
        if f.static then w
        else setFld w f.lo f.w (fld d.reset f.lo f.w)) e.2.toNat))
    else e
  | none => if isFwDma k then e else if decide (384 ≤ k) && decide (k < 448) && decide (ownerOf e.1 = k) then (e.1, 0) else e

end Sys2Proof.Machine
end

