-- ==== Sys2Proof/Machine/Restart.lean ====
section
/-! DEFINITION. Units and blocks reset (R61, R450): what each holds of its own goes back to its reset state; what the waymap gave it, and what
firmware opened in it, stays. -/

namespace Sys2Proof.Machine

open Sys2Proof

/-! ### Units -/

/-- A lane reset: its row and its queue return to MSC; its registers, its microsequencer and the record of its checks are as after a load
(R74, R115). -/
def State.resetLane (s : State) (l : Nat) : State :=
  let s := (s.returnRun l).unqueue l
  let x := s.lane l
  let s := s.setLane l { x.off with power := x.power, wakeAt := x.wakeAt, mchk := 0, outcome := .none, check := false, mchkTotal := 0,
                                    mchkTransient := 0, record := [], failed := none, rebuild := false }
  (List.range 8).foldl (fun s n => { s with cnt := Tbl.put s.cnt (cntKey bLAN (l + 1) n) 0 }) s

/-- A pipe's row returns to MSC. -/
def State.resetPipe (s : State) (p : Nat) : State :=
  match (s.pipe p).job with
  | some j => (s.setPipe p { s.pipe p with job := none, begun := false, poisoned := false, idleAt := none }).putJob { j with placed := false }
  | none => s

/-- A port trains again where it is enabled. -/
def State.resetPort (s : State) (p : Nat) : State :=
  let x := s.port p
  let s := if (s.unit (portKey p)).en then s.toPhase p .training else s
  s.setPort p { s.port p with lowRaised := false, lowCount := 0, failAt := none, retrainDue := none, rank := 0, last7 := 0, drrPtr := 0,
                              turn := none, mapped := x.mapped }

/-- A memory channel: its queues, its open rows and its readouts are empty; its data stays (R355, R358, R362). -/
def State.resetChan (s : State) (c : Nat) : State :=
  s.setChan c { s.chan c with drift := 0, writes := [], retry := [], banks := [], writing := false, lastBank := 0, acts := [], slot := 0, rows := [],
                              retrainFails := 0 }

/-- A link trains again. -/
def State.resetLink (s : State) (l : Nat) : State := if s.running (linkKey l) then (s.linkDown l).linkTrain l else s

/-! ### Blocks -/

/-- HQE: every ring but ring 0 and every event queue is HELD, and frames that wait for the exception ring are gone (R374). -/
def State.resetHqe (s : State) : State := ({ s with hqe := { s.hqe with exc := [] } }).holdRings

/-- MEM: refresh at its reset interval, no retrain due, and the patrol at its start. -/
def State.resetMem (s : State) : State :=
  let s := { s with mem := { s.mem with trefi := 3904, hot := false, change := none, coolSince := none, dieC := 0, retrainQ := [],
                                        lastRetrain := none, retrainEnd := 0, scrubPos := 0, lastRead := [], lastPoisoned := false, nextWindow := s.ns + 3904 } }
  (List.range 16).foldl (fun s c => s.resetChan c) s

/-- BPM: its log and its latches are empty. The buffers stay with the agents that hold them. -/
def State.resetBpm (s : State) : State :=
  { s with bpm := { s.bpm with log := [], logLost := 0, logSeq := 0, latch := [0, 0, 0], queryRes := 0, lastHandle := nullHandle, lastBank := 0,
                               lastTime := 0, pools := s.bpm.pools.map (fun (e : Nat × Pool) => (e.1, { e.2 with low := e.2.free })) } }

/-- SWC: every copy that it holds is discarded; resequencers, credits and arbitration start afresh. -/
def State.resetSwc (s : State) : State :=
  let mine := (s.swc.copies.filter (fun e => decide (e.2.place ≠ .queued) && decide (e.2.place ≠ .tx))).map Prod.fst
  let s := mine.foldl (fun s i => s.discardCopy i) s
  let s := { s with swc := { s.swc with credits := [], laybys := [], laybyUse := 0, laybyHigh := 0, evstat := 0, gptr := [], aptr := [], rsq := [],
                                        headroomAt := [], stamps := [], pruneAt := [], lateRows := [] } }
  s.pfcSyncAll.startCredits (fun c => match c with
    | .cells _ _ _ => true
    | _ => false)

/-- A queue with nothing in it, as its descriptor was opened. -/
def QDesc.afresh (q : QDesc) : QDesc :=
  { q with deficit := 0, rowOpen := false, rowLate := false, fresh := true, copies := [], cells := 0, fitAt := none }

/-- TMG: what is queued is discarded; deficits, rows, buckets and arbitration start afresh. -/
def State.resetTmg (s : State) : State :=
  let s := s.tmg.queues.foldl (fun s e => (s.queue e.1).copies.foldl (fun s i => s.discardCopy i) s) s
  let s := { s with tmg := { s.tmg with
    queues := s.tmg.queues.map (fun (e : Nat × QDesc) => (e.1, e.2.afresh)),
    psh := [], qsh := [], pol := [], fitAt := [], rateAt := [], creditAt := s.ns } }
  s.pfcSyncAll.startCredits (fun c => match c with
    | .queue _ => true
    | _ => false)

/-- MSC: no row job is left, no overload measure is in force, and every session acquires its raster anew (R163, R166, R174, R180). -/
def State.resetMsc (s : State) : State :=
  let s := (List.range 64).foldl (fun s l => s.setLane l { s.lane l with queue := [] }) s
  let s := (List.range 8).foldl (fun s p => s.setPipe p { s.pipe p with job := none, begun := false }) s
  let held := (s.opens.filter (fun e => decide (e.2 = 3) || decide (e.2 = 4))).map Prod.fst
  let s := (held.filter (fun r => s.ctxSuspended r)).foldl (fun s r => s.resume r) s
  let s := { s with msc := { s.msc with jobs := [], waiting := [], repeats := [], high := 0, fullAt := none, steerAt := [], steerPer := [],
                                        phaseAt := [], ovl := [], lateRows := [], ovlAt := s.ns } }
  (s.opens.filter (fun e => decide (e.2 = 1))).foldl (fun s e =>
    let x := s.raster e.1
    let s := if s.paced e.1 then (s.setCf e.1 0x01 1 sACQUIRE).suspFrom e.1 else s
    let y := s.raster e.1
    s.setRaster e.1 { suspAt := y.suspAt, suspMs := y.suspMs, nextPic := x.nextPic, skipAt := x.skipAt, biasAt := x.biasAt,
                      biasNs := x.biasNs }) s

/-- ASM: coded rows, waiting segments and holds are gone, input flows start at their next packet, and each stream goes on at its next picture,
which restarts its refresh (R16, R160, R204, R219). -/
def State.resetAsm (s : State) : State :=
  let s := s.asm.rows.foldl (fun s e => e.2.foldl (fun s r => r.slices.foldl (fun s h => s.decRef (aLane r.lane) h) s) s) s
  let s := s.asm.segs.foldl (fun s e => s.dropSegs e.1) s
  let s := s.asm.cache.foldl (fun s e => s.releaseHold e.1) s
  let s := { s with asm := { s.asm with rows := [], dj := [], pressure := false } }
  s.asm.next.foldl (fun s e =>
    let encs := s.encsOf e.1
    let pic := encs.foldl (fun a r => max a (match (s.enc r).drained with
      | some p => p + 1
      | none => 0)) 0
    let s := { s with asm := { s.asm with next := Tbl.put s.asm.next e.1 (pic, 0, 0) } }
    encs.foldl (fun s r => s.restartRefresh r) s) s

/-- SEC: a recovery in progress and its staging buffer are gone. -/
def State.resetSec (s : State) : State :=
  { s with sec := { s.sec with recBusy := false, recWord := 0, recResult := 0, staging := [] } }

/-- The unit with header key `k` reset. PLT and FLT hold nothing beside registers and records of the always-on domain. (DEDUCED, log 105.) -/
def State.unitReset (s : State) (k : Nat) : State :=
  if k = bSEC then s.resetSec
  else if k = bHQE then s.resetHqe
  else if k = bEVC then { s with evc := { s.evc with srcs := [], tgts := [] } }
  else if k = bDMA then (List.range 32).foldl (fun s c => s.dmaStop c 5) s
  else if k = bMEM then s.resetMem
  else if k = bBPM then s.resetBpm
  else if k = bSWC then s.resetSwc
  else if k = bTMG then s.resetTmg
  else if k = bCAS then (List.range 3).foldl (fun s l => s.resetLink l) s
  else if k = bMSC then s.resetMsc
  else if k = bCMP then (List.range 8).foldl (fun s p => s.resetPipe p) s
  else if k = bASM then s.resetAsm
  else if k < 32 then s
  else if k < 128 then s.resetLane (k - 32)
  else if k < 384 then s.resetPort (k - 128)
  else if k < 448 then s.dmaStop (k - 384) 5
  else if k < 480 then s.resetChan (k - 448)
  else s.resetLink (k - 480)

/-- The unit's own state after the restart of R61: as after reset, but for static and boundary-applied fields.
(DEDUCED, log 52.) -/
def State.restartState (s : State) (k : Nat) : State :=
  let s := s.unitReset k
  { s with regs := s.regs.map (fun e => resetReg k e) }

end Sys2Proof.Machine
end

