-- ==== Sys2Proof/Machine/Boot.lean ====
section
/-! DEFINITION. Starting and resetting (R40, R45, R47, R109, R361, R418, R430, R432, R450): boot verification, training,
microcode, the waymap's application, module reset, and what every command settles at its end. -/

namespace Sys2Proof.Machine

open Sys2Proof

/-! ### Applying a waymap (R45) -/

def tblOf {α : Type} (l : List (Nat × α)) : Tbl α := l.foldl (fun t e => Tbl.put t e.1 e.2) []

/-- The members of a list with their places. -/
def numbered {α : Type} (l : List α) : List (Nat × α) := (List.range l.length).zip l

/-- Pools with every buffer free (R37, R340). -/
def poolsOf (l : List (Nat × PoolCfg)) : Tbl Pool :=
  tblOf (l.map (fun e => (e.1, ({ cfg := e.2, free := e.2.count, low := e.2.count } : Pool))))

/-- MEMMAP and POOLS applied, and the buffers on retired pages withheld (R366). -/
def State.applyPools (s : State) (memmap pools : Bytes) : State :=
  let s := { s with way := { s.way with carves := tblOf (numbered (Config.wmMemmap memmap)) },
                    bpm := { s.bpm with pools := poolsOf (poolEntries pools), bufs := [], frames := [] } }
  s.mem.retire.foldl (fun s r => match s.pageOf r with
    | some pg => s.withhold pg
    | none => s) s

/-- A lane's entry of LANES (R34). -/
def State.applyLane (s : State) (b : Bytes) (l : Nat) : State :=
  s.setLane l { s.lane l with role := rd b (4 * l) 1, cwSize := rd b (4 * l + 1) 1, cwLead := rd b (4 * l + 2) 1 }

/-- PRT_CFG.MODE of the ports of block `i` at its reset value for the class (R336): the class's own number. -/
def State.applyBlock (s : State) (b : Bytes) (i : Nat) : State :=
  let c := rd b (4 * i) 1
  let s := { s with way := { s.way with portClass := Tbl.put s.way.portClass i c,
                                        egroup := Tbl.put s.way.egroup i (rd b (4 * i + 1) 1) } }
  (List.range 8).foldl (fun s j =>
    let a := prtAddr (8 * i + j) 0x20
    { s with regs := Tbl.put s.regs a (w32 (setFld (Tbl.get prtCfgReset s.regs a).toNat 30 2 c)) }) s

def State.applySwbuf (s : State) (b : Bytes) : State :=
  let w := Config.wmSwbuf b
  { s with swc := { s.swc with gmin := w.gmin, lim := tblOf w.lim, cap := tblOf w.cap, sharedSize := w.sharedSize,
                               xoffAt := w.xoff, xonAt := w.xon, headroom := tblOf w.headroom } }

def State.applyEvents (s : State) (b : Bytes) : State :=
  let w := Config.wmEvents b
  let s := { s with evc := { s.evc with banked := w.banked, route := tblOf (w.routes.map (fun (e : Nat × Nat) => (e.1, w32 e.2))) } }
  let s := w.targets.foldl (fun s t => { s with regs := Tbl.put s.regs (tgtCfgAddr t) (w32 (2 ^ 31)) }) s
  s.reassign

/-- SERVICES: what each SP serves; SVP supervises (R49, R393, R403). -/
def State.applyServices (s : State) (b : Bytes) : State :=
  let w := Config.wmServices b
  let s := { s with way := { s.way with sessSp := w.sessions } }
  (List.range 4).foldl (fun s i => s.setCpu (i + 1) { s.cpu (i + 1) with services := getAt 0 w.masks i }) s

/-- CASCADE: the size, this module's role, and the links that it uses: those whose peer the cascade has (R24, R27, R327). -/
def State.applyCascade (s : State) (casc : Nat) : State :=
  let m := s.plt.cascId
  { s with cas := { s.cas with size := casc },
           way := { s.way with lead := decide (1 < casc) && decide (m = 0),
                               links := if casc ≤ 1 then [] else (List.range 3).filter (fun i => decide (peerOf m i < casc)) } }

/-- CHANDEP: the graph is kept, and every channel gets its credits in its order (R45). -/
def State.applyChandep (s : State) (b : Bytes) : State :=
  ({ s with way := { s.way with deps := Config.wmEdges b, ready := [] } }).startCredits (fun _ => true)

/-- The DEGRADED sections of module `m`: channel, MEMMAP and POOLS bodies. -/
def degradedSecs (l : List WmSec) (m : Nat) : List (Nat × Bytes × Bytes) :=
  (l.filter (fun x => decide (x.type = degradedT) && tb x.mods m)).map (fun x => Config.wmDegraded x.body)

/-- The sections of module `m`, in the order of R45; MEMMAP and POOLS are those of the DEGRADED section where one is
given (R47). The other DEGRADED sections are kept unapplied. -/
def State.applySections (s : State) (l : List WmSec) (m casc : Nat) (deg : Option (Bytes × Bytes)) : State :=
  let sec := fun t => (secFor l m t).getD []
  let s := (s.applyCascade casc).applyServices (sec 2)
  let s := { s with way := { s.way with kept := (degradedSecs l m).filter (fun x => decide (some x.2 ≠ deg)) } }
  let s := match deg with
    | some d => s.applyPools d.1 d.2
    | none => s.applyPools (sec memmapT) (sec poolsT)
  let s := { s with way := { s.way with ctxParts := counts (sec contextsT) 8, queueParts := queueTotals (sec queuesT),
                                        qPerPort := rd (sec queuesT) 0 4 } }
  let s := s.applyChandep (sec 11)
  let s := s.applySwbuf (sec 8)
  let s := (List.range 32).foldl (fun s i => s.applyBlock (sec blocksT) i) s
  let s := (List.range 64).foldl (fun s i => s.applyLane (sec lanesT) i) s
  let s := s.applyEvents (sec 9)
  { s with way := { s.way with bounds := tblOf (boundEntries (sec boundsT)) } }

/-- Version, digest and install_id published after the application (R45, R48). -/
def State.publishWm (s : State) (b : Bytes) : State :=
  let d := wmDigest b
  { s with way := { s.way with digest := d },
           sec := { s.sec with wm := { s.sec.wm with ver := w32 (wmVer b), dig := w32 (leNat (d.take 4)),
                                                     id := w32 (rd b 24 4) } } }

/-- The bundle's default waymap, applied whatever the strap; no cascade is formed, and checks 4, 5 and 7 are skipped (R45, R417). One
that fails another check leaves the module in fallback with nothing applied, and of a module with a failed channel none of its DEGRADED sections
is applied: R45 and R47 say neither. (DESIGN CHOICE, log 121.) -/
def State.applyFallback (s : State) : State :=
  let b := component (s.imageAt (bankOff s.sec.bank)) 3
  let s := { s with way := { s.way with fallback := true },
                    sec := { s.sec with wm := { s.sec.wm with state := 2, slot := 0 } } }
  let s := s.setHealth hFALLBACK
  if wmHeader b (b.length + 114) = 0 ∧ (wmBody b none).isNone then (s.applySections (wmSecs b) 0 1 none).publishWm b else s

/-- The DEGRADED section of module `m` for a channel: its MEMMAP and POOLS bodies (R47). -/
def degradedFor (l : List WmSec) (m c : Nat) : Option (Bytes × Bytes) :=
  ((degradedSecs l m).find? (fun x => decide (x.1 = c))).map Prod.snd

/-- The links whose peer is fitted are enabled after CASCADE is applied (R327). -/
def State.startLinks (s : State) : State :=
  s.way.links.foldl (fun s i =>
    let s := s.setUnit (blockKey bCAS) { s.unit (blockKey bCAS) with en := true, running := true }
    (s.setUnit (linkKey i) { s.unit (linkKey i) with en := true, running := true }).linkTrain i) s

/-- An accepted image of slot `k` applied, or its degraded variant where a channel has failed (R45, R47). Where flash marks several channels as
failed, it is the variant of the oldest: R47 speaks of one channel. (DESIGN CHOICE, log 121.) -/
def State.applySlot_ (s : State) (k : Nat) : State :=
  let b := s.slotImage k
  let l := wmSecs b
  let m := s.plt.cascId
  let ok := fun (s : State) (st dc : Nat) =>
    ({ s with sec := { s.sec with wm := { s.sec.wm with state := st, slot := k, degChan := dc } } }).publishWm b
  match s.flash.chanFailed.head? with
  | none => (ok (s.applySections l m (wmCasc b) none) 1 0).startLinks
  | some c =>
    match degradedFor l m c with
    | some d =>
      let s := { s with mem := { s.mem with degraded := some c } }
      let s := s.setChan c { s.chan c with ph := .excluded }
      (ok (s.applySections l m (wmCasc b) (some d)) 3 c).assertReplace.startLinks
    | none =>
      ({ s with sec := { s.sec with wm := { s.sec.wm with reason := 0x0F, skind := 1, section_ := 0 } } }).applyFallback

/-- WAYMAP_SLOT_SELECT (R40). -/
def State.selectSlot (s : State) : State :=
  let a := s.slotCheck 0
  let b := s.slotCheck 1
  let shown := match b, a with
    | some r, _ => r
    | none, some r => r
    | none, none => (0, 0, 0)
  let s := (s.bump bSEC (b2n a.isSome)).bump bSEC (b2n b.isSome)
  let s := { s with sec := { s.sec with wm := { s.sec.wm with reason := shown.1, skind := shown.2.1, section_ := shown.2.2 } } }
  match a, b with
  | none, none => s.applySlot_ (if wmVer (s.readFlash (slotOff 0) 64) < wmVer (s.readFlash (slotOff 1) 64) then 1 else 0)
  | none, some _ => s.applySlot_ 0
  | some _, none => s.applySlot_ 1
  | some _, some _ => s.applyFallback

/-! ### The steps of a start (R430) -/

/-- BOOT_VERIFY (R414, R418): the outcome in SEC_BOOT_STAT and the digests, or recovery (R427). (DESIGN CHOICE, log 3.) -/
def State.bootVerify (s : State) : State :=
  let a := s.bankCode 0
  let b := s.bankCode 1
  let code := fun k => if k = 0 then a else b
  let pref := s.preferredBank s.plt.bootSel
  let s := (s.bump bSEC (b2n (decide (a ≠ 0)))).bump bSEC (b2n (decide (b ≠ 0)))
  let s := { s with sec := { s.sec with reasonA := a, reasonB := b, chal := Config.challenge s.free } }.draw
  if code pref ≠ 0 ∧ code (1 - pref) ≠ 0 then
    { s with plt := { s.plt with recovery := true, firmware := false }, sec := { s.sec with bank := 3 } }
  else
    let k := if code pref = 0 then pref else 1 - pref
    let img := s.imageAt (bankOff k)
    let fd := Config.shake256 (component img 1) 64
    let md := Config.shake256 (component img 2) 64
    { s with plt := { s.plt with recovery := false, firmware := true },
             glb := { s.glb with fwver := w32 (imgVer img), fwdig := w32 (leNat (fd.take 4)) },
             sec := { s.sec with bank := k, altValid := decide (code (1 - k) = 0), fallback := decide (k ≠ pref),
                                 svn := imgSvn img, fwDigest := fd, mcDigest := md, keys := s.flash.keys } }

/-- DRAM_TRAINING (R361, R359, R366): a channel that fails twice is lastingly failed. (DESIGN CHOICE, log 80.) -/
def State.memStart (s : State) (fail : List ChanId) : State :=
  let s : State := { s with mem := { s.mem with retire := s.flash.retire, trefi := 3904, nextWindow := s.ns + 3904 },
                            glb := { s.glb with cntPages := s.flash.retire.length } }
  let s := (List.range 16).foldl (fun s c =>
    s.setChan c { s.chan c with ph := .run, retired := (s.flash.retire.filter (fun r => decide (r.chan = c))).length }) s
  let s := if s.flash.retire.isEmpty then s else s.setHealth hDRAMPAGE
  let s := if s.replacePages ≤ s.flash.retire.length then s.assertReplace else s
  let s := fail.foldl (fun s c =>
    let known := s.flash.chanFailed.contains c.val
    let s := if known then s else { s with flash := { s.flash with chanFailed := s.flash.chanFailed ++ [c.val] } }
    s.raise fMemTrainFail c.val 0) s
  s.flash.chanFailed.foldl (fun s c => (s.setChan c { s.chan c with failed := true }).setHealth hDRAMCHAN) s

/-- The installed patch, when it verifies, its svn is at least MC_CTR and its version is above `ver` (R109, R418). -/
def State.installedPatch (s : State) (ver : Nat) : Option Bytes :=
  let h := s.readFlash patchOff 64
  if imgHdrOk h patchSize && decide (imgKind h = 2) && decide (ver < imgVer h) && decide (s.flash.mcCtr ≤ imgSvn h) then
    let b := s.imageAt patchOff
    if s.vendorCode b "FV9256-MC" = 0 then some b else none
  else none

/-- The microcode component of a patch image, and its identity. -/
def patchComponent (b : Bytes) : Bytes := (b.drop 64).take (imgLen b - 64)
def mcIdOf (ver : Nat) (comp : Bytes) : McId := { ver := w32 ver, dig := w32 (leNat ((Config.shake256 comp 64).take 4)) }

/-- The halves of the carve-out for golden copies, one for each copy (R109, R118). (DEDUCED, log 118.) -/
def State.goldenAt (s : State) : Nat × Nat :=
  match s.way.carves.find? (fun e => tb e.2.2.2 3) with
  | none => (0, 0)
  | some e => (e.2.1, e.2.1 + e.2.2.1 / 2)

/-- A golden copy written at `a`, where the waymap has a carve-out for it. -/
def State.storeGolden (s : State) (a : Nat) (img : Bytes) : State :=
  if s.way.carves.any (fun e => tb e.2.2.2 3) then s.store a img else s

/-- The golden copy of a start, once its carve-out is known. -/
def State.placeBase (s : State) : State :=
  let s := { s with golden := { s.golden with at0 := s.goldenAt.1, at1 := s.goldenAt.2 } }
  s.storeGolden s.golden.at0 s.golden.image

/-- A lane whose stores do not read back is quarantined as under R115 (R109, R120). -/
def State.failLoad (s : State) (l : Nat) : State := ((s.raise fLaneMchk l 0).decideFault fLaneMchk l true).quarantine l

/-- MICROCODE_LOAD (R109): every lane loaded, read back and started at vector 0x00C0. Loading goes on where a lane fails. -/
def State.microStart (s : State) (fail : List LaneId) : State :=
  let img := s.imageAt (bankOff s.sec.bank)
  let base := component img 2
  let (comp, id, svn) := match s.installedPatch (Config.mcVersion base) with
    | some p => (patchComponent p, mcIdOf (imgVer p) (patchComponent p), imgSvn p)
    | none => (base, mcIdOf (Config.mcVersion base) base, imgSvn img)
  let s := { s with golden := { base := id, image := comp, svn := svn },
                    sec := { s.sec with mcDigest := Config.shake256 comp 64, mc2Digest := [] } }
  let s := ((List.range 64).filter (fun l => !(s.lane l).mapped)).foldl (fun s l =>
    let (s, ok) := s.loadStores l comp id false (!(fail.any (fun f => decide (f.val = l))))
    if ok then s else s.failLoad l) s
  ({ s with flt := { s.flt with capChanged := false } }).showMc

/-- Step 8: SVP and the SPs run, ring 0 is ready, and configuration requests are answered from then on (R431). -/
def State.hostStart (s : State) : State :=
  let s := s.setCpu 0 { s.cpu 0 with ph := .run, services := 32 }
  let s := (List.range 4).foldl (fun s i => s.setCpu (i + 1) { s.cpu (i + 1) with ph := .run }) s
  let s := s.setRing 0 { ph := .run, kind := 0, size := 64 }
  let d := min (Config.startNs s.free) (743 * ms)
  { s with hqe := { s.hqe with readyAt := s.ns + d } }.draw

/-- Steps 2 to 8 of R430. Without a valid bank the boot ROM trains PCIe and waits for a recovery image (R427). -/
def State.bootFrom2 (s : State) (b : BoardInputs) : State :=
  let s := { s with plt := { s.plt with bootSel := b.bootSel.toNat, cascId := b.cascId.toNat } }
  let s := s.bootVerify
  if s.plt.recovery then { s with hqe := { s.hqe with readyAt := s.ns } }
  else
    let s := (s.memStart b.chanFail).microStart b.laneFail
    let s := s.selectSlot.placeBase.hostStart
    if s.sec.fallback then s.event .secBootFallback noCtx s.sec.bank else s

/-- What no command gives a start: the straps as last voted, and what the parts answer to their tests. -/
def State.ownInputs (s : State) : BoardInputs :=
  { bootSel := BitVec.ofNat 2 s.plt.bootSel, cascId := BitVec.ofNat 2 s.plt.cascId,
    chanFail := Config.chanFails s.free, laneFail := Config.laneFails s.free }

/-! ### Reset and loss of supply (R432, R469) -/

/-- Registers of the always-on domain: PLT and FLT (R19). -/
def alwaysOn (a : Nat) : Bool := decide (0x100000 ≤ a) && decide (a < 0x300000)

/-- Every domain but the wake island and the always-on domain reset: PLT and FLT keep their registers, their counters
and their records; the safe state ends and REPLACE_N is evaluated again (R432, R454, R456). -/
def State.blank (s : State) : State :=
  { pending := s.pending, time := s.time, free := s.free, out := s.out, flash := s.flash,
    regs := s.regs.filter (fun e => alwaysOn e.1),
    units := s.units.filter (fun e => decide (e.1 = bPLT) || decide (e.1 = bFLT)),
    cnt := s.cnt.filter (fun e => decide (cntKey bPLT 0 0 ≤ e.1) && decide (e.1 < cntKey bSEC 0 0)),
    flt := { s.flt with safe := false, mismatch := false, replaceN := false, resetReq := false, capChanged := false,
                        unitResets := [] },
    plt := { s.plt with firmware := false, recovery := false, cur := 0, target := 0, busy := false, block := 0, cmd := none,
                        pend := none, drainDue := none, retryDue := none, latched := none, timerDue := none, shed := 0,
                        blockOn := [], blockWake := [], mgmt := false, digests := [] } }

/-- R432: module reset, and the restart from step 2. (DEDUCED, log 47.) -/
def State.moduleReset (s : State) (b : BoardInputs) : State := s.blank.bootFrom2 b

/-- The supply is gone: what is left is the flash, and the model's own records. (DEDUCED, log 50.) -/
def State.powerOff (s : State) : State :=
  { pending := s.pending, free := s.free, out := s.out, flash := s.flash }

/-- R430 from step 1: the count of starts advances (R457), hold-up charging begins, PWRGD is released. -/
def State.coldStart (s : State) (b : BoardInputs) : State :=
  let n := s.flash.boots + 1
  let s := s.powerOff
  let seq := match s.flash.log.getLast? with
    | some r => r.seq + 1
    | none => 1
  let s := { s with flash := { s.flash with boots := n }, cnt := [(cntKey bPLT 0 5, n)],
                    flt := { s.flt with nextSeq := seq },
                    plt := { s.plt with up := true, chargeAt := some 0, vin := none, holdup := none } }
  (s.emit (.pin "PWRGD" false)).bootFrom2 b

/-! ### The end of a command -/

/-- Units that a reaction of R450 resets. -/
def State.resetUnits (s : State) : State :=
  if s.flt.unitResets.isEmpty then s
  else s.flt.unitResets.foldl (fun s k => s.restartState k) { s with flt := { s.flt with unitResets := [] } }

/-- Placement again after a change of capacity (R179). -/
def State.replaceDue (s : State) : State :=
  if s.flt.capChanged then ({ s with flt := { s.flt with capChanged := false } }).replaceAll else s

/-- A module-reset reaction (R450). -/
def State.resetDue (s : State) : State := if s.flt.resetReq then s.moduleReset s.ownInputs else s

/-- What a command leaves to be settled: reset reactions, retransmit pressure, paced channels, layouts that fall due,
placement after a change of capacity, and a module-reset reaction. -/
def State.settle (s : State) : State := s.resetUnits.rtxPressure.dmaPace.dueLayouts.replaceDue.resetDue

end Sys2Proof.Machine
end

