-- ==== Sys2Proof/Machine/Command.lean ====
section
/-! DEFINITION. Running a host command (R376, R383, R385, R394): the entry a command row names, its completion now or
later, and the buffer it was given. -/

namespace Sys2Proof

/-- Parameter field of R481. -/
def SubEntry.param (e : SubEntry) (off n : Nat) : Nat := rd e.params off n

/-- An IMAGE_INSTALL entry asks for a ratchet (R420); an ATTEST entry for the certificate (R424). -/
def SubEntry.ratchet (e : SubEntry) : Bool := tb (e.param 0 1) 0 && decide (e.len = 0)
def SubEntry.cert (e : SubEntry) : Bool := tb (e.param 0 1) 0

end Sys2Proof

namespace Sys2Proof.Machine

open Sys2Proof

/-- What a command answers: status, detail, result; none while it goes on. -/
abbrev Answer := Option (Nat × Nat × Bytes)

def okRes (b : Bytes) : Answer := some (cOK, 0, b)
def code (c : Nat) : Answer := some (c, 0, [])
def codeD (c d : Nat) : Answer := some (c, d, [])

/-- A submission that has been consumed and not completed. -/
def State.flightOf (s : State) (c : CmdRef) : Option SubEntry :=
  ((s.ring c.ring.val).flight.find? (fun f => decide (f.e.sseq = c.sseq))).map Flight.e

/-- A command that went on completes. -/
def State.finish (s : State) (c : CmdRef) (status detail : Nat) (res : Bytes) : State :=
  match s.flightOf c with
  | some e => s.complete c.ring.val e status detail res
  | none => s

/-- The command that `c` names runs, when its opcode is `op`, its turn has come and an SP gives the service. -/
def State.runCmd (s : State) (c : CmdRef) (op : Nat) (f : State → SubEntry → State × Answer) : State :=
  if s.serves 0 then
    match s.command c op with
    | some e =>
      match f s e with
      | (t, some (st, d, r)) => t.finish c st d r
      | (t, none) => t
    | none => s
  else s

/-- A command that reads a buffer: HOST_DMA when the read failed or the module may not read (R383, R387). -/
def State.withData (s : State) (d : HostData) (e : SubEntry) (f : Bytes → State × Answer) : State × Answer :=
  match d with
  | some b => if s.hqe.bme then f (b.take e.len.toNat) else (s, code cHOST_DMA)
  | none => (s, code cHOST_DMA)

/-- A buffer written at the command's address, and the command's answer: HOST_DMA while the module may not write. -/
def State.reply (s : State) (e : SubEntry) (b : Bytes) (a : Answer) : State × Answer :=
  if s.hqe.bme then (s.toHost e.addr.toNat b, a) else (s, code cHOST_DMA)

end Sys2Proof.Machine
end

