-- ==== Sys2Proof/Machine/Security.lean ====
section
/-! DEFINITION. Installing and attesting (chapters 2, 5 and 19): IMAGE_INSTALL and its ratchet, waymaps and detours,
microcode patches, quotes, debug tokens and recovery. -/

namespace Sys2Proof.Machine

open Sys2Proof

/-- device_id (R423). -/
def deviceId : Bytes := (Config.shake256 Config.identityPub 64).take 16

/-- A structural operation runs (R53, R120, R383, R421): a detour in APPLY, a power transition or a patch; the others end in their own
step. -/
def State.structural (s : State) : Bool := s.sec.detour.isSome || s.plt.busy || s.golden.patching

def State.verified (s : State) (ok : Bool) : State := s.bump bSEC (if ok then 0 else 1)

/-! ### IMAGE_INSTALL (R419, R421) -/

def State.tokenKey (s : State) (level : Nat) (id : Bytes) : Option Bytes × Nat :=
  match s.vendorFor id with
  | some i => (some (Config.vendorKey i), 0)
  | none =>
    if level ≠ 1 then (none, eKEY)
    else if !s.enrolled then (none, eNOTENROLLED)
    else (s.custFor id, eKEY)

/-- A token judged (R425): 0, or the code. -/
def State.tokenCode (s : State) (b : Bytes) : Nat :=
  if !imgHdrOk b b.length then eHEADER
  else if imgKind b ≠ 5 then eKIND
  else
    let level := rd b 64 1
    if level ≠ 1 ∧ level ≠ 2 then eHEADER
    else match s.tokenKey level (imgSigner b) with
      | (none, c) => c
      | (some k, _) =>
        if !sigOk k b "FV9256-DT" (imgLen b) then eSIGNATURE
        else if imgDevice b ≠ deviceId then eDEVICE
        else if (b.drop 72).take 8 ≠ leBytes 8 s.sec.chal.toNat then eCHALLENGE else 0

/-- A token presented: after 3 refused ones presentation is refused until reset. The challenge changes each time; a FULL
unlock erases the keys that SEC holds, and keyed sessions fail their tags from then on. -/
def State.presentToken (s : State) (b : Bytes) : State × Nat :=
  let c := if 3 ≤ s.sec.dbgFails then eCHALLENGE else s.tokenCode b
  let s := { s with sec := { s.sec with chal := Config.challenge s.free } }.draw
  if c ≠ 0 then
    if 3 ≤ s.sec.dbgFails then (s, c)
    else
      let n := s.sec.dbgFails + 1
      let s := (({ s with sec := { s.sec with dbgFails := n } }).verified false).bump bSEC 3
      (if n = 3 then s.event .secDebugFail noCtx c else s, c)
  else
    let level := rd b 64 1
    let s := ({ s with sec := { s.sec with dbgLevel := level, token := true } }).verified true
    let s := if level = 2 then
        { s with sec := { s.sec with keys := [] },
                 erelm := { s.erelm with sess := s.erelm.sess.map (fun (e : Nat × ESess) => (e.1, { e.2 with ks := [] })) } }
      else s
    (s.event .secDebugUnlock noCtx level, 0)

/-- ERELM_KEYS entries: key_id, DELETE, and the wrapped key (R426). -/
def keyEntries (b : Bytes) : List (Nat × Bool × Bytes) :=
  (List.range (rd b 120 2)).map (fun i =>
    let e := (b.drop (128 + 40 * i)).take 40
    (rd e 0 4, tb (rd e 4 4) 0, e.drop 8))

def xorBytes (a b : Bytes) : Bytes := (a.zip b).map (fun (x : Byte × Byte) => x.1 ^^^ x.2)

def newKeys (b : Bytes) (t : Tbl Bytes) : Tbl Bytes :=
  let eph := (b.drop 64).take 56
  let z := Config.x448 Config.provPriv eph
  (keyEntries b).foldl (fun t e =>
    if e.2.1 then Tbl.del t e.1
    else Tbl.put t e.1 (xorBytes e.2.2 (Config.kmac z (eph ++ leBytes 4 e.1) 256 "ERELM-KW"))) t

/-- An image of each kind judged and installed: 0, or the code of R421. -/
def State.install (s : State) (target : Nat) (b : Bytes) (flashOk : Bool) : State × Nat :=
  let kind := imgKind b
  let region := if kind = 1 then bankSize else if kind = 2 then patchSize else b.length
  if kind = 5 then s.presentToken b
  else if !imgHdrOk b (min region b.length) then (s, eHEADER)
  else if kind = 0 ∨ 6 < kind ∨ (kind = 1 ∧ 1 < target) then (s, eKIND)
  else if kind = 1 ∧ target = s.sec.bank then (s, eRUNNING)
  else if (kind = 3 ∨ kind = 6) ∧ imgDevice b ≠ deviceId then (s, eDEVICE)
  else if kind = 1 then
    let c := s.vendorCode b "FV9256-FW"
    let c := if c ≠ 0 then c else if imgSvn b < s.flash.fwCtr then eROLLBACK else if flashOk then 0 else eFLASH
    if c ≠ 0 then (s, c) else
      let s := s.writeFlash (bankOff target) bankSize b
      ({ s with sec := { s.sec with altValid := true } }, 0)
  else if kind = 2 then
    let c := s.vendorCode b "FV9256-MC"
    let c := if c ≠ 0 then c else if imgSvn b < s.flash.mcCtr then eROLLBACK else if flashOk then 0 else eFLASH
    if c ≠ 0 then (s, c) else (s.writeFlash patchOff patchSize b, 0)
  else if kind = 3 then
    let c := if s.enrolled then eENROLLED else s.vendorCode b "FV9256-EN"
    let c := if c ≠ 0 then c else if flashOk then 0 else eFLASH
    if c ≠ 0 then (s, c) else
      let k := (b.drop 64).take 57
      ({ s with flash := { s.flash with custKey := k, custHash := Config.shake256 k 32 } }, 0)
  else if kind = 4 then
    let slot := Config.revokeSlot ((b.drop 64).take (imgLen b - 64)) % 4
    let c := match s.vendorFor (imgSigner b) with
      | none => eKEY
      | some i => if i = slot then eKEY else s.vendorCode b "FV9256-RV"
    let left := (List.range 4).filter (fun i => decide (i ≠ slot) && !tb s.flash.revoked i)
    let c := if c ≠ 0 then c else if left.isEmpty then eFUSE else if flashOk then 0 else eFLASH
    if c ≠ 0 then (s, c) else ({ s with flash := { s.flash with revoked := setBit s.flash.revoked slot } }, 0)
  else
    let c := if !s.enrolled then eNOTENROLLED else match s.custFor (imgSigner b) with
      | none => eKEY
      | some k =>
        if !sigOk k b "FV9256-KP" (imgLen b) then eSIGNATURE
        else if rd b 44 8 ≤ s.flash.serial then eROLLBACK
        else if rd b 120 2 = 0 ∨ 64 < rd b 120 2 ∨ imgLen b < 128 + 40 * rd b 120 2 ∨
            !((keyEntries b).all (fun e => decide (1 ≤ e.1) && decide (e.1 ≤ 0xFFFFFFFE))) then eHEADER
        else if 256 < (newKeys b s.flash.keys).length then eFULL
        else if flashOk then 0 else eFLASH
    if c ≠ 0 then (s, c) else
      let t := newKeys b s.flash.keys
      ({ s with flash := { s.flash with keys := t, serial := rd b 44 8 }, sec := { s.sec with keys := newKeys b s.sec.keys } }, 0)

def State.installOp (s : State) (c : CmdRef) (d : HostData) (flashOk : Bool) : State :=
  s.runCmd c 0x70 (fun s e =>
    if e.ratchet then (s, none)
    else if s.structural then (s, codeD cBUSY 0x12)
    else s.withData d e (fun b =>
      match s.install e.target.toNat b flashOk with
      | (t, 0) => ((if imgKind b = 5 then t else t.verified true), okRes [])
      | (t, n) => ((if imgKind b = 5 then t else t.verified false), codeD cREJECTED n)))

/-- The lowest svn among the microcode images that the lanes run (R420). -/
def State.lanesSvn (s : State) : Nat :=
  let l := ((List.range 64).filter (fun l => !(s.lane l).mapped)).map
    (fun l => if (s.lane l).copy1 then s.golden.patchSvn else s.golden.svn)
  (leastBy id l).getD s.golden.svn

/-- IMAGE_RATCHET: the counters rise to the running svns, and the other bank is judged again (R420). (DEDUCED, log 82.) -/
def State.ratchetOp (s : State) (c : CmdRef) : State :=
  s.runCmd c 0x70 (fun s e =>
    if !e.ratchet then (s, none)
    else if s.structural then (s, codeD cBUSY 0x12)
    else if 64 < s.sec.svn ∨ 64 < s.lanesSvn then (s, codeD cREJECTED eFUSE)
    else
      let s := { s with flash := { s.flash with fwCtr := max s.flash.fwCtr s.sec.svn, mcCtr := max s.flash.mcCtr s.lanesSvn } }
      let alt := s.sec.altValid && decide (s.bankCode (1 - s.sec.bank) = 0)
      ({ s with sec := { s.sec with altValid := alt } }, okRes []))

/-! ### Waymaps (R40, R48) -/

/-- The slot that does not hold the running image. -/
def State.otherSlot (s : State) : Nat := 1 - s.sec.wm.slot

/-- WAYMAP_INSTALL (R40, R53): the image is judged, then written to the slot that does not run. (DEDUCED, log 49.) -/
def State.waymapInstallOp (s : State) (c : CmdRef) (d : HostData) : State :=
  s.runCmd c 0x71 (fun s e =>
    if s.structural then (s, codeD cBUSY 0x12)
    else s.withData d e (fun b =>
      match s.wmCheck b b.length with
      | some (r, k, i) =>
        (({ s with sec := { s.sec with wm := { s.sec.wm with reason := r, skind := k, section_ := i } } }).verified false,
         codeD cREJECTED r)
      | none => ((s.writeFlash (slotOff s.otherSlot) slotSize b).verified true, okRes (leBytes 4 s.otherSlot))))

/-! ### Detours (R51 to R55) -/

/-- The image that runs: that of its slot, or the bundle's default. -/
def State.runningImage (s : State) : Bytes :=
  if s.sec.wm.state = 1 ∨ s.sec.wm.state = 3 then s.slotImage s.sec.wm.slot else component (s.imageAt (bankOff s.sec.bank)) 3

/-- A lane that meets R51, in service and not halted. -/
def State.laneFree (s : State) (l : Nat) : Bool := s.drained l && !(s.lane l).mapped && decide ((s.lane l).ms ≠ .halted)
def State.blockIdle (s : State) (i : Nat) : Bool := (List.range 8).all (fun j => !s.portEn (8 * i + j))

/-- Sections that a detour may not change. Informational sections, which SEC skips, are left out of the comparison: R53 does not say whether one
that differs is a DETOUR_SCOPE fault. (DESIGN CHOICE, log 119.) -/
def fixedSecs (l : List WmSec) : List WmSec :=
  l.filter (fun x => decide (x.type ≠ lanesT) && decide (x.type ≠ blocksT) && decide (x.type < 0x8000))

def changed (a b : Bytes) (n : Nat) : List Nat :=
  (List.range n).filter (fun i => decide ((a.drop (4 * i)).take 4 ≠ (b.drop (4 * i)).take 4))

/-- Why a detour image is rejected (R53), or the lanes and blocks that it changes. An image without flags.DETOUR is answered DETOUR_BASE: R53
gives it no reason of its own. (DESIGN CHOICE, log 119.) -/
def State.detourCheck (s : State) (b : Bytes) : Nat × List Nat × List Nat :=
  match s.wmCheck b b.length with
  | some (r, _, _) => (r, [], [])
  | none =>
    let m := s.plt.cascId
    let l := wmSecs b
    let old := wmSecs s.runningImage
    let lb := (secFor l m lanesT).getD []
    let lanes := changed lb ((secFor old m lanesT).getD []) 64
    let blocks := changed ((secFor l m blocksT).getD []) ((secFor old m blocksT).getD []) 32
    let mixed := lanes.any (fun i => decide (rd lb (4 * i + 1) 1 ≠ 1) &&
      (List.range (rd lb (4 * i + 1) 1)).any (fun j => decide ((s.lane (rd lb (4 * i + 2) 1 + j)).mc.ver ≠ (s.lane i).mc.ver)))
    if !wmDetour b ∨ rd b 48 4 ≠ s.sec.wm.ver.toNat then (0x10, [], [])
    else if fixedSecs l ≠ fixedSecs old ∨ lanes.any (fun i => !s.laneFree i) ∨ blocks.any (fun i => !s.blockIdle i) then
      (0x11, [], [])
    else if mixed then (0x13, [], [])
    else (0, lanes, blocks)

def State.setDet (s : State) (phase reason : Nat) : State :=
  { s with sec := { s.sec with wm := { s.sec.wm with phase := phase, detReason := if reason = 0 then s.sec.wm.detReason else reason } } }

/-- Ports of the blocks that are mapped out. -/
def State.portsOut (s : State) (blocks : List Nat) : Nat :=
  ((blocks.flatMap (fun i => (List.range 8).map (fun j => 8 * i + j))).filter (fun p => (s.port p).mapped)).length

/-- A detour image verified and committed, for a DETOUR command or under module 0's lead; APPLY ends 2 ms later for lanes, 5 ms for port
blocks (R52). The answer is the reason, or 0. -/
def State.startDetour (s : State) (b : Bytes) (c : Option CmdRef) : State × Nat :=
  match s.detourCheck b with
  | (0, lanes, blocks) =>
    let k := s.otherSlot
    let off := slotOff k
    let was := if wmHeader (s.readFlash off 64) slotSize = 0 then s.slotImage k else []
    let woken := blocks.any (fun i => !(Tbl.get false s.plt.blockOn i))
    let t := if blocks.isEmpty then 2 * ms else 5 * ms + (if woken then 200 * us else 0)
    let s := (s.writeFlash off slotSize b).verified true
    let s := { s with sec := { s.sec with detour := some c, detDue := s.ns + t, detLanes := lanes, detBlocks := blocks,
                                          detOut := s.portsOut blocks, detLed := c.isNone, detImage := b, detBase := was, detSlot := k } }
    (s.setDet 3 0, 0)
  | (r, _, _) => ((s.setDet 5 r).verified false, r)

/-- DETOUR (R52, R53). One that finds another structural operation is rejected with DETOUR_BUSY, which SEC_DETOUR_STAT shows; PHASE stays that
of a detour in progress. -/
def State.detourOp (s : State) (c : CmdRef) (d : HostData) : State :=
  s.runCmd c 0x72 (fun s e =>
    if s.sec.detour = some (some c) then (s, none)
    else if s.structural then (s.setDet (if s.sec.detour.isSome then s.sec.wm.phase else 5) 0x12, codeD cBUSY 0x12)
    else s.withData d e (fun b =>
      match s.startDetour b (some c) with
      | (t, 0) => (t, none)
      | (t, r) => (t, codeD cREJECTED r)))

/-- A deferred enable of a port takes effect (R54). -/
def State.enableDeferred (s : State) (p : Nat) : State :=
  let h := s.unit (portKey p)
  if h.enPending && !h.en then
    let s := s.setUnit (portKey p) { h with en := true, enPending := false, running := true }
    if s.portOff p then s else (s.toPhase p .training).wakeBlock (p / 8)
  else s

def portsOfBlocks (l : List Nat) : List Nat := l.flatMap (fun i => (List.range 8).map (fun j => 8 * i + j))

/-- The end of APPLY: the structure and what SEC shows are those of the detour image (R52 to R55). -/
def State.detourDone (s : State) : State :=
  match s.sec.detour with
  | none => s
  | some c =>
    let b := s.sec.detImage
    let l := wmSecs b
    let m := s.plt.cascId
    let lanes := s.sec.detLanes
    let blocks := s.sec.detBlocks
    let s := lanes.foldl (fun s i =>
      let s := s.applyLane ((secFor l m lanesT).getD []) i
      s.setLane i { s.lane i with draining := false }) s
    let s := blocks.foldl (fun s i => s.applyBlock ((secFor l m blocksT).getD []) i) s
    let n := satAdd s.sec.wm.detCount 1 0xFFFF
    let s := { s with sec := { s.sec with detour := none, detLanes := [], detBlocks := [], detImage := [], detBase := [],
                                          wm := { s.sec.wm with state := if s.sec.wm.state = 3 then 3 else 1, slot := s.sec.detSlot, phase := 4,
                                                                detCount := n },
                                          baseDig := s.way.digest } }
    let s := s.publishWm b
    let s := (portsOfBlocks blocks).foldl (fun s p => s.enableDeferred p) s
    let s := if lanes.isEmpty then s else { s with flt := { s.flt with capChanged := true } }
    match c with
    | some c => s.finish c cOK 0 []
    | none => s

/-- DETOUR_ABORTED: the former image is back in the slot, and the running structure is kept (R54). -/
def State.detourAbort (s : State) : State :=
  match s.sec.detour with
  | none => s
  | some c =>
    let blocks := s.sec.detBlocks
    let s := s.writeFlash (slotOff s.sec.detSlot) slotSize s.sec.detBase
    let s := { s with sec := { s.sec with detour := none, detLanes := [], detBlocks := [], detImage := [], detBase := [] } }
    let s := (portsOfBlocks blocks).foldl (fun s p => s.enableDeferred p) s
    match c with
    | some c => (s.setDet 5 0x14).finish c cREJECTED 0x14 []
    | none => s.setDet 5 0x14

/-- While APPLY runs, a named lane or block that is no longer drained or idle, or has faulted, aborts it. (DEDUCED, log 46.) -/
def State.detourWatch (s : State) : State :=
  if s.sec.detour.isSome && (s.sec.detLanes.any (fun l => !s.laneFree l) || s.sec.detBlocks.any (fun i => !s.blockIdle i) ||
      decide (s.portsOut s.sec.detBlocks ≠ s.sec.detOut)) then
    s.detourAbort
  else s

/-! ### Microcode patches (R118 to R121) -/

def lanesOf (mask : Nat) : List Nat := bitsOf mask 64

/-- Why a patch is refused as a whole; 0 when it is not. Where several reasons hold, the first in the order of this definition is answered:
R120 gives no order. (DESIGN CHOICE, log 119.) -/
def State.patchCode (s : State) (b : Bytes) (lanes : List Nat) : Nat :=
  if b.length < 64 ∨ imgKind b ≠ 2 ∨ b.take 4 ≠ imgMagic then 4
  else if rd b 16 2 ≠ 0x9256 ∨ 0xB1 < rd b 18 1 then 2
  else if !imgHdrOk b (min patchSize b.length) then 4
  else if s.vendorCode b "FV9256-MC" ≠ 0 then 1
  else if imgSvn b < s.flash.mcCtr ∨ lanes.any (fun l => decide (imgVer b ≤ (s.lane l).mc.ver.toNat)) then 3
  else if !Config.mcLayoutOk (patchComponent b) then 4
  else
    let id := mcIdOf (imgVer b) (patchComponent b)
    match s.golden.patch with
    | some p => if p = id ∨ s.golden.base = id then 0 else 5
    | none => 0

/-- The time that a lane's load takes (R119). -/
def loadTime : Nat := 1500 * us

/-- The result of the patch command's next lane, which its LMS_LOAD_STAT holds. -/
def State.patched (s : State) (l r : Nat) : State :=
  let s := s.setLane l { s.lane l with loading := false, loadResult := r }
  { s with golden := { s.golden with loads := s.golden.loads.drop 1, results := s.golden.results ++ [(l, r)] } }

/-- The patch command completes, with one result for each named lane. -/
def State.patchEnd (s : State) : State :=
  let rs := s.golden.results
  let c := s.golden.cmd
  let s := { s with golden := { s.golden with patching := false, loads := [], results := [], failing := [], cmd := none } }
  let s := s.promotePatch.showMc
  match c with
  | some c => s.finish c cOK 0 (padTo 12 (Config.patchResult rs))
  | none => s

/-- The next named lane that can be loaded begins its load; those before it are refused (R120, R121). -/
def State.patchNext (s : State) : Nat → State
  | 0 => s
  | fuel + 1 =>
    match s.golden.loads with
    | [] => s.patchEnd
    | l :: _ =>
      if (s.lane l).quarantined || (s.lane l).mapped then State.patchNext (s.patched l 8) fuel
      else if !s.laneFree l then State.patchNext (s.patched l 7) fuel
      else { (s.setLane l { s.lane l with loading := true }) with golden := { s.golden with due := s.ns + loadTime } }

/-- The load of the lane in turn has ended: its stores are read back (R119, R120). -/
def State.patchLoad (s : State) : State :=
  match s.golden.loads with
  | l :: _ =>
    if s.golden.patching && (s.lane l).loading && decide (s.golden.due ≤ s.ns) then
      let img := if s.golden.toBase then s.golden.image else s.golden.patchImage
      let id := if s.golden.toBase then s.golden.base else s.golden.patch.getD {}
      let (s, good) := s.loadStores l img id (!s.golden.toBase) (!s.golden.failing.contains l)
      let s := if good then s.patched l 0 else (s.failLoad l).patched l lLOADFAIL
      s.patchNext (s.golden.loads.length + 1)
    else s
  | [] => s

/-- The drain of a lane is cancelled before its load has ended: it keeps its previous image (ABORTED). -/
def State.patchCancel (s : State) (l : Nat) : State :=
  if s.golden.patching && (s.lane l).loading then
    let s := s.patched l 0x0A
    s.patchNext (s.golden.loads.length + 1)
  else s

/-- MC_PATCH: the image verified once and written as golden copy 1, then the named lanes in ascending order, each for 1.5 ms (R119). -/
def State.patchOp (s : State) (c : CmdRef) (d : HostData) (fail : List LaneId) : State :=
  s.runCmd c 0x73 (fun s e =>
    let lanes := lanesOf (e.param 0 8)
    if s.golden.patching && decide (s.golden.cmd = some c) then (s, none)
    else if s.structural then (s, codeD cBUSY 6)
    else s.withData d e (fun b =>
      let r := s.patchCode b lanes
      if r ≠ 0 then (s.verified (decide (r ≠ 1)), codeD cREJECTED r)
      else
        let comp := patchComponent b
        let id := mcIdOf (imgVer b) comp
        let s := s.verified true
        let base := decide (s.golden.base = id)
        let s := if base then s else
          { s.storeGolden s.golden.at1 comp with golden := { s.golden with patch := some id, patchImage := comp, patchSvn := imgSvn b },
                                                 sec := { s.sec with mc2Digest := Config.shake256 comp 64 } }
        let s := { s with golden := { s.golden with patching := true, loads := lanes, toBase := base, results := [], cmd := some c,
                                                    failing := fail.map (fun (f : LaneId) => f.val) } }
        (s.patchNext (lanes.length + 1), none)))

/-! ### A golden copy rebuilt (R116) -/

/-- The image of that identity in flash, verified: the bundle's component, or the installed patch. -/
def State.flashImage (s : State) (id : McId) : Option Bytes :=
  let base := component (s.imageAt (bankOff s.sec.bank)) 2
  if s.bankCode s.sec.bank = 0 ∧ mcIdOf (Config.mcVersion base) base = id then some base
  else match s.installedPatch 0 with
    | some p => if mcIdOf (imgVer p) (patchComponent p) = id then some (patchComponent p) else none
    | none => none

/-- GOLDEN_REBUILD_DONE: SVP has read the image of the lane's golden copy from flash again, with or without a read error. Verified, it is the copy anew, and the check is served;
otherwise the lane is quarantined and LANE_GOLDEN raised. -/
def State.rebuildDone (s : State) (l : Nat) (flash readback : Bool) : State :=
  let x := s.lane l
  if !x.rebuild then s
  else
    let s := s.setLane l { x with rebuild := false }
    match if flash then s.flashImage x.mc else none with
    | some img =>
      let s := s.storeGolden (if x.copy1 then s.golden.at1 else s.golden.at0) img
      let s := { s with golden := if x.copy1 then { s.golden with patchImage := img } else { s.golden with image := img } }
      s.serveCheck l readback
    | none =>
      let failed := s.failedJob l
      let s := ((s.decideFault fLaneMchk l true).quarantine l).raise fLaneGolden l 0
      s.afterCheck l failed

/-! ### Attestation (R423, R424) -/

def State.mcMixed (s : State) : Bool :=
  (List.range 64).any (fun l => !(s.lane l).mapped && (List.range 64).any (fun m => !(s.lane m).mapped && decide ((s.lane m).mc ≠ (s.lane l).mc)))

def vkeyValid : Nat :=
  maskOf ((List.range 4).filter (fun i => decide (Config.shake256 (Config.vendorKey i) 32 = Config.vendorHash i)))

/-- Bytes 0 to 447 of a quote. -/
def State.quoteBody (s : State) (nonce : Bytes) : Bytes :=
  let flags := b2n s.way.fallback + 2 * b2n (decide (s.sec.wm.state = 3)) + 4 * b2n s.mcMixed + 8 * b2n s.sec.token +
    16 * b2n s.enrolled + 32 * b2n s.sec.fallback
  let svn := s.sec.svn % 256 + s.flash.fwCtr % 256 * 2 ^ 8 + s.flash.mcCtr % 256 * 2 ^ 16 + s.sec.bank % 2 * 2 ^ 24
  [0x46, 0x56, 0x51, 0x54] ++ leBytes 2 1 ++ leBytes 2 562 ++ leBytes 2 0x9256 ++ [0xB1] ++ leBytes 1 s.plt.cascId ++
  leBytes 4 flags ++ padTo 16 deviceId ++ padTo 32 nonce ++ leBytes 8 s.ns ++ leBytes 4 s.glb.fwver.toNat ++
  leBytes 4 s.glb.mcver.toNat ++ leBytes 4 s.sec.wm.ver.toNat ++ leBytes 4 svn ++ padTo 64 s.sec.fwDigest ++
  padTo 64 s.sec.mcDigest ++ padTo 64 s.sec.mc2Digest ++ padTo 64 s.way.digest ++
  leBytes 4 (vkeyValid + s.flash.revoked % 16 * 16) ++ zeros 4 ++ padTo 32 s.flash.custHash ++ padTo 56 Config.provPub ++ zeros 8

/-- ATTEST: while a detour runs the quote waits (R424). -/
def State.attestOp (s : State) (c : CmdRef) (d : HostData) : State :=
  s.runCmd c 0x74 (fun s e =>
    if e.cert || s.sec.detour.isSome then (s, none)
    else s.withData d e (fun b =>
      let q := s.quoteBody b
      let sig := Config.edSign Config.identityPriv (Config.shake256 q 64) "FV9256-AT"
      (s.bump bSEC 2).reply e (q ++ padTo 114 sig) (okRes [])))

def State.certOp (s : State) (c : CmdRef) : State :=
  s.runCmd c 0x74 (fun s e => if e.cert then s.reply e Config.deviceCert (okRes []) else (s, none))

/-! ### Recovery (R427, R428) -/

/-- SEC_RECOVERY's fields as written; a CHUNK above 383 leaves that field unchanged. -/
def State.recWrite (s : State) (v : W32) : State :=
  let old := s.sec.recWord.toNat
  let ch := fld v.toNat 0 10
  let w := fld v.toNat 29 2 * 2 ^ 29 + fld v.toNat 27 1 * 2 ^ 27 + (if ch ≤ 383 then ch else fld old 0 10)
  { s with sec := { s.sec with recWord := w32 w } }

def State.recBank (s : State) : Nat := fld s.sec.recWord.toNat 27 1

/-- GO with OP PROGRAM: the chunk's programming begins. -/
def State.recProgram (s : State) (v : W32) : State :=
  if !s.plt.recovery then s
  else
    let go := tb v.toNat 31 && !s.sec.recBusy && decide (fld v.toNat 29 2 = 0)
    let s := s.recWrite v
    if go then { s with sec := { s.sec with recBusy := true } } else s

/-- The 64 KiB of the staging buffer. -/
def State.stagingBytes (s : State) : Bytes := (List.range 16384).flatMap (fun i => leBytes 4 (Tbl.get 0 s.sec.staging i).toNat)

/-- The chunk has been programmed and read back. -/
def State.recDone (s : State) (flashOk : Bool) : State :=
  if s.sec.recBusy then
    let off := bankOff s.recBank + fld s.sec.recWord.toNat 0 10 * 0x10000
    let b := if flashOk then s.stagingBytes else padTo 0x10000 (Config.badChunk s.free)
    let s := s.writeFlash off 0x10000 b
    ({ s with sec := { s.sec with recBusy := false, recResult := if flashOk then 0 else eFLASH } }).draw
  else s

/-- GO with OP VERIFY: a bundle that passes resets the module, which boots it. -/
def State.recVerify (s : State) (v : W32) : State :=
  if !s.plt.recovery then s
  else
    let go := tb v.toNat 31 && !s.sec.recBusy && decide (fld v.toNat 29 2 = 1)
    let s := s.recWrite v
    if go then
      let c := s.bankCode s.recBank
      let s := s.verified (decide (c = 0))
      if c = 0 then { s with flt := { s.flt with resetReq := true } } else { s with sec := { s.sec with recResult := c } }
    else s

end Sys2Proof.Machine
end

