-- ==== Sys2Proof/Machine/Power.lean ====
section
/-! DEFINITION. The platform controller (chapter 20, R469, R475, R478): supply changes, the power states with their entry,
abort and wake, the management bus, and the gating of lanes, pipes and port blocks. -/

namespace Sys2Proof.Machine

open Sys2Proof

/-! ### Registers (R447) -/

def State.pltReg (s : State) (off dflt : Nat) : Nat := (Tbl.get (w32 dflt) s.regs (0x100000 + off)).toNat
def State.pwrCfg (s : State) : Nat := s.pltReg 0x44 pwrCfgReset
def State.wakeCfg (s : State) : Nat := s.pltReg 0x4C wakeCfgReset
def State.gateCfg (s : State) : Nat := s.pltReg 0x50 gateCfgReset
def State.pfailCfg (s : State) : Nat := s.pltReg 0x60 pfailCfgReset
/-- THRESH in 0.1 V. -/
def State.thresh (s : State) : Nat := fld s.pfailCfg 16 9

/-- PLT_PWR_STAT. -/
def State.pwrStat (s : State) : W32 :=
  let p := s.plt
  w32 (p.cur % 8 * 2 ^ 29 + (if p.busy then p.target else p.cur) % 8 * 2 ^ 26 + b2n p.busy * 2 ^ 25 + b2n p.pend.isSome * 2 ^ 24 +
    (match p.pend with
     | some x => x.1 % 8 * 2 ^ 21
     | none => 0) + p.abortSrc % 16 * 2 ^ 12 + p.retries % 4 * 2 ^ 10)

/-! ### Idle domains (R20, R441) -/

/-- A powered lane with no job and no context placed on it; a powered pipe without a job. -/
def State.laneIsIdle (s : State) (l : Nat) : Bool :=
  let x := s.lane l
  decide (x.power = 2) && (s.lane (s.leadFor l)).queue.isEmpty && x.quiet && !x.loading && (s.ctxsOn (s.leadFor l)).isEmpty
def State.pipeIsIdle (s : State) (p : Nat) : Bool := decide ((s.pipe p).power = 2) && (s.pipe p).job.isNone

/-- A lane or a pipe begins its idle period, or ends it: the end of the delay is fixed at the beginning. -/
def State.idleLane (s : State) (l : Nat) : State :=
  if s.laneIsIdle l then
    (if (s.lane l).idleAt.isNone then s.setLane l { s.lane l with idleAt := some (s.ns + fld s.gateCfg 16 16 * ms) } else s)
  else if (s.lane l).idleAt.isSome then s.setLane l { s.lane l with idleAt := none } else s
def State.idlePipe (s : State) (p : Nat) : State :=
  if s.pipeIsIdle p then
    (if (s.pipe p).idleAt.isNone then s.setPipe p { s.pipe p with idleAt := some (s.ns + fld s.gateCfg 0 16 * us) } else s)
  else if (s.pipe p).idleAt.isSome then s.setPipe p { s.pipe p with idleAt := none } else s
def State.idleTimers (s : State) : State :=
  let s := s.lanes.foldl (fun s e => s.idleLane e.1) s
  s.cmp.pipes.foldl (fun s e => s.idlePipe e.1) s

/-- A lane is to be powered down: MSC issues SAVE_CONTEXT and FENCE, and the domain goes off with the FENCE; a lane that takes no job goes off at
once (R19, R88). -/
def State.gate (s : State) (l : Nat) : State :=
  if s.running (laneKey (s.leadFor l)) && decide ((s.lane (s.leadFor l)).power = 2) then s.gateLane l else s.laneOff l

/-- LANE_IDLE_TIMEOUT and PIPE_IDLE_TIMEOUT: the domain is powered down; a carriageway's lanes only together. -/
def State.laneIdle (s : State) (l : Nat) : State :=
  match (s.lane l).idleAt with
  | some t => if t ≤ s.ns ∧ (s.members l).all (fun m => s.laneIsIdle m) then s.gate l else s
  | none => s
def State.pipeIdle (s : State) (p : Nat) : State :=
  match (s.pipe p).idleAt with
  | some t => if t ≤ s.ns then s.setPipe p { s.pipe p with power := 0, idleAt := none } else s
  | none => s

/-- A port block with every port administratively down is powered down. -/
def State.gateBlock (s : State) (b : Nat) : State :=
  if (List.range 8).all (fun j => !(s.unit (portKey (8 * b + j))).en && !(s.unit (portKey (8 * b + j))).running) then
    { s with plt := { s.plt with blockOn := Tbl.del s.plt.blockOn b, blockWake := Tbl.del s.plt.blockWake b } }
  else s

/-- DOMAIN_READY. -/
def State.domainReady (s : State) : Domain → State
  | .lane l => s.laneWoken l.val
  | .pipe p => s.pipeWoken p.val
  | .portBlock b =>
    match Tbl.find s.plt.blockWake b.val with
    | some t =>
      if t ≤ s.ns then
        { s with plt := { s.plt with blockOn := Tbl.put s.plt.blockOn b.val true, blockWake := Tbl.del s.plt.blockWake b.val } }
      else s
    | none => s

/-! ### Blocks stopped and restarted (R435) -/

/-- The codes of the blocks that a state leaves stopped; blocks 8 to 10 stop anew at each entry. -/
def stoppedIn (c : Nat) : List Nat := if c = 0 then [] else if c = 1 then [1] else [1, 2, 3, 4, 5, 6]

/-- The blocks that an entry from `c` to `t` stops, in order. A transition to IDLE ends after block 9. -/
def stopList (c t : Nat) : List Nat :=
  (if t = 1 then [1, 9] else [1, 2, 3, 4, 5, 6, 7, 8, 9, 10]).filter (fun b => !(stoppedIn c).contains b)

/-- The header keys of a block of R435, the block's own first. -/
def State.codeUnits (s : State) (b : Nat) : List Nat :=
  if b = 1 then [bMSC] else if b = 2 then bDMA :: (List.range 32).map dmaKey
  else if b = 4 then [bASM] else if b = 5 then [bSWC, bTMG]
  else if b = 6 then bCAS :: (List.range 3).map linkKey ++
    (s.units.map Prod.fst).filter (fun k => decide (128 ≤ k) && decide (k < 384))
  else []

/-- The block of R435 that a header belongs to; 0 for none. -/
def codeOf (k : Nat) : Nat :=
  let b := blockOf k
  if b = bMSC then 1 else if b = bDMA then 2 else if b = bASM then 4 else if b = bSWC ∨ b = bTMG then 5
  else if b = bPRT ∨ b = bCAS then 6 else 0

/-- A header's block is being stopped, or stays stopped, in the state or the entry in progress (R439). -/
def State.pltHolds (s : State) (k : Nat) : Bool :=
  let b := codeOf k
  decide (b ≠ 0) && ((stoppedIn s.plt.cur).contains b ||
    (s.plt.busy && decide (b ≤ s.plt.block) && (stopList s.plt.cur s.plt.target).contains b))

def State.haltUnits (s : State) (l : List Nat) : State :=
  l.foldl (fun s k => if (s.unit k).running then s.setUnit k { s.unit k with running := false } else s) s

/-- Units run again where they are enabled, deferred enables included (R439). -/
def State.restartUnits (s : State) (l : List Nat) : State :=
  l.foldl (fun s k =>
    let h := s.unit k
    let en := h.en || h.enPending
    let up := decide (k < 32) || (decide (128 ≤ k) && decide (k < 384)) || s.running (blockOf k)
    if en then s.setUnit k { h with en := true, enPending := false, running := up } else s) s

/-- MSC is stopping: it creates and dispatches nothing. -/
def State.mscHalts (s : State) : Bool := s.plt.busy && decide (s.plt.block = 1)

/-- PLT asks a block to stop: what the block begins then. -/
def State.askBlock (s : State) (b : Nat) : State :=
  if b = 3 then
    let s := { s with plt := { s.plt with drainDue := some (s.ns + 10 * ms) } }
    (s.erelm.sess.map Prod.fst).foldl (fun s d => if (s.es d).ph = .open_ then s.closeEs d 2 none else s) s
  else if b = 5 then { s with plt := { s.plt with drainDue := some (s.ns + s.plt.drainMs * ms) } }
  else if b = 1 ∧ 2 ≤ s.plt.target then
    ((List.range 64).filter (fun l => decide ((s.lane l).power = 2) && s.running (laneKey l) && decide ((s.lane l).ms ≠ .halted))).foldl
      (fun s l => s.gateLane l) s
  else s

/-- A command other than POWER_STATE has been consumed and has not completed. -/
def State.otherFlight (s : State) : Bool :=
  s.hqe.rings.any (fun e => decide (e.2.kind = kCMD) && e.2.flight.any (fun f => decide (f.e.opcode.toNat ≠ 0x90)))

/-- The block refuses. -/
def State.refuses (s : State) (b : Nat) : Bool :=
  (decide (b = 2) && s.dma.chans.any (fun e => decide (16 ≤ e.1) && e.2.busy)) || (decide (b = 7) && s.otherFlight)

def State.egressEmpty (s : State) : Bool := !(s.swc.copies.any (fun e => match e.2.place with
  | .queued | .tx | .layby _ _ => true
  | .arriving | .held => false))

/-- The block's stop work is done. (DEDUCED, log 56.) -/
def State.stopDone (s : State) (b : Nat) : Bool :=
  let due := match s.plt.drainDue with
    | some t => decide (t ≤ s.ns)
    | none => true
  if b = 1 then
    s.lanes.all (fun e => e.2.queue.isEmpty && (e.2.run.map (·.visible)).getD true) && s.cmp.pipes.all (fun e => e.2.job.isNone)
  else if b = 3 then due || !(s.erelm.sess.any (fun e => decide (e.2.ph = .shutdown)))
  else if b = 5 then s.egressEmpty
  else true

/-- The end of the memory that a partial array keeps (R369): the smallest part that covers the retained carve-outs. -/
def State.keepEnd (s : State) : Nat :=
  let top := (s.way.carves.filter (fun e => tb e.2.2.2 2)).foldl (fun a e => max a (e.2.1 + e.2.2.1)) 0
  match [8, 4, 2].find? (fun d => decide (top ≤ s.memEnd / d)) with
  | some d => s.memEnd / d
  | none => s.memEnd

/-- A block that has agreed is stopped. -/
def State.stopBlock (s : State) (b : Nat) : State :=
  let t := s.plt.target
  if b = 1 then
    let s := (s.opens.filter (fun e => decide (e.2 = 4) && decide (s.cf e.1 0x01 1 = 4))).foldl (fun s e =>
      s.setDec e.1 { s.dec e.1 with unsupp := true }) s
    let s := s.opens.foldl (fun s e => if 3 ≤ e.2 ∧ e.2 ≤ 5 then s.setCf e.1 0x01 1 3 else s) s
    s.haltUnits (s.codeUnits 1)
  else if b = 2 then ((List.range 16).foldl (fun s c => s.dmaStop c 5) s).haltUnits (s.codeUnits 2)
  else if b = 3 then
    let s := { s with plt := { s.plt with drainDue := none } }
    (s.erelm.sess.map Prod.fst).foldl (fun s d =>
      if (s.es d).ph = .shutdown then (s.releaseHolds d).setEs d ((s.es d).clear .waitHello) else s) s
  else if b = 4 then
    ((s.opens.filter (fun e => decide (e.2 = 1))).foldl (fun s e => s.releaseHolds e.1) s).haltUnits (s.codeUnits 4)
  else if b = 5 then ({ s with plt := { s.plt with drainDue := none } }).haltUnits (s.codeUnits 5)
  else if b = 6 then
    let s := (s.prt.ports.map Prod.fst).foldl (fun s p => s.toPhase p .down) s
    let s := (List.range 3).foldl (fun s l => if (s.link l).ph = .down then s else s.linkDown l) s
    s.timeLost.haltUnits (s.codeUnits 6)
  else if b = 7 then
    match s.plt.cmd with
    | some c => ({ s with plt := { s.plt with cmd := none } }).finish c cOK 0 []
    | none => s
  else if b = 8 then
    (List.range 16).foldl (fun s c =>
      if (s.chan c).ph = .run then s.setChan c { s.chan c with ph := .selfRefresh } else s) s
  else if b = 9 then
    if t = 3 then
      { s with plt := { s.plt with digests := [s.sec.fwDigest, s.sec.mcDigest, s.sec.mc2Digest, s.way.digest] } }
    else s
  else
    let s := (s.lanes.map Prod.fst).foldl (fun s l => s.laneOff l) s
    let s := (s.cmp.pipes.map Prod.fst).foldl (fun s p => s.setPipe p { s.pipe p with power := 0, wakeAt := none }) s
    { s with plt := { s.plt with blockOn := [], blockWake := [] } }

/-- A stopped block restarts. After block 1 every encode context resumes under R137 (R433), and a decode context that was UNSUPPORTED is so again. -/
def State.restartBlock (s : State) (b : Nat) : State :=
  if b = 1 then
    let s := s.restartUnits (s.codeUnits 1)
    let s := s.opens.foldl (fun s e => if 3 ≤ e.2 ∧ e.2 ≤ 5 then s.setCf e.1 0x01 1 1 else s) s
    let s := (s.opens.filter (fun e => decide (e.2 = 4) && (s.dec e.1).unsupp)).foldl (fun s e =>
      (s.setCf e.1 0x01 1 4).setDec e.1 { s.dec e.1 with unsupp := false }) s
    let s := (s.opens.filter (fun e => decide (e.2 = 3))).foldl (fun s e =>
      ((s.setCfI e.1 0x60 4 0).setCfI e.1 0x6C 4 0).restartRefresh e.1) s
    (s.erelm.sess.map Prod.fst).foldl (fun s d => if (s.es d).ph = .open_ then s.commitTo d 0 4 else s) s
  else if b = 6 then
    let s := s.restartUnits (s.codeUnits 6)
    let s := (s.prt.ports.map Prod.fst).foldl (fun s p =>
      if s.portEn p && !(s.port p).mapped && !(s.portOff p) then (s.toPhase p .training).wakeBlock (p / 8) else s) s
    (List.range 3).foldl (fun s l => if s.running (linkKey l) then s.linkTrain l else s) s
  else if b = 8 then
    let s := (List.range 16).foldl (fun s c =>
      if (s.chan c).ph = .selfRefresh then s.setChan c { s.chan c with ph := .run } else s) s
    { s with mem := { s.mem with nextWindow := s.ns + s.mem.trefi } }
  else if b = 10 then
    (s.lanes.map Prod.fst).foldl (fun s l => if (s.ctxsOn l).isEmpty then s else s.wakeLane l) s
  else s.restartUnits (s.codeUnits b)

/-- The stopped blocks restart in reverse order. -/
def State.restartBlocks (s : State) (l : List Nat) : State := l.reverse.foldl (fun s b => s.restartBlock b) s

/-! ### Resume from DEEP_SLEEP (R443) -/

/-- What stays mapped out, as GLB_HEALTH says until module reset. -/
def State.keepMapped (t s : State) : State :=
  let t := { t with glb := { t.glb with health := s.glb.health, cntLanes := s.glb.cntLanes, cntPorts := s.glb.cntPorts,
                                        cntCasLanes := s.glb.cntCasLanes, cntPages := s.glb.cntPages,
                                        fwver := s.glb.fwver, fwdig := s.glb.fwdig } }
  let t := s.lanes.foldl (fun t e => if e.2.mapped then
      t.setLane e.1 { t.lane e.1 with mapped := true, quarantined := e.2.quarantined, outcome := e.2.outcome } else t) t
  let t := s.prt.ports.foldl (fun t e => if e.2.mapped then t.setPort e.1 { t.port e.1 with mapped := true, ph := .degraded } else t) t
  let t := s.cmp.pipes.foldl (fun t e => if e.2.mapped then t.setPipe e.1 { t.pipe e.1 with mapped := true } else t) t
  let t := s.cas.links.foldl (fun t e => t.setLink e.1 { t.link e.1 with out := e.2.out, excluded := e.2.excluded }) t
  s.cpus.foldl (fun t e => if e.2.ph = .mappedOut then t.setCpu e.1 { t.cpu e.1 with ph := .mappedOut } else t) t

/-- The domains that were off start from their reset values, the waymap that ran is applied again, the lanes are loaded from
the golden copies, and the rings are back in HELD. -/
def State.rebuild (s : State) : State :=
  let img := s.runningImage
  let l := wmSecs img
  let deg := if s.sec.wm.state = 3 then degradedFor l s.plt.cascId s.sec.wm.degChan else none
  let t := s.blank
  let t : State := { t with
    plt := { t.plt with firmware := true, digests := [] },
    golden := s.golden,
    mem := { s.mem with dram := s.mem.dram.filter (fun e => decide (e.1 < s.keepEnd)),
                        poison := s.mem.poison.filter (fun e => decide (e.1 * 32 < s.keepEnd)),
                        nextWindow := s.ns + s.mem.trefi, retrainQ := [] },
    sec := { wm := s.sec.wm, bank := s.sec.bank, altValid := s.sec.altValid, fallback := s.sec.fallback,
             reasonA := s.sec.reasonA, reasonB := s.sec.reasonB, svn := s.sec.svn, fwDigest := s.sec.fwDigest,
             mcDigest := s.sec.mcDigest, mc2Digest := s.sec.mc2Digest, keys := s.flash.keys,
             chal := Config.challenge s.free },
    way := { t.way with fallback := s.way.fallback },
    hqe := { rings := s.hqe.rings, eqs := s.hqe.eqs, nextOrd := s.hqe.nextOrd, hbTimeout := 2000,
             readyAt := s.ns + 32200 * us } }
  let t := (t.draw.keepMapped s).restartBlock 8
  let t := ((List.range 64).filter (fun i => !(t.lane i).mapped)).foldl (fun t i =>
    let (t, ok) := match (if (s.lane i).copy1 then s.golden.patch else none) with
      | some p => t.loadStores i s.golden.patchImage p true true
      | none => t.loadStores i s.golden.image s.golden.base false true
    if ok then t else t.failLoad i) t
  let t := (t.applySections l s.plt.cascId (if s.way.fallback then 1 else wmCasc img) deg).publishWm img
  let t := (List.range 5).foldl (fun t p =>
    if (t.cpu p).ph = .mappedOut then t
    else t.setCpu p { t.cpu p with ph := .run, services := if p = 0 then 32 else (t.cpu p).services }) t
  let t := if s.way.fallback then t else t.startLinks
  ({ t with flt := { t.flt with capChanged := false } }).holdRings.showMc

/-- The resume: the retained images' digests are compared, and a difference starts the module cold from step 2 of R430.
(DEDUCED, log 57.) -/
def State.resumeDeep (s : State) : State :=
  let got := Config.retainedDigests s.free
  let s := s.draw
  if got = s.plt.digests then s.rebuild
  else
    let t := s.moduleReset s.ownInputs
    if t.plt.recovery then t else t.event .pltResumeCold noCtx 0

/-! ### Transitions (R434 to R440) -/

/-- The module goes to a shallower state: from DEEP_SLEEP to RUN by the resume, else by restarting blocks. -/
def State.rise (s : State) (t : Nat) : State :=
  let s := s.bump bPLT 0
  if s.plt.cur = 3 then s.resumeDeep
  else
    let c := s.plt.cur
    let l := (if c = 1 then [1, 9] else [1, 2, 3, 4, 5, 6, 7, 8, 9, 10]).filter (fun b => !(stoppedIn t).contains b)
    let s := { s with plt := { s.plt with cur := t, target := t, timerDue := none } }
    s.restartBlocks l

/-- A source ends the state that the module is in (R440): 0 WAKE_N, 1 management bus, 2 host, 3 timer. -/
def State.wakesFrom (s : State) (src : Nat) : Bool :=
  let c := s.plt.cur
  if c = 1 then decide (src ≤ 2)
  else if c = 2 then decide (src = 0) || (decide (src = 1) && s.plt.mgmtEn) || (decide (src = 2) && s.plt.hostEn) || decide (src = 3)
  else if c = 3 then decide (src = 0) || (decide (src = 1) && s.plt.mgmtEn) || decide (src = 3)
  else false

/-- A wake served as a transition to RUN. -/
def State.wakeTo (s : State) (src : Nat) : State :=
  let c := s.plt.cur
  let s := (s.rise 0).bump bPLT 2
  let s := { s with plt := { s.plt with wakeFlags := setBit s.plt.wakeFlags src, wakeFrom := c, latched := none } }
  s.event .pltWake noCtx src

/-- OFF: everything but the wake island is unpowered. -/
def State.goOff (s : State) : State :=
  let t := s.powerOff
  ({ t with plt := { t.plt with cur := 4, target := 4 } }).emit (.pin "PWRGD" true)

/-- A command of a request that is dropped completes ABORTED. -/
def State.dropPend (s : State) : State :=
  match s.plt.pend with
  | some (_, some c) => ({ s with plt := { s.plt with pend := none } }).finish c cABORTED 0 []
  | _ => { s with plt := { s.plt with pend := none } }

/-- A latched wake is served before the pending slot (R438). -/
def State.serveLatch (s : State) : State :=
  match s.plt.latched with
  | none => s
  | some src =>
    let s := { s with plt := { s.plt with latched := none } }
    if s.wakesFrom src then
      match s.plt.pend with
      | some (0, some c) => (({ s with plt := { s.plt with pend := none } }).wakeTo src).finish c cOK 0 []
      | some (0, none) => ({ s with plt := { s.plt with pend := none } }).wakeTo src
      | _ => s.dropPend.wakeTo src
    else s

/-- An entry begins, or begins again: the first block is asked. -/
def State.enter (s : State) : State :=
  let w := s.wakeCfg
  let b := (stopList s.plt.cur s.plt.target).headD 10
  let s := { s with plt := { s.plt with busy := true, block := b, retryDue := none, drainDue := none, timerCfg := w,
                                        drainMs := fld s.pwrCfg 0 8, mgmtEn := tb w 30, hostEn := tb w 29 } }
  s.askBlock b

/-- A request for state `t` while no transition runs. A host request in SLEEP counts as a wake only with HOST_EN. -/
def State.begin_ (s : State) (t : Nat) (c : Option CmdRef) : State :=
  let ok := fun (s : State) => match c with
    | some c => s.finish c cOK 0 []
    | none => s
  if t = s.plt.cur then ok s
  else if s.plt.cur < t then
    ({ s with plt := { s.plt with target := t, cmd := c, retries := 0, tries := 0, autoRetry := tb s.pwrCfg 31 } }).enter
  else if c.isSome && decide (s.plt.cur = 2) && !s.plt.hostEn then
    match c with
    | some c => s.finish c cSTATE 0 []
    | none => s
  else if t = 0 then ok (s.wakeTo (if c.isSome then 2 else 1))
  else if s.plt.cur = 3 then
    let s := s.wakeTo 1
    ({ s with plt := { s.plt with target := t, cmd := c, retries := 0, tries := 0, autoRetry := tb s.pwrCfg 31 } }).enter
  else ok (s.rise t)

/-- A request (R434, R437): it waits in the pending slot during a transition, a detour or a patch (R54, R121). -/
def State.powerReq (s : State) (t : Nat) (c : Option CmdRef) : State :=
  if s.structural then
    let s := s.dropPend
    { s with plt := { s.plt with pend := some (t, c) } }
  else s.begin_ t c

/-- The slot is evaluated when nothing keeps it waiting. -/
def State.evalPend (s : State) : State :=
  if s.structural || !s.plt.up then s
  else match s.plt.pend with
    | some (t, c) => ({ s with plt := { s.plt with pend := none } }).begin_ t c
    | none => s

/-- The state is reached: the wake timer starts, and what was latched or pending is served. -/
def State.reach (s : State) : State :=
  let t := s.plt.target
  let w := s.plt.timerCfg
  let s := s.bump bPLT 0
  if t = 4 then s.goOff
  else
    let due := if 2 ≤ t ∧ tb w 31 ∧ fld w 0 24 ≠ 0 then some (s.ns + fld w 0 24 * oneSec) else none
    let c := s.plt.cmd
    let s := { s with plt := { s.plt with cur := t, busy := false, block := 0, cmd := none, timerDue := due } }
    let s := match c with
      | some c => s.finish c cOK 0 []
      | none => s
    s.serveLatch.evalPend

/-- A refusal: the stopped blocks restart, and the entry is tried again after 1 ms or ends (R436). -/
def State.refuse (s : State) (b : Nat) : State :=
  let l := (stopList s.plt.cur s.plt.target).filter (fun x => decide (x < b))
  let n := s.plt.tries + 1
  let s := { s with plt := { s.plt with block := 0, drainDue := none, abortSrc := b, tries := n } }
  let s := ((s.restartBlocks l).bump bPLT 1).event .pltPwrAbort noCtx b
  if s.plt.autoRetry && decide (n ≤ 3) then { s with plt := { s.plt with retryDue := some (s.ns + ms) } }
  else
    let c := s.plt.cmd
    let s := { s with plt := { s.plt with busy := false, target := s.plt.cur, cmd := none } }
    let s := match c with
      | some c => s.finish c cBUSY (0x40 + b) []
      | none => s
    s.serveLatch.evalPend

/-- BLOCK_STOP_DONE: the block asked agrees and stops, and the next is asked; or it refuses. -/
def State.blockStop (s : State) : State :=
  let b := s.plt.block
  if !s.plt.busy || decide (b = 0) then s
  else if s.refuses b then s.refuse b
  else if !(s.stopDone b) then s
  else
    let s := s.stopBlock b
    match (stopList s.plt.cur s.plt.target).find? (fun x => decide (b < x)) with
    | some n => ({ s with plt := { s.plt with block := n } }).askBlock n
    | none => s.reach

/-- DRAIN_TIMEOUT. -/
def State.drainTimeout (s : State) : State :=
  match s.plt.drainDue with
  | some t => if s.plt.busy ∧ s.plt.block = 5 ∧ t ≤ s.ns ∧ !s.egressEmpty then s.refuse 5 else s
  | none => s

/-- ENTRY_RETRY. -/
def State.entryRetry (s : State) : State :=
  match s.plt.retryDue with
  | some t => if t ≤ s.ns then ({ s with plt := { s.plt with retries := s.plt.tries } }).enter else s
  | none => s

/-- A wake event: latched during an entry, else served if it ends the state (R438, R440). -/
def State.wakeEvent (s : State) (src : Nat) : State :=
  if s.plt.busy then { s with plt := { s.plt with latched := some (s.plt.latched.getD src) } }
  else if s.wakesFrom src then s.wakeTo src else s

/-- POWER_STATE. -/
def State.powerStateOp (s : State) (c : CmdRef) : State :=
  s.runCmd c 0x90 (fun s e =>
    let waits := decide (s.plt.cmd = some c) || (match s.plt.pend with
      | some (_, x) => decide (x = some c)
      | none => false)
    if waits then (s, none)
    else if 4 < e.target.toNat then (s, code cBAD_PARAM)
    else (s.powerReq e.target.toNat (some c), none))

/-! ### The management bus (R442, R475) -/

/-- STATE_REQ, STATE_READ and HEALTH_READ, in RUN and IDLE. -/
def State.mgmtOk (s : State) : Bool := s.plt.up && decide (s.plt.cur ≤ 1)

def State.stateReq (s : State) (v : Nat) : State :=
  if !s.mgmtOk then s
  else if 4 < v ∨ s.plt.recovery then s.emit (.mgmt false [])
  else (s.emit (.mgmt true [])).powerReq v none

def State.mgmtRead (s : State) (v : Nat) : State := if s.mgmtOk then s.emit (.mgmt true (leBytes 4 v)) else s

/-- MGMT_ADDRESS_MATCH: the address is acknowledged; in SLEEP and DEEP_SLEEP it wakes, and the first data byte is refused. -/
def State.mgmtMatch (s : State) (addr : Nat) : State :=
  if !s.plt.up ∨ addr ≠ 0x58 + s.plt.cascId % 4 then s
  else
    let s := s.emit (.mgmt true [])
    if 2 ≤ s.plt.cur then (s.emit (.mgmt false [])).wakeEvent 1
    else ({ s with plt := { s.plt with mgmt := true } }).wakeEvent 1

def State.smbusTimeout (s : State) : State :=
  if s.plt.up then ({ s with plt := { s.plt with mgmt := false } }).emit (.pin "SMB_SDA" false) else s

/-! ### WAKE_N and the wake timer -/

/-- WAKE_N low for its 50 µs: a wake, or from OFF a cold start that sets its bit. -/
def State.wakeN (s : State) (lowUs : Nat) (b : BoardInputs) : State :=
  if lowUs < 50 then s
  else if s.plt.cur = 4 then
    let s := s.coldStart b
    ({ s with plt := { s.plt with wakeFlags := 1, wakeFrom := 4 } }.bump bPLT 2).event .pltWake noCtx 0
  else if s.plt.up then s.wakeEvent 0 else s

def State.wakeTimer (s : State) : State :=
  match s.plt.timerDue with
  | some t => if t ≤ s.ns ∧ s.plt.up then ({ s with plt := { s.plt with timerDue := none } }).wakeEvent 3 else s
  | none => s

/-! ### Supply (R430, R444 to R446, R469, R478) -/

/-- The supply is lost: the module stops, and the wake island holds PWRGD low. -/
def State.cutOff (s : State) (thermal exhausted : Bool) : State :=
  let t := s.powerOff
  ({ t with plt := { t.plt with thermal := thermal, exhausted := exhausted } }).emit (.pin "PWRGD" true)

/-- VIN_RISE: below the lockout, and in OFF, a rise through 5.8 V starts the module. (DEDUCED, log 96.) -/
def State.vinRise (s : State) (b : BoardInputs) : State := if s.plt.up || s.plt.thermal then s else s.coldStart b

/-- VIN_LOCKOUT: a module that draws from HOLDUP goes on. (DEDUCED, log 58.) -/
def State.vinLockout (s : State) : State :=
  if s.plt.onHoldup then s else s.cutOff s.plt.thermal s.plt.exhausted

def State.thermalOff (s : State) : State := if s.plt.up then s.cutOff true false else s
def State.thermalOn (s : State) (b : BoardInputs) : State := if s.plt.thermal then s.coldStart b else s

/-- RESET_N low for its 10 µs; ignored in OFF. -/
def State.resetPin (s : State) (lowUs : Nat) (b : BoardInputs) : State :=
  if lowUs < 10 ∨ !s.plt.up then s else s.moduleReset b

/-- The records not yet in flash are appended to the fault log, which keeps the last 131,072 (R457). -/
def State.flushLog (s : State) : State :=
  let l := s.flash.log ++ s.flt.pendingLog
  { s with flash := { s.flash with log := l.drop (l.length - 131072) },
           flt := { s.flt with pendingLog := [], flushDue := none } }

/-- SHED 1 to 3: the BACKGROUND contexts are suspended; skips are decided at each picture. -/
def State.shed (s : State) (n : Nat) : State :=
  let s := { s with plt := { s.plt with shed := n } }
  if n = 0 then s
  else
    let l := (s.opens.filter (fun e => (decide (e.2 = 3) || decide (e.2 = 4)) && decide (s.bandOf e.1 = 2) &&
      !(s.ctxSuspended e.1))).map Prod.fst
    l.foldl (fun s r => (s.setSuspended r true).event .mscSuspend r 0) { s with plt := { s.plt with shedCtx := l } }

def State.unshed (s : State) : State :=
  let l := s.plt.shedCtx
  l.foldl (fun s r => if s.ctxSuspended r then s.resume r else s) { s with plt := { s.plt with shed := 0, shedCtx := [] } }

/-- VIN_FALL: VIN and HOLDUP in 0.1 V. -/
def State.vinFall (s : State) (vin holdup : Nat) : State :=
  if !s.plt.up ∨ s.plt.pfail ∨ s.thresh ≤ vin then s
  else
    let on := decide (vin < holdup)
    let s := (s.emit (.pin "PFAIL_N" true)).bump bPLT 3
    let s := { s with plt := { s.plt with pfail := true, pfailAt := s.ns, chargeAt := none, vin := some (s.ns, vin),
                                          holdup := some (s.ns, holdup), onHoldup := on } }
    let s := s.event .pltPfail noCtx vin
    if on then (s.shed (fld s.pfailCfg 0 2)).flushLog else s

/-- VIN_RETURN: VIN has held THRESH + 0.5 V for 10 ms. -/
def State.vinReturn (s : State) (vin : Nat) : State :=
  if !s.plt.pfail ∨ vin < s.thresh + 5 ∨ s.ns < s.plt.pfailAt + 10 * ms then s
  else
    let s := if s.plt.onHoldup then s.bumpU bPLT 0 4 ((s.ns - s.plt.pfailAt) / ms) else s
    let s := { s with plt := { s.plt with pfail := false, onHoldup := false, vin := some (s.ns, vin), chargeAt := some s.ns } }
    ((s.emit (.pin "PFAIL_N" false)).event .pltPfailEnd noCtx vin).unshed

def State.holdupOut (s : State) : State := if s.plt.onHoldup then s.cutOff false true else s

/-- HOLDUP_CHARGE_TIMEOUT: the capacitor has not reached 40 V within 5 s of the start of charging (R444). -/
def State.chargeTimeout (s : State) : State :=
  match s.plt.chargeAt with
  | some t =>
    if t + 5 * oneSec ≤ s.ns then
      ({ s with plt := { s.plt with chargeAt := none } }).raise fPltHoldup 0 0
    else s
  | none => s

end Sys2Proof.Machine
end

