-- ==== Sys2Proof/Machine/Regs.lean ====
section
/-! DEFINITION. The configuration registers (R6, R7, R57, R60): which fields of each register a write stores, the values
that leave a field unchanged, and the locks of static fields. -/

namespace Sys2Proof.Machine

open Sys2Proof

/-! ### A write -/

/-- What a field holds after a write of `x` to it; `v` is the whole word written and `old` what the field held. -/
def State.take (s : State) (c : Chk) (v x old : Nat) : Nat :=
  match c with
  | .any => x
  | .range lo hi => if lo ≤ x ∧ x ≤ hi then x else old
  | .clampTo hi => min x hi
  | .clampNz hi => if x = 0 then old else min x hi
  | .signed w lo hi => if lo ≤ sgn x w ∧ sgn x w ≤ hi then x else old
  | .pow2 lo hi => if isPow2In x lo hi then x else old
  | .zeroOr lo hi => if x = 0 ∨ (lo ≤ x ∧ x ≤ hi) then x else old
  | .rxRing => if (s.ring x).kind = kRX ∧ (s.ring x).ph ≠ .free then x else old
  | .notAbove lo w => if x ≤ fld v lo w then x else old
  | .portMode p => if modeOk (Tbl.get 0 s.way.portClass (p / 8)) x then x else old

/-- The stored word of a register. -/
def State.word (s : State) (a reset : Nat) : Nat := (Tbl.get (w32 reset) s.regs a).toNat

/-- The lock of a register's static fields holds. -/
def State.locked (s : State) (l : Lock) (old : Nat) : Bool :=
  match l with
  | .none => false
  | .unit k => s.running k
  | .own => tb old 31
  | .reg a => tb (s.word a 0) 31

/-- The word after a write: each field under its own code (R57), static fields only while unlocked (R60). -/
def State.newWord (s : State) (d : RegDesc) (locked : Bool) (old v : Nat) : Nat :=
  d.fields.foldl (fun w f =>
    if f.static && locked then w
    else setFld w f.lo f.w (s.take f.chk v (fld v f.lo f.w) (fld old f.lo f.w))) old

/-- A write to a locked static field is ignored and counted, once, whatever it carries (R7, R59, R60). (DEDUCED, log 85.) -/
def RegDesc.ignored (d : RegDesc) (locked : Bool) : Bool := locked && d.fields.any (fun f => f.static)

/-- A write to a described register. -/
def State.storeReg (s : State) (a : Nat) (d : RegDesc) (v : Nat) : State :=
  let old := s.word a d.reset
  let lk := s.locked d.lock old
  let s1 := { s with regs := Tbl.put s.regs a (w32 (s.newWord d lk old v)) }
  if d.ignored lk then s1.ignw d.key else s1

/-! ### What follows from a write -/

/-- Bits of a register whose change from one word to another starts or stops something. -/
def rises (old new : Nat) (i : Nat) : Bool := !tb old i && tb new i
def falls (old new : Nat) (i : Nat) : Bool := tb old i && !tb new i

/-- The active value of the pair at `a` takes the shadow, and PEND clears (R63). -/
def State.applyPair (s : State) (a reset w : Nat) : State :=
  { s with regs := Tbl.put s.regs (a + 4) (w32 (fld (s.word a reset) 0 w)) }

/-- The bucket whose group is at `a`: what is held of it, by kind. -/
def State.putBucket (s : State) (a : Nat) (b : Option Bucket) : State :=
  let f := fun (t : Tbl Bucket) (i : Nat) => match b with
    | some b => Tbl.put t i b
    | none => Tbl.del t i
  if a < 0xA20000 then { s with tmg := { s.tmg with psh := f s.tmg.psh ((a - 0xA02000) / 16) } }
  else if a < 0xA60000 then { s with tmg := { s.tmg with qsh := f s.tmg.qsh ((a - 0xA20000) / 16) } }
  else { s with tmg := { s.tmg with pol := f s.tmg.pol ((a - 0xA60000) / 16) } }

/-- EN of a bucket goes to 1: it is full, and a pending rate applies; to 0: it holds nothing. A policer's count of exceeding
frames stands until EN goes to 1 again (R307). -/
def State.bucketEn (s : State) (a : Nat) (old new : Nat) : State :=
  if rises old new 31 then
    let s := (s.applyPair a 1250000 21).putBucket a (some { tokens := Int.ofNat (fld new 0 24 * 2 ^ 16) })
    { s with tmg := { s.tmg with rateAt := Tbl.del s.tmg.rateAt a } }
  else if falls old new 31 then
    let b := if 0xA60000 ≤ a then s.pol ((a - 0xA60000) / 16) else {}
    let asks := b.asks
    let s := s.putBucket a (if 0xA60000 ≤ a then some { exceed := b.exceed } else none)
    asks.foldl (fun s (e : Nat × Nat) => s.pfcSync e.1) s
  else s

/-- The LFSR takes the seed when tagging starts (R98). -/
def State.seedTags (s : State) (l : Nat) : State :=
  let seed := fld (s.word (laneAddr l 0x284) 1) 0 24
  s.setLane l { s.lane l with lfsr := if seed = 0 then 1 else seed }

/-- The effects beside storage: buckets, event targets, pauses, steering, tagging. -/
def State.afterStore (s : State) (a old new : Nat) : State :=
  let o := a % 0x100000
  if 0x1000000 ≤ a then
    if a % 0x10000 = 0x280 && rises old new 31 then s.seedTags ((a - 0x1000000) / 0x10000) else s
  else if a / 0x100000 = 10 && isBucketCfg o then s.bucketEn (a - 8) old new
  else if a / 0x100000 = 5 && decide (tb old 31 ≠ tb new 31) then
    let t := (o - 0x1000) / 32
    if tb new 31 && (s.best t).isSome then s.reassign.signalLeft t else s.reassign
  else if a = 0xD00048 && !tb new 31 then s.steerOff
  else s

/-- A write to a register that stores fields. -/
def State.writeReg (s : State) (a v : Nat) : State :=
  match regDesc a with
  | some d =>
    let old := s.word a d.reset
    let t := s.storeReg a d v
    t.afterStore a old (t.word a d.reset)
  | none => s

/-! ### Boundary-applied registers (R62 to R66) -/

/-- A boundary-applied pair: BOUNDS IDs with the field of each, the reset word, and the header that counts. -/
structure PairDesc where
  ids : List (Nat × Nat × Nat)
  width : Nat
  reset : Nat
  key : Nat
  deriving DecidableEq, Repr

/-- The pair whose shadow is at `a`. -/
def pairDesc (a : Nat) : Option PairDesc :=
  let rate := fun id : Nat => some { ids := [(id, 0, 21)], width := 21, reset := 1250000, key := bTMG : PairDesc }
  if 0x408000 ≤ a ∧ a < 0x40C000 ∧ a % 8 = 0 then
    some { ids := [(0x0501, 0, 8), (0x0502, 8, 16)], width := 24, reset := 1, key := bHQE }
  else if 0xA02000 ≤ a ∧ a < 0xA03000 ∧ a % 16 = 0 then rate 0x0201
  else if 0xA20000 ≤ a ∧ a < 0xA60000 ∧ a % 16 = 0 then rate 0x0201
  else if 0xA60000 ≤ a ∧ a < 0xA80000 ∧ a % 16 = 0 then rate 0x0202
  else if 0xA10000 ≤ a ∧ a < 0xA18000 ∧ a % 8 = 0 then
    some { ids := [(0x0203, 0, 16)], width := 16, reset := 1538, key := bTMG }
  else none

/-- The unit of the pair at `a` runs: a bucket by its EN, the others by their block. -/
def State.pairRuns (s : State) (a key : Nat) : Bool :=
  s.running key && (decide (a < 0xA02000) || (decide (0xA10000 ≤ a) && decide (a < 0xA18000)) || s.bkEn a)

/-- RWS_WRITE: judged against the bounds, then to the shadow (R66); PEND while the unit runs (R62, R63). -/
def State.rwsWrite (s : State) (a v : Nat) : State :=
  match pairDesc a with
  | none => s
  | some d =>
    if d.ids.all (fun e => s.inBounds e.1 (fld v e.2.1 e.2.2)) then
      let x := fld v 0 d.width
      let act := s.word (a + 4) d.reset
      let s1 := { s with regs := Tbl.put s.regs a (w32 x) }
      if s.pairRuns a d.key then
        let s2 := { s1 with regs := Tbl.put s1.regs (a + 4) (w32 (fld act 0 31 + 2 ^ 31)) }
        if d.width = 21 then { s2 with tmg := { s2.tmg with rateAt := Tbl.put s2.tmg.rateAt a s.ns } } else s2
      else { s1 with regs := Tbl.put s1.regs (a + 4) (w32 x) }
    else s.oob d.key

/-- Pending shadows of the pairs in a range applied, as a block starts (R63). -/
def State.applyPending (s : State) (lo hi : Nat) : State :=
  s.regs.foldl (fun s e =>
    if lo ≤ e.1 ∧ e.1 < hi ∧ tb e.2.toNat 31 then
      match pairDesc (e.1 - 4) with
      | some d => s.applyPair (e.1 - 4) d.reset d.width
      | none => s
    else s) s

end Sys2Proof.Machine
end

