-- ==== Sys2Proof/Machine/Headers.lean ====
section
/-! DEFINITION. The block header (R58 to R61): starting a unit, stopping it, the completion of a stop, and the two
counts of rejected writes. -/

namespace Sys2Proof.Machine

open Sys2Proof

/-! ### Which header an address belongs to -/

/-- The header register at a BAR0 address: its unit, and 0 for _CTL, 4 for _IGNW, 8 for _OOB (R58, R71). -/
def headerAt (a : Nat) : Option (Nat × Nat) :=
  let o := a % 0x100000
  let hit := fun k x : Nat => if x = 0 ∨ x = 4 ∨ x = 8 then some (k, x) else none
  if 0x1400000 ≤ a then none
  else if 0x1000000 ≤ a then hit (laneKey ((a - 0x1000000) / 0x10000)) (a % 0x10000)
  else match a / 0x100000 with
    | 0 => none
    | 6 =>
      if 0x1000 ≤ o ∧ o < 0x1800 then hit (dmaKey ((o - 0x1000) / 0x40)) (o % 0x40) else hit bDMA o
    | 7 =>
      if 0x1000 ≤ o ∧ o < 0x2000 then hit (chanKey ((o - 0x1000) / 0x100)) (o % 0x100) else hit bMEM o
    | 11 => hit (portKey (o / 0x1000)) (o % 0x1000)
    | 12 => if 0x100 ≤ o ∧ o < 0x400 then hit (linkKey ((o - 0x100) / 0x100)) (o % 0x100) else hit bCAS o
    | b => hit b o

/-! ### Starting -/

/-- The two queues that firmware opens when a port is first enabled (R289): class 7 and class 0. -/
def State.firstQueues (s : State) (p : Nat) : State :=
  let q := p * s.way.qPerPort
  if 2 ≤ s.way.qPerPort ∧ (Tbl.find s.tmg.queues q).isNone then (s.enableQueue q p 7).enableQueue (q + 1) p 0 else s

/-- A port starts: it trains, unless its block is OFF (R310, R313). -/
def State.startPort (s : State) (p : Nat) : State :=
  let s := s.firstQueues p
  if s.portOff p then s else (s.toPhase p .training).wakeBlock (p / 8)

/-- Ring 0 as HQE starts (R374, R389): bases and size of the administration registers, sequences kept, RUN. -/
def State.startRing0 (s : State) : State :=
  let pair := fun o => s.word (0x400000 + o) 0 + s.word (0x400004 + o) 0 * 2 ^ 32
  let x := s.ring 0
  let s := s.setRing 0 { x with ph := .run, kind := kCMD, size := fld (s.word 0x400068 64) 0 13, sqBase := pair 0x50,
                                cqBase := pair 0x58, srBase := pair 0x60, waiting := [], reason := 0 }
  s.ringStat 0

/-- The keys of the units of a block that has a header: channels and links (R58). -/
def unitsOf (b : Nat) : List Nat :=
  if b = bDMA then (List.range 32).map dmaKey else if b = bMEM then (List.range 16).map chanKey
  else if b = bCAS then (List.range 3).map linkKey else []

/-- A block starts: its enabled units run, pending values apply (R63). -/
def State.startBlock (s : State) (b : Nat) : State :=
  let s := (unitsOf b).foldl (fun s k =>
    if (s.unit k).en then
      let s := s.setUnit k { s.unit k with running := true }
      if b = bCAS then s.linkTrain (k - 480) else s
    else s) s
  if b = bTMG then
    let s := s.applyPending 0xA02000 0xA80000
    { s with tmg := { s.tmg with rateAt := [] } }
  else if b = bHQE then (s.applyPending 0x408000 0x40C004).startRing0
  else s

/-- The unit runs from now (R58, R61): a unit of a block with a header only while its block runs. -/
def State.startUnit (s : State) (k : Nat) : State :=
  let h := s.unit k
  let up := decide (k < 384) || s.running (blockOf k)
  let s := s.setUnit k { h with en := true, enPending := false, running := up }
  if k < 32 then s.startBlock k
  else if k < 128 then { s with flt := { s.flt with capChanged := true } }
  else if k < 384 then s.startPort (k - 128)
  else if k < 480 then s
  else if up then s.linkTrain (k - 480) else s

/-! ### Stopping -/

/-- EN falls: what begins at once (R88, R310, R325, R337). RUNNING falls when the stop has completed. -/
def State.stopUnit (s : State) (k : Nat) : State :=
  let s := s.setUnit k { s.unit k with en := false }
  if k < 32 then s
  else if k < 128 then
    let s := s.unqueue (k - 32)
    { s with flt := { s.flt with capChanged := true } }
  else if k < 384 then
    let s := s.toPhase (k - 128) .down
    s.setPort (k - 128) { s.port (k - 128) with retrainDue := none, failAt := none, rank := 0, lowCount := 0 }
  else if k < 480 then s
  else if (s.link (k - 480)).ph = .down then s else (s.linkDown (k - 480)).timeLost

/-- The module is in fallback: no port can be enabled (R45, R310). -/
def State.noPorts (s : State) : Bool := s.way.fallback

def isPortKey (k : Nat) : Bool := decide (128 ≤ k) && decide (k < 384)
def isLaneKey (k : Nat) : Bool := decide (32 ≤ k) && decide (k < 128)
/-- The port's block is being reconfigured by a detour (R54). -/
def State.portHeld (s : State) (k : Nat) : Bool :=
  isPortKey k && s.sec.detour.isSome && s.sec.detBlocks.contains ((k - 128) / 8)

/-- A write to a lane's _CTL wakes the lane, unless it is SPARE or mapped out (R20, R100). -/
def State.ctlWakes (s : State) (k : Nat) : State :=
  if isLaneKey k && decide ((s.lane (k - 32)).role ≠ 3) && !(s.lane (k - 32)).mapped then s.wakeLane (k - 32) else s

/-- CTL_EN_WRITE (R58, R61): a start, a deferred start, a stop, or a deferral cancelled. A port mapped out takes no write
(R325), a port in fallback no enable (R310), and firmware's DMA channels no write of the host (R405). -/
def State.ctlEn (s : State) (k v : Nat) : State :=
  if isFwDma k then s.ignw bDMA
  else if isPortKey k && (s.port (k - 128)).mapped then s
  else
    let s := s.ctlWakes k
    let h := s.unit k
    if tb v 0 then
      if h.en then s
      else if isPortKey k && s.noPorts then s.ignw k
      else if h.running || s.pltHolds k || s.portHeld k then s.setUnit k { h with enPending := true }
      else s.startUnit k
    else if h.enPending then s.setUnit k { h with enPending := false }
    else if h.en then s.stopUnit k
    else s

/-! ### The completion of a stop -/

/-- A unit whose stop may complete: a lane only after the row in execution (R88). -/
def State.mayStop (s : State) (k : Nat) : Bool :=
  if isLaneKey k then match (s.lane (k - 32)).run with
    | some r => r.visible
    | none => true
  else true

/-- RUNNING falls: the units of a block with it, whose own stops are complete then, so that a deferred enable takes effect (R61); a channel's
transfer stopped, a port block gated. -/
def State.fallUnit (s : State) (k : Nat) : State :=
  let s := if decide (384 ≤ k) && decide (k < 416) then s.dmaStop (k - 384) 5
    else if k = bDMA then (List.range 32).foldl (fun s c => s.dmaStop c 5) s
    else if k = bCAS then
      ((List.range 3).foldl (fun s l => if (s.link l).ph = .down then s else s.linkDown l) s).timeLost
    else s
  let s := s.setUnit k { s.unit k with running := false }
  let s := (unitsOf k).foldl (fun s u =>
    let h := s.unit u
    if h.enPending && !h.en then (s.restartState u).setUnit u { h with en := true, enPending := false, running := false }
    else if h.running then s.setUnit u { h with running := false } else s) s
  if isPortKey k then s.gateBlock ((k - 128) / 8) else s

/-- UNIT_STOP_COMPLETE (R58, R61). -/
def State.stopComplete (s : State) (k : Nat) : State :=
  let h := s.unit k
  if h.running && !h.en && s.mayStop k then
    let s := s.fallUnit k
    if h.enPending then (s.restartState k).startUnit k else s
  else s

/-! ### The two counts (R58, R59) -/

def State.clearIgnw (s : State) (k v : Nat) : State :=
  if tb v 31 then s.setUnit k { s.unit k with ignwFlag := false, ignw := 0 } else s

def State.clearOob (s : State) (k v : Nat) : State :=
  if tb v 31 then s.setUnit k { s.unit k with oobFlag := false, oob := 0 } else s

end Sys2Proof.Machine
end

