-- ==== Sys2Proof/Machine/Indirect.lean ====
section
/-! DEFINITION. The indirect pairs (R67, R68), what each space holds (R68, R101, R290, R367, R380, R391, R403, R427), and
the common registers of GLB (R56, R70, R72). -/

namespace Sys2Proof.Machine

open Sys2Proof

/-! ### Windows and spaces -/

/-- The key of a window's pair. -/
def indKey : IndId → Nat
  | .msc => 0
  | .tmg => 1
  | .cas => 2
  | .mem => 3
  | .hqe => 4
  | .evc => 5
  | .sec => 6
  | .lane l => 16 + l.val
  | .port p => 128 + p.val

/-- The BAR0 address of a window's _IND_ADDR. -/
def indBase (k : Nat) : Nat :=
  if k = 0 then 0xD00010 else if k = 1 then 0xA00010 else if k = 2 then 0xC00010 else if k = 3 then 0x700010
  else if k = 4 then 0x400010 else if k = 5 then 0x500010 else if k = 6 then 0x300010
  else if k < 128 then 0x1000010 + (k - 16) * 0x10000 else 0xB00010 + (k - 128) * 0x1000

/-- The window whose pair an address belongs to, and the word: 0 _IND_ADDR, 4 _IND_DATA, 8 _IND_STAT. -/
def indAt (a : Nat) : Option (Nat × Nat) :=
  let o := a % 0x100000
  let hit := fun k x : Nat => if x = 0x10 ∨ x = 0x14 ∨ x = 0x18 then some (k, x - 0x10) else none
  if 0x1400000 ≤ a then none
  else if 0x1000000 ≤ a then hit (16 + (a - 0x1000000) / 0x10000) (a % 0x10000)
  else match a / 0x100000 with
    | 3 => hit 6 o
    | 4 => hit 4 o
    | 5 => hit 5 o
    | 7 => hit 3 o
    | 10 => hit 1 o
    | 11 => hit (128 + o / 0x1000) (o % 0x1000)
    | 12 => hit 2 o
    | 13 => hit 0 o
    | _ => none

/-- The words of a space, and whether the host may write it; none for a space that the window does not own. -/
def State.spaceOf (s : State) (k sp : Nat) : Option (Nat × Bool) :=
  if k = 0 then if sp = 0 then some (2621440, true) else none
  else if k = 1 then if sp = 0 then some (2097152, true) else none
  else if k = 2 then if sp < 3 then some (16384, true) else none
  else if k = 3 then if sp = 0 then some (1024, false) else none
  else if k = 4 then if sp = 0 then some (262144, false) else if sp = 1 then some (16384, false) else none
  else if k = 5 then if sp = 0 then some (4096, true) else if sp = 1 then some (4096, false) else none
  else if k = 6 then if sp = 1 ∧ s.plt.recovery then some (16384, true) else none
  else if k < 128 then if sp = 1 ∨ sp = 2 then some (8192, false) else none
  else if sp = 0 then some (4096, true) else none

/-! ### What a word reads as -/

/-- The chain's first cell; 0x7_FFFF names none (R290). -/
def firstCell (c : Copy) : Nat := match c.head ++ c.body with
  | h :: _ => hIdx h
  | [] => 0x7FFFF

/-- Word `i` of a queue descriptor as the queue makes it (R290). -/
def State.queueWord (s : State) (q i : Nat) : Nat :=
  let x := s.queue q
  match i with
  | 0 => match x.copies.head? with
    | some c => firstCell (s.copy c)
    | none => 0x7FFFF + 2 ^ 31
  | 1 => match x.copies.getLast? with
    | some c => firstCell (s.copy c)
    | none => 0x7FFFF
  | 2 => x.copies.length
  | 3 => x.cells
  | 4 => x.limit
  | 5 => x.dest + (x.cls + b2n x.en * 8 + b2n x.rowOpen * 16) * 2 ^ 16
  | 6 => x.drr + x.shaper * 2 ^ 16
  | _ => unsgn x.deficit 32

/-- Word `i` of a queue descriptor: of one that is not enabled, words 0 to 3 as the host has written them. -/
def State.descWord (s : State) (q i : Nat) : Nat :=
  if (s.queue q).en then s.queueWord q i else (Tbl.find (s.queue q).raw i).getD (s.queueWord q i)

/-- Word `i` of entry `n` of the page-retirement list (R367). -/
def State.retireWord (s : State) (n i : Nat) : Nat :=
  match (s.mem.retire.drop n).head? with
  | none => 0
  | some r =>
    if i = 0 then 2 ^ 31 + r.chan * 2 ^ 27 + b2n (decide (s.mem.degraded ≠ some r.chan)) * 2 ^ 26 + fld r.granule 0 23
    else fld r.time 0 32

/-- The state word of an event source (R403). (DEDUCED, log 125.) -/
def State.stateWord (s : State) (n : Nat) : Nat :=
  let e := s.src n
  b2n (decide (e.ph = .pending) || e.again) * 2 ^ 31 + b2n (decide (e.ph = .inService)) * 2 ^ 30 + b2n e.asserted * 2 ^ 29 +
  b2n e.unrouted * 2 ^ 28 + fld (e.target.getD 0) 0 5 * 2 ^ 16 + e.merged

/-- Little-endian word `i` of a byte record. -/
def wordAt (b : Bytes) (i : Nat) : Nat := rd b (4 * i) 4

/-- What word `a` of space `sp` reads as. -/
def State.indWord (s : State) (k sp a : Nat) : Nat :=
  if k = 0 then s.recWord (a / 64) (a % 64 * 4)
  else if k = 1 then s.descWord (a / 8) (a % 8)
  else if k = 2 then (Tbl.get 0 s.prt.serdes (2 ^ 20 + sp * 16384 + a)).toNat
  else if k = 3 then s.retireWord (a / 2) (a % 2)
  else if k = 4 then
    if sp = 0 then wordAt (ringStatus (a / 16) (s.ring (a / 16))) (a % 16)
    else wordAt (eqStatus (a / 8) (s.eq (a / 8))) (a % 8)
  else if k = 5 then
    if sp = 0 then setFld (s.routeWord a) 27 1 (b2n (isLevel a)) else s.stateWord a
  else if k = 6 then (Tbl.get 0 s.sec.staging a).toNat
  else if k < 128 then
    if sp = 1 then Tbl.get 0 (s.lane (k - 16)).micro a
    else
      let w := Tbl.get 0 (s.lane (k - 16)).nano (a / 8)
      if a % 8 < 6 then fld w (32 * (a % 8)) 32 else if a % 8 = 6 then fld w 192 8 else 0
  else (Tbl.get 0 s.prt.serdes ((k - 128) * 4096 + a)).toNat

/-! ### Writes through a pair -/

/-- The word belongs to an open context's record or to an enabled queue's descriptor (R68, R291). -/
def State.indLocked (s : State) (k a : Nat) : Bool :=
  if k = 0 then (Tbl.find s.opens (a / 64)).isSome else if k = 1 then (s.queue (a / 8)).en else false

/-- A write to word `i` of a descriptor that is not enabled (R68, R290, R291). Head, tail and the counts that the host writes are only stored: a
queue that is enabled is empty. (DEDUCED, log 52.) -/
def State.descWrite (s : State) (q i v : Nat) : State :=
  let x := s.queue q
  let store := fun w : Nat => s.setQueue q { x with raw := Tbl.put x.raw i w }
  match i with
  | 0 => store (fld v 31 1 * 2 ^ 31 + fld v 0 19)
  | 1 => store (fld v 0 19)
  | 2 => store (fld v 0 20)
  | 3 => store (fld v 0 19)
  | 4 => s.setQueue q { x with limit := fld v 0 19 }
  | 5 => s.setQueue q { x with dest := fld v 0 16, cls := fld v 16 3, en := tb v 19, raw := if tb v 19 then [] else x.raw }
  | 6 => s.setQueue q { x with drr := fld v 0 16, shaper := fld v 16 16 }
  | 7 => s.setQueue q { x with deficit := sgn v 32 }
  | _ => s

/-- A posted word lands. (DESIGN CHOICE, log 93.) -/
def State.indLand (s : State) (k sp a v : Nat) : State :=
  if k = 0 then (if 48 ≤ a % 64 then s.storeCarry (a / 64) else s).setCf (a / 64) (a % 64 * 4) 4 v
  else if k = 1 then s.descWrite (a / 8) (a % 8) v
  else if k = 2 then { s with prt := { s.prt with serdes := Tbl.put s.prt.serdes (2 ^ 20 + sp * 16384 + a) (w32 v) } }
  else if k = 5 then
    let old := s.routeWord a
    let w := fld v 28 4 * 2 ^ 28 + fld v 16 11 * 2 ^ 16 + (if s.evc.banked then fld old 0 8 else fld v 0 8)
    { s with evc := { s.evc with route := Tbl.put s.evc.route a (w32 w) } }
  else if k = 6 then { s with sec := { s.sec with staging := Tbl.put s.sec.staging a (w32 v) } }
  else if 128 ≤ k then { s with prt := { s.prt with serdes := Tbl.put s.prt.serdes ((k - 128) * 4096 + a) (w32 v) } }
  else s

/-! ### The accesses -/

def State.indSt (s : State) (k : Nat) : IndSt := Tbl.get {} s.ind k
def State.setInd (s : State) (k : Nat) (x : IndSt) : State := { s with ind := Tbl.put s.ind k x }

/-- Error codes of _IND_STAT (R67). -/
def eRANGE : Nat := 1
def eREADONLY : Nat := 2
def eLOCKED : Nat := 3

/-- The first error since the last clear is kept. -/
def IndSt.fail (x : IndSt) (e : Nat) : IndSt :=
  if x.errf then x else { x with errf := true, err := e, errAddr := x.waddr }

/-- An access to _IND_DATA advances WADDR while AINC is set. (DEDUCED, log 53.) -/
def IndSt.next (x : IndSt) : IndSt := if x.ainc then { x with waddr := (x.waddr + 1) % 2 ^ 28 } else x

/-- _IND_ADDR written: a prefetch of the word begins. -/
def State.indAddr (s : State) (k v : Nat) : State :=
  s.setInd k { s.indSt k with ainc := tb v 31, space := fld v 28 3, waddr := fld v 0 28, busy := true, post := none }

/-- _IND_DATA read: the prefetched word goes out; with AINC the next word is prefetched. -/
def State.indRead (s : State) (k : Nat) : State :=
  let x := s.indSt k
  let inside := match s.spaceOf k x.space with
    | some (n, _) => decide (x.waddr < n)
    | none => false
  let x := if inside then x else x.fail eRANGE
  let y := x.next
  (s.setInd k { y with busy := x.ainc }).emit (.regRead (indBase k + 4) (if inside then x.data else 0))

/-- _IND_DATA written: the word is posted, or ignored with an error; the word at the resulting WADDR is prefetched. -/
def State.indWrite (s : State) (k v : Nat) : State :=
  let x := s.indSt k
  let err := match s.spaceOf k x.space with
    | some (n, rw) => if n ≤ x.waddr then eRANGE else if !rw then eREADONLY else if s.indLocked k x.waddr then eLOCKED else 0
    | none => eRANGE
  let x := if err = 0 then { x with post := some (w32 v) } else x.fail err
  s.setInd k { x.next with busy := true }

/-- One access of a pair, held while BUSY is 1. -/
def State.indAccess (s : State) (k : Nat) (a : IndAcc) : State :=
  let x := s.indSt k
  if x.busy then s.setInd k { x with held := x.held ++ [a] }
  else match a with
    | .addr v => s.indAddr k v.toNat
    | .read => s.indRead k
    | .write v => s.indWrite k v.toNat

/-- The accesses held complete in order, until one makes the pair busy again. -/
def State.indHeld (s : State) (k : Nat) : List IndAcc → State
  | [] => s
  | a :: rest =>
    let s := (s.setInd k { s.indSt k with held := rest }).indAccess k a
    if (s.indSt k).busy then s.setInd k { s.indSt k with held := rest } else State.indHeld s k rest

/-- IND_PREFETCH_DONE: the posted write has landed, and the word at WADDR is loaded. -/
def State.indDone (s : State) (k : Nat) : State :=
  let x := s.indSt k
  if !x.busy then s
  else
    let at_ := if x.ainc then (x.waddr + 2 ^ 28 - 1) % 2 ^ 28 else x.waddr
    let s := match x.post with
      | some v => s.indLand k x.space at_ v.toNat
      | none => s
    let inside := match s.spaceOf k x.space with
      | some (n, _) => decide (x.waddr < n)
      | none => false
    let d := if inside then w32 (s.indWord k x.space x.waddr) else 0
    let s := s.setInd k { s.indSt k with busy := false, post := none, data := d, held := [] }
    s.indHeld k x.held

/-- ERRF cleared by writing 1. -/
def State.indClear (s : State) (k v : Nat) : State :=
  if tb v 30 then s.setInd k { s.indSt k with errf := false, err := 0, errAddr := 0 } else s

/-! ### GLB (R56, R70, R72) -/

/-- GLB_SNAP written: SCOPE is stored; GO starts a copy, or counts in LOST. -/
def State.snap (s : State) (v : Nat) : State :=
  let sc := fld v 0 8
  let g := { s.glb with snapScope := sc }
  if tb v 31 then
    if g.snapBusy || !(decide (sc ≤ 16) || decide (sc = 255)) then
      { s with glb := { g with snapLost := satAdd g.snapLost 1 0xFFFF } }
    else { s with glb := { g with snapBusy := true, snapFor := sc } }
  else { s with glb := g }

/-- The block of a counter's key. -/
def cntBlock (key : Nat) : Nat := key / (512 * 64)

/-- SNAPSHOT_COMPLETE: the counters of the scope copied in one cycle. -/
def State.snapDone (s : State) : State :=
  if s.glb.snapBusy then
    let sc := s.glb.snapFor
    let h := s.cnt.foldl (fun h e => if sc = 255 ∨ cntBlock e.1 = sc then Tbl.put h e.1 e.2 else h) s.held
    { s with held := h, glb := { s.glb with snapBusy := false, snapSeq := s.glb.snapSeq + 1, snapTime := s.ns } }
  else s

/-- GLB_TIME_LO read: HI and FRAC are latched. -/
def State.timeLatch (s : State) : State :=
  ({ s with glb := { s.glb with timeHi := w32 (s.ns / 2 ^ 32), timeFrac := s.time % 2 ^ 16 } }).emit
    (.regRead 0x40 (w32 (s.ns % 2 ^ 32)))

/-- A write that is narrow or misaligned (R56). -/
def State.badAccess (s : State) : State :=
  { s with glb := { s.glb with badFlag := true, badCount := satAdd s.glb.badCount 1 0xFFFF } }

def State.badClear (s : State) (v : Nat) : State :=
  if tb v 31 then { s with glb := { s.glb with badFlag := false, badCount := 0 } } else s

end Sys2Proof.Machine
end

