-- ==== Sys2Proof/Machine/RegWrite.lean ====
section
/-! DEFINITION. A write to any BAR0 address (R57, R71): the registers whose write does something, and the route of an address
to what it does. An address that names no register is reserved: a write to it has no effect (R6). -/

namespace Sys2Proof.Machine

open Sys2Proof

/-! ### Access to BAR0 -/

/-- Registers of GLB, SEC and FLT: what recovery exposes (R427). -/
def inRecovery (a : Nat) : Bool := decide (a < 0x100000) || (decide (0x200000 ≤ a) && decide (a < 0x400000))

/-- The module serves BAR0 at this address: up, not in DEEP_SLEEP but for the always-on registers, and in recovery only GLB,
SEC and FLT (R19, R427). -/
def State.barServes (s : State) (a : Nat) : Bool :=
  s.plt.up && (decide (s.plt.cur < 3) || alwaysOn a) && (!s.plt.recovery || inRecovery a)

/-- A write is taken: the safe state ignores every write (R454). -/
def State.barTakes (s : State) (a : Nat) : Bool := s.barServes a && !s.flt.safe

/-! ### DMA (R406, R410) -/

/-- A channel's registers but XCTL: ignored while BUSY, and for the host on firmware's channels. -/
def State.dmaWrite (s : State) (c off v : Nat) : State :=
  if c < 16 then s.ignw bDMA
  else if (s.dmaCh c).busy then s.ignw (dmaKey c)
  else
    let keep := (decide (off = 0x20) && decide (v = 0)) || (decide (off = 0x2C) && decide (fld v 18 8 = 0))
    if keep then s else { s with regs := Tbl.put s.regs (dmaAddr c off) (w32 v) }

/-- XCTL: GO with its fields, or the fields alone. -/
def State.xctlWrite (s : State) (c : Nat) (v : W32) : State :=
  if c < 16 then s.ignw bDMA
  else if tb v.toNat 31 then s.dmaGo c v (tb v.toNat 30)
  else s.dmaXctl c v

def State.buserrClear (s : State) (v : Nat) : State :=
  if tb v 31 then { s with dma := { s.dma with buserr := false } } else s

/-! ### PLT, FLT, SEC, HQE -/

/-- PLT_WAKE_STAT: flags cleared by writing 1. -/
def State.wakeClear (s : State) (v : Nat) : State :=
  { s with plt := { s.plt with wakeFlags := maskOf ((bitsOf s.plt.wakeFlags 4).filter (fun i => !tb v i)) } }

/-- FLT_SRCs_STAT: STICKY and PIN_LATCH cleared; COUNT and OUTCOME kept (R461). -/
def State.stickyClear (s : State) (n v : Nat) : State :=
  if tb v 31 then s.setFltSrc n { s.fltSrc n with sticky := false, pinLatch := false } else s

/-- FLT_SRCs_FORCE (R451): ignored in the safe state. -/
def State.force (s : State) (n v : Nat) : State :=
  if tb v 0 && !s.flt.safe then s.raiseWith n 0xFFFF 0xFFFF true else s

/-- FLT_SELFCHK.INJECT (R454). -/
def State.inject (s : State) (v : Nat) : State := if tb v 31 && !s.flt.safe then s.enterSafe else s

/-- SEC_WAYMAP_STAT: MISMATCH, bit 28, cleared by writing 1 (R48). -/
def State.mismatchClear (s : State) (v : Nat) : State :=
  if tb v 28 then { s with sec := { s.sec with wm := { s.sec.wm with mismatch := false } } } else s

/-- SEC_RECOVERY (R428): GO with PROGRAM or VERIFY, or the fields alone. -/
def State.recoveryWrite (s : State) (v : W32) : State :=
  if !s.plt.recovery then s
  else if tb v.toNat 31 && decide (fld v.toNat 29 2 = 0) then s.recProgram v
  else if tb v.toNat 31 && decide (fld v.toNat 29 2 = 1) then s.recVerify v
  else if s.sec.recBusy then s else s.recWrite v

/-- The watchdog restarts, with TIMEOUT_MS as it stands (R387, R391). -/
def State.restartWatchdog (s : State) : State :=
  { s with hqe := { s.hqe with hbAt := s.ns, hbTimeout := fld (s.word 0x400044 2000) 0 16 } }

/-! ### EVC (R403) -/

/-- A host write to the group of target `t`. (DEDUCED, log 36.) -/
def State.targetWrite (s : State) (t o v : Nat) : State :=
  if o = 4 then if tb v 30 then s.setTgt t { s.tgt t with stackFull := false } else s
  else if t < 5 then (if o = 0 ∨ o = 12 ∨ o = 16 then s.ignw bEVC else s)
  else if o = 0 then s.writeReg (tgtCfgAddr t) v
  else if o = 12 then s.completeOp t (fld v 0 16)
  else if o = 16 then (if tb v 0 then s.thawOp t else s)
  else s

/-! ### BPM, SWC, lanes, MDIO -/

/-- BPM_QUERY: the handle stored, the buffer read in one cycle (R351). -/
def State.query (s : State) (v : W32) : State :=
  { s with regs := Tbl.put s.regs 0x800040 v, bpm := { s.bpm with queryRes := s.queryWord v } }

/-- BPM_LOG_CLR. -/
def State.logClear (s : State) (v : Nat) : State :=
  if tb v 0 then { s with bpm := { s.bpm with log := [], logLost := 0 } } else s

/-- SWC_EVSTAT: flags cleared by writing 1. -/
def State.evstatClear (s : State) (v : Nat) : State :=
  { s with swc := { s.swc with evstat := maskOf ((bitsOf s.swc.evstat 6).filter (fun i => !tb v i)) } }

/-- LAN_PMC_OVF. -/
def State.ovfClear (s : State) (l v : Nat) : State :=
  s.setLane l { s.lane l with pmcOvf := maskOf ((bitsOf (s.lane l).pmcOvf 8).filter (fun i => !tb v i)) }

/-- PRT_MDIO_CMD (R319, R336): GO starts the frame, otherwise the fields are stored; BUSY takes neither. -/
def State.mdioWrite (s : State) (b : Nat) (v : W32) : State :=
  if (s.mdio b).busy then s
  else if tb v.toNat 31 then s.mdioGo b v (tb v.toNat 28) (fld v.toNat 26 2)
  else s.setMdio b { s.mdio b with word := w32 (fld v.toNat 0 29) }

/-! ### The route of an address -/

/-- Registers with an effect of their own, beside headers, indirect pairs and boundary-applied pairs. -/
def State.specialWrite (s : State) (a : Nat) (v : W32) : State :=
  let n := v.toNat
  let o := a % 0x100000
  if a = 0x30 then s.snap n
  else if a = 0x68 then s.badClear n
  else if a = 0x100048 then s.wakeClear n
  else if a = 0x200048 then s.inject n
  else if 0x201000 ≤ a ∧ a < 0x203000 ∧ a % 16 = 4 then s.stickyClear ((a - 0x201000) / 16) n
  else if 0x201000 ≤ a ∧ a < 0x203000 ∧ a % 16 = 12 then s.force ((a - 0x201000) / 16) n
  else if a = 0x300040 then s.mismatchClear n
  else if a = 0x300080 then s.recoveryWrite v
  else if a = 0x400048 then s.restartWatchdog
  else if 0x501000 ≤ a ∧ a < 0x501400 then s.targetWrite ((a - 0x501000) / 32) (a % 32) n
  else if a = 0x600040 then s.buserrClear n
  else if 0x601000 ≤ a ∧ a < 0x601800 then
    let c := (a - 0x601000) / 0x40
    let f := a % 0x40
    if f = 0x24 then s.xctlWrite c v
    else if f = 0x10 ∨ f = 0x14 ∨ f = 0x18 ∨ f = 0x1C ∨ f = 0x20 ∨ f = 0x2C ∨ f = 0x30 then s.dmaWrite c f n
    else s
  else if a = 0x800040 then s.query v
  else if a = 0x800064 then s.logClear n
  else if a = 0x900058 then s.pswWrite v
  else if a = 0x900060 then s.evstatClear n
  else if 0x1000000 ≤ a ∧ a < 0x1400000 ∧ a % 0x10000 = 0x7C then s.lsfClrOp ((a - 0x1000000) / 0x10000) v
  else if 0x1000000 ≤ a ∧ a < 0x1400000 ∧ a % 0x10000 = 0x220 then s.ovfClear ((a - 0x1000000) / 0x10000) n
  else if 0x1000000 ≤ a ∧ a < 0x1400000 ∧ a % 0x10000 = 0x224 then s.pmcClrOp ((a - 0x1000000) / 0x10000) v
  else if a / 0x100000 = 11 ∧ o % 0x1000 = 0x40 ∧ o / 0x1000 % 32 = 0 then s.mdioWrite (o / 0x20000) v
  else s.writeReg a n

/-- A header's register written. -/
def State.headerWrite (s : State) (k x n : Nat) : State :=
  if x = 0 then s.ctlEn k n
  else if isFwDma k then s.ignw bDMA
  else if x = 4 then s.clearIgnw k n
  else s.clearOob k n

/-- An indirect pair's register written. -/
def State.pairWrite (s : State) (k x : Nat) (v : W32) : State :=
  if x = 0 then s.indAccess k (.addr v) else if x = 4 then s.indAccess k (.write v) else s.indClear k v.toNat

/-- A write of a whole word to a BAR0 address. -/
def State.writeBar (s : State) (a : Nat) (v : W32) : State :=
  match headerAt a with
  | some (k, x) => s.headerWrite k x v.toNat
  | none =>
    match indAt a with
    | some (k, x) => s.pairWrite k x v
    | none => if (pairDesc a).isSome then s.rwsWrite a v.toNat else s.specialWrite a v

end Sys2Proof.Machine
end

