-- ==== Sys2Proof/Machine/HostCmd.lean ====
section
/-! DEFINITION. The host link and the host commands that no other chapter holds: attachment (R374, R387 to R389), ring pairs and
event queues (R375, R381, R388), frames and buffers of TX and RX rings, traffic queues (R291), lane drains (R51), surfaces and
layers (R186 to R198), frame buffers (R147, R149), time sources (R322) and the fault log (R457). -/

namespace Sys2Proof.Machine

open Sys2Proof

/-! ### Detachment (R374, R387) -/

/-- The host is detached: health, counter, fault, and every ring but ring 0 and every event queue HELD. -/
def State.detach (s : State) : State :=
  if s.hqe.attached then
    let s := { s with hqe := { s.hqe with attached := false } }
    (((s.setHealth hDETACHED).bump bHQE 7).holdRings).raise fHqeDetached 0 0
  else s

/-- HEARTBEAT_TIMEOUT: the watchdog has seen neither a heartbeat nor a doorbell for TIMEOUT_MS. -/
def State.hbExpire (s : State) : State :=
  if s.hqe.attached ∧ s.hqe.hbTimeout ≠ 0 ∧ s.hqe.hbAt + s.hqe.hbTimeout * ms ≤ s.ns then s.detach else s

/-- A word of the MSI-X table (R373). (PRESUMED, log 43.) -/
def isMsix (a : Nat) : Bool := decide (0x410000 ≤ a) && decide (a < 0x418000)

/-- What a function-level reset, a hot reset, a loss of the link and PERST_N do (R374). (DEDUCED, log 44.) -/
def State.hostReset (s : State) : State :=
  let s := { s with hqe := { s.hqe with bme := false }, regs := s.regs.filter (fun e => !isMsix e.1) }
  let s := s.setUnit bHQE { s.unit bHQE with en := false, enPending := false, running := false }
  (s.holdRings).detach

/-- The link is gone. -/
def State.linkGone (s : State) : State :=
  let s := s.hostReset
  { s with hqe := { s.hqe with linkUp := false, gen := 0, width := 0 } }

def State.perstLow (s : State) : State :=
  let s := s.linkGone
  { s with hqe := { s.hqe with perst := true } }

/-- PERST_N deasserts: the reference clock decides between common clock and SRIS, and the link trains (R372, R431). -/
def State.perstHigh (s : State) (refclk : Bool) (gen width : Nat) : State :=
  if s.hqe.perst then
    { s with hqe := { s.hqe with perst := false, sris := !refclk, linkUp := true, gen := gen, width := width } }
  else s

/-- A configuration request: Retry Status until the module is ready (R431); Bus Master Enable as written. (PRESUMED, log 4.) -/
def State.configReq (s : State) (bm : Option Bool) : State :=
  if !s.hqe.linkUp then s
  else if s.ns < s.hqe.readyAt then ({ s with hqe := { s.hqe with crs := s.hqe.crs + 1 } }).emit .crs
  else
    let s := s.emit .answered
    match bm with
    | some b => { s with hqe := { s.hqe with bme := b } }
    | none => s

/-- ATTACH (R387, R389): the result is the count of events lost while detached. -/
def State.attachCmd (s : State) : State × Answer :=
  let n := s.hqe.lostDetached
  let s := { s with hqe := { s.hqe with attached := true, lostDetached := 0 } }
  ((s.restartWatchdog).event .hqeAttached noCtx n, okRes (leBytes 4 (n % 2 ^ 32)))

/-! ### Ring pairs (R375, R383, R388) -/

/-- The parameters of RING_CREATE and RING_RESYNC that place a ring of `size` entries. -/
def placeOk (e : SubEntry) (size : Nat) : Bool :=
  decide (e.addr.toNat % (size * 64) = 0) && decide (e.param 4 8 % (size * 32) = 0) && decide (e.param 12 8 % 64 = 0)

def ringTarget (e : SubEntry) : Bool := decide (1 ≤ e.target.toNat) && decide (e.target.toNat ≤ 16383)

/-- RING_CREATE (R375, R388). (DEDUCED, log 37.) -/
def State.ringCreateCmd (s : State) (e : SubEntry) : State × Answer :=
  let r := e.target.toNat
  let size := e.param 2 2
  let q := e.param 20 2
  if !ringTarget e || decide (2 < e.param 0 1) || !isPow2In size 16 4096 || !placeOk e size ||
     !(decide (q < 2048) || decide (q = 0xFFFF)) then (s, code cBAD_PARAM)
  else if getAt 0 s.way.queueParts 2 / 2 ≤ r then (s, code cNO_RESOURCE)
  else if (s.ring r).ph ≠ .free then (s, code cSTATE)
  else
    let x : Ring := { ph := .run, kind := e.param 0 1, size := size, sqBase := e.addr.toNat, cqBase := e.param 4 8,
                      srBase := e.param 12 8, errEq := q }
    ((s.setRing r x).ringStat r, okRes [])

/-- Nothing will complete a command of ring `r` any more. -/
def State.forgetRing (s : State) (r : Nat) : State :=
  let keep := fun (c : CmdRef) => decide (c.ring.val ≠ r)
  { s with
    plt := { s.plt with cmd := s.plt.cmd.filter keep, pend := s.plt.pend.map (fun p => (p.1, p.2.filter keep)) },
    sec := { s.sec with detour := s.sec.detour.map (fun o => o.filter keep) },
    golden := { s.golden with cmd := s.golden.cmd.filter keep },
    msc := { s.msc with drains := s.msc.drains.filter keep },
    tmg := { s.tmg with queues := s.tmg.queues.map (fun e => (e.1, { e.2 with closer := e.2.closer.filter keep })) },
    erelm := { s.erelm with sess := s.erelm.sess.map (fun e => (e.1, { e.2 with closer := e.2.closer.filter keep })) } }

def State.ringDeleteCmd (s : State) (e : SubEntry) : State × Answer :=
  let r := e.target.toNat
  if !ringTarget e then (s, code cBAD_PARAM)
  else if (s.ring r).ph = .free then (s, code cSTATE)
  else
    let s := s.setRing r { s.ring r with waiting := [] }
    let s := (s.ring r).flight.foldl (fun s f => s.complete0 r f.e cABORTED 0 []) s
    (((s.setRing r { s.ring r with ph := .free, flight := [], kept := [] }).ringStat r).forgetRing r, okRes [])

def State.ringResyncCmd (s : State) (e : SubEntry) : State × Answer :=
  let r := e.target.toNat
  let x := s.ring r
  if !ringTarget e then (s, code cBAD_PARAM)
  else if x.ph = .free then (s, code cSTATE)
  else if !placeOk e x.size then (s, code cBAD_PARAM)
  else
    let s := s.setRing r { x with ph := .run, reason := 0, waiting := [], sqBase := e.addr.toNat, cqBase := e.param 4 8,
                                  srBase := e.param 12 8 }
    let oldest := match x.kept with
      | c :: _ => c.cseq
      | [] => x.produced + 1
    let again := x.kept.filter (fun c => decide (serial32 c.cseq.toNat (e.param 20 4) < 2 ^ 31))
    let s := again.foldl (fun s c => s.writeCpl r c) s
    (s.ringStat r, okRes (leBytes 4 oldest.toNat))

/-! ### Event queues (R381, R382, R388) -/

def eqTarget (e : SubEntry) : Bool := decide (e.target.toNat < 2048)
def eqPlaceOk (e : SubEntry) : Bool := isPow2In (e.param 0 4) 64 65536 && decide (e.param 4 8 % 64 = 0)
def State.eqCoalOk (s : State) (e : SubEntry) : Bool := s.inBounds 0x0501 (e.param 12 1) && s.inBounds 0x0502 (e.param 14 2)

/-- COUNT and TIME of the command, in force at once: the queue is armed anew. -/
def State.setCoal (s : State) (q : Nat) (e : SubEntry) : State :=
  let w := w32 (e.param 12 1 + e.param 14 2 * 2 ^ 8)
  { s with regs := Tbl.put (Tbl.put s.regs (coalAddr q) w) (coalAddr q + 4) w }

def State.eqCreateCmd (s : State) (e : SubEntry) : State × Answer :=
  let q := e.target.toNat
  if !eqTarget e || !eqPlaceOk e then (s, code cBAD_PARAM)
  else if !s.eqCoalOk e then (s, code cOUT_OF_BOUNDS)
  else if (s.eq q).ph ≠ .free then (s, code cSTATE)
  else
    let x : EvQ := { ph := .run, base := e.addr.toNat, size := e.param 0 4, srBase := e.param 4 8, armed := true }
    (((s.setCoal q e).setEq q x).eqStat q, okRes [])

def State.eqDeleteCmd (s : State) (e : SubEntry) : State × Answer :=
  let q := e.target.toNat
  if !eqTarget e then (s, code cBAD_PARAM)
  else if (s.eq q).ph = .free then (s, code cSTATE)
  else ((s.setEq q { s.eq q with ph := .free, armed := false, firstAt := none }).eqStat q, okRes [])

def State.eqResyncCmd (s : State) (e : SubEntry) : State × Answer :=
  let q := e.target.toNat
  if !eqTarget e || !eqPlaceOk e then (s, code cBAD_PARAM)
  else if !s.eqCoalOk e then (s, code cOUT_OF_BOUNDS)
  else if (s.eq q).ph = .free then (s, code cSTATE)
  else
    let x := { s.eq q with ph := .run, base := e.addr.toNat, size := e.param 0 4, srBase := e.param 4 8, armed := true,
                           db := (s.eq q).posted, firstAt := none }
    (((s.setCoal q e).setEq q x).eqStat q, okRes [])

/-! ### TX and RX rings (R375, R386) -/

/-- The entry at the head of a ring's flight, when `c` names it and the ring has the kind. -/
def State.frontEntry (s : State) (c : CmdRef) (kind op : Nat) : Option SubEntry :=
  match (s.ring c.ring.val).flight with
  | [] => none
  | f :: _ =>
    if f.e.sseq = c.sseq ∧ f.e.opcode.toNat = op ∧ (s.ring c.ring.val).kind = kind then some f.e else none

/-- The frame read from host memory becomes a copy for its egress queue, and its entry completes. It waits while HQE holds no
credit or the pool no cells. -/
def State.txWrite (s : State) (r : Nat) (e : SubEntry) (b : Bytes) : State :=
  let q := s.queue e.target.toNat
  let len := max 64 (e.len.toNat + 4)
  let g := s.groupOf q.dest
  let n := cellsFor len
  if !s.hasCredit 4 g q.cls n then s
  else
    let a := s.allocMany aHqe 0 1 false n
    if a.2.length < n then a.1
    else
      let s := (a.1.takeCredit 4 g q.cls n).writeCells len a.2 [] true
      let c : Copy := { kind := .host, dest := q.dest, cls := q.cls, queue := e.target.toNat, head := a.2, len := len, src := 36,
                        unit := some 4, data := b }
      ((s.newCopy c).1).complete r e cOK 0 []

/-- TX_FRAME. -/
def State.txOp (s : State) (c : CmdRef) (d : HostData) : State :=
  match s.frontEntry c kTX 0x100 with
  | none => s
  | some e =>
    if 262144 ≤ e.target.toNat ∨ e.len.toNat = 0 ∨ 9216 < e.len.toNat + 4 then s.complete c.ring.val e cBAD_PARAM 0 []
    else match d with
      | some b => if s.hqe.bme then s.txWrite c.ring.val e (padTo e.len.toNat b) else s.complete c.ring.val e cHOST_DMA 0 []
      | none => s.complete c.ring.val e cHOST_DMA 0 []

/-- RX_BUFFER: a buffer is posted, and frames that wait for one are delivered. -/
def State.rxOp (s : State) (c : CmdRef) : State :=
  let r := c.ring.val
  if (s.ring r).kind = kRX ∧ (s.flightOf c).isSome ∧ tb s.excCfg 31 ∧ fld s.excCfg 0 14 = r then s.excFill r s.hqe.exc.length else s

/-! ### Traffic queues (R291) -/

def State.queueOpenCmd (s : State) (e : SubEntry) : State × Answer :=
  let q := e.target.toNat
  let sh := e.param 10 2
  if 262144 ≤ q ∨ 264 ≤ e.param 4 2 ∨ 4096 ≤ e.param 8 2 ∨ (16384 ≤ sh ∧ sh ≠ 0xFFFF) then (s, code cBAD_PARAM)
  else if (s.queue q).en then (s, code cSTATE)
  else
    let x : QDesc := { en := true, dest := e.param 4 2, cls := fld (e.param 6 1) 0 3, limit := fld (e.param 0 4) 0 19,
                       drr := e.param 8 2, shaper := sh }
    (s.setQueue q x, okRes [])

/-- QUEUE_CLOSE with DRAIN: new copies are refused, and the command completes when the queue is empty. (DEDUCED, log 40.) -/
def State.queueDrainCmd (s : State) (c : CmdRef) (e : SubEntry) : State × Answer :=
  let q := e.target.toNat
  if 262144 ≤ q ∨ 1 < e.param 0 1 then (s, code cBAD_PARAM)
  else if e.param 0 1 = 1 ∨ (s.queue q).closer = some c then (s, none)
  else if !(s.queue q).en then (s, code cSTATE)
  else ((s.setQueue q { s.queue q with draining := true, closer := some c }).closeIfEmpty q, none)

/-- QUEUE_CLOSE with FLUSH: each queued copy is discarded and counted in Q_FLUSHED. -/
def State.queueFlushCmd (s : State) (e : SubEntry) : State × Answer :=
  let q := e.target.toNat
  if 262144 ≤ q then (s, code cBAD_PARAM)
  else if e.param 0 1 ≠ 1 then (s, none)
  else if !(s.queue q).en then (s, code cSTATE)
  else
    let l := (s.queue q).copies
    let s := s.setQueue q { s.queue q with en := false, draining := false, copies := [], cells := 0, fitAt := none, deficit := 0 }
    (l.foldl (fun s i => (s.discardCopy i).bump bTMG 12) s, okRes [])

/-- Draining queues that have emptied are disabled. -/
def State.closeEmpty (s : State) : State :=
  (s.tmg.queues.filter (fun e => e.2.draining && e.2.copies.isEmpty)).foldl (fun s e => s.closeIfEmpty e.1) s

/-! ### Lane drains (R51, R88) -/

/-- The jobs by which MSC drains a lane that still holds a context: SAVE_CONTEXT, then FENCE. They have no table entry. -/
def drainJobs (ctx : Nat) : List Job :=
  [{ op := .save, gen := 2 ^ 32, ctx := ctx, placed := true }, { op := .fence, gen := 2 ^ 32, ctx := ctx, placed := true }]

/-- The contexts that the members of the carriageway of lead `q` hold, active or prefetched. -/
def State.heldIn (s : State) (q : Nat) : List Nat := (s.members q).filterMap (fun m => ((s.lane m).active).or (s.lane m).prefetch)

/-- A draining lane that has executed its queue is given them, in a carriageway its lead (R76, R88). -/
def State.drainStep (s : State) : State :=
  s.lanes.foldl (fun s e =>
    let q := s.leadFor e.1
    match s.heldIn q with
    | ctx :: _ =>
      if s.drainingCw e.1 && (s.lane q).queue.isEmpty && (s.members q).all (fun m => (s.lane m).quiet && (s.lane m).failed.isNone) &&
          s.running bMSC && !s.flt.safe then
        s.setLane q { s.lane q with queue := drainJobs ctx }
      else s
    | [] => s) s

/-- LANE_DRAIN completes when every lane that it names is drained, or is no longer being drained. -/
def State.drainsDone (s : State) : State :=
  s.msc.drains.foldl (fun s c =>
    match s.flightOf c with
    | none => { s with msc := { s.msc with drains := s.msc.drains.filter (fun d => decide (d ≠ c)) } }
    | some e =>
      let l := lanesOf (e.param 0 8)
      if l.all (fun i => s.drained i || !(s.lane i).draining || (s.lane i).mapped) then
        ({ s with msc := { s.msc with drains := s.msc.drains.filter (fun d => decide (d ≠ c)) } }).finish c cOK 0
          (leBytes 8 (maskOf (l.filter (fun i => s.drained i))))
      else s) s

def State.laneDrainCmd (s : State) (c : CmdRef) (e : SubEntry) : State × Answer :=
  if s.msc.drains.contains c then (s, none)
  else
    let s := (lanesOf (e.param 0 8)).foldl (fun s i => s.setLane i { s.lane i with draining := true }) s
    ({ s with msc := { s.msc with drains := s.msc.drains ++ [c] }, flt := { s.flt with capChanged := true } }, none)

/-- A lane's drain ends. Where a detour or a patch was to change the lane, it is aborted for it (R54, R120). -/
def State.releaseDrain (s : State) (l : Nat) : State :=
  let was := (s.lane l).draining
  let s := s.setLane l { s.lane l with draining := false }
  let s := if was then s.patchCancel l else s
  if was && s.sec.detour.isSome && s.sec.detLanes.contains l then s.detourAbort else s

def State.laneReleaseCmd (s : State) (e : SubEntry) : State × Answer :=
  ((lanesOf (e.param 0 8)).foldl (fun s i => s.releaseDrain i) s, okRes [])

/-! ### Contexts and sessions (R68, R384) -/

/-- CTX_QUERY: a consistent copy of the record. (DEDUCED, log 42.) -/
def State.ctxQueryCmd (s : State) (e : SubEntry) : State × Answer :=
  let r := e.target.toNat
  if 40960 ≤ r then (s, code cBAD_PARAM)
  else if (Tbl.find s.opens r).isNone then (s, code cSTATE)
  else s.reply e (s.recordImage r) (okRes [])

/-- SESSION_QUERY (R266). -/
def State.sessQueryCmd (s : State) (e : SubEntry) : State × Answer :=
  let r := e.target.toNat
  if 40960 ≤ r then (s, code cBAD_PARAM)
  else if !s.isOpen r kSESS then (s, code cSTATE)
  else s.reply e ((Config.sessionReport (s.sessionWords r)).take e.len.toNat) (okRes [])

/-- CTX_CLOSE: a session's completes with its closing (R248). -/
def State.ctxCloseCmd (s : State) (c : CmdRef) (e : SubEntry) : State × Answer :=
  if s.erelm.sess.any (fun x => decide (x.2.closer = some c)) then (s, none)
  else match s.closeCtx c e.target.toNat with
    | (s, some st) => (s, code st)
    | (s, none) => (s, none)

/-! ### Surfaces and layers (R186 to R189, R194, R195, R198) -/

/-- A surface of these dimensions has one of the formats, a legal size and pitch, and both of its buffers lie in a host-surface
carve-out. (DEDUCED, log 41.) -/
def State.surfaceOk (s : State) (d : SurfaceDesc) : Bool :=
  decide (1 ≤ d.width) && decide (d.width ≤ 8192) && decide (1 ≤ d.height) && decide (d.height ≤ 8192) && decide (d.format ≤ 2) &&
  decide (d.pitch % 256 = 0) && decide (d.width * formatBytes d.format ≤ d.pitch) &&
  s.way.carves.any (fun (e : Nat × Nat × Nat × Nat) => tb e.2.2.2 1 && decide (e.2.1 ≤ d.base) &&
    decide (d.base + 2 * (d.pitch * d.height) ≤ e.2.1 + e.2.2.1))

def State.surfCreateCmd (s : State) (b : Bytes) : State × Answer :=
  let d := Config.surfaceOf b
  if !s.surfaceOk d then (s, code cBAD_PARAM)
  else match s.cmp.surfs.free 65536 with
    | none => (s, code cNO_RESOURCE)
    | some h =>
      (s.setSurface h { base := d.base, width := d.width, height := d.height, pitch := d.pitch, format := d.format,
                        size := d.pitch * d.height }, okRes (leBytes 4 h))

/-- Module address of a surface's back buffer (R187). -/
def Surface.backAt (x : Surface) : Nat := if x.back then x.base else x.base + x.size

def State.surfUploadCmd (s : State) (e : SubEntry) (b : Bytes) : State × Answer :=
  let h := e.target.toNat
  match Tbl.find s.cmp.surfs h with
  | none => (s, code cSTATE)
  | some x =>
    let u := Config.uploadOf b
    if x.size < u.offset + u.samples.length then (s, code cBAD_PARAM)
    else
      let s := s.store (x.backAt + u.offset) u.samples
      match u.palette with
      | some p => (s.setSurface h { x with newPalette := padTo 1024 p }, okRes [])
      | none => (s, okRes [])

/-- SURFACE_FLIP, with a dirty rectangle when a buffer gives one. -/
def State.surfFlipCmd (s : State) (e : SubEntry) (rect : Option (Nat × Nat × Nat × Nat)) : State × Answer :=
  let h := e.target.toNat
  if (Tbl.find s.cmp.surfs h).isNone then (s, code cSTATE) else (s.flip h rect, okRes [])

/-- An output picture that is being composed binds the surface. -/
def State.surfInUse (s : State) (h : Nat) : Bool := s.cmp.ctxs.any (fun e => e.2.surfs.any (fun x => decide (x.1 = h)))

/-- A descriptor that waits for its boundary binds the surface. -/
def State.surfPending (s : State) (h : Nat) : Bool :=
  s.cmp.ctxs.any (fun e => e.2.pendDesc.any (fun d => decide ((layerOf d.2 0 0).type = 1) && decide ((layerOf d.2 0 0).source = h)))

def State.surfDeleteCmd (s : State) (e : SubEntry) : State × Answer :=
  let h := e.target.toNat
  if (Tbl.find s.cmp.surfs h).isNone ∨ (s.bindersOf h).isEmpty = false ∨ s.surfInUse h ∨ s.surfPending h then (s, code cSTATE)
  else ({ s with cmp := { s.cmp with surfs := Tbl.del s.cmp.surfs h } }, okRes [])

/-- LAYER_SET: descriptors, global alpha and background, taken at the next output picture (R194). -/
def State.layerCmd (s : State) (e : SubEntry) (b : Bytes) : State × Answer :=
  let c := e.target.toNat
  let l := Config.layerCmd b
  let ls := l.slots.map (fun x => (x.1, layerOf x.2 0 0))
  if 40960 ≤ c then (s, code cBAD_PARAM)
  else if !s.isOpen c kCMP then (s, code cSTATE)
  else if ls.any (fun (x : Nat × Layer) => decide (s.cf c 0x0A 1 ≤ x.1)) then (s, code cBAD_PARAM)
  else if ls.any (fun (x : Nat × Layer) => !s.sourceOk x.2) then (s, code cSTATE)
  else if ls.any (fun (x : Nat × Layer) => !layerOk x.2 (s.sourceSize x.2).1 (s.sourceSize x.2).2) then (s, code cBAD_PARAM)
  else
    let x := s.cmpCtx c
    let d := l.slots.foldl (fun t p => Tbl.put t p.1 (padTo 32 p.2)) x.pendDesc
    let ga := match l.globalAlpha with
      | some v => some (v % 256)
      | none => x.pendGa
    let bg := match l.background with
      | some v => some (v % 2 ^ 30)
      | none => x.pendBg
    (s.setCmpCtx c { x with pendDesc := d, pendGa := ga, pendBg := bg }, okRes [])

/-! ### Frame buffers (R147, R149, R152) -/

/-- A handle that names an allocated FRAME buffer: the code of the refusal when it does not. -/
def State.fbBad (s : State) (h : W32) : Option Nat :=
  if !s.isFrame h then some cBAD_PARAM
  else if s.stale h || !(s.buf (hKey h)).alloc then some cSTATE
  else none

def State.fbQueryCmd (s : State) (e : SubEntry) : State × Answer :=
  match s.fbBad e.target with
  | some c => (s, code c)
  | none => s.reply e (s.frameBytes e.target) (okRes [])

def State.fbPinCmd (s : State) (e : SubEntry) : State × Answer :=
  match s.fbBad e.target with
  | some c => (s, code c)
  | none =>
    let a := s.incRef false e.target
    if a.2 then (a.1, okRes []) else (a.1, code cSTATE)

def State.fbReleaseCmd (s : State) (e : SubEntry) : State × Answer :=
  if !s.isFrame e.target then (s, code cBAD_PARAM)
  else
    let bad := s.isDouble e.target || decide ((s.buf (hKey e.target)).count = 0)
    (s.decRefA aHost e.target, code (if bad then cSTATE else cOK))

/-! ### Time (R322) and the fault log (R457) -/

/-- TIME_SOURCE: 0 PTP, 1 PPS_IN, 2 the crystal alone. (DEDUCED, log 39.) -/
def State.timeSourceCmd (s : State) (e : SubEntry) : State × Answer :=
  let set := fun (x : TimeSrc) => ({ s with clk := { s.clk with src := x, slew := 0, ppsAt := none } }, okRes [])
  if e.target.toNat = 0 then set .ptp
  else if e.target.toNat = 1 then set .pps
  else if e.target.toNat = 2 then set .free
  else (s, code cBAD_PARAM)

/-- PTP_CTL: the ports on which the PTP SP runs. -/
def State.ptpCmd (s : State) (e : SubEntry) (b : Option Bytes) : State × Answer :=
  ({ s with clk := { s.clk with ptpPorts := Config.ptpPorts e.target (b.getD []) } }, okRes [])

/-- A fault-log record's 32 bytes (R457). -/
def logBytes (r : LogRec) : Bytes :=
  leBytes 4 r.seq ++ leBytes 4 r.boot ++ leBytes 8 r.time ++ leBytes 2 r.source ++ leBytes 1 r.outcome ++ leBytes 1 r.flags ++
  leBytes 8 r.detail ++ zeros 4

/-- FAULT_LOG_READ: records newest first from `start`, those that SVP still holds among them. (DEDUCED, log 38.) -/
def State.faultLogCmd (s : State) (e : SubEntry) : State × Answer :=
  let all := (s.flash.log ++ s.flt.pendingLog).reverse
  let newest := match all with
    | r :: _ => r.seq
    | [] => 0
  let from_ := if e.param 0 4 = 0 then all else all.filter (fun r => decide (r.seq ≤ e.param 0 4))
  let l := from_.take (e.param 4 4)
  if e.len.toNat < e.param 4 4 * 32 then (s, code cBAD_PARAM)
  else if l.isEmpty then (s, okRes (leBytes 4 0 ++ leBytes 4 newest))
  else s.reply e (l.flatMap logBytes) (okRes (leBytes 4 l.length ++ leBytes 4 newest))

end Sys2Proof.Machine
end

