-- ==== Sys2Proof/Machine/Mesh.lean ====
section
/-! DEFINITION. What modules say to each other over CTRL, REQ and RSP (R24, R26, R46, R55, R334): the comparison of digests, module 0's admission of
streams that cross links, and detours that module 0 leads. -/

namespace Sys2Proof.Machine

open Sys2Proof

/-- The rate in kb/s of the link between two modules, as module 0 knows it: its own links as they are, another's with all four lanes (R26). -/
def State.meshKbps (s : State) (a b : Nat) : Nat :=
  if a = 0 then s.linkKbps (linkTo 0 b) else if b = 0 then s.linkKbps (linkTo 0 a) else 4 * 25000000

/-- What module 0 counts on that link: the streams that it has admitted for other modules, and its own. -/
def State.meshLoad (s : State) (a b : Nat) : Nat :=
  s.remoteLoad a b + (if a = 0 then s.pathDemand (0x8000 + b * 256) else if b = 0 then s.pathDemand (0x8000 + a * 256) else 0)

/-- Module 0 answers another module's request for a stream: the load is counted, or refused (R26, R334). -/
def State.serveStream (s : State) (l : Nat) (opens : Bool) (a b kbps : Nat) : State :=
  if !opens then { s with cas := { s.cas with loads := s.cas.loads.erase (a, b, kbps) } }
  else
    let ok := decide (s.meshLoad a b + kbps ≤ s.meshKbps a b)
    let s := if ok then { s with cas := { s.cas with loads := s.cas.loads ++ [(a, b, kbps)] } } else s
    s.tell l 1 (.admitted ok)

/-- Module 0 leads the detour on to module `k`, where the cascade has it (R55). -/
def State.leadDetour (s : State) (k : Nat) : State := if k < s.cas.size then s.tell (linkTo 0 k) 2 .detour else s

/-- A detour that module 0 leads is applied here, or rejected, which ends it too. -/
def State.followDetour (s : State) (l : Nat) : State :=
  if s.structural then s.tell l 1 .detourDone
  else
    match ({ s with free := s.free + 1 }).startDetour (Config.ledImage s.free) none with
    | (t, 0) => t
    | (t, _) => t.tell l 1 .detourDone

/-- A detour was applied here: module 0 leads it on to module 1, and a module sends module 0 its new digest (R46, R55). -/
def State.detourApplied (s : State) : State :=
  let m := s.plt.cascId
  if m = 0 then s.leadDetour 1 else s.tell (linkTo m 0) 0 (.digest s.way.digest)

/-- A detour that module 0 led has ended here, applied or aborted, and module 0 is told (R55). -/
def State.detourAnswer (s : State) : State :=
  if s.sec.detLed && s.sec.detour.isNone then
    ({ s with sec := { s.sec with detLed := false } }).tell (linkTo s.plt.cascId 0) 1 .detourDone
  else s

/-- One message of the module at the other end of link `l`; a class-7 cell without a buffer waits. (DESIGN CHOICE, log 115.) -/
def State.meshServe (s : State) (l : Nat) (b : Bytes) : State :=
  let zero := decide (s.plt.cascId = 0)
  let peer := peerOf s.plt.cascId l
  match Config.meshIn b with
  | .digest d => if zero then s.digestCompare l (decide (d = s.way.digest) || (!d.isEmpty && decide (d = s.sec.baseDig))) else s
  | .stream opens a e kbps => if zero then s.serveStream l opens a e kbps else s
  | .detour => if !zero && decide (peer = 0) then s.followDetour l else s
  | .detourDone => if zero then s.leadDetour (peer + 1) else s
  | .cell c =>
    match s.mediaRx l c with
    | some t => t
    | none => { s with cas := { s.cas with inbox := s.cas.inbox ++ [(l, b)] } }
  | .admitted _ => s
  | .other => s

/-- The messages received are served, oldest first, media payloads that wait for buffers are taken, and credits returned. -/
def State.casServe (s : State) : State :=
  let l := s.cas.inbox
  let s := l.foldl (fun s e => s.meshServe e.1 e.2) { s with cas := { s.cas with inbox := [] } }
  s.cas.links.foldl (fun s e => (s.mediaTake e.1 e.2.rxq.length).linkReturn e.1) s

end Sys2Proof.Machine
end

