-- ==== Sys2Proof/Machine/Run.lean ====
section
/-! DEFINITION. How a command runs: when the part that it concerns works, what it does, and then what every command leaves to be
settled. A command whose part does not work (no supply, a deeper power state, recovery, the safe state, a stopped block) finds
nothing that takes it, and changes nothing. -/

namespace Sys2Proof.Machine

open Sys2Proof

/-- What a command leaves to be settled at its end: resets, detours, drains, closing queues, idle periods, and a power-state
request that waits. -/
def State.ended (s : State) : State := s.settle.casServe.detourWatch.detourAnswer.drainStep.drainsDone.closeEmpty.idleTimers.evalPend

/-- The media blocks, the memory and the processors work: supplied, no deeper than SLEEP, firmware running (R427, R433). -/
def State.live (s : State) : Bool := s.plt.up && decide (s.plt.cur < 3) && !s.plt.recovery

/-- Host commands, and the frames and buffers of rings, are taken: not in the safe state (R454). -/
def State.cmdsRun (s : State) : Bool := s.live && !s.flt.safe

/-- One command slot of memory channel `c`, and what its end means to a lane that asked (R111, R113, R365). -/
def State.memStep (s : State) (c : Nat) : State :=
  match s.memSlot c with
  | (t, some (r, .retry)) => t.readFails r.agent.toNat
  | (t, some (r, .good)) => t.readAnswered r.agent.toNat
  | (t, some (r, .poisoned)) => (t.readAnswered r.agent.toNat).lanePoison r.agent.toNat
  | (t, none) => t

/-- The PCI Express function works. -/
def State.pcie (s : State) : Bool := s.plt.up && decide (s.plt.cur < 3)

/-- The block works: its header runs, where it has one. (DEDUCED, log 87.) -/
def State.works (s : State) (b : Nat) : Bool := s.live && s.running (blockKey b)

/-- MSC creates and dispatches: it runs and is not being stopped (R435). -/
def State.mscWorks (s : State) : Bool := s.works bMSC && !s.mscHalts

/-- The SP that serves session `d` runs (R394). (DEDUCED, log 86.) -/
def State.spWorks (s : State) (d : Nat) : Bool := s.live && decide ((s.cpu (s.cf d 0x07 1 + 1)).ph = .run)

/-- The state that a command leaves in `s` when its own effect makes `t` of it: settled, and with the queue as it was. -/
def State.after (s t : State) : State := { t.ended with pending := s.pending }

/-- A command: `f` where its part works, nothing where it does not. The queue is the step's alone. (DEDUCED, log 5.) -/
def act (ok : Bool) (f : State → State) (s : State) : Host.Outcome State Fault Refusal :=
  .next (if ok then s.after (f s) else s)

end Sys2Proof.Machine
end

