-- ==== Sys2Proof/Machine/Buffers.lean ====
section
/-! DEFINITION. Meanings: the operations of the buffer pool manager (R342, R350, R351) and of module memory (R357 to R368). -/

namespace Sys2Proof.Machine

open Sys2Proof

/-! ### Buffer pools -/

/-- ALLOC: the handle given out is kept as the answer. -/
def execAlloc (agent : Byte) (pool : PoolId) (n : Nat) (reserved : Bool) (s : State) :=
  act s.live (fun s => (s.alloc agent.toNat pool.val n reserved).1) s
def execInc (_agent : Byte) (h : W32) (s : State) := act s.live (fun s => (s.incRef false h).1) s
def execPin (_agent : Byte) (h : W32) (s : State) := act s.live (fun s => (s.incRef true h).1) s
def execDec (agent : Byte) (h : W32) (s : State) := act s.live (fun s => s.decRefA agent.toNat h) s
def execFree (agent : Byte) (h : W32) (s : State) := act s.live (fun s => s.freeRefA agent.toNat h) s
def execXfer (agent : Byte) (h : W32) (newOwner : Byte) (s : State) :=
  act s.live (fun s => s.xferRef agent.toNat h newOwner.toNat) s
def execSetmark (agent : Byte) (h : W32) (m : Fin 5) (s : State) := act s.live (fun s => s.setMark agent.toNat h m.val) s
def execClrmark (agent : Byte) (h : W32) (m : Fin 5) (s : State) := act s.live (fun s => s.clrMarkA agent.toNat h m.val) s
def execBpmQuery (v : W32) (s : State) := act (s.barTakes 0x800040) (fun s => s.query v) s
def execBpmLogPop (s : State) := act (s.barServes 0x800000) State.bpmPop s
def execBpmLogClr (v : W32) (s : State) := act (s.barTakes 0x800064) (fun s => s.logClear v.toNat) s

/-! ### Module memory -/

/-- Refresh windows, oscillator readouts, retrains and scrubbing go on: no channel is in self-refresh (R369). -/
def State.memAwake (s : State) : Bool := s.live && !s.mem.chans.any (fun e => decide (e.2.ph = .selfRefresh))

/-- MEM_READ: the read waits in its bank's queue, and the channel's next slot follows (R356). Beyond the usable range it returns poisoned data at
once (R354). -/
def execMemRead (agent : Byte) (addr : W64) (r : ReadResult) (s : State) :=
  act s.live (fun s =>
    let t := s.memRead agent addr.toNat r
    if s.memEnd ≤ addr.toNat then t.lanePoison agent.toNat
    else if s.queuedAt addr.toNat then t else t.memStep (s.chanOf addr.toNat)) s
def execMemRetryRead (c : ChanId) (correct : Bool) (s : State) := act s.live (fun s => (s.memRetry c.val correct).memStep c.val) s
def execMemWrite (agent : Byte) (addr : W64) (data : Bytes) (s : State) := act s.live (fun s => s.memWrite agent addr.toNat data) s
def execRefreshWindow (s : State) := act s.memAwake State.refresh s
def execRowIdleTimeout (c : ChanId) (bank : Fin 16) (s : State) := act s.live (fun s => s.rowIdle c.val bank.val) s
def execTempReadout (dieC : Int) (deviceFast : Bool) (s : State) := act s.live (fun s => s.tempRead dieC deviceFast) s
def execOscReadout (drift : List (BitVec 6)) (s : State) := act s.memAwake (fun s => s.oscRead (drift.map (·.toNat))) s
def execChannelRetrain (passed : Bool) (s : State) := act s.memAwake (fun s => s.retrain passed) s
def execScrubRead (r : ReadResult) (s : State) := act s.memAwake (fun s => s.scrub r) s

end Sys2Proof.Machine
end

