-- ==== Sys2Proof/Machine/Coding.lean ====
section
/-! DEFINITION. Meanings: MSC (R170 to R182), the lane instructions (R86), the microwords (R103 to R113), machine checks (R114 to
R117), and the lane registers that do something (R92 to R100). -/

namespace Sys2Proof.Machine

open Sys2Proof

/-! ### MSC -/

def execSourceRowArrival (src : CtxId) (row : Nat) (s : State) := act s.mscWorks (fun s => s.sourceRow src.val row) s
def execRowJobCreate (sess : CtxId) (pic row : Nat) (s : State) := act s.mscWorks (fun s => s.createRow sess.val pic row) s
def execJobTableEntryFreed (s : State) := act s.mscWorks State.entryFreed s
def execJobDispatch (t : DispTarget) (s : State) := act s.mscWorks (fun s => s.dispatch t) s
def execSourceRepeat (j : JobId) (s : State) := act s.mscWorks (fun s => s.repeatRow j.val) s
def execOverloadEvaluate (s : State) := act s.live State.evalOverload s
def execSteerEvaluate (family : CtxId) (s : State) := act (s.works bMSC) (fun s => s.steerOp family.val) s
/-- STEER_DISABLE: MSC_STEER written with EN = 0 (R182). A value with EN = 1 is a plain write of the register. -/
def execSteerDisable (v : W32) (s : State) := act (s.barTakes 0xD00048) (fun s => s.writeReg 0xD00048 v.toNat) s

/-! ### Lane instructions -/

/-- NOP completes at once. -/
def execLaneNop (l : LaneId) (s : State) := act s.live (fun s => s.nopJob l.val) s
def execLoadContext (l : LaneId) (s : State) := act s.live (fun s => s.loadCtx l.val) s
def execSaveContext (l : LaneId) (s : State) := act s.live (fun s => s.saveCtx l.val) s
def execEncodeRow (l : LaneId) (s : State) := act s.live (fun s => s.encodeRowOp l.val) s
/-- DECODE_ROW; a row that the guard alone released, and whose data runs out, is abandoned (R226). -/
def execDecodeRow (l : LaneId) (f : DecodeFacts) (s : State) :=
  act s.live (fun s =>
    match (if f.ranOut then s.shortRow l.val else none) with
    | some t => t
    | none => s.decodeRowOp l.val f) s
def execFlushPicture (l : LaneId) (s : State) := act s.live (fun s => s.flushOp l.val) s
/-- FENCE completes when every earlier job has: a lane executes one job at a time. -/
def execFence (l : LaneId) (s : State) := act s.live (fun s => s.fenceJob l.val) s
def execLaneBadJob (l : LaneId) (s : State) := act s.live (fun s => s.badOp l.val) s
def execRowComplete (l : LaneId) (f : RowFacts) (s : State) := act s.live (fun s => s.rowCompleteOp l.val f) s

/-! ### Microwords -/

def execIssueMw (l : LaneId) (stagesEmpty : Bool) (s : State) := act s.live (fun s => s.issueOp l.val stagesEmpty) s
def execBranchMw (l : LaneId) (aboveOut : Bool) (s : State) := act s.live (fun s => s.branchOp l.val aboveOut) s
def execCallMw (l : LaneId) (s : State) := act s.live (fun s => s.callOp l.val) s
def execReturnMw (l : LaneId) (s : State) := act s.live (fun s => s.returnOp l.val) s
def execEndJob (l : LaneId) (s : State) := act s.live (fun s => s.endJobOp l.val) s
def execTrapReturn (l : LaneId) (s : State) := act s.live (fun s => s.trapRet l.val) s
def execWaitMw (l : LaneId) (aboveOut : Bool) (s : State) := act s.live (fun s => s.waitOp l.val aboveOut) s
def execLoopLoad (l : LaneId) (s : State) := act s.live (fun s => s.loopLoadOp l.val) s
def execLatchLoad (l : LaneId) (s : State) := act s.live (fun s => s.latchLoadOp l.val) s
def execPostSummary (l : LaneId) (s : State) := act s.live (fun s => s.postOp l.val) s
def execNextCtu (l : LaneId) (s : State) := act s.live (fun s => s.nextCtuOp l.val) s
def execDrainMw (l : LaneId) (stagesEmpty : Bool) (s : State) := act s.live (fun s => s.drainOp l.val stagesEmpty) s
def execMicroTrap (l : LaneId) (cause : Fin 4) (s : State) := act s.live (fun s => s.trapOp l.val cause.val) s

/-! ### Machine checks and patches -/

def execMachineCheck (l : LaneId) (k : MchkKind) (s : State) := act s.live (fun s => s.mchkOp l.val k) s
def execMchkService (l : LaneId) (goldenReadable readbackOk : Bool) (s : State) :=
  act s.live (fun s => s.mchkServe l.val goldenReadable readbackOk) s
def execGoldenRebuildDone (l : LaneId) (flashOk readbackOk : Bool) (s : State) :=
  act s.live (fun s => s.rebuildDone l.val flashOk readbackOk) s
def execMcPatch (h : CmdRef) (d : HostData) (loadFail : List LaneId) (s : State) :=
  act s.cmdsRun (fun s => s.patchOp h d loadFail) s
def execSliceStallTimeout (l : LaneId) (s : State) := act s.live (fun s => s.stallTimeout l.val) s

/-! ### Lane registers -/

def execLsfPop (l : LaneId) (ecc : EccResult) (s : State) := act (s.barServes 0x1000000) (fun s => s.lsfPopOp l.val ecc) s
def execLsfClr (l : LaneId) (v : W32) (s : State) := act (s.barTakes 0x1000000) (fun s => s.lsfClrOp l.val v) s
def execPmcCfgWrite (l : LaneId) (n : Fin 8) (v : W32) (s : State) :=
  act (s.barTakes 0x1000000) (fun s => s.pmcCfgOp l.val n.val v) s
def execPmcWrap (l : LaneId) (n : Fin 8) (s : State) := act s.live (fun s => s.pmcWrapOp l.val n.val) s
def execPmcClr (l : LaneId) (v : W32) (s : State) := act (s.barTakes 0x1000000) (fun s => s.pmcClrOp l.val v) s
def execTagCfgWrite (l : LaneId) (v : W32) (s : State) := act (s.barTakes 0x1000000) (fun s => s.tagCfgOp l.val v) s
def execTagRecPop (l : LaneId) (s : State) := act (s.barServes 0x1000000) (fun s => s.tagPopOp l.val) s

end Sys2Proof.Machine
end

