-- ==== Sys2Proof/Machine/Commands.lean ====
section
/-! DEFINITION. Meanings: the host commands of R384. Each names a consumed submission (R376), runs in its turn (R385) where an SP
gives the service (R394), and answers a completion with one of the codes of R383. -/

namespace Sys2Proof.Machine

open Sys2Proof

/-- An answer of one step. -/
def State.now (s : State) (c : CmdRef) (op : Nat) (f : State → SubEntry → State × Answer) : Host.Outcome State Fault Refusal :=
  act s.cmdsRun (fun s => s.runCmd c op f) s

/-! ### Rings, queues and attachment -/

def execNop (h : CmdRef) (s : State) := s.now h 0x01 (fun s _ => (s, okRes []))
def execRingCreate (h : CmdRef) (s : State) := s.now h 0x10 (fun s e => s.ringCreateCmd e)
def execRingDelete (h : CmdRef) (s : State) := s.now h 0x11 (fun s e => s.ringDeleteCmd e)
def execRingResync (h : CmdRef) (s : State) := s.now h 0x12 (fun s e => s.ringResyncCmd e)
def execEqCreate (h : CmdRef) (s : State) := s.now h 0x13 (fun s e => s.eqCreateCmd e)
def execEqDelete (h : CmdRef) (s : State) := s.now h 0x14 (fun s e => s.eqDeleteCmd e)
def execEqResync (h : CmdRef) (s : State) := s.now h 0x15 (fun s e => s.eqResyncCmd e)
def execAttach (h : CmdRef) (s : State) := s.now h 0x16 (fun s _ => s.attachCmd)

/-! ### Contexts and sessions -/

/-- A code, a detail and a result answered. -/
def answered (x : State × Nat × Nat × Bytes) : State × Answer := (x.1, some x.2)

def execCtxOpen (h : CmdRef) (d : HostData) (s : State) :=
  s.now h 0x20 (fun s e => s.withData d e (fun b => answered (s.openCtx e.target.toNat (padTo 256 b))))
def execCtxChange (h : CmdRef) (d : HostData) (s : State) :=
  s.now h 0x21 (fun s e => s.withData d e (fun b =>
    let x := s.changeCtx e.target.toNat b
    (x.1, codeD x.2.1 x.2.2)))
def execCtxClose (h : CmdRef) (s : State) := s.now h 0x22 (fun s e => s.ctxCloseCmd h e)
def execCtxQuery (h : CmdRef) (s : State) := s.now h 0x23 (fun s e => s.ctxQueryCmd e)
def execLayoutSet (h : CmdRef) (d : HostData) (s : State) :=
  s.now h 0x24 (fun s e => s.withData d e (fun b =>
    let x := s.setLayout e.target.toNat b
    (x.1, codeD x.2.1 x.2.2)))
def execSessionNet (h : CmdRef) (d : HostData) (s : State) :=
  s.now h 0x25 (fun s e => s.withData d e (fun b =>
    let x := s.setNet e.target.toNat (Config.netOf b)
    (x.1, code x.2)))
def execSessionQuery (h : CmdRef) (s : State) := s.now h 0x26 (fun s e => s.sessQueryCmd e)

/-! ### Surfaces, layers and frame buffers -/

def execSurfaceCreate (h : CmdRef) (d : HostData) (s : State) :=
  s.now h 0x30 (fun s e => s.withData d e (fun b => s.surfCreateCmd b))
def execSurfaceUpload (h : CmdRef) (d : HostData) (s : State) :=
  s.now h 0x31 (fun s e => s.withData d e (fun b => s.surfUploadCmd e b))
/-- SURFACE_FLIP: a buffer gives the dirty rectangle; without one every unit of its layers is marked (R195). -/
def execSurfaceFlip (h : CmdRef) (d : HostData) (s : State) :=
  s.now h 0x32 (fun s e =>
    if e.len.toNat = 0 then s.surfFlipCmd e none
    else s.withData d e (fun b => s.surfFlipCmd e (some (Config.flipRect b))))
def execSurfaceDelete (h : CmdRef) (s : State) := s.now h 0x33 (fun s e => s.surfDeleteCmd e)
def execLayerSet (h : CmdRef) (d : HostData) (s : State) := s.now h 0x34 (fun s e => s.withData d e (fun b => s.layerCmd e b))
def execFbQuery (h : CmdRef) (s : State) := s.now h 0x40 (fun s e => s.fbQueryCmd e)
def execFbPin (h : CmdRef) (s : State) := s.now h 0x41 (fun s e => s.fbPinCmd e)
def execFbRelease (h : CmdRef) (s : State) := s.now h 0x42 (fun s e => s.fbReleaseCmd e)

/-! ### Traffic queues and lanes -/

def execQueueOpen (h : CmdRef) (s : State) := s.now h 0x50 (fun s e => s.queueOpenCmd e)
def execQueueCloseDrain (h : CmdRef) (s : State) := s.now h 0x51 (fun s e => s.queueDrainCmd h e)
def execQueueCloseFlush (h : CmdRef) (s : State) := s.now h 0x51 (fun s e => s.queueFlushCmd e)
def execLaneDrain (h : CmdRef) (s : State) := s.now h 0x60 (fun s e => s.laneDrainCmd h e)
def execLaneRelease (h : CmdRef) (s : State) := s.now h 0x61 (fun s e => s.laneReleaseCmd e)

/-! ### Images, attestation, time and the fault log -/

def execImageInstall (h : CmdRef) (d : HostData) (flashOk : Bool) (s : State) :=
  act s.cmdsRun (fun s => s.installOp h d flashOk) s
def execImageRatchet (h : CmdRef) (s : State) := act s.cmdsRun (fun s => s.ratchetOp h) s
def execWaymapInstall (h : CmdRef) (d : HostData) (s : State) := act s.cmdsRun (fun s => s.waymapInstallOp h d) s
def execDetour (h : CmdRef) (d : HostData) (s : State) := act s.cmdsRun (fun s => s.detourOp h d) s
def execAttest (h : CmdRef) (d : HostData) (s : State) := act s.cmdsRun (fun s => s.attestOp h d) s
def execAttestCert (h : CmdRef) (s : State) := act s.cmdsRun (fun s => s.certOp h) s
def execTimeSource (h : CmdRef) (s : State) := s.now h 0x80 (fun s e => s.timeSourceCmd e)
def execPtpCtl (h : CmdRef) (s : State) := s.now h 0x81 (fun s e => s.ptpCmd e none)
def execFaultLogRead (h : CmdRef) (s : State) := s.now h 0x91 (fun s e => s.faultLogCmd e)

end Sys2Proof.Machine
end

