-- ==== Sys2Proof/Machine/Display.lean ====
section
/-! DEFINITION. Meanings: composition (R171, R184), assembly and input flows (R159, R160, R218 to R226), and the Erelm sessions
(R232 to R266). -/

namespace Sys2Proof.Machine

open Sys2Proof

/-! ### Composition and assembly -/

def execComposeRow (p : PipeId) (poisoned : Bool) (s : State) := act s.live (fun s => s.composeOp p.val poisoned) s
def execComposeRowComplete (p : PipeId) (parityOk : Bool) (s : State) := act s.live (fun s => s.composeDoneOp p.val parityOk) s
def execAsmEnqueue (enc : CtxId) (s : State) := act s.live (fun s => s.asmEnqueueOp enc.val) s
def execRtpPacketIn (flow : CtxId) (k : RtpIn) (s : State) := act (s.works bASM) (fun s => s.rtpIn flow.val k) s
def execDejitterTimeout (flow : CtxId) (s : State) := act (s.works bASM) (fun s => s.dejitterTimeout flow.val) s
def execHoldExpire (sess : CtxId) (seq : W16) (s : State) := act (s.works bASM) (fun s => s.holdExpire sess.val seq.toNat) s

/-! ### Erelm: messages received. A session's number is its record's number (R36, R232). -/

/-- A HELLO is served by the SP of the session that it finds; one that finds none, by any SP that runs. -/
def execHello (h : ErelmHdr) (b : HelloBody) (s : State) :=
  act (match s.helloSess h with
    | some d => s.spWorks d
    | none => s.live && (List.range 4).any (fun i => decide ((s.cpu (i + 1)).ph = .run))) (fun s => s.helloOp h b) s
def execOpenAck (h : ErelmHdr) (result : Byte) (s : State) :=
  act (s.spWorks h.session.toNat) (fun s => s.openAckOp h result.toNat) s
def execMarker (h : ErelmHdr) (frame : W32) (line steer : W16) (time : W64) (s : State) :=
  act (s.spWorks h.session.toNat) (fun s => s.markerMsg h frame.toNat line.toNat (sgn steer.toNat 16) time.toNat) s
def execRowAck (h : ErelmHdr) (_pic : W32) (_row rtpCum : W16) (_late : Bool) (lateTotal : W32) (s : State) :=
  act (s.spWorks h.session.toNat) (fun s => s.rowAckMsg h rtpCum.toNat lateTotal) s
def execLoss (h : ErelmHdr) (ranges : List (W16 × W16)) (s : State) :=
  act (s.spWorks h.session.toNat) (fun s => s.lossMsg h ranges) s
def execRefreshReq (h : ErelmHdr) (_reason : Byte) (s : State) := act (s.spWorks h.session.toNat) (fun s => s.refreshMsg h) s
def execKeepalive (h : ErelmHdr) (request : Option W64) (s : State) :=
  act (s.spWorks h.session.toNat) (fun s => s.keepMsg h request) s
def execStatus (h : ErelmHdr) (b : StatusBody) (s : State) := act (s.spWorks h.session.toNat) (fun s => s.statusMsg h b) s
def execClose (h : ErelmHdr) (reason : Byte) (s : State) :=
  act (s.spWorks h.session.toNat) (fun s => s.closeMsg h reason.toNat) s

/-! ### Erelm: what falls due -/

def execErelmRetransmit (sess : CtxId) (s : State) := act (s.spWorks sess.val) (fun s => s.erelmRetransmitOp sess.val) s
def execAckDue (sess : CtxId) (s : State) := act (s.spWorks sess.val) (fun s => s.ackDueOp sess.val) s
def execKeepaliveDue (sess : CtxId) (s : State) := act (s.spWorks sess.val) (fun s => s.keepDueOp sess.val) s
def execSessionSilence (sess : CtxId) (s : State) := act (s.spWorks sess.val) (fun s => s.silenceOp sess.val) s
def execMarkerMissing (sess : CtxId) (s : State) := act (s.works bMSC) (fun s => s.missingMsg sess.val) s
def execSessionSuspend (sess : CtxId) (s : State) := act (s.works bMSC) (fun s => s.suspendMsg sess.val) s

end Sys2Proof.Machine
end

