-- ==== Sys2Proof/Machine/HostLink.lean ====
section
/-! DEFINITION. Meanings: the PCI Express function (R374, R431, R473), doorbells (R379), event-queue coalescing (R382), frames and
buffers of TX and RX rings (R375, R386), and the host watchdog (R387). -/

namespace Sys2Proof.Machine

open Sys2Proof

/-! ### The function -/

def execFunctionLevelReset (s : State) := act s.pcie State.hostReset s
/-- A hot reset has the effects of R374. -/
def execHotReset (s : State) := act s.pcie State.hostReset s
def execPcieLinkLoss (s : State) := act s.pcie State.linkGone s
def execPerstAssert (s : State) := act s.pcie State.perstLow s
def execPerstDeassert (refclk : Bool) (gen : BitVec 3) (width : BitVec 4) (s : State) :=
  act s.pcie (fun s => s.perstHigh refclk gen.toNat width.toNat) s
def execConfigRequest (busMaster : Option Bool) (s : State) := act s.pcie (fun s => s.configReq busMaster) s

/-! ### Doorbells: each restarts the watchdog (R387); while HQE does not run they are ignored and counted (R377) -/

def State.doorbell (s : State) (f : State → State) : State :=
  let s := s.restartWatchdog
  if s.running bHQE then f s else s.dbIgnored

def execSqTail (ring : RingId) (v : W32) (entries : List SubEntry) (s : State) :=
  act s.cmdsRun (fun s => s.doorbell (fun s => s.sqTail ring.val v entries)) s
def execCqHead (ring : RingId) (v : W32) (s : State) := act s.cmdsRun (fun s => s.doorbell (fun s => s.cqHead ring.val v)) s
def execEqDb (q : EqId) (v : W32) (s : State) := act s.cmdsRun (fun s => s.doorbell (fun s => s.eqDbOp q.val v)) s

def execEqCoalTimeout (q : EqId) (s : State) := act (s.live && decide ((s.eq q.val).ph ≠ .free)) (fun s => s.eqSignal q.val) s

def execTxFrame (h : CmdRef) (d : HostData) (s : State) := act s.cmdsRun (fun s => s.txOp h d) s
def execRxBuffer (h : CmdRef) (s : State) := act s.cmdsRun (fun s => s.rxOp h) s
def execExcWaitTimeout (s : State) := act s.live State.excTimeout s

/-! ### The watchdog -/

def execHeartbeat (_v : W32) (s : State) := act (s.barTakes 0x400048) State.restartWatchdog s
def execHeartbeatTimeout (s : State) := act s.live State.hbExpire s

end Sys2Proof.Machine
end

