-- ==== Sys2Proof/Machine/Network.lean ====
section
/-! DEFINITION. Meanings: frames received and pauses (R276, R277, R293, R314 to R318), the switch core and the traffic manager
(R268 to R305), ports (R310 to R325, R474) and the cascade (R326 to R335). -/

namespace Sys2Proof.Machine

open Sys2Proof

/-! ### Frames and pauses -/

def execFrameReceived (p : PortId) (f : RxFrame) (s : State) := act s.live (fun s => s.frameRx p.val f) s
def execPauseFrameReceived (p : PortId) (f : PauseFrame) (s : State) := act s.live (fun s => s.pauseFrame p.val f) s
def execPauseExpire (p : PortId) (c : ClassId) (s : State) := act s.live (fun s => s.pauseExpire p.val c.val) s
def execPauseStorm (p : PortId) (c : ClassId) (s : State) := act s.live (fun s => s.pauseStorm p.val c.val) s
def execPswCfgWrite (v : W32) (s : State) := act (s.barTakes 0x900058) (fun s => s.pswWrite v) s

/-! ### Switch core and traffic manager -/

def execCopyArrive (copyId : Nat) (s : State) := act (s.works bSWC) (fun s => s.arriveOp copyId) s
def execLaybyAdmit (d : DestId) (c : ClassId) (s : State) := act (s.works bSWC) (fun s => s.laybyAdmitOp d.val c.val) s
def execLaybyPrune (d : DestId) (c : ClassId) (s : State) := act (s.works bSWC) (fun s => s.laybyPrune d.val c.val) s
def execReseqCell (c : SeqCell) (s : State) := act (s.works bSWC) (fun s => s.rsqCell c) s
def execReseqGapTimeout (g : GroupId) (src : Byte) (s : State) := act (s.works bSWC) (fun s => s.rsqTimeout g.val src.toNat) s
def execGateOpen (p : PortId) (s : State) := act (s.works bTMG) (fun s => s.gateOpen p.val) s
def execFrameTxEnd (p : PortId) (s : State) := act s.live (fun s => s.txEnd p.val) s
def execFitMaxExpire (q : QueueId) (s : State) := act (s.works bTMG) (fun s => s.fitExpire q.val) s
def execTokenCredit (s : State) := act (s.works bTMG) State.tokenCredit s

/-! ### Ports -/

/-- SIGNAL_DETECT: on a port whose block's domain is on (R20). -/
def execSignalDetect (p : PortId) (s : State) :=
  act (s.live && Tbl.get false s.plt.blockOn (p.val / 8)) (fun s => s.signalDetect p.val) s
def execPcsSync (p : PortId) (n : NegResult) (s : State) :=
  act (s.live && Tbl.get false s.plt.blockOn (p.val / 8)) (fun s => s.pcsSync p.val n) s
def execLinkHoldExpire (p : PortId) (s : State) := act s.live (fun s => s.holdExpireLink p.val) s
def execPcsSyncLoss (p : PortId) (s : State) := act s.live (fun s => s.syncLoss p.val) s
def execLinkLossTimeout (p : PortId) (s : State) := act s.live (fun s => s.lossTimeout p.val) s
def execEyeMeasurement (p : PortId) (margin : BitVec 6) (s : State) := act s.live (fun s => s.eye p.val margin.toNat) s
def execRetrainTimeout (p : PortId) (s : State) := act s.live (fun s => s.retrainTimeout p.val) s
def execRetrainWindowExpire (p : PortId) (s : State) := act s.live (fun s => s.windowExpire p.val) s
def execPfcRefresh (p : PortId) (s : State) := act s.live (fun s => s.pfcRefreshOp p.val) s
def execSgmiiControlWordChange (p : PortId) (linkUp : Bool) (speed : BitVec 2) (fullDuplex : Bool) (s : State) :=
  act s.live (fun s => s.sgmii p.val linkUp speed.toNat fullDuplex) s

/-- The six frames of R319: GO with C45 and OP. -/
def execMdioC22Write (b : BusId) (v : W32) (s : State) := act (s.barTakes 0xB00040) (fun s => s.mdioGo b.val v false 1) s
def execMdioC22Read (b : BusId) (v : W32) (s : State) := act (s.barTakes 0xB00040) (fun s => s.mdioGo b.val v false 3) s
def execMdioC45Address (b : BusId) (v : W32) (s : State) := act (s.barTakes 0xB00040) (fun s => s.mdioGo b.val v true 0) s
def execMdioC45Write (b : BusId) (v : W32) (s : State) := act (s.barTakes 0xB00040) (fun s => s.mdioGo b.val v true 1) s
def execMdioC45ReadInc (b : BusId) (v : W32) (s : State) := act (s.barTakes 0xB00040) (fun s => s.mdioGo b.val v true 2) s
def execMdioC45Read (b : BusId) (v : W32) (s : State) := act (s.barTakes 0xB00040) (fun s => s.mdioGo b.val v true 3) s
def execMdioFrameComplete (b : BusId) (response : Option W16) (s : State) := act s.live (fun s => s.mdioDone b.val response) s
def execPpsInEdge (s : State) := act s.live (fun s => s.ppsEdge s.plt.cascId) s

/-! ### Cascade -/

def execCasTrainStepComplete (l : LinkId) (r : TrainResult) (s : State) := act s.live (fun s => s.trainStep l.val r) s
def execCasPeerRetry (l : LinkId) (s : State) := act s.live (fun s => s.peerRetry l.val) s
def execLinkFrameReceived (l : LinkId) (f : LinkFrame) (s : State) := act s.live (fun s => s.linkFrameRx l.val f) s
def execReplayTimeout (l : LinkId) (s : State) := act s.live (fun s => s.replayTimeout l.val) s
def execCasRetrainTimeout (l : LinkId) (s : State) := act s.live (fun s => s.casRetrainTimeout l.val) s
def execCasTimeExchange (offsetNs : Int) (s : State) :=
  act s.live (fun s => s.timeExchange s.timeLink offsetNs) s

end Sys2Proof.Machine
end

