-- ==== Sys2Proof/Machine/Registers.lean ====
section
/-! DEFINITION. Meanings: the register interface (R56 to R72): headers, boundary-applied registers, indirect pairs, snapshots, time,
and a plain write. -/

namespace Sys2Proof.Machine

open Sys2Proof

/-! ### Headers -/

/-- GLB, LAN and PRT have no header of their own (R58). -/
def hasHeader (k : Nat) : Bool := decide (k ≠ bGLB) && decide (k ≠ bPRT) && decide (k ≠ bLAN)

/-- Where a unit's registers lie, for the question whether a write of them is taken. -/
def unitBase (k : Nat) : Nat := blockOf k * 0x100000

/-- A header's register is written: taken, and the unit has one. -/
def State.hdrTakes (s : State) (u : UnitId) : Bool := s.barTakes (unitBase (unitKey u)) && hasHeader (unitKey u)

def execCtlEnWrite (u : UnitId) (v : W32) (s : State) := act (s.hdrTakes u) (fun s => s.headerWrite (unitKey u) 0 v.toNat) s
def execUnitStopComplete (u : UnitId) (s : State) := act s.plt.up (fun s => s.stopComplete (unitKey u)) s
def execIgnwClear (u : UnitId) (v : W32) (s : State) := act (s.hdrTakes u) (fun s => s.headerWrite (unitKey u) 4 v.toNat) s
def execOobClear (u : UnitId) (v : W32) (s : State) := act (s.hdrTakes u) (fun s => s.headerWrite (unitKey u) 8 v.toNat) s

/-! ### Registers -/

/-- RWS_WRITE: a boundary-applied register's shadow (R62). -/
def execRwsWrite (addr v : W32) (s : State) :=
  act (s.barTakes addr.toNat && (pairDesc addr.toNat).isSome) (fun s => s.rwsWrite addr.toNat v.toNat) s
def execBar0BadAccess (s : State) := act s.pcie State.badAccess s
def execBadaccClear (v : W32) (s : State) := act (s.barTakes 0x68) (fun s => s.badClear v.toNat) s
/-- REGISTER_WRITE: a word at an address of BAR0; one that is not aligned is ignored and counted (R56). -/
def execRegisterWrite (addr v : W32) (s : State) :=
  act (s.barTakes addr.toNat) (fun s => if addr.toNat % 4 = 0 then s.writeBar addr.toNat v else s.badAccess) s

/-! ### Indirect pairs -/

def execIndAddrWrite (w : IndId) (v : W32) (s : State) :=
  act (s.barTakes (indBase (indKey w))) (fun s => s.indAccess (indKey w) (.addr v)) s
def execIndDataRead (w : IndId) (s : State) :=
  act (s.barServes (indBase (indKey w))) (fun s => s.indAccess (indKey w) .read) s
def execIndDataWrite (w : IndId) (v : W32) (s : State) :=
  act (s.barTakes (indBase (indKey w))) (fun s => s.indAccess (indKey w) (.write v)) s
def execIndPrefetchDone (w : IndId) (s : State) := act s.plt.up (fun s => s.indDone (indKey w)) s
def execIndErrClear (w : IndId) (v : W32) (s : State) :=
  act (s.barTakes (indBase (indKey w))) (fun s => s.indClear (indKey w) v.toNat) s

/-! ### GLB -/

def execSnapshot (v : W32) (s : State) := act (s.barTakes 0x30) (fun s => s.snap v.toNat) s
def execSnapshotComplete (s : State) := act s.plt.up State.snapDone s
def execTimeRead (s : State) := act (s.barServes 0x40) State.timeLatch s

end Sys2Proof.Machine
end

