-- ==== Sys2Proof/Machine/Service.lean ====
section
/-! DEFINITION. Meanings: event delivery (R396 to R402), the processors (R394), DMA (R405 to R410), debug tokens and recovery (R425,
R427), and the fault collector (R448 to R461). -/

namespace Sys2Proof.Machine

open Sys2Proof

/-! ### Events -/

/-- The number of the name that a source raises (R395), from which its code follows; a source that raises several names, or
none, has a code of its own. -/
def nameOf (n : Nat) : Nat :=
  let at_ := fun (lo hi name : Nat) => if lo ≤ n ∧ n ≤ hi then some (name + (n - lo)) else none
  let rows := [at_ 0x001 0x00B 1, at_ 0x100 0x103 12, at_ 0x120 0x120 16, at_ 0x160 0x160 18, at_ 0x200 0x205 19,
               at_ 0x240 0x247 25, at_ 0x300 0x303 33, at_ 0x320 0x320 37, at_ 0x340 0x345 38, at_ 0x400 0x409 44,
               at_ 0x420 0x421 54, at_ 0x440 0x441 56, at_ 0x460 0x467 58, at_ 0x480 0x481 66]
  match rows.find? Option.isSome with
  | some (some k) => k
  | _ =>
    if 0x140 ≤ n ∧ n ≤ 0x15F then 17
    else if 0x500 ≤ n ∧ n < 0x900 then 70 + n % 16
    else if 0x900 ≤ n ∧ n < 0xD00 ∧ n % 4 ≠ 0 then 91 + n % 4
    else 65536 + n

def execEventAssert (src : SrcId) (context : W32) (detail : W64) (s : State) :=
  act s.live (fun s => s.assertSrc src.val (Config.eventCode (nameOf src.val)).toNat context.toNat detail.toNat) s
def execEventDeassert (src : SrcId) (s : State) := act s.live (fun s => s.deassertSrc src.val) s

/-- Targets 0 to 4 are claimed, completed and thawed by their processors, targets 5 to 31 through BAR0 (R397, R403). -/
def execClaim (t : TgtId) (s : State) :=
  act (if t.val < 5 then s.live else s.barServes 0x501000) (fun s => s.claimOp t.val) s
def execComplete (t : TgtId) (v : W32) (s : State) :=
  act (if t.val < 5 then s.live else s.barTakes 0x501000) (fun s => s.completeOp t.val (fld v.toNat 0 16)) s
def execThaw (t : TgtId) (v : W32) (s : State) :=
  act ((if t.val < 5 then s.live else s.barTakes 0x501000) && tb v.toNat 0) (fun s => s.thawOp t.val) s

/-! ### Processors -/

def execSpReportMissed (sp : SpId) (s : State) := act s.live (fun s => s.spMissed sp.val) s
def execSpRestartComplete (sp : SpId) (s : State) := act s.live (fun s => s.spRestarted sp.val) s
def execSpHoldExpire (sp : SpId) (s : State) := act s.live (fun s => s.spHeld sp.val) s
/-- SVP_WATCHDOG_EXPIRE: the fault source of R394. -/
def execSvpWatchdogExpire (s : State) := act s.live (fun s => s.raise fCpuSvpWdog 0 0) s

/-! ### DMA: channels 0 to 15 are firmware's own (R405) -/

def State.dmaMay (s : State) (c : Nat) : Bool := if c < 16 then s.live else s.barTakes 0x600000

def execDmaGo (c : DmaId) (v : W32) (s : State) :=
  act (s.dmaMay c.val && tb v.toNat 31 && !tb v.toNat 30) (fun s => s.dmaGo c.val v false) s
def execDmaResume (c : DmaId) (v : W32) (s : State) :=
  act (s.dmaMay c.val && tb v.toNat 31 && tb v.toNat 30) (fun s => s.dmaGo c.val v true) s
def execDmaTransferDone (c : DmaId) (hostData : Bytes) (s : State) := act s.live (fun s => s.dmaDone c.val hostData) s
def execDmaBusError (addr : W64) (space : DmaSpace) (write : Bool) (s : State) :=
  act s.live (fun s => s.dmaBusError addr (decide (space = .host)) write) s
def execDmaBuserrClear (v : W32) (s : State) := act (s.barTakes 0x600040) (fun s => s.buserrClear v.toNat) s

/-! ### Security -/

/-- DEBUG_TOKEN_PRESENT through SEC's access port, after the boot has locked JTAG (R425). -/
def execDebugTokenPresent (image : Bytes) (s : State) := act s.live (fun s => (s.presentToken image).1) s
def execRecoveryProgram (v : W32) (s : State) :=
  act (s.barTakes 0x300080 && s.plt.recovery && tb v.toNat 31 && decide (fld v.toNat 29 2 = 0)) (fun s => s.recProgram v) s
def execRecoveryVerify (v : W32) (s : State) :=
  act (s.barTakes 0x300080 && s.plt.recovery && tb v.toNat 31 && decide (fld v.toNat 29 2 = 1)) (fun s => s.recVerify v) s
def execRecoveryProgramDone (flashOk : Bool) (s : State) := act (s.plt.up && s.plt.recovery) (fun s => s.recDone flashOk) s

/-! ### Fault collector -/

def execFaultRaise (src : FltId) (unit particulars : W16) (s : State) :=
  act s.plt.up (fun s => s.raiseWith src.val unit.toNat particulars.toNat false) s
def execFltSrcForce (src : FltId) (v : W32) (s : State) := act (s.barTakes 0x200000) (fun s => s.force src.val v.toNat) s
def execFltStickyClear (src : FltId) (v : W32) (s : State) :=
  act (s.barTakes 0x200000) (fun s => s.stickyClear src.val v.toNat) s
def execSelfchkInject (v : W32) (s : State) := act (s.barTakes 0x200048) (fun s => s.inject v.toNat) s
def execSelfcheckMismatch (s : State) := act (s.plt.up && !s.flt.safe) State.enterSafe s
def execFaultLogFlush (s : State) := act s.live State.flushLog s

end Sys2Proof.Machine
end

