-- ==== Sys2Proof/Machine/Supply.lean ====
section
/-! DEFINITION. Meanings: supply, reset and thermal (R430, R432, R444 to R446, R469, R478), power states and the management bus
(R434 to R443, R475), and the domains that wake and idle (R20, R441). -/

namespace Sys2Proof.Machine

open Sys2Proof

def execVinRise (b : BoardInputs) (s : State) := act (!s.plt.up && !s.plt.thermal) (fun s => s.vinRise b) s
def execResetN (lowUs : Nat) (b : BoardInputs) (s : State) := act s.plt.up (fun s => s.resetPin lowUs b) s
def execVinLockout (s : State) := act (s.plt.up || decide (s.plt.cur = 4)) State.vinLockout s
def execThermalShutdown (s : State) := act s.plt.up State.thermalOff s
def execThermalRestart (b : BoardInputs) (s : State) := act s.plt.thermal (fun s => s.thermalOn b) s

def execVinFall (vin holdup : Nat) (s : State) := act s.plt.up (fun s => s.vinFall vin holdup) s
def execVinReturn (vin : Nat) (s : State) := act s.plt.up (fun s => s.vinReturn vin) s
def execHoldupExhausted (s : State) := act s.plt.up State.holdupOut s
def execHoldupChargeTimeout (s : State) := act s.plt.up State.chargeTimeout s

def execPowerState (h : CmdRef) (s : State) := act s.cmdsRun (fun s => s.powerStateOp h) s
def execStateReq (v : Byte) (s : State) := act s.plt.up (fun s => s.stateReq v.toNat) s
/-- STATE_READ: PLT_PWR_STAT (R442, R447). -/
def execStateRead (s : State) := act s.plt.up (fun s => s.mgmtRead s.pwrStat.toNat) s
/-- HEALTH_READ: GLB_HEALTH (R442, R72). -/
def execHealthRead (s : State) := act s.plt.up (fun s => s.mgmtRead s.glb.health) s
def execMgmtAddressMatch (addr : BitVec 7) (s : State) := act s.plt.up (fun s => s.mgmtMatch addr.toNat) s
def execSmbusTimeout (s : State) := act s.plt.up State.smbusTimeout s
def execBlockStopDone (s : State) := act s.plt.up State.blockStop s
def execDrainTimeout (s : State) := act s.plt.up State.drainTimeout s
def execEntryRetry (s : State) := act s.plt.up State.entryRetry s
def execWakeN (lowUs : Nat) (b : BoardInputs) (s : State) := act (s.plt.up || decide (s.plt.cur = 4)) (fun s => s.wakeN lowUs b) s
def execWakeTimer (s : State) := act s.plt.up State.wakeTimer s

def execDomainReady (d : Domain) (s : State) := act s.live (fun s => s.domainReady d) s
def execLaneIdleTimeout (l : LaneId) (s : State) := act s.live (fun s => s.laneIdle l.val) s
def execPipeIdleTimeout (p : PipeId) (s : State) := act s.live (fun s => s.pipeIdle p.val) s

end Sys2Proof.Machine
end

