-- ==== Sys2Proof/Machine/Dispatch.lean ====
section
/-! DEFINITION. The meaning of every command: one arm per constructor of Instr, in the order of
spec/opcode_table.json. -/

namespace Sys2Proof.Machine

open Sys2Proof

/-- A command's effect on everything but the queue. -/
def exec (i : Instr) (s : State) : Host.Outcome State Fault Refusal :=
  match i with
  | .vinRise b => Sys2Proof.Machine.execVinRise b s
  | .resetN lowUs b => Sys2Proof.Machine.execResetN lowUs b s
  | .vinLockout => Sys2Proof.Machine.execVinLockout s
  | .thermalShutdown => Sys2Proof.Machine.execThermalShutdown s
  | .thermalRestart b => Sys2Proof.Machine.execThermalRestart b s
  | .sourceRowArrival src row => Sys2Proof.Machine.execSourceRowArrival src row s
  | .rowJobCreate sess pic row => Sys2Proof.Machine.execRowJobCreate sess pic row s
  | .jobTableEntryFreed => Sys2Proof.Machine.execJobTableEntryFreed s
  | .jobDispatch t => Sys2Proof.Machine.execJobDispatch t s
  | .sourceRepeat j => Sys2Proof.Machine.execSourceRepeat j s
  | .laneNop l => Sys2Proof.Machine.execLaneNop l s
  | .loadContext l => Sys2Proof.Machine.execLoadContext l s
  | .saveContext l => Sys2Proof.Machine.execSaveContext l s
  | .encodeRow l => Sys2Proof.Machine.execEncodeRow l s
  | .decodeRow l f => Sys2Proof.Machine.execDecodeRow l f s
  | .flushPicture l => Sys2Proof.Machine.execFlushPicture l s
  | .fence l => Sys2Proof.Machine.execFence l s
  | .laneBadJob l => Sys2Proof.Machine.execLaneBadJob l s
  | .rowComplete l f => Sys2Proof.Machine.execRowComplete l f s
  | .issueMw l stagesEmpty => Sys2Proof.Machine.execIssueMw l stagesEmpty s
  | .branchMw l aboveOut => Sys2Proof.Machine.execBranchMw l aboveOut s
  | .callMw l => Sys2Proof.Machine.execCallMw l s
  | .returnMw l => Sys2Proof.Machine.execReturnMw l s
  | .endJob l => Sys2Proof.Machine.execEndJob l s
  | .trapReturn l => Sys2Proof.Machine.execTrapReturn l s
  | .waitMw l aboveOut => Sys2Proof.Machine.execWaitMw l aboveOut s
  | .loopLoad l => Sys2Proof.Machine.execLoopLoad l s
  | .latchLoad l => Sys2Proof.Machine.execLatchLoad l s
  | .postSummary l => Sys2Proof.Machine.execPostSummary l s
  | .nextCtu l => Sys2Proof.Machine.execNextCtu l s
  | .drainMw l stagesEmpty => Sys2Proof.Machine.execDrainMw l stagesEmpty s
  | .microTrap l cause => Sys2Proof.Machine.execMicroTrap l cause s
  | .machineCheck l k => Sys2Proof.Machine.execMachineCheck l k s
  | .mchkService l goldenReadable readbackOk => Sys2Proof.Machine.execMchkService l goldenReadable readbackOk s
  | .goldenRebuildDone l flashOk readbackOk => Sys2Proof.Machine.execGoldenRebuildDone l flashOk readbackOk s
  | .domainReady d => Sys2Proof.Machine.execDomainReady d s
  | .lsfPop l ecc => Sys2Proof.Machine.execLsfPop l ecc s
  | .lsfClr l v => Sys2Proof.Machine.execLsfClr l v s
  | .pmcCfgWrite l n v => Sys2Proof.Machine.execPmcCfgWrite l n v s
  | .pmcWrap l n => Sys2Proof.Machine.execPmcWrap l n s
  | .pmcClr l v => Sys2Proof.Machine.execPmcClr l v s
  | .tagCfgWrite l v => Sys2Proof.Machine.execTagCfgWrite l v s
  | .tagRecPop l => Sys2Proof.Machine.execTagRecPop l s
  | .mcPatch h d loadFail => Sys2Proof.Machine.execMcPatch h d loadFail s
  | .composeRow p poisoned => Sys2Proof.Machine.execComposeRow p poisoned s
  | .composeRowComplete p parityOk => Sys2Proof.Machine.execComposeRowComplete p parityOk s
  | .asmEnqueue enc => Sys2Proof.Machine.execAsmEnqueue enc s
  | .rtpPacketIn flow k => Sys2Proof.Machine.execRtpPacketIn flow k s
  | .dejitterTimeout flow => Sys2Proof.Machine.execDejitterTimeout flow s
  | .holdExpire sess seq => Sys2Proof.Machine.execHoldExpire sess seq s
  | .hello h b => Sys2Proof.Machine.execHello h b s
  | .openAck h result => Sys2Proof.Machine.execOpenAck h result s
  | .marker h frame line steer time => Sys2Proof.Machine.execMarker h frame line steer time s
  | .rowAck h pic row rtpCum late lateTotal => Sys2Proof.Machine.execRowAck h pic row rtpCum late lateTotal s
  | .loss h ranges => Sys2Proof.Machine.execLoss h ranges s
  | .refreshReq h reason => Sys2Proof.Machine.execRefreshReq h reason s
  | .keepalive h request => Sys2Proof.Machine.execKeepalive h request s
  | .status h b => Sys2Proof.Machine.execStatus h b s
  | .close h reason => Sys2Proof.Machine.execClose h reason s
  | .erelmRetransmit sess => Sys2Proof.Machine.execErelmRetransmit sess s
  | .ackDue sess => Sys2Proof.Machine.execAckDue sess s
  | .keepaliveDue sess => Sys2Proof.Machine.execKeepaliveDue sess s
  | .sessionSilence sess => Sys2Proof.Machine.execSessionSilence sess s
  | .markerMissing sess => Sys2Proof.Machine.execMarkerMissing sess s
  | .sessionSuspend sess => Sys2Proof.Machine.execSessionSuspend sess s
  | .steerEvaluate family => Sys2Proof.Machine.execSteerEvaluate family s
  | .steerDisable v => Sys2Proof.Machine.execSteerDisable v s
  | .overloadEvaluate => Sys2Proof.Machine.execOverloadEvaluate s
  | .frameReceived p f => Sys2Proof.Machine.execFrameReceived p f s
  | .pauseFrameReceived p f => Sys2Proof.Machine.execPauseFrameReceived p f s
  | .pauseExpire p c => Sys2Proof.Machine.execPauseExpire p c s
  | .pauseStorm p c => Sys2Proof.Machine.execPauseStorm p c s
  | .pswCfgWrite v => Sys2Proof.Machine.execPswCfgWrite v s
  | .copyArrive copyId => Sys2Proof.Machine.execCopyArrive copyId s
  | .laybyAdmit d c => Sys2Proof.Machine.execLaybyAdmit d c s
  | .laybyPrune d c => Sys2Proof.Machine.execLaybyPrune d c s
  | .reseqCell c => Sys2Proof.Machine.execReseqCell c s
  | .reseqGapTimeout g src => Sys2Proof.Machine.execReseqGapTimeout g src s
  | .gateOpen p => Sys2Proof.Machine.execGateOpen p s
  | .frameTxEnd p => Sys2Proof.Machine.execFrameTxEnd p s
  | .fitMaxExpire q => Sys2Proof.Machine.execFitMaxExpire q s
  | .tokenCredit => Sys2Proof.Machine.execTokenCredit s
  | .queueOpen h => Sys2Proof.Machine.execQueueOpen h s
  | .queueCloseDrain h => Sys2Proof.Machine.execQueueCloseDrain h s
  | .queueCloseFlush h => Sys2Proof.Machine.execQueueCloseFlush h s
  | .signalDetect p => Sys2Proof.Machine.execSignalDetect p s
  | .pcsSync p n => Sys2Proof.Machine.execPcsSync p n s
  | .linkHoldExpire p => Sys2Proof.Machine.execLinkHoldExpire p s
  | .pcsSyncLoss p => Sys2Proof.Machine.execPcsSyncLoss p s
  | .linkLossTimeout p => Sys2Proof.Machine.execLinkLossTimeout p s
  | .eyeMeasurement p margin => Sys2Proof.Machine.execEyeMeasurement p margin s
  | .retrainTimeout p => Sys2Proof.Machine.execRetrainTimeout p s
  | .retrainWindowExpire p => Sys2Proof.Machine.execRetrainWindowExpire p s
  | .pfcRefresh p => Sys2Proof.Machine.execPfcRefresh p s
  | .mdioC22Write b v => Sys2Proof.Machine.execMdioC22Write b v s
  | .mdioC22Read b v => Sys2Proof.Machine.execMdioC22Read b v s
  | .mdioC45Address b v => Sys2Proof.Machine.execMdioC45Address b v s
  | .mdioC45Write b v => Sys2Proof.Machine.execMdioC45Write b v s
  | .mdioC45ReadInc b v => Sys2Proof.Machine.execMdioC45ReadInc b v s
  | .mdioC45Read b v => Sys2Proof.Machine.execMdioC45Read b v s
  | .mdioFrameComplete b response => Sys2Proof.Machine.execMdioFrameComplete b response s
  | .ppsInEdge => Sys2Proof.Machine.execPpsInEdge s
  | .casTrainStepComplete l r => Sys2Proof.Machine.execCasTrainStepComplete l r s
  | .casPeerRetry l => Sys2Proof.Machine.execCasPeerRetry l s
  | .linkFrameReceived l f => Sys2Proof.Machine.execLinkFrameReceived l f s
  | .replayTimeout l => Sys2Proof.Machine.execReplayTimeout l s
  | .casRetrainTimeout l => Sys2Proof.Machine.execCasRetrainTimeout l s
  | .casTimeExchange offsetNs => Sys2Proof.Machine.execCasTimeExchange offsetNs s
  | .alloc agent pool n reserved => Sys2Proof.Machine.execAlloc agent pool n reserved s
  | .inc agent h => Sys2Proof.Machine.execInc agent h s
  | .pin agent h => Sys2Proof.Machine.execPin agent h s
  | .dec agent h => Sys2Proof.Machine.execDec agent h s
  | .free agent h => Sys2Proof.Machine.execFree agent h s
  | .xfer agent h newOwner => Sys2Proof.Machine.execXfer agent h newOwner s
  | .setmark agent h m => Sys2Proof.Machine.execSetmark agent h m s
  | .clrmark agent h m => Sys2Proof.Machine.execClrmark agent h m s
  | .bpmQuery v => Sys2Proof.Machine.execBpmQuery v s
  | .bpmLogPop => Sys2Proof.Machine.execBpmLogPop s
  | .bpmLogClr v => Sys2Proof.Machine.execBpmLogClr v s
  | .memRead agent addr r => Sys2Proof.Machine.execMemRead agent addr r s
  | .memRetryRead c correct => Sys2Proof.Machine.execMemRetryRead c correct s
  | .memWrite agent addr data => Sys2Proof.Machine.execMemWrite agent addr data s
  | .refreshWindow => Sys2Proof.Machine.execRefreshWindow s
  | .rowIdleTimeout c bank => Sys2Proof.Machine.execRowIdleTimeout c bank s
  | .tempReadout dieC deviceFast => Sys2Proof.Machine.execTempReadout dieC deviceFast s
  | .oscReadout drift => Sys2Proof.Machine.execOscReadout drift s
  | .channelRetrain passed => Sys2Proof.Machine.execChannelRetrain passed s
  | .scrubRead r => Sys2Proof.Machine.execScrubRead r s
  | .functionLevelReset => Sys2Proof.Machine.execFunctionLevelReset s
  | .hotReset => Sys2Proof.Machine.execHotReset s
  | .pcieLinkLoss => Sys2Proof.Machine.execPcieLinkLoss s
  | .perstAssert => Sys2Proof.Machine.execPerstAssert s
  | .perstDeassert refclk gen width => Sys2Proof.Machine.execPerstDeassert refclk gen width s
  | .configRequest busMaster => Sys2Proof.Machine.execConfigRequest busMaster s
  | .sqTail ring v entries => Sys2Proof.Machine.execSqTail ring v entries s
  | .cqHead ring v => Sys2Proof.Machine.execCqHead ring v s
  | .eqDb q v => Sys2Proof.Machine.execEqDb q v s
  | .eqCoalTimeout q => Sys2Proof.Machine.execEqCoalTimeout q s
  | .txFrame h d => Sys2Proof.Machine.execTxFrame h d s
  | .rxBuffer h => Sys2Proof.Machine.execRxBuffer h s
  | .excWaitTimeout => Sys2Proof.Machine.execExcWaitTimeout s
  | .nop h => Sys2Proof.Machine.execNop h s
  | .ringCreate h => Sys2Proof.Machine.execRingCreate h s
  | .ringDelete h => Sys2Proof.Machine.execRingDelete h s
  | .ringResync h => Sys2Proof.Machine.execRingResync h s
  | .eqCreate h => Sys2Proof.Machine.execEqCreate h s
  | .eqDelete h => Sys2Proof.Machine.execEqDelete h s
  | .eqResync h => Sys2Proof.Machine.execEqResync h s
  | .attach h => Sys2Proof.Machine.execAttach h s
  | .ctxOpen h d => Sys2Proof.Machine.execCtxOpen h d s
  | .ctxChange h d => Sys2Proof.Machine.execCtxChange h d s
  | .ctxClose h => Sys2Proof.Machine.execCtxClose h s
  | .ctxQuery h => Sys2Proof.Machine.execCtxQuery h s
  | .layoutSet h d => Sys2Proof.Machine.execLayoutSet h d s
  | .sessionNet h d => Sys2Proof.Machine.execSessionNet h d s
  | .sessionQuery h => Sys2Proof.Machine.execSessionQuery h s
  | .surfaceCreate h d => Sys2Proof.Machine.execSurfaceCreate h d s
  | .surfaceUpload h d => Sys2Proof.Machine.execSurfaceUpload h d s
  | .surfaceFlip h d => Sys2Proof.Machine.execSurfaceFlip h d s
  | .surfaceDelete h => Sys2Proof.Machine.execSurfaceDelete h s
  | .layerSet h d => Sys2Proof.Machine.execLayerSet h d s
  | .fbQuery h => Sys2Proof.Machine.execFbQuery h s
  | .fbPin h => Sys2Proof.Machine.execFbPin h s
  | .fbRelease h => Sys2Proof.Machine.execFbRelease h s
  | .laneDrain h => Sys2Proof.Machine.execLaneDrain h s
  | .laneRelease h => Sys2Proof.Machine.execLaneRelease h s
  | .imageInstall h d flashOk => Sys2Proof.Machine.execImageInstall h d flashOk s
  | .imageRatchet h => Sys2Proof.Machine.execImageRatchet h s
  | .waymapInstall h d => Sys2Proof.Machine.execWaymapInstall h d s
  | .detour h d => Sys2Proof.Machine.execDetour h d s
  | .attest h d => Sys2Proof.Machine.execAttest h d s
  | .attestCert h => Sys2Proof.Machine.execAttestCert h s
  | .timeSource h => Sys2Proof.Machine.execTimeSource h s
  | .ptpCtl h => Sys2Proof.Machine.execPtpCtl h s
  | .powerState h => Sys2Proof.Machine.execPowerState h s
  | .faultLogRead h => Sys2Proof.Machine.execFaultLogRead h s
  | .heartbeat v => Sys2Proof.Machine.execHeartbeat v s
  | .heartbeatTimeout => Sys2Proof.Machine.execHeartbeatTimeout s
  | .eventAssert src context detail => Sys2Proof.Machine.execEventAssert src context detail s
  | .eventDeassert src => Sys2Proof.Machine.execEventDeassert src s
  | .claim t => Sys2Proof.Machine.execClaim t s
  | .complete t v => Sys2Proof.Machine.execComplete t v s
  | .thaw t v => Sys2Proof.Machine.execThaw t v s
  | .spReportMissed sp => Sys2Proof.Machine.execSpReportMissed sp s
  | .spRestartComplete sp => Sys2Proof.Machine.execSpRestartComplete sp s
  | .spHoldExpire sp => Sys2Proof.Machine.execSpHoldExpire sp s
  | .svpWatchdogExpire => Sys2Proof.Machine.execSvpWatchdogExpire s
  | .dmaGo c v => Sys2Proof.Machine.execDmaGo c v s
  | .dmaResume c v => Sys2Proof.Machine.execDmaResume c v s
  | .dmaTransferDone c hostData => Sys2Proof.Machine.execDmaTransferDone c hostData s
  | .dmaBusError addr space write => Sys2Proof.Machine.execDmaBusError addr space write s
  | .dmaBuserrClear v => Sys2Proof.Machine.execDmaBuserrClear v s
  | .debugTokenPresent image => Sys2Proof.Machine.execDebugTokenPresent image s
  | .recoveryProgram v => Sys2Proof.Machine.execRecoveryProgram v s
  | .recoveryVerify v => Sys2Proof.Machine.execRecoveryVerify v s
  | .recoveryProgramDone flashOk => Sys2Proof.Machine.execRecoveryProgramDone flashOk s
  | .stateReq v => Sys2Proof.Machine.execStateReq v s
  | .stateRead => Sys2Proof.Machine.execStateRead s
  | .healthRead => Sys2Proof.Machine.execHealthRead s
  | .mgmtAddressMatch addr => Sys2Proof.Machine.execMgmtAddressMatch addr s
  | .smbusTimeout => Sys2Proof.Machine.execSmbusTimeout s
  | .blockStopDone => Sys2Proof.Machine.execBlockStopDone s
  | .drainTimeout => Sys2Proof.Machine.execDrainTimeout s
  | .entryRetry => Sys2Proof.Machine.execEntryRetry s
  | .wakeN lowUs b => Sys2Proof.Machine.execWakeN lowUs b s
  | .wakeTimer => Sys2Proof.Machine.execWakeTimer s
  | .laneIdleTimeout l => Sys2Proof.Machine.execLaneIdleTimeout l s
  | .pipeIdleTimeout p => Sys2Proof.Machine.execPipeIdleTimeout p s
  | .vinFall vin holdup => Sys2Proof.Machine.execVinFall vin holdup s
  | .vinReturn vin => Sys2Proof.Machine.execVinReturn vin s
  | .holdupExhausted => Sys2Proof.Machine.execHoldupExhausted s
  | .holdupChargeTimeout => Sys2Proof.Machine.execHoldupChargeTimeout s
  | .faultRaise src unit particulars => Sys2Proof.Machine.execFaultRaise src unit particulars s
  | .fltSrcForce src v => Sys2Proof.Machine.execFltSrcForce src v s
  | .fltStickyClear src v => Sys2Proof.Machine.execFltStickyClear src v s
  | .selfchkInject v => Sys2Proof.Machine.execSelfchkInject v s
  | .selfcheckMismatch => Sys2Proof.Machine.execSelfcheckMismatch s
  | .sliceStallTimeout l => Sys2Proof.Machine.execSliceStallTimeout l s
  | .faultLogFlush => Sys2Proof.Machine.execFaultLogFlush s
  | .ctlEnWrite u v => Sys2Proof.Machine.execCtlEnWrite u v s
  | .unitStopComplete u => Sys2Proof.Machine.execUnitStopComplete u s
  | .ignwClear u v => Sys2Proof.Machine.execIgnwClear u v s
  | .oobClear u v => Sys2Proof.Machine.execOobClear u v s
  | .rwsWrite addr v => Sys2Proof.Machine.execRwsWrite addr v s
  | .bar0BadAccess => Sys2Proof.Machine.execBar0BadAccess s
  | .badaccClear v => Sys2Proof.Machine.execBadaccClear v s
  | .indAddrWrite w v => Sys2Proof.Machine.execIndAddrWrite w v s
  | .indDataRead w => Sys2Proof.Machine.execIndDataRead w s
  | .indDataWrite w v => Sys2Proof.Machine.execIndDataWrite w v s
  | .indPrefetchDone w => Sys2Proof.Machine.execIndPrefetchDone w s
  | .indErrClear w v => Sys2Proof.Machine.execIndErrClear w v s
  | .snapshot v => Sys2Proof.Machine.execSnapshot v s
  | .snapshotComplete => Sys2Proof.Machine.execSnapshotComplete s
  | .timeRead => Sys2Proof.Machine.execTimeRead s
  | .registerWrite addr v => Sys2Proof.Machine.execRegisterWrite addr v s
  | .sgmiiControlWordChange p linkUp speed fullDuplex => Sys2Proof.Machine.execSgmiiControlWordChange p linkUp speed fullDuplex s

end Sys2Proof.Machine
end

