-- ==== Sys2Proof/Machine/Tick.lean ====
section
/-! DEFINITION. What happens at a tick whatever is commanded: module time (R5), the end of a detour's APPLY (R52), lane cycles (R95), command slots of
the memory (R356), and one cell time of the switch every 8 ns (R269 to R272). -/

namespace Sys2Proof.Machine

open Sys2Proof

/-! ### One cell time (R271, R272) -/

/-- SWC_CFG.ITER (R287). -/
def State.iter (s : State) : Nat := fld (Tbl.get 3 s.regs 0x900040).toNat 0 3

def cellBank (h : W32) : Nat := hIdx h % 32

/-- Bytes of the frame in transmission that have left the port. -/
def State.sentBytes (s : State) (p : Nat) (t : TxSt) : Nat := (s.ns - t.start) * s.rate p / 8000

/-- The next cells of the frames that ports send, of each port below its read-ahead mark of 4 cells. -/
def State.portCands (s : State) : List Cand :=
  s.prt.ports.filterMap (fun e =>
    match e.2.tx with
    | none => none
    | some t =>
      match t.cells with
      | [] => none
      | h :: _ =>
        let fifo := t.readBytes - s.sentBytes e.1 t
        if fifo < 512 then some { group := s.groupOf e.1, bank := cellBank h, urgency := fifo, owner := e.1 } else none)

/-- The next cells of the copies at the head of the queues of the other groups: the oldest to the assemblers and
depacketisers, the highest class to the host, and media cells to the links. -/
def State.groupCands (s : State) : List Cand :=
  s.tmg.queues.filterMap (fun e =>
    match e.2.copies with
    | [] => none
    | i :: _ =>
      let c := s.copy i
      match (c.head ++ c.body).drop c.read with
      | [] => none
      | h :: _ =>
        let g := s.groupOf c.dest
        let u := if g < 36 then c.joined else if g = 36 then 7 - c.cls else 3
        if c.dest < 256 then none else some { group := g, bank := cellBank h, urgency := u, owner := e.1 })

/-- A port's cell read into its transmit FIFO. -/
def State.readPort (s : State) (p : Nat) : State :=
  match (s.port p).tx with
  | none => s
  | some t =>
    match t.cells with
    | [] => s
    | h :: r =>
      let n := (Tbl.get {} s.swc.cells (hIdx h)).bytes
      (s.setPort p { s.port p with tx := some { t with cells := r, readBytes := t.readBytes + n } }).bump bSWC 1

/-- The source ID of a copy's cells (R283): this module, and the port block, ASM unit, HQE or firmware that it comes from. -/
def State.sourceId (s : State) (c : Copy) : Nat :=
  s.plt.cascId * 64 + (match c.kind with
    | .rtp => 32 + c.unit.getD 0 % 4
    | .host => 36
    | .erelm => 37
    | _ => (c.port.getD 0) / 8 % 32)

/-- The next cell of a copy that crosses a link, which leaves the other module by the port that its session names; its number is the next one of
its source and destination group. -/
def State.mediaOf (s : State) (i : Nat) (c : Copy) : MediaCell :=
  { dest := match c.sess with
      | some d => s.cf d 0x04 2 % 256
      | none => c.dest,
    cls := c.cls, len := c.len, src := s.sourceId c, seq := Tbl.get 0 s.swc.outSeq (s.sourceId c * 40 + s.groupOf c.dest), frame := i,
    last := decide (c.n ≤ c.read + 1), bytes := ((c.wire).drop (128 * c.read)).take 128 }

/-- A cell sent over a link, and numbered: class 7 on CTRL, the others on MEDIA (R283, R330, R334). -/
def State.sendCell (s : State) (i : Nat) (c : Copy) : State :=
  let k := s.sourceId c * 40 + s.groupOf c.dest
  let m := s.mediaOf i c
  let t := if c.cls = 7 then s.linkSend (c.dest - 261) 0 (Config.meshOut (.cell m)) else s.linkSend (c.dest - 261) 3 (Config.mediaOut m)
  { t with swc := { t.swc with outSeq := Tbl.put t.swc.outSeq k (wrapAdd (Tbl.get 0 t.swc.outSeq k) 1 16) } }

/-- A cell of the copy at the head of queue `q` read to its group; over a link it goes as a media cell. With the last one the
copy leaves, and its references are released. (DEDUCED, log 45.) -/
def State.readGroup (s : State) (q : Nat) : State :=
  match (s.queue q).copies with
  | [] => s
  | i :: rest =>
    let c := s.copy i
    let s := s.bump bSWC 1
    let s := s.setCopy i { c with read := c.read + 1 }
    let s := if 261 ≤ c.dest then s.sendCell i c else s
    if c.read + 1 < c.n then s
    else
      let x := s.queue q
      let s := s.setQueue q { x with copies := rest, cells := x.cells - c.n, fitAt := none }
      let s := ((s.holdTx c.dest c).dropCopy i).emit (.group c.dest i)
      s.closeIfEmpty q

/-- One cell time: the matching, and each matched pair reads one cell. -/
def State.cellTime (s : State) : State :=
  if s.running bSWC && !s.flt.safe then
    let m := matchRounds (s.portCands ++ s.groupCands) { gptr := s.swc.gptr, aptr := s.swc.aptr, pairs := [] } s.iter
    let s := { s with swc := { s.swc with gptr := m.gptr, aptr := m.aptr } }
    m.pairs.foldl (fun s c => if c.group < 32 then s.readPort c.owner else s.readGroup c.owner) s
  else s

/-! ### Lane cycles (R95 to R97) -/

/-- A level signal held for `k` cycles, and whether it was asserted before: bit `b` of the signals of the last cycle. -/
def State.level (s : State) (l code k b old : Nat) : State := s.pmcSpan l code k (b2n (!tb old b))

/-- The lane's job codes a row: its slots are counted as the row completes (R97). -/
def Lane.codesRow (x : Lane) : Bool :=
  match x.run with
  | some r => decide (r.job.op = .encode)
  | none => false

/-- `k` cycles of a powered lane: CYCLES; REFRESH_STALL; IDLE with no job and no stall; SLOT_FRONT in either of the two, and while a job
runs that does not use stage 3. A stall during a coded row is set apart from the slots that the row counts. -/
def State.laneCycles (s : State) (l k : Nat) : State :=
  let x := s.lane l
  if k = 0 then s
  else if x.power ≠ 2 then (if x.sig = 0 then s else s.setLane l { x with sig := 0 })
  else
    let stall := s.memStalls
    let idle := x.run.isNone && !stall
    let front := stall || !x.codesRow
    let s := s.setLane l { x with sig := 1 + 2 * b2n stall + 4 * b2n idle + 8 * b2n front,
                                  run := if stall then x.run.map (fun r => { r with stalled := r.stalled + k }) else x.run }
    let s := s.level l 0x001 k 0 x.sig
    let s := if stall then s.level l 0x007 k 1 x.sig else s
    let s := if idle then s.level l 0x008 k 2 x.sig else s
    if front then s.level l 0x012 k 3 x.sig else s

/-- The lane clock runs at 800 MHz: four cycles in 5 ns (R19). -/
def State.laneClocks (s : State) (before after : Nat) : State :=
  s.lanes.foldl (fun s e => s.laneCycles e.1 (after * 4 / 5 - before * 4 / 5)) s

/-! ### Command slots of the memory (R356) -/

/-- Every channel with a request that waits has its command slots. -/
def State.memTick (s : State) : State :=
  (s.mem.chans.filter (fun e => e.2.wanted || decide (16 < e.2.writes.length))).foldl (fun s e => s.memStep e.1) s

/-! ### A tick -/

/-- Module time advances by 1 ns and the servo's slew (R322). -/
def State.tickTime (s : State) : State :=
  { s with time := s.time + (65536 + s.clk.slew * 65536 / 1000000000).toNat }

/-- What is due at this time: the end of a detour's APPLY (R52) and of a lane's load (R119). -/
def State.dueNow (s : State) : State :=
  let s := if s.sec.detour.isSome && decide (s.sec.detDue ≤ s.ns) then s.detourDone.detourApplied.ended else s
  if s.golden.patching && decide (s.golden.due ≤ s.ns) then s.patchLoad.ended else s

/-- At each millisecond, suspended_ms of the displays that are suspended (R167, R181). -/
def State.msTick (s : State) : State :=
  (s.opens.filter (fun e => decide (e.2 = 1))).foldl (fun s e => s.showSusp e.1) s

/-- An idle step: module time, the end of a detour, lane cycles, and a cell time when an 8 ns boundary passes. Without supply nothing
runs.
(DESIGN CHOICE, log 2.) -/
def State.tick (s : State) : State :=
  if !s.plt.up then s
  else
    let t := (s.tickTime.dueNow).laneClocks s.ns s.tickTime.ns
    let t := t.memTick
    let t := if s.ns / ms < t.ns / ms then t.msTick else t
    if s.ns / 8 < t.ns / 8 then t.cellTime else t

end Sys2Proof.Machine
end

