-- ==== Sys2Proof/Machine/ReadReg.lean ====
section
/-! DEFINITION. What the host reads (R6, R57, R62, R67, R69 to R73): the word of each BAR0 register composed of the state, the counter
window of BAR2 (R390), and the words of the snapshot's holding registers. A read changes nothing; the reads that do have an
effect are commands of the table, and send their word out themselves. -/

namespace Sys2Proof.Machine

open Sys2Proof

/-- A word of fields: each value at its place, cut to its width. -/
def pack (fs : List (Nat × Nat × Nat)) : Nat := fs.foldl (fun a f => a + fld f.2.2 0 f.2.1 * 2 ^ f.1) 0

/-- The word of a truth value at bit `i`. -/
def bitAt (i : Nat) (b : Bool) : Nat × Nat × Nat := (i, 1, b2n b)

/-! ### Headers, indirect pairs, holding registers -/

/-- _CTL, _IGNW and _OOB of a header (R58). -/
def UnitHdr.read (h : UnitHdr) (x : Nat) : Nat :=
  if x = 0 then pack [bitAt 2 h.running, bitAt 1 h.enPending, bitAt 0 h.en]
  else if x = 4 then pack [bitAt 31 h.ignwFlag, (0, 16, h.ignw)]
  else pack [bitAt 31 h.oobFlag, (0, 16, h.oob)]

/-- _IND_ADDR and _IND_STAT of a pair (R67). -/
def IndSt.read (x : IndSt) (o : Nat) : Nat :=
  if o = 0 then pack [bitAt 31 x.ainc, (28, 3, x.space), (0, 28, x.waddr)]
  else pack [bitAt 31 x.busy, bitAt 30 x.errf, (28, 2, x.err), (0, 28, x.errAddr)]

/-- A word of the holding registers of `n` counters that begin at offset `base` (R69): the low half at H, the high at H + 4. -/
def State.holdWord (s : State) (b u base n o : Nat) : Option Nat :=
  if base ≤ o ∧ o < base + 8 * n ∧ o % 4 = 0 then
    let h := Tbl.get 0 s.held (cntKey b u ((o - base) / 8))
    some (if o % 8 = 0 then fld h 0 32 else fld h 32 16)
  else none

/-- The holding registers of the blocks that keep them at offset 0x100: how many counters each has. -/
def holdCount (b : Nat) : Nat :=
  match b with
  | 1 => 6
  | 3 => 4
  | 4 => 8
  | 5 => 8
  | 6 => 5
  | 7 => 9
  | 8 => 8
  | 9 => 16
  | 10 => 13
  | 13 => 8
  | 14 => 5
  | 15 => 10
  | _ => 0

/-! ### The blocks -/

/-- Some unit of block `b` has the flag (R72). -/
def State.flagSum (s : State) (f : UnitHdr → Bool) : Nat :=
  maskOf ((List.range 17).filter (fun b => s.units.any (fun e => decide (blockOf e.1 = b) && f e.2)))

/-- GLB (R72). -/
def State.readGlb (s : State) (o : Nat) : Nat :=
  let g := s.glb
  match o with
  | 0x00 => 0x9256B100 + s.plt.cascId % 4
  | 0x04 => g.fwver.toNat
  | 0x08 => g.fwdig.toNat
  | 0x0C => g.mcver.toNat
  | 0x10 => g.mcdig.toNat
  | 0x14 => s.sec.wm.ver.toNat
  | 0x20 => fld g.health 0 11
  | 0x24 => pack [(21, 10, g.cntPages), (17, 4, g.cntCasLanes), (8, 9, g.cntPorts), (0, 8, g.cntLanes)]
  | 0x30 => pack [bitAt 30 g.snapBusy, (8, 16, g.snapLost), (0, 8, g.snapScope)]
  | 0x34 => g.snapSeq.toNat
  | 0x38 => fld g.snapTime 0 32
  | 0x3C => fld g.snapTime 32 32
  | 0x44 => g.timeHi.toNat
  | 0x48 => fld g.timeFrac 0 16
  | 0x60 => s.flagSum (·.ignwFlag)
  | 0x64 => s.flagSum (·.oobFlag)
  | 0x68 => pack [bitAt 31 g.badFlag, (0, 16, g.badCount)]
  | _ => 0

/-- VIN and HOLDUP in 0.1 V: as told at this time, else free (log 126). -/
def State.vinNow (s : State) : Nat :=
  match s.plt.vin with
  | some (t, v) => if t = s.ns then v else Config.vinAt s.ns
  | none => Config.vinAt s.ns

def State.holdupNow (s : State) : Nat :=
  match s.plt.holdup with
  | some (t, v) => if t = s.ns then v else Config.holdupAt s.ns
  | none => Config.holdupAt s.ns

/-- PLT (R447); HOLDUP_OK reads 1 at 40 V and above (R444). -/
def State.readPlt (s : State) (o : Nat) : Nat :=
  let p := s.plt
  match o with
  | 0x40 => s.pwrStat.toNat
  | 0x48 => pack [(8, 3, p.wakeFrom), (0, 4, p.wakeFlags)]
  | 0x64 => pack [bitAt 31 p.onHoldup, bitAt 30 (decide (400 ≤ s.holdupNow)), (16, 10, s.vinNow), (0, 10, s.holdupNow)]
  | _ => 0

/-- The code of an outcome (R122, R461). -/
def FltOut.code : FltOut → Nat
  | .none => 0
  | .pending => 1
  | .transient => 2
  | .lasting => 3

/-- FLT (R461). -/
def State.readFlt (s : State) (o : Nat) : Nat :=
  let sticky := (s.flt.srcs.filter (fun e => e.2.sticky)).map Prod.fst
  if o = 0x40 then
    pack [bitAt 31 s.flt.safe, bitAt 30 s.faultN, bitAt 29 s.flt.replaceN, (0, 9, sticky.length)]
  else if 0x80 ≤ o ∧ o < 0xC0 ∧ o % 4 = 0 then
    maskOf ((sticky.filter (fun n => decide (n / 32 = (o - 0x80) / 4))).map (· % 32))
  else if 0x1000 ≤ o ∧ o < 0x3000 then
    let x := s.fltSrc ((o - 0x1000) / 16)
    match o % 16 with
    | 4 => pack [bitAt 31 x.sticky, bitAt 30 x.pinLatch, bitAt 29 x.forced, (27, 2, x.outcome.code), (0, 16, x.count)]
    | 8 => x.detail.toNat
    | _ => 0
  else 0

/-- SEC (R48, R428). -/
def State.readSec (s : State) (o : Nat) : Nat :=
  let c := s.sec
  let w := c.wm
  match o with
  | 0x40 => pack [(30, 2, w.state), (29, 1, w.slot), bitAt 28 w.mismatch, (24, 4, w.degChan), (16, 8, w.reason), (14, 2, w.skind),
      (0, 10, w.section_)]
  | 0x44 => w.ver.toNat
  | 0x48 => w.dig.toNat
  | 0x4C => w.id.toNat
  | 0x50 => pack [(29, 3, w.phase), (16, 8, w.detReason), (0, 16, w.detCount)]
  | 0x60 => pack [(30, 2, c.bank), bitAt 29 c.altValid, bitAt 28 c.fallback, (26, 2, s.plt.bootSel), (16, 8, c.reasonA),
      (8, 8, c.reasonB), (0, 8, c.svn)]
  | 0x64 => pack [(28, 4, vkeyValid), (24, 4, s.flash.revoked), bitAt 23 s.enrolled, (16, 7, s.flash.fwCtr), (8, 7, s.flash.mcCtr)]
  | 0x70 => pack [(30, 2, c.dbgLevel), (28, 2, c.dbgFails)]
  | 0x74 => fld c.chal.toNat 0 32
  | 0x78 => fld c.chal.toNat 32 32
  | 0x80 =>
    if s.plt.recovery then
      pack [(29, 2, fld c.recWord.toNat 29 2), bitAt 28 c.recBusy, (27, 1, fld c.recWord.toNat 27 1), (16, 8, c.recResult),
        (0, 10, fld c.recWord.toNat 0 10)]
    else 0
  | 0x84 => fld c.keys.length 0 9
  | 0x90 => rd deviceId 0 4
  | 0x94 => rd deviceId 4 4
  | 0x98 => rd deviceId 8 4
  | 0x9C => rd deviceId 12 4
  | _ => 0

/-- HQE (R391). -/
def State.readHqe (s : State) (o : Nat) : Nat :=
  let h := s.hqe
  if o = 0x40 then
    pack [bitAt 31 h.attached, bitAt 30 h.bme, (27, 3, h.gen), (23, 4, h.width),
      (0, 15, (h.rings.filter (fun e => decide (e.2.ph = .held))).length)]
  else 0

/-- The code of a processor's state (R403). -/
def SpPhase.code : SpPhase → Nat
  | .off => 0
  | .run => 1
  | .restarting => 2
  | .mappedOut => 3

/-- EVC (R403). CLAIM of a processor's target reads 0. -/
def State.readEvc (s : State) (o : Nat) : Nat :=
  if o = 0x40 then pack [bitAt 31 s.evc.banked, (0, 6, ((List.range 32).filter (fun t => s.tgtEn t)).length)]
  else if 0x80 ≤ o ∧ o < 0x94 ∧ o % 4 = 0 then
    let c := s.cpu ((o - 0x80) / 4)
    pack [(30, 2, c.ph.code), (16, 8, c.restarts), (0, 6, c.services)]
  else if 0x1000 ≤ o ∧ o < 0x1400 then
    let t := (o - 0x1000) / 32
    let x := s.tgt t
    match o % 32 with
    | 0 => s.tgtCfg t
    | 4 => pack [bitAt 31 x.frozen, bitAt 30 x.stackFull, (26, 4, s.tgtThr t), (22, 4, x.stack.length),
        (0, 16, (x.stack.headD (0, 0)).1)]
    | _ => 0
  else 0

/-- DMA (R410). -/
def State.readDma (s : State) (o : Nat) : Nat :=
  let d := s.dma
  if o = 0x40 then pack [bitAt 31 d.buserr, bitAt 30 d.errWrite, bitAt 29 d.errHost]
  else if o = 0x44 then fld d.errAddr.toNat 0 32
  else if o = 0x48 then fld d.errAddr.toNat 32 32
  else if 0x1000 ≤ o ∧ o < 0x1800 then
    let c := (o - 0x1000) / 0x40
    let x := s.dmaCh c
    match o % 0x40 with
    | 0x24 => pack [bitAt 29 x.busy, bitAt 28 x.done, (25, 3, x.err), bitAt 19 x.wait, (20, 5, fld (s.dmaReg c 0x24) 20 5)]
    | 0x28 => fld x.remain 0 32
    | r => if r = 0x10 ∨ r = 0x14 ∨ r = 0x18 ∨ r = 0x1C ∨ r = 0x20 ∨ r = 0x2C ∨ r = 0x30 then s.dmaReg c r else 0
  else 0

/-- The code of a channel's state (R370). -/
def ChanPh.code : ChanPh → Nat
  | .training => 0
  | .run => 1
  | .selfRefresh => 2
  | .excluded => 3

/-- MEM (R370). The die temperature is signed, in 0.1 degree C. -/
def State.readMem (s : State) (o : Nat) : Nat :=
  let m := s.mem
  if o = 0x48 then
    pack [bitAt 31 m.hot, bitAt 30 (!m.retrainQ.isEmpty), (12, 12, m.trefi), (0, 12, unsgn m.dieC 12)]
  else if o = 0x4C then fld m.nextWindow 0 32
  else if o = 0x50 then fld m.nextWindow 32 32
  else if o = 0x54 then pack [bitAt 31 m.degraded.isSome, (24, 4, m.degraded.getD 0), (0, 16, m.retire.length)]
  else if 0x1000 ≤ o ∧ o < 0x2000 then
    let c := (o - 0x1000) / 0x100
    let x := s.chan c
    let f := o % 0x100
    if f = 0x20 then pack [(30, 2, x.ph.code), bitAt 29 x.failed, (16, 6, x.drift), (0, 9, x.inflight)]
    else (s.holdWord bMEM (c + 1) 0x40 5 f).getD 0
  else 0

/-- BPM (R350, R351). A pool that the waymap does not define reads zero. -/
def State.readBpm (s : State) (o : Nat) : Nat :=
  let b := s.bpm
  if o = 0x40 then (Tbl.get 0xFFFFFFFF s.regs 0x800040).toNat
  else if o = 0x44 then b.queryRes.toNat
  else if o = 0x50 then pack [(16, 16, b.logLost), (0, 7, b.log.length)]
  else if o = 0x58 ∨ o = 0x5C ∨ o = 0x60 then (getAt 0 b.latch ((o - 0x58) / 4)).toNat
  else if 0x1000 ≤ o ∧ o < 0x1800 then
    let n := (o - 0x1000) / 32
    let p := s.pool n
    let c := p.cfg
    if !s.poolDefined n then 0
    else match o % 32 with
    | 0 => pack [(30, 2, c.type), (27, 3, c.resClass), (16, 8, c.carve)]
    | 4 => fld c.count 0 19
    | 8 => fld p.free 0 19
    | 12 => fld p.low 0 19
    | 16 => fld c.warn 0 19
    | 20 => fld c.bp 0 19
    | 24 => fld c.reserve 0 19
    | 28 => pack [bitAt 3 (decide (p.free = 0)), bitAt 2 (decide (p.free ≤ c.reserve)), bitAt 1 p.bpOn,
        bitAt 0 (decide (p.free ≤ c.warn))]
    | _ => 0
  else 0

/-- SWC (R273 to R281, R287). -/
def State.readSwc (s : State) (o : Nat) : Nat :=
  let w := s.swc
  let key := fun base : Nat => (o - base) / 4
  if o = 0x40 then pack [bitAt 31 w.gmin, (0, 3, fld (s.word 0x900040 3) 0 3)]
  else if o = 0x44 then fld w.sharedSize 0 19
  else if o = 0x48 then fld w.sharedUsed 0 19
  else if o = 0x4C then pack [(16, 16, w.xoffAt), (0, 16, w.xonAt)]
  else if o = 0x54 then pack [(16, 16, w.laybyHigh), (0, 16, w.laybyUse)]
  else if o = 0x60 then fld w.evstat 0 6
  else if 0x10000 ≤ o ∧ o < 0x20000 ∧ o % 4 = 0 then fld (Tbl.get 0 w.lim (key 0x10000)) 0 19
  else if 0x20000 ≤ o ∧ o < 0x30000 ∧ o % 4 = 0 then
    pack [(20, 9, (Tbl.get [] w.laybys (key 0x20000)).length), (0, 19, Tbl.get 0 w.used (key 0x20000))]
  else if 0x30000 ≤ o ∧ o < 0x40000 ∧ o % 4 = 0 then
    let d := (o - 0x30000) / 8
    fld (if o % 8 = 0 then (if w.gmin then Tbl.get 0 w.cap d else 0) else Tbl.get 0 w.sused d) 0 19
  else if 0x40000 ≤ o ∧ o < 0x42000 ∧ o % 4 = 0 then
    let k := key 0x40000
    pack [bitAt 31 (Tbl.get false w.xoffSent k), (19, 12, Tbl.get 0 w.headroom k), (0, 19, Tbl.get 0 w.ingUse k)]
  else 0

/-- The tokens of an enabled bucket in whole bytes, signed, saturating (R307). -/
def State.tokenWord (s : State) (a : Nat) (b : Bucket) : Nat :=
  if s.bkEn a then unsgn (clampI (-2147483648) 2147483647 (b.tokens / 65536)) 32 else 0

/-- The fourth word of the bucket whose group is at `a`. -/
def State.bucketWord (s : State) (a : Nat) : Nat :=
  if a < 0xA20000 then s.tokenWord a (s.psh ((a - 0xA02000) / 16))
  else if a < 0xA60000 then s.tokenWord a (s.qsh ((a - 0xA20000) / 16))
  else fld (s.pol ((a - 0xA60000) / 16)).exceed 0 32

/-- TMG (R307). -/
def State.readTmg (s : State) (o : Nat) : Nat :=
  if 0x1000 ≤ o ∧ o < 0x2000 ∧ o % 16 = 4 then
    let p := (o - 0x1000) / 16
    let some_ := fun f : Nat → Bool => maskOf ((List.range 8).filter f)
    pack [(24, 8, some_ (fun c => s.paused p c)), (16, 8, some_ (fun c => !(s.portQueues p (fun k => decide (k = c))).isEmpty)),
      bitAt 15 (!s.pshOk p), bitAt 14 (s.tmg.queues.any (fun e => decide (e.2.dest = p) && e.2.fitAt.isSome))]
  else if (0x2000 ≤ o ∧ o < 0x3000 ∨ 0x20000 ≤ o ∧ o < 0x80000) ∧ o % 16 = 12 then s.bucketWord (0xA00000 + o - 12)
  else 0

/-- The code of a link state (R336). -/
def LinkPh.code : LinkPh → Nat
  | .down => 0
  | .training => 1
  | .hold => 2
  | .up => 3
  | .retrain => 4
  | .degraded => 5

/-- A port's window (R319, R336). PRT_MDIO_CMD stands in the windows of ports 0, 32, 64, … alone. -/
def State.readPrt (s : State) (p o : Nat) : Nat :=
  let x := s.port p
  if o = 0x24 then
    pack [(29, 3, x.ph.code), (27, 2, x.speed), bitAt 26 x.negFail, bitAt 25 x.pauseOk, (0, 6, x.margin)]
  else if o = 0x40 ∧ p % 32 = 0 then
    let m := s.mdio (p / 32)
    pack [bitAt 30 m.busy, bitAt 29 m.err, (0, 29, m.word.toNat)]
  else (s.holdWord bPRT (p + 1) 0x100 12 o).getD 0

/-- The code of an Imnunis link's state (R337). -/
def CasPh.code : CasPh → Nat
  | .down => 0
  | .training => 1
  | .up => 2
  | .retrain => 3
  | .failed => 4

/-- CAS (R337). -/
def State.readCas (s : State) (o : Nat) : Nat :=
  if o = 0x40 then
    pack [bitAt 31 s.cas.locked, bitAt 30 s.cas.holdover, (28, 2, s.cas.path), (0, 16, unsgn s.cas.offset 16)]
  else if 0x100 ≤ o ∧ o < 0x400 then
    let l := (o - 0x100) / 0x100
    let x := s.link l
    let f := o % 0x100
    if f = 0x20 then
      pack [(29, 3, x.ph.code), (27, 2, x.peer), bitAt 26 x.miswire, (23, 3, (bitsOf x.inUse 4).length), (19, 4, x.inUse), (15, 4, x.out)]
    else (s.holdWord bCAS (l + 1) 0x40 8 f).getD 0
  else 0

/-- The largest LIVE bias in force (R132, R145). -/
def State.liveBias (s : State) : Nat := s.msc.ovl.foldl (fun a e => max a e.2.bias) 0

/-- The highest level of overload in force (R180, R182). -/
def State.ovlLevel (s : State) : Nat :=
  s.msc.ovl.foldl (fun a e =>
    max a (if e.2.bias ≠ 0 then 3 else if e.2.skip8 ≠ 0 then 2 else if e.2.suspended.isEmpty then 0 else 1)) 0

/-- MSC (R145, R177, R182). Capacities read while MSC runs; memory is counted with the host's 10 GB/s, as check 8 sums it.
(DEDUCED, log 91.) -/
def State.readMsc (s : State) (o : Nat) : Nat :=
  let cap := fun a l : Nat => if s.running bMSC then pack [(16, 16, min a 0xFFFF), (0, 16, min l 0xFFFF)] else 0
  match o with
  | 0x60 =>
    pack [(30, 2, s.ovlLevel), bitAt 29 s.mem.hot, (16, 3, s.msc.ovl.foldl (fun a e => max a e.2.skip8) 0),
      (0, 16, (s.opens.filter (fun e => s.ctxSuspended e.1)).length)]
  | 0x64 => pack [(16, 14, s.msc.high), (0, 14, s.msc.jobs.length)]
  | 0x68 => cap (s.opens.foldl (fun a e => if e.2 = 3 ∨ e.2 = 4 then a + s.ctxLoad e.1 else a) 0 / 2000000) s.encLimit
  | 0x6C => cap (s.cmpDemand / 1000000) (s.pipeRate * s.pipesUp * 92 / 100 / 1000000)
  | 0x70 => cap (s.memDemand / 100000000) (s.memRate / 100000000)
  | 0x408 => fld s.liveBias 0 4
  | _ => 0

/-- CMP (R200). -/
def State.readCmp (s : State) (o : Nat) : Nat :=
  let some_ := fun f : Pipe → Bool => maskOf ((List.range 8).filter (fun p => f (s.pipe p)))
  if o = 0x44 then
    pack [(16, 8, some_ (·.mapped)), (8, 8, some_ (fun x => decide (x.power = 2))), (0, 8, some_ (fun x => x.job.isSome))]
  else 0

/-- Cells that the retransmit cache alone holds: of packets sent, with no copy queued (R219, R228). (DEDUCED, log 92.) -/
def State.cacheCells (s : State) : Nat :=
  let sent := fun e : Held => decide (e.st = .sent) && !e.again
  (s.asm.cache.filter (fun e => sent e.2)).foldl (fun a e => a + e.2.copy.head.length) 0 +
  (s.asm.bodies.filter (fun b =>
    let hs := s.asm.cache.filter (fun e => decide (e.2.body = some b.1))
    !hs.isEmpty && hs.all (fun e => sent e.2))).foldl (fun a b => a + b.2.cells.length) 0

/-- ASM (R228). -/
def State.readAsm (s : State) (o : Nat) : Nat :=
  if o = 0x44 then pack [bitAt 31 s.asm.pressure, (0, 19, s.cacheCells)] else 0

/-- The opcode of a lane instruction (R86). -/
def JobOp.code : JobOp → Nat
  | .nop => 0
  | .load => 1
  | .save => 2
  | .encode => 3
  | .decode => 4
  | .flush => 5
  | .fence => 6
  | .reserved c => c
  | .compose => 0

/-- Word `i` of the entry in execution (R85). -/
def Job.word (j : Job) (i : Nat) : Nat :=
  match i with
  | 0 => pack [(16, 16, j.ctx), (14, 2, j.band), bitAt 13 j.restart, bitAt 12 j.idr, bitAt 11 j.skip, bitAt 10 j.lastRow,
      bitAt 9 (decide (j.row = 0)), bitAt 8 j.retry, (0, 8, j.op.code)]
  | 1 => pack [(13, 19, j.gen), (0, 13, j.idx)]
  | 2 => fld j.pic 0 32
  | 3 => fld j.row 0 16
  | 4 => fld j.deadline 0 32
  | 5 => fld j.deadline 32 32
  | 6 => j.data.toNat
  | _ => 0

/-- The code of a microsequencer's state (R122). -/
def MsState.code : MsState → Nat
  | .idle => 0
  | .run => 1
  | .trap => 2
  | .halted => 3

/-- A lane's window (R92 to R100, R117, R122). -/
def State.readLan (s : State) (l o : Nat) : Nat :=
  let x := s.lane l
  if o = 0x20 then
    pack [bitAt 31 x.mapped, bitAt 30 x.quarantined, (28, 2, x.power), (16, 8, x.cwLead), (8, 8, x.cwSize), (0, 2, x.role)]
  else if o = 0x24 then
    pack [(16, 16, x.active.getD 0xFFFF), (8, 5, x.queue.length), bitAt 1 (s.drained l), bitAt 0 x.run.isSome]
  else if 0x40 ≤ o ∧ o < 0x60 ∧ o % 4 = 0 then
    match x.run with
    | some r => r.job.word ((o - 0x40) / 4)
    | none => 0
  else if o = 0x60 then fld x.lsf.length 0 10
  else if o = 0x68 ∨ o = 0x6C ∨ o = 0x70 then (getAt 0 x.lsfLatch ((o - 0x68) / 4)).toNat
  else if o = 0x74 then pack [(16, 16, x.eccUncorr), (0, 16, x.eccCorr)]
  else if o = 0x78 then fld x.lsfLost 0 16
  else if o = 0x80 then x.mc.ver.toNat
  else if o = 0x84 then x.mc.dig.toNat
  else if o = 0x100 then
    pack [(30, 2, x.ms.code), bitAt 29 x.atomic, bitAt 28 (x.atomic && decide (x.trapPending ≠ 0)), (24, 3, x.frames.length), (0, 13, x.upc)]
  else if o = 0x104 then pack [(30, 2, x.outcome.code), (0, 30, x.mchk)]
  else if o = 0x108 then pack [(16, 16, x.mchkTransient), (0, 16, x.mchkTotal)]
  else if o = 0x10C then pack [(16, 16, x.trapDeferred), (0, 16, x.trapTaken)]
  else if o = 0x110 then pack [(4, 4, x.trapActive), (0, 4, x.trapPending)]
  else if o = 0x120 then pack [(24, 8, x.loadResult), (0, 16, x.loads)]
  else if o = 0x220 then fld x.pmcOvf 0 8
  else if o = 0x228 then s.laneReg (l / 8 * 8) 0x228
  else if o = 0x288 then pack [(16, 16, x.tagLost), (0, 7, x.tags.length)]
  else if 0x294 ≤ o ∧ o < 0x2B0 ∧ o % 4 = 0 then (getAt 0 x.tagLatch ((o - 0x294) / 4)).toNat
  else (s.holdWord bLAN (l + 1) 0x240 8 o).getD 0

/-! ### The route of an address -/

/-- The reads that have an effect, which are commands: GLB_TIME_LO, _IND_DATA, CLAIM of a host target, BPM_LOG_POP, LSF_POP and
LAN_TAG_REC0 (R67, R72, R92, R98, R350, R400). -/
def readActs (a : Nat) : Bool :=
  decide (a = 0x40) || decide ((indAt a).map Prod.snd = some 4) || decide (a = 0x800054) ||
  (decide (0x5010A0 ≤ a) && decide (a < 0x501400) && decide (a % 32 = 8)) ||
  (decide (0x1000000 ≤ a) && decide (a < 0x1400000) && (decide (a % 0x10000 = 0x64) || decide (a % 0x10000 = 0x290)))

/-- The word of a register that is no header, pair or stored word. -/
def State.readLive (s : State) (a : Nat) : Nat :=
  let o := a % 0x100000
  let b := a / 0x100000
  if 0x1400000 ≤ a then 0
  else if 0x1000000 ≤ a then s.readLan ((a - 0x1000000) / 0x10000) (a % 0x10000)
  else match (if b = bPRT ∨ b = bCAS then none else s.holdWord b 0 0x100 (holdCount b) o) with
  | some w => w
  | none =>
    match b with
    | 0 => s.readGlb o
    | 1 => s.readPlt o
    | 2 => s.readFlt o
    | 3 => s.readSec o
    | 4 => s.readHqe o
    | 5 => s.readEvc o
    | 6 => s.readDma o
    | 7 => s.readMem o
    | 8 => s.readBpm o
    | 9 => s.readSwc o
    | 10 => s.readTmg o
    | 11 => s.readPrt (o / 0x1000) (o % 0x1000)
    | 12 => s.readCas o
    | 13 => s.readMsc o
    | 14 => s.readCmp o
    | _ => s.readAsm o

/-- SWC_CFG and EVC target words have fields that no write stores beside those that one does. -/
def mixed (a : Nat) : Bool := decide (a = 0x900040) || (decide (0x501000 ≤ a) && decide (a < 0x501400))

/-- The pair at `a` or just below it, with the offset of `a` in it (R62): 0 the shadow, 4 the active value with PEND. -/
def pairAt (a : Nat) : Option (PairDesc × Nat × Nat) :=
  match pairDesc a with
  | some d => some (d, a, 0)
  | none => if 4 ≤ a then (pairDesc (a - 4)).map (fun d => (d, a - 4, 4)) else none

/-- The word at a whole, aligned BAR0 address: a header's, a pair's, a stored one or a composed one. WO fields and reserved
addresses read zero (R6, R57). -/
def State.readWord (s : State) (a : Nat) : Nat :=
  match headerAt a with
  | some (k, x) => (s.unit k).read x
  | none =>
    match indAt a with
    | some (k, x) => (s.indSt k).read x
    | none =>
      match pairAt a with
      | some (d, _, _) => s.word a d.reset
      | none =>
        match regDesc a with
        | some d => if mixed a then s.readLive a else s.word a d.reset
        | none => s.readLive a

/-- A read of _IND_ADDR is held while its pair is BUSY (R68). -/
def State.readHeld (s : State) (a : Nat) : Bool := match indAt a with
  | some (k, 0) => (s.indSt k).busy
  | _ => false

/-- A BAR0 read without an effect, of the whole word that an address lies in (R56); none where the read is a command of its own, where the module
does not serve the address, and while the read is held. -/
def State.readBar (s : State) (a : Nat) : Option W32 :=
  let w := a / 4 * 4
  if s.barServes w && !readActs w && !s.readHeld w then some (w32 (s.readWord w)) else none

/-! ### The counter window (R99, R390) -/

/-- An 8-byte read of BAR2: the live counter, where its block is readable. -/
def State.readBar2 (s : State) (a : Nat) : Nat :=
  let b := a / 0x1000
  let o := a % 0x1000
  if b < 8 then
    if tb (s.laneReg (8 * b) 0x228) 0 ∧ o < 0x200 then s.cntOf bLAN (8 * b + o / 0x40 + 1) (o % 0x40 / 8) else 0
  else if b < 40 then
    if tb (s.word 0x400074 0) 0 ∧ o < 0x400 ∧ o % 0x80 / 8 < 12 then s.cntOf bPRT (8 * (b - 8) + o / 0x80 + 1) (o % 0x80 / 8) else 0
  else 0

end Sys2Proof.Machine
end

