-- ==== Sys2Proof/WellFormed.lean ====
section
/-! DEFINITION. When a command is well formed: its operands fit the widths and counts the manual gives, and a row that is a write
of one field carries the value that the row means. What a state does with it is the machine's business. -/

namespace Sys2Proof

/-- No number stands twice. -/
def noDup : List Nat → Bool
  | [] => true
  | a :: r => !r.contains a && noDup r

/-- Channels and lanes that fail are named once (R109, R361). -/
def inputsOk (b : BoardInputs) : Bool := noDup (b.chanFail.map Fin.val) && noDup (b.laneFail.map Fin.val)

/-- An Erelm header as the receiver takes it (R232, R233): an IPv4 or IPv6 source, and a tag of 16 bytes when there is one. -/
def hdrOk (h : ErelmHdr) : Bool :=
  (decide (h.srcAddr.length = 4) || decide (h.srcAddr.length = 16)) && (match h.tag with
    | some t => decide (t.length = 16)
    | none => true)

/-- A frame's bytes are as many as its length says (R314), and its destination is an IPv4 or IPv6 address or none. -/
def frameOk (f : RxFrame) : Bool := decide (f.bytes.length = f.length)

/-- A value of PRT_MDIO_CMD that starts the frame of a clause and an operation (R319, R336). -/
def mdioOk (v : W32) (c45 : Bool) (op : Nat) : Bool :=
  tb v.toNat 31 && decide (tb v.toNat 28 = c45) && decide (fld v.toNat 26 2 = op)

/-- A submission entry carries 28 bytes of params (R376). -/
def entryOk (e : SubEntry) : Bool := decide (e.params.length = 28)

/-- An address of BAR0: aligned to 4 bytes, below 64 MiB (R56, R373). -/
def addrOk (a : W32) : Bool := decide (a.toNat % 4 = 0) && decide (a.toNat < 0x4000000)

/-- The command is well formed. -/
def WellFormed (i : Instr) : Bool :=
  match i with
  | .vinRise b => inputsOk b
  | .resetN _ b => inputsOk b
  | .vinLockout .. => true
  | .thermalShutdown .. => true
  | .thermalRestart b => inputsOk b
  | .sourceRowArrival .. => true
  | .rowJobCreate .. => true
  | .jobTableEntryFreed .. => true
  | .jobDispatch .. => true
  | .sourceRepeat .. => true
  | .laneNop .. => true
  | .loadContext .. => true
  | .saveContext .. => true
  | .encodeRow .. => true
  | .decodeRow .. => true
  | .flushPicture .. => true
  | .fence .. => true
  | .laneBadJob .. => true
  | .rowComplete .. => true
  | .issueMw .. => true
  | .branchMw .. => true
  | .callMw .. => true
  | .returnMw .. => true
  | .endJob .. => true
  | .trapReturn .. => true
  | .waitMw .. => true
  | .loopLoad .. => true
  | .latchLoad .. => true
  | .postSummary .. => true
  | .nextCtu .. => true
  | .drainMw .. => true
  | .microTrap .. => true
  | .machineCheck .. => true
  | .mchkService .. => true
  | .goldenRebuildDone .. => true
  | .domainReady .. => true
  | .lsfPop .. => true
  | .lsfClr .. => true
  | .pmcCfgWrite .. => true
  | .pmcWrap .. => true
  | .pmcClr .. => true
  | .tagCfgWrite .. => true
  | .tagRecPop .. => true
  | .mcPatch _ _ loadFail => noDup (loadFail.map Fin.val)
  | .composeRow .. => true
  | .composeRowComplete .. => true
  | .asmEnqueue .. => true
  | .rtpPacketIn .. => true
  | .dejitterTimeout .. => true
  | .holdExpire .. => true
  | .hello h _ => hdrOk h
  | .openAck h _ => hdrOk h
  | .marker h _ _ _ _ => hdrOk h
  | .rowAck h _ _ _ _ _ => hdrOk h
  | .loss h _ => hdrOk h
  | .refreshReq h _ => hdrOk h
  | .keepalive h _ => hdrOk h
  | .status h _ => hdrOk h
  | .close h _ => hdrOk h
  | .erelmRetransmit .. => true
  | .ackDue .. => true
  | .keepaliveDue .. => true
  | .sessionSilence .. => true
  | .markerMissing .. => true
  | .sessionSuspend .. => true
  | .steerEvaluate .. => true
  | .steerDisable v => !tb v.toNat 31
  | .overloadEvaluate .. => true
  | .frameReceived _ f => frameOk f
  | .pauseFrameReceived _ f => decide (f.quanta.length = if f.pfc then 8 else 1)
  | .pauseExpire .. => true
  | .pauseStorm .. => true
  | .pswCfgWrite .. => true
  | .copyArrive .. => true
  | .laybyAdmit .. => true
  | .laybyPrune .. => true
  | .reseqCell .. => true
  | .reseqGapTimeout .. => true
  | .gateOpen .. => true
  | .frameTxEnd .. => true
  | .fitMaxExpire .. => true
  | .tokenCredit .. => true
  | .queueOpen .. => true
  | .queueCloseDrain .. => true
  | .queueCloseFlush .. => true
  | .signalDetect .. => true
  | .pcsSync .. => true
  | .linkHoldExpire .. => true
  | .pcsSyncLoss .. => true
  | .linkLossTimeout .. => true
  | .eyeMeasurement .. => true
  | .retrainTimeout .. => true
  | .retrainWindowExpire .. => true
  | .pfcRefresh .. => true
  | .mdioC22Write _ v => mdioOk v false 1
  | .mdioC22Read _ v => mdioOk v false 3
  | .mdioC45Address _ v => mdioOk v true 0
  | .mdioC45Write _ v => mdioOk v true 1
  | .mdioC45ReadInc _ v => mdioOk v true 2
  | .mdioC45Read _ v => mdioOk v true 3
  | .mdioFrameComplete .. => true
  | .ppsInEdge .. => true
  | .casTrainStepComplete _ r => decide (r.peerDigest.length = 64)
  | .casPeerRetry .. => true
  | .linkFrameReceived _ f => decide (f.payload.length ≤ 256)
  | .replayTimeout .. => true
  | .casRetrainTimeout .. => true
  | .casTimeExchange .. => true
  | .alloc .. => true
  | .inc .. => true
  | .pin .. => true
  | .dec .. => true
  | .free .. => true
  | .xfer .. => true
  | .setmark .. => true
  | .clrmark .. => true
  | .bpmQuery .. => true
  | .bpmLogPop .. => true
  | .bpmLogClr v => tb v.toNat 0
  | .memRead .. => true
  | .memRetryRead .. => true
  | .memWrite .. => true
  | .refreshWindow .. => true
  | .rowIdleTimeout .. => true
  | .tempReadout .. => true
  | .oscReadout drift => decide (drift.length = 16)
  | .channelRetrain .. => true
  | .scrubRead .. => true
  | .functionLevelReset .. => true
  | .hotReset .. => true
  | .pcieLinkLoss .. => true
  | .perstAssert .. => true
  | .perstDeassert _ gen width => decide (1 ≤ gen.toNat) && decide (gen.toNat ≤ 4) && isPow2In width.toNat 1 8
  | .configRequest .. => true
  | .sqTail _ _ entries => entries.all entryOk
  | .cqHead .. => true
  | .eqDb .. => true
  | .eqCoalTimeout .. => true
  | .txFrame .. => true
  | .rxBuffer .. => true
  | .excWaitTimeout .. => true
  | .nop .. => true
  | .ringCreate .. => true
  | .ringDelete .. => true
  | .ringResync .. => true
  | .eqCreate .. => true
  | .eqDelete .. => true
  | .eqResync .. => true
  | .attach .. => true
  | .ctxOpen .. => true
  | .ctxChange .. => true
  | .ctxClose .. => true
  | .ctxQuery .. => true
  | .layoutSet .. => true
  | .sessionNet .. => true
  | .sessionQuery .. => true
  | .surfaceCreate .. => true
  | .surfaceUpload .. => true
  | .surfaceFlip .. => true
  | .surfaceDelete .. => true
  | .layerSet .. => true
  | .fbQuery .. => true
  | .fbPin .. => true
  | .fbRelease .. => true
  | .laneDrain .. => true
  | .laneRelease .. => true
  | .imageInstall .. => true
  | .imageRatchet .. => true
  | .waymapInstall .. => true
  | .detour .. => true
  | .attest .. => true
  | .attestCert .. => true
  | .timeSource .. => true
  | .ptpCtl .. => true
  | .powerState .. => true
  | .faultLogRead .. => true
  | .heartbeat .. => true
  | .heartbeatTimeout .. => true
  | .eventAssert .. => true
  | .eventDeassert .. => true
  | .claim .. => true
  | .complete .. => true
  | .thaw _ v => tb v.toNat 0
  | .spReportMissed .. => true
  | .spRestartComplete .. => true
  | .spHoldExpire .. => true
  | .svpWatchdogExpire .. => true
  | .dmaGo _ v => tb v.toNat 31 && !tb v.toNat 30
  | .dmaResume _ v => tb v.toNat 31 && tb v.toNat 30
  | .dmaTransferDone .. => true
  | .dmaBusError .. => true
  | .dmaBuserrClear v => tb v.toNat 31
  | .debugTokenPresent .. => true
  | .recoveryProgram v => tb v.toNat 31 && decide (fld v.toNat 29 2 = 0)
  | .recoveryVerify v => tb v.toNat 31 && decide (fld v.toNat 29 2 = 1)
  | .recoveryProgramDone .. => true
  | .stateReq v => decide (v.toNat ≤ 4)
  | .stateRead .. => true
  | .healthRead .. => true
  | .mgmtAddressMatch .. => true
  | .smbusTimeout .. => true
  | .blockStopDone .. => true
  | .drainTimeout .. => true
  | .entryRetry .. => true
  | .wakeN _ b => inputsOk b
  | .wakeTimer .. => true
  | .laneIdleTimeout .. => true
  | .pipeIdleTimeout .. => true
  | .vinFall .. => true
  | .vinReturn .. => true
  | .holdupExhausted .. => true
  | .holdupChargeTimeout .. => true
  | .faultRaise .. => true
  | .fltSrcForce _ v => tb v.toNat 0
  | .fltStickyClear _ v => tb v.toNat 31
  | .selfchkInject v => tb v.toNat 31
  | .selfcheckMismatch .. => true
  | .sliceStallTimeout .. => true
  | .faultLogFlush .. => true
  | .ctlEnWrite .. => true
  | .unitStopComplete .. => true
  | .ignwClear _ v => tb v.toNat 31
  | .oobClear _ v => tb v.toNat 31
  | .rwsWrite addr _ => addrOk addr
  | .bar0BadAccess .. => true
  | .badaccClear v => tb v.toNat 31
  | .indAddrWrite .. => true
  | .indDataRead .. => true
  | .indDataWrite .. => true
  | .indPrefetchDone .. => true
  | .indErrClear _ v => tb v.toNat 30
  | .snapshot v => tb v.toNat 31
  | .snapshotComplete .. => true
  | .timeRead .. => true
  | .registerWrite addr _ => addrOk addr
  | .sgmiiControlWordChange .. => true

end Sys2Proof
end

