-- ==== Sys2Proof/Safety.lean ====
section
/-! DEFINITION. What counts as a safe run, in the terms that claims use: the block goes on; its memories are in their canonical
form; and a state with nothing left to settle, in which a command's own effect is all that happens. -/

namespace Sys2Proof.Machine

open Sys2Proof

/-- The step goes on: it neither faults nor is refused. -/
def goesOn (o : Host.Outcome State Fault Refusal) : Bool :=
  match o with
  | .next _ => true
  | .fault _ => false
  | .refused _ => false

/-- The byte memories are in their canonical form: addresses strictly rising, no entry equal to what an unlisted address reads
as (0 in module memory and in the context records, 0xFF in flash). -/
def State.memoryWf (s : State) : Bool :=
  Tbl.wfSet 0 s.mem.dram && Tbl.wfSet 0 s.ctx && Tbl.wfSet 0xFF s.flash.data

/-- The microword that lane `l` fetches (R103): the 24 bits at its micro-PC, when it is of kind `kind` and its parity holds; and the operand of a
special word of opcode `op`. -/
def State.mword (s : State) (l kind : Nat) : Option Nat :=
  let x := s.lane l
  let w := Tbl.get 0 x.micro x.upc
  if x.fetching ∧ microSyndrome w = 0 ∧ fld w 22 2 = kind then some (fld w 0 24) else none
def State.special (s : State) (l op : Nat) : Option Nat :=
  match s.mword l 3 with
  | some w => if fld w 16 6 = op then some (fld w 0 16) else none
  | none => none

/-- Every waiting command is well formed. -/
def State.queueWf (s : State) : Bool := s.pending.all WellFormed

/-- What the safe state ignores of the host (R454): every write to BAR0, every doorbell, and every command of a ring. Targets 5 to 31
and DMA channels 16 to 31 are the host's; the others are written by the module's own processors. -/
def fromHost (c : Instr) : Bool :=
  match c with
  | .lsfClr _ _ | .pmcCfgWrite _ _ _ | .pmcClr _ _ | .tagCfgWrite _ _ | .mcPatch _ _ _ | .steerDisable _ | .pswCfgWrite _
  | .queueOpen _ | .queueCloseDrain _ | .queueCloseFlush _ | .mdioC22Write _ _ | .mdioC22Read _ _ | .mdioC45Address _ _
  | .mdioC45Write _ _ | .mdioC45ReadInc _ _ | .mdioC45Read _ _ | .bpmQuery _ | .bpmLogClr _ | .sqTail _ _ _ | .cqHead _ _
  | .eqDb _ _ | .txFrame _ _ | .rxBuffer _ | .nop _ | .ringCreate _ | .ringDelete _ | .ringResync _ | .eqCreate _ | .eqDelete _
  | .eqResync _ | .attach _ | .ctxOpen _ _ | .ctxChange _ _ | .ctxClose _ | .ctxQuery _ | .layoutSet _ _ | .sessionNet _ _
  | .sessionQuery _ | .surfaceCreate _ _ | .surfaceUpload _ _ | .surfaceFlip _ _ | .surfaceDelete _ | .layerSet _ _ | .fbQuery _
  | .fbPin _ | .fbRelease _ | .laneDrain _ | .laneRelease _ | .imageInstall _ _ _ | .imageRatchet _ | .waymapInstall _ _
  | .detour _ _ | .attest _ _ | .attestCert _ | .timeSource _ | .ptpCtl _ | .powerState _ | .faultLogRead _ | .heartbeat _
  | .dmaBuserrClear _ | .recoveryProgram _ | .recoveryVerify _ | .fltSrcForce _ _ | .fltStickyClear _ _ | .selfchkInject _
  | .ctlEnWrite _ _ | .ignwClear _ _ | .oobClear _ _ | .rwsWrite _ _ | .badaccClear _ | .indAddrWrite _ _ | .indDataWrite _ _
  | .indErrClear _ _ | .snapshot _ | .registerWrite _ _ => true
  | .complete t _ => decide (5 ≤ t.val)
  | .thaw t _ => decide (5 ≤ t.val)
  | .dmaGo c _ => decide (16 ≤ c.val)
  | .dmaResume c _ => decide (16 ≤ c.val)
  | _ => false

/-- Nothing waits to be settled at the end of a command: no reset reaction, no change of capacity, no retransmit pressure, no paced
channel in transfer, no layout, drain or detour in progress, no queue about to close, no idle period to begin or end, no power
request, and nothing received over the cascade's links nor credit to return over them. -/
def State.quiet (s : State) : Bool :=
  s.flt.unitResets.isEmpty && !s.flt.resetReq && !s.flt.capChanged && !s.asm.pressure && !(s.pool 0).bpOn &&
  s.dma.chans.all (fun e => !(s.dmaCh e.1).busy || !s.dmaPaced e.1) && s.asm.lay.isEmpty && s.sec.detour.isNone &&
  s.msc.drains.isEmpty && s.lanes.all (fun e => (s.heldIn (s.leadFor e.1)).isEmpty || !(s.drainingCw e.1)) &&
  s.lanes.all (fun e => s.laneIsIdle e.1 == (s.lane e.1).idleAt.isSome) &&
  s.cmp.pipes.all (fun e => s.pipeIsIdle e.1 == (s.pipe e.1).idleAt.isSome) &&
  s.tmg.queues.all (fun e => !(e.2.draining && e.2.copies.isEmpty)) && s.plt.pend.isNone &&
  s.cas.inbox.isEmpty && s.cas.links.all (fun e => e.2.rxq.isEmpty && (s.link e.1).owed == 0 && (s.link e.1).creditCount == 0) && !s.sec.detLed

end Sys2Proof.Machine
end

