-- ==== Sys2Proof/Certificates/Slice0/Obligations.lean ====
section
/-! DEFINITION. The statements for the provers. `s.after t` (Machine/Run.lean) is `t` with what it leaves settled and the queue of
`s`; SettledStateStands says that it is `t` itself, with that queue, where nothing is left to settle. -/

open Sys2Proof Sys2Proof.Machine

/-! ### The step -/

/-- With a command at the front of the queue, a step is that command's effect on the state with the queue's rest. On an empty queue the
block idles for one tick, which is the model's choice (log entry 2): without supply nothing changes; with supply,
no lane powered, SWC stopped, no detour, patch or memory request in progress and no session open, module time advances by 1 ns and the servo's slew and nothing else changes. Each command of the table, where the part that it concerns works,
answers a next state, that of its own effect (which the statements below give); where the part does not work it changes nothing. -/
def Obligations.StepRunsTheFrontCommand : Prop :=
  (∀ (c : Instr) (s : State) (rest : List Instr), s.pending = c :: rest → step s = exec c { s with pending := rest }) ∧
  (∀ s : State, s.pending = [] →
    (s.plt.up = false → step s = .next s) ∧
    (s.plt.up = true → s.sec.detour = none → s.golden.patching = false → s.running bSWC = false →
      (∀ l, (s.lane l).power ≠ 2 ∧ (s.lane l).sig = 0) → (∀ e ∈ s.mem.chans, e.2.wanted = false ∧ e.2.writes.length ≤ 16) →
      (∀ e ∈ s.opens, e.2 ≠ 1) →
      step s = .next { s with time := s.time + (65536 + s.clk.slew * 65536 / 1000000000).toNat })) ∧
  (∀ (b : BoardInputs) (s : State), (!s.plt.up && !s.plt.thermal) = true → exec (.vinRise b) s = .next (s.after (s.vinRise b))) ∧
  (∀ (lowUs : Nat) (b : BoardInputs) (s : State), s.plt.up = true → exec (.resetN lowUs b) s = .next (s.after (s.resetPin lowUs b))) ∧
  (∀ s : State, (s.plt.up || decide (s.plt.cur = 4)) = true → exec .vinLockout s = .next (s.after s.vinLockout)) ∧
  (∀ s : State, s.plt.up = true → exec .thermalShutdown s = .next (s.after s.thermalOff)) ∧
  (∀ (b : BoardInputs) (s : State), s.plt.thermal = true → exec (.thermalRestart b) s = .next (s.after (s.thermalOn b))) ∧
  (∀ (src : CtxId) (row : Nat) (s : State), s.mscWorks = true →
    exec (.sourceRowArrival src row) s = .next (s.after (s.sourceRow src.val row))) ∧
  (∀ (sess : CtxId) (pic row : Nat) (s : State), s.mscWorks = true →
    exec (.rowJobCreate sess pic row) s = .next (s.after (s.createRow sess.val pic row))) ∧
  (∀ s : State, s.mscWorks = true → exec .jobTableEntryFreed s = .next (s.after s.entryFreed)) ∧
  (∀ (t : DispTarget) (s : State), s.mscWorks = true → exec (.jobDispatch t) s = .next (s.after (s.dispatch t))) ∧
  (∀ (j : JobId) (s : State), s.mscWorks = true → exec (.sourceRepeat j) s = .next (s.after (s.repeatRow j.val))) ∧
  (∀ (l : LaneId) (s : State), s.live = true → exec (.laneNop l) s = .next (s.after (s.nopJob l.val))) ∧
  (∀ (l : LaneId) (s : State), s.live = true → exec (.loadContext l) s = .next (s.after (s.loadCtx l.val))) ∧
  (∀ (l : LaneId) (s : State), s.live = true → exec (.saveContext l) s = .next (s.after (s.saveCtx l.val))) ∧
  (∀ (l : LaneId) (s : State), s.live = true → exec (.encodeRow l) s = .next (s.after (s.encodeRowOp l.val))) ∧
  (∀ (l : LaneId) (f : DecodeFacts) (s : State), s.live = true →
    exec (.decodeRow l f) s = .next (s.after (
      match (if f.ranOut then s.shortRow l.val else none) with
      | some t => t
      | none => s.decodeRowOp l.val f))) ∧
  (∀ (l : LaneId) (s : State), s.live = true → exec (.flushPicture l) s = .next (s.after (s.flushOp l.val))) ∧
  (∀ (l : LaneId) (s : State), s.live = true → exec (.fence l) s = .next (s.after (s.fenceJob l.val))) ∧
  (∀ (l : LaneId) (s : State), s.live = true → exec (.laneBadJob l) s = .next (s.after (s.badOp l.val))) ∧
  (∀ (l : LaneId) (f : RowFacts) (s : State), s.live = true → exec (.rowComplete l f) s = .next (s.after (s.rowCompleteOp l.val f))) ∧
  (∀ (l : LaneId) (stagesEmpty : Bool) (s : State), s.live = true →
    exec (.issueMw l stagesEmpty) s = .next (s.after (s.issueOp l.val stagesEmpty))) ∧
  (∀ (l : LaneId) (aboveOut : Bool) (s : State), s.live = true →
    exec (.branchMw l aboveOut) s = .next (s.after (s.branchOp l.val aboveOut))) ∧
  (∀ (l : LaneId) (s : State), s.live = true → exec (.callMw l) s = .next (s.after (s.callOp l.val))) ∧
  (∀ (l : LaneId) (s : State), s.live = true → exec (.returnMw l) s = .next (s.after (s.returnOp l.val))) ∧
  (∀ (l : LaneId) (s : State), s.live = true → exec (.endJob l) s = .next (s.after (s.endJobOp l.val))) ∧
  (∀ (l : LaneId) (s : State), s.live = true → exec (.trapReturn l) s = .next (s.after (s.trapRet l.val))) ∧
  (∀ (l : LaneId) (aboveOut : Bool) (s : State), s.live = true →
    exec (.waitMw l aboveOut) s = .next (s.after (s.waitOp l.val aboveOut))) ∧
  (∀ (l : LaneId) (s : State), s.live = true → exec (.loopLoad l) s = .next (s.after (s.loopLoadOp l.val))) ∧
  (∀ (l : LaneId) (s : State), s.live = true → exec (.latchLoad l) s = .next (s.after (s.latchLoadOp l.val))) ∧
  (∀ (l : LaneId) (s : State), s.live = true → exec (.postSummary l) s = .next (s.after (s.postOp l.val))) ∧
  (∀ (l : LaneId) (s : State), s.live = true → exec (.nextCtu l) s = .next (s.after (s.nextCtuOp l.val))) ∧
  (∀ (l : LaneId) (stagesEmpty : Bool) (s : State), s.live = true →
    exec (.drainMw l stagesEmpty) s = .next (s.after (s.drainOp l.val stagesEmpty))) ∧
  (∀ (l : LaneId) (cause : Fin 4) (s : State), s.live = true → exec (.microTrap l cause) s = .next (s.after (s.trapOp l.val cause.val))) ∧
  (∀ (l : LaneId) (k : MchkKind) (s : State), s.live = true → exec (.machineCheck l k) s = .next (s.after (s.mchkOp l.val k))) ∧
  (∀ (l : LaneId) (goldenReadable readbackOk : Bool) (s : State), s.live = true →
    exec (.mchkService l goldenReadable readbackOk) s = .next (s.after (s.mchkServe l.val goldenReadable readbackOk))) ∧
  (∀ (l : LaneId) (flashOk readbackOk : Bool) (s : State), s.live = true →
    exec (.goldenRebuildDone l flashOk readbackOk) s = .next (s.after (s.rebuildDone l.val flashOk readbackOk))) ∧
  (∀ (d : Domain) (s : State), s.live = true → exec (.domainReady d) s = .next (s.after (s.domainReady d))) ∧
  (∀ (l : LaneId) (ecc : EccResult) (s : State), s.barServes 0x1000000 = true →
    exec (.lsfPop l ecc) s = .next (s.after (s.lsfPopOp l.val ecc))) ∧
  (∀ (l : LaneId) (v : W32) (s : State), s.barTakes 0x1000000 = true → exec (.lsfClr l v) s = .next (s.after (s.lsfClrOp l.val v))) ∧
  (∀ (l : LaneId) (n : Fin 8) (v : W32) (s : State), s.barTakes 0x1000000 = true →
    exec (.pmcCfgWrite l n v) s = .next (s.after (s.pmcCfgOp l.val n.val v))) ∧
  (∀ (l : LaneId) (n : Fin 8) (s : State), s.live = true → exec (.pmcWrap l n) s = .next (s.after (s.pmcWrapOp l.val n.val))) ∧
  (∀ (l : LaneId) (v : W32) (s : State), s.barTakes 0x1000000 = true → exec (.pmcClr l v) s = .next (s.after (s.pmcClrOp l.val v))) ∧
  (∀ (l : LaneId) (v : W32) (s : State), s.barTakes 0x1000000 = true → exec (.tagCfgWrite l v) s = .next (s.after (s.tagCfgOp l.val v))) ∧
  (∀ (l : LaneId) (s : State), s.barServes 0x1000000 = true → exec (.tagRecPop l) s = .next (s.after (s.tagPopOp l.val))) ∧
  (∀ (h : CmdRef) (d : HostData) (loadFail : List LaneId) (s : State), s.cmdsRun = true →
    exec (.mcPatch h d loadFail) s = .next (s.after (s.patchOp h d loadFail))) ∧
  (∀ (p : PipeId) (poisoned : Bool) (s : State), s.live = true →
    exec (.composeRow p poisoned) s = .next (s.after (s.composeOp p.val poisoned))) ∧
  (∀ (p : PipeId) (parityOk : Bool) (s : State), s.live = true →
    exec (.composeRowComplete p parityOk) s = .next (s.after (s.composeDoneOp p.val parityOk))) ∧
  (∀ (enc : CtxId) (s : State), s.live = true → exec (.asmEnqueue enc) s = .next (s.after (s.asmEnqueueOp enc.val))) ∧
  (∀ (flow : CtxId) (k : RtpIn) (s : State), s.works bASM = true → exec (.rtpPacketIn flow k) s = .next (s.after (s.rtpIn flow.val k))) ∧
  (∀ (flow : CtxId) (s : State), s.works bASM = true → exec (.dejitterTimeout flow) s = .next (s.after (s.dejitterTimeout flow.val))) ∧
  (∀ (sess : CtxId) (seq : W16) (s : State), s.works bASM = true →
    exec (.holdExpire sess seq) s = .next (s.after (s.holdExpire sess.val seq.toNat))) ∧
  (∀ (h : ErelmHdr) (b : HelloBody) (s : State), (match s.helloSess h with | some d => s.spWorks d | none => s.live && (List.range 4).any (fun i => decide ((s.cpu (i + 1)).ph = .run))) = true →
    exec (.hello h b) s = .next (s.after (s.helloOp h b))) ∧
  (∀ (h : ErelmHdr) (result : Byte) (s : State), s.spWorks h.session.toNat = true →
    exec (.openAck h result) s = .next (s.after (s.openAckOp h result.toNat))) ∧
  (∀ (h : ErelmHdr) (frame : W32) (line steer : W16) (time : W64) (s : State), s.spWorks h.session.toNat = true →
    exec (.marker h frame line steer time) s = .next (s.after (s.markerMsg h frame.toNat line.toNat (sgn steer.toNat 16) time.toNat))) ∧
  (∀ (h : ErelmHdr) (_pic : W32) (_row rtpCum : W16) (_late : Bool) (lateTotal : W32) (s : State), s.spWorks h.session.toNat = true →
    exec (.rowAck h _pic _row rtpCum _late lateTotal) s = .next (s.after (s.rowAckMsg h rtpCum.toNat lateTotal))) ∧
  (∀ (h : ErelmHdr) (ranges : List (W16 × W16)) (s : State), s.spWorks h.session.toNat = true →
    exec (.loss h ranges) s = .next (s.after (s.lossMsg h ranges))) ∧
  (∀ (h : ErelmHdr) (_reason : Byte) (s : State), s.spWorks h.session.toNat = true →
    exec (.refreshReq h _reason) s = .next (s.after (s.refreshMsg h))) ∧
  (∀ (h : ErelmHdr) (request : Option W64) (s : State), s.spWorks h.session.toNat = true →
    exec (.keepalive h request) s = .next (s.after (s.keepMsg h request))) ∧
  (∀ (h : ErelmHdr) (b : StatusBody) (s : State), s.spWorks h.session.toNat = true →
    exec (.status h b) s = .next (s.after (s.statusMsg h b))) ∧
  (∀ (h : ErelmHdr) (reason : Byte) (s : State), s.spWorks h.session.toNat = true →
    exec (.close h reason) s = .next (s.after (s.closeMsg h reason.toNat))) ∧
  (∀ (sess : CtxId) (s : State), s.spWorks sess.val = true →
    exec (.erelmRetransmit sess) s = .next (s.after (s.erelmRetransmitOp sess.val))) ∧
  (∀ (sess : CtxId) (s : State), s.spWorks sess.val = true → exec (.ackDue sess) s = .next (s.after (s.ackDueOp sess.val))) ∧
  (∀ (sess : CtxId) (s : State), s.spWorks sess.val = true → exec (.keepaliveDue sess) s = .next (s.after (s.keepDueOp sess.val))) ∧
  (∀ (sess : CtxId) (s : State), s.spWorks sess.val = true → exec (.sessionSilence sess) s = .next (s.after (s.silenceOp sess.val))) ∧
  (∀ (sess : CtxId) (s : State), s.works bMSC = true → exec (.markerMissing sess) s = .next (s.after (s.missingMsg sess.val))) ∧
  (∀ (sess : CtxId) (s : State), s.works bMSC = true → exec (.sessionSuspend sess) s = .next (s.after (s.suspendMsg sess.val))) ∧
  (∀ (family : CtxId) (s : State), s.works bMSC = true → exec (.steerEvaluate family) s = .next (s.after (s.steerOp family.val))) ∧
  (∀ (v : W32) (s : State), s.barTakes 0xD00048 = true → exec (.steerDisable v) s = .next (s.after (s.writeReg 0xD00048 v.toNat))) ∧
  (∀ s : State, s.live = true → exec .overloadEvaluate s = .next (s.after s.evalOverload)) ∧
  (∀ (p : PortId) (f : RxFrame) (s : State), s.live = true → exec (.frameReceived p f) s = .next (s.after (s.frameRx p.val f))) ∧
  (∀ (p : PortId) (f : PauseFrame) (s : State), s.live = true →
    exec (.pauseFrameReceived p f) s = .next (s.after (s.pauseFrame p.val f))) ∧
  (∀ (p : PortId) (c : ClassId) (s : State), s.live = true → exec (.pauseExpire p c) s = .next (s.after (s.pauseExpire p.val c.val))) ∧
  (∀ (p : PortId) (c : ClassId) (s : State), s.live = true → exec (.pauseStorm p c) s = .next (s.after (s.pauseStorm p.val c.val))) ∧
  (∀ (v : W32) (s : State), s.barTakes 0x900058 = true → exec (.pswCfgWrite v) s = .next (s.after (s.pswWrite v))) ∧
  (∀ (copyId : Nat) (s : State), s.works bSWC = true → exec (.copyArrive copyId) s = .next (s.after (s.arriveOp copyId))) ∧
  (∀ (d : DestId) (c : ClassId) (s : State), s.works bSWC = true →
    exec (.laybyAdmit d c) s = .next (s.after (s.laybyAdmitOp d.val c.val))) ∧
  (∀ (d : DestId) (c : ClassId) (s : State), s.works bSWC = true →
    exec (.laybyPrune d c) s = .next (s.after (s.laybyPrune d.val c.val))) ∧
  (∀ (c : SeqCell) (s : State), s.works bSWC = true → exec (.reseqCell c) s = .next (s.after (s.rsqCell c))) ∧
  (∀ (g : GroupId) (src : Byte) (s : State), s.works bSWC = true →
    exec (.reseqGapTimeout g src) s = .next (s.after (s.rsqTimeout g.val src.toNat))) ∧
  (∀ (p : PortId) (s : State), s.works bTMG = true → exec (.gateOpen p) s = .next (s.after (s.gateOpen p.val))) ∧
  (∀ (p : PortId) (s : State), s.live = true → exec (.frameTxEnd p) s = .next (s.after (s.txEnd p.val))) ∧
  (∀ (q : QueueId) (s : State), s.works bTMG = true → exec (.fitMaxExpire q) s = .next (s.after (s.fitExpire q.val))) ∧
  (∀ s : State, s.works bTMG = true → exec .tokenCredit s = .next (s.after s.tokenCredit)) ∧
  (∀ (h : CmdRef) (s : State), s.cmdsRun = true →
    exec (.queueOpen h) s = .next (s.after (s.runCmd h 0x50 (fun s e => s.queueOpenCmd e)))) ∧
  (∀ (h : CmdRef) (s : State), s.cmdsRun = true →
    exec (.queueCloseDrain h) s = .next (s.after (s.runCmd h 0x51 (fun s e => s.queueDrainCmd h e)))) ∧
  (∀ (h : CmdRef) (s : State), s.cmdsRun = true →
    exec (.queueCloseFlush h) s = .next (s.after (s.runCmd h 0x51 (fun s e => s.queueFlushCmd e)))) ∧
  (∀ (p : PortId) (s : State), (s.live && Tbl.get false s.plt.blockOn (p.val / 8)) = true →
    exec (.signalDetect p) s = .next (s.after (s.signalDetect p.val))) ∧
  (∀ (p : PortId) (n : NegResult) (s : State), (s.live && Tbl.get false s.plt.blockOn (p.val / 8)) = true →
    exec (.pcsSync p n) s = .next (s.after (s.pcsSync p.val n))) ∧
  (∀ (p : PortId) (s : State), s.live = true → exec (.linkHoldExpire p) s = .next (s.after (s.holdExpireLink p.val))) ∧
  (∀ (p : PortId) (s : State), s.live = true → exec (.pcsSyncLoss p) s = .next (s.after (s.syncLoss p.val))) ∧
  (∀ (p : PortId) (s : State), s.live = true → exec (.linkLossTimeout p) s = .next (s.after (s.lossTimeout p.val))) ∧
  (∀ (p : PortId) (margin : BitVec 6) (s : State), s.live = true →
    exec (.eyeMeasurement p margin) s = .next (s.after (s.eye p.val margin.toNat))) ∧
  (∀ (p : PortId) (s : State), s.live = true → exec (.retrainTimeout p) s = .next (s.after (s.retrainTimeout p.val))) ∧
  (∀ (p : PortId) (s : State), s.live = true → exec (.retrainWindowExpire p) s = .next (s.after (s.windowExpire p.val))) ∧
  (∀ (p : PortId) (s : State), s.live = true → exec (.pfcRefresh p) s = .next (s.after (s.pfcRefreshOp p.val))) ∧
  (∀ (b : BusId) (v : W32) (s : State), s.barTakes 0xB00040 = true →
    exec (.mdioC22Write b v) s = .next (s.after (s.mdioGo b.val v false 1))) ∧
  (∀ (b : BusId) (v : W32) (s : State), s.barTakes 0xB00040 = true →
    exec (.mdioC22Read b v) s = .next (s.after (s.mdioGo b.val v false 3))) ∧
  (∀ (b : BusId) (v : W32) (s : State), s.barTakes 0xB00040 = true →
    exec (.mdioC45Address b v) s = .next (s.after (s.mdioGo b.val v true 0))) ∧
  (∀ (b : BusId) (v : W32) (s : State), s.barTakes 0xB00040 = true →
    exec (.mdioC45Write b v) s = .next (s.after (s.mdioGo b.val v true 1))) ∧
  (∀ (b : BusId) (v : W32) (s : State), s.barTakes 0xB00040 = true →
    exec (.mdioC45ReadInc b v) s = .next (s.after (s.mdioGo b.val v true 2))) ∧
  (∀ (b : BusId) (v : W32) (s : State), s.barTakes 0xB00040 = true →
    exec (.mdioC45Read b v) s = .next (s.after (s.mdioGo b.val v true 3))) ∧
  (∀ (b : BusId) (response : Option W16) (s : State), s.live = true →
    exec (.mdioFrameComplete b response) s = .next (s.after (s.mdioDone b.val response))) ∧
  (∀ s : State, s.live = true → exec .ppsInEdge s = .next (s.after (s.ppsEdge s.plt.cascId))) ∧
  (∀ (l : LinkId) (r : TrainResult) (s : State), s.live = true →
    exec (.casTrainStepComplete l r) s = .next (s.after (s.trainStep l.val r))) ∧
  (∀ (l : LinkId) (s : State), s.live = true → exec (.casPeerRetry l) s = .next (s.after (s.peerRetry l.val))) ∧
  (∀ (l : LinkId) (f : LinkFrame) (s : State), s.live = true →
    exec (.linkFrameReceived l f) s = .next (s.after (s.linkFrameRx l.val f))) ∧
  (∀ (l : LinkId) (s : State), s.live = true → exec (.replayTimeout l) s = .next (s.after (s.replayTimeout l.val))) ∧
  (∀ (l : LinkId) (s : State), s.live = true → exec (.casRetrainTimeout l) s = .next (s.after (s.casRetrainTimeout l.val))) ∧
  (∀ (offsetNs : Int) (s : State), s.live = true →
    exec (.casTimeExchange offsetNs) s = .next (s.after (s.timeExchange s.timeLink offsetNs))) ∧
  (∀ (agent : Byte) (pool : PoolId) (n : Nat) (reserved : Bool) (s : State), s.live = true →
    exec (.alloc agent pool n reserved) s = .next (s.after ((s.alloc agent.toNat pool.val n reserved).1))) ∧
  (∀ (_agent : Byte) (h : W32) (s : State), s.live = true → exec (.inc _agent h) s = .next (s.after ((s.incRef false h).1))) ∧
  (∀ (_agent : Byte) (h : W32) (s : State), s.live = true → exec (.pin _agent h) s = .next (s.after ((s.incRef true h).1))) ∧
  (∀ (agent : Byte) (h : W32) (s : State), s.live = true → exec (.dec agent h) s = .next (s.after (s.decRefA agent.toNat h))) ∧
  (∀ (agent : Byte) (h : W32) (s : State), s.live = true → exec (.free agent h) s = .next (s.after (s.freeRefA agent.toNat h))) ∧
  (∀ (agent : Byte) (h : W32) (newOwner : Byte) (s : State), s.live = true →
    exec (.xfer agent h newOwner) s = .next (s.after (s.xferRef agent.toNat h newOwner.toNat))) ∧
  (∀ (agent : Byte) (h : W32) (m : Fin 5) (s : State), s.live = true →
    exec (.setmark agent h m) s = .next (s.after (s.setMark agent.toNat h m.val))) ∧
  (∀ (agent : Byte) (h : W32) (m : Fin 5) (s : State), s.live = true →
    exec (.clrmark agent h m) s = .next (s.after (s.clrMarkA agent.toNat h m.val))) ∧
  (∀ (v : W32) (s : State), s.barTakes 0x800040 = true → exec (.bpmQuery v) s = .next (s.after (s.query v))) ∧
  (∀ s : State, s.barServes 0x800000 = true → exec .bpmLogPop s = .next (s.after s.bpmPop)) ∧
  (∀ (v : W32) (s : State), s.barTakes 0x800064 = true → exec (.bpmLogClr v) s = .next (s.after (s.logClear v.toNat))) ∧
  (∀ (agent : Byte) (addr : W64) (r : ReadResult) (s : State), s.live = true →
    exec (.memRead agent addr r) s = .next (s.after (
      let t := s.memRead agent addr.toNat r
      if s.memEnd ≤ addr.toNat then t.lanePoison agent.toNat
      else if s.queuedAt addr.toNat then t else t.memStep (s.chanOf addr.toNat)))) ∧
  (∀ (c : ChanId) (correct : Bool) (s : State), s.live = true →
    exec (.memRetryRead c correct) s = .next (s.after ((s.memRetry c.val correct).memStep c.val))) ∧
  (∀ (agent : Byte) (addr : W64) (data : Bytes) (s : State), s.live = true →
    exec (.memWrite agent addr data) s = .next (s.after (s.memWrite agent addr.toNat data))) ∧
  (∀ s : State, s.memAwake = true → exec .refreshWindow s = .next (s.after s.refresh)) ∧
  (∀ (c : ChanId) (bank : Fin 16) (s : State), s.live = true →
    exec (.rowIdleTimeout c bank) s = .next (s.after (s.rowIdle c.val bank.val))) ∧
  (∀ (dieC : Int) (deviceFast : Bool) (s : State), s.live = true →
    exec (.tempReadout dieC deviceFast) s = .next (s.after (s.tempRead dieC deviceFast))) ∧
  (∀ (drift : List (BitVec 6)) (s : State), s.memAwake = true →
    exec (.oscReadout drift) s = .next (s.after (s.oscRead (drift.map (·.toNat))))) ∧
  (∀ (passed : Bool) (s : State), s.memAwake = true → exec (.channelRetrain passed) s = .next (s.after (s.retrain passed))) ∧
  (∀ (r : ReadResult) (s : State), s.memAwake = true → exec (.scrubRead r) s = .next (s.after (s.scrub r))) ∧
  (∀ s : State, s.pcie = true → exec .functionLevelReset s = .next (s.after s.hostReset)) ∧
  (∀ s : State, s.pcie = true → exec .hotReset s = .next (s.after s.hostReset)) ∧
  (∀ s : State, s.pcie = true → exec .pcieLinkLoss s = .next (s.after s.linkGone)) ∧
  (∀ s : State, s.pcie = true → exec .perstAssert s = .next (s.after s.perstLow)) ∧
  (∀ (refclk : Bool) (gen : BitVec 3) (width : BitVec 4) (s : State), s.pcie = true →
    exec (.perstDeassert refclk gen width) s = .next (s.after (s.perstHigh refclk gen.toNat width.toNat))) ∧
  (∀ (busMaster : Option Bool) (s : State), s.pcie = true → exec (.configRequest busMaster) s = .next (s.after (s.configReq busMaster))) ∧
  (∀ (ring : RingId) (v : W32) (entries : List SubEntry) (s : State), s.cmdsRun = true →
    exec (.sqTail ring v entries) s = .next (s.after (s.doorbell (fun s => s.sqTail ring.val v entries)))) ∧
  (∀ (ring : RingId) (v : W32) (s : State), s.cmdsRun = true →
    exec (.cqHead ring v) s = .next (s.after (s.doorbell (fun s => s.cqHead ring.val v)))) ∧
  (∀ (q : EqId) (v : W32) (s : State), s.cmdsRun = true → exec (.eqDb q v) s = .next (s.after (s.doorbell (fun s => s.eqDbOp q.val v)))) ∧
  (∀ (q : EqId) (s : State), (s.live && decide ((s.eq q.val).ph ≠ .free)) = true →
    exec (.eqCoalTimeout q) s = .next (s.after (s.eqSignal q.val))) ∧
  (∀ (h : CmdRef) (d : HostData) (s : State), s.cmdsRun = true → exec (.txFrame h d) s = .next (s.after (s.txOp h d))) ∧
  (∀ (h : CmdRef) (s : State), s.cmdsRun = true → exec (.rxBuffer h) s = .next (s.after (s.rxOp h))) ∧
  (∀ s : State, s.live = true → exec .excWaitTimeout s = .next (s.after s.excTimeout)) ∧
  (∀ (h : CmdRef) (s : State), s.cmdsRun = true → exec (.nop h) s = .next (s.after (s.runCmd h 0x01 (fun s _ => (s, okRes []))))) ∧
  (∀ (h : CmdRef) (s : State), s.cmdsRun = true →
    exec (.ringCreate h) s = .next (s.after (s.runCmd h 0x10 (fun s e => s.ringCreateCmd e)))) ∧
  (∀ (h : CmdRef) (s : State), s.cmdsRun = true →
    exec (.ringDelete h) s = .next (s.after (s.runCmd h 0x11 (fun s e => s.ringDeleteCmd e)))) ∧
  (∀ (h : CmdRef) (s : State), s.cmdsRun = true →
    exec (.ringResync h) s = .next (s.after (s.runCmd h 0x12 (fun s e => s.ringResyncCmd e)))) ∧
  (∀ (h : CmdRef) (s : State), s.cmdsRun = true → exec (.eqCreate h) s = .next (s.after (s.runCmd h 0x13 (fun s e => s.eqCreateCmd e)))) ∧
  (∀ (h : CmdRef) (s : State), s.cmdsRun = true → exec (.eqDelete h) s = .next (s.after (s.runCmd h 0x14 (fun s e => s.eqDeleteCmd e)))) ∧
  (∀ (h : CmdRef) (s : State), s.cmdsRun = true → exec (.eqResync h) s = .next (s.after (s.runCmd h 0x15 (fun s e => s.eqResyncCmd e)))) ∧
  (∀ (h : CmdRef) (s : State), s.cmdsRun = true → exec (.attach h) s = .next (s.after (s.runCmd h 0x16 (fun s _ => s.attachCmd)))) ∧
  (∀ (h : CmdRef) (d : HostData) (s : State), s.cmdsRun = true →
    exec (.ctxOpen h d) s = .next (s.after (s.runCmd h 0x20 (fun s e => s.withData d e (fun b => answered (s.openCtx e.target.toNat (padTo 256 b))))))) ∧
  (∀ (h : CmdRef) (d : HostData) (s : State), s.cmdsRun = true →
    exec (.ctxChange h d) s = .next (s.after (
      s.runCmd h 0x21 (fun s e => s.withData d e (fun b =>
      let x := s.changeCtx e.target.toNat b
      (x.1, codeD x.2.1 x.2.2)))))) ∧
  (∀ (h : CmdRef) (s : State), s.cmdsRun = true →
    exec (.ctxClose h) s = .next (s.after (s.runCmd h 0x22 (fun s e => s.ctxCloseCmd h e)))) ∧
  (∀ (h : CmdRef) (s : State), s.cmdsRun = true → exec (.ctxQuery h) s = .next (s.after (s.runCmd h 0x23 (fun s e => s.ctxQueryCmd e)))) ∧
  (∀ (h : CmdRef) (d : HostData) (s : State), s.cmdsRun = true →
    exec (.layoutSet h d) s = .next (s.after (
      s.runCmd h 0x24 (fun s e => s.withData d e (fun b =>
      let x := s.setLayout e.target.toNat b
      (x.1, codeD x.2.1 x.2.2)))))) ∧
  (∀ (h : CmdRef) (d : HostData) (s : State), s.cmdsRun = true →
    exec (.sessionNet h d) s = .next (s.after (
      s.runCmd h 0x25 (fun s e => s.withData d e (fun b =>
      let x := s.setNet e.target.toNat (Config.netOf b)
      (x.1, code x.2)))))) ∧
  (∀ (h : CmdRef) (s : State), s.cmdsRun = true →
    exec (.sessionQuery h) s = .next (s.after (s.runCmd h 0x26 (fun s e => s.sessQueryCmd e)))) ∧
  (∀ (h : CmdRef) (d : HostData) (s : State), s.cmdsRun = true →
    exec (.surfaceCreate h d) s = .next (s.after (s.runCmd h 0x30 (fun s e => s.withData d e (fun b => s.surfCreateCmd b))))) ∧
  (∀ (h : CmdRef) (d : HostData) (s : State), s.cmdsRun = true →
    exec (.surfaceUpload h d) s = .next (s.after (s.runCmd h 0x31 (fun s e => s.withData d e (fun b => s.surfUploadCmd e b))))) ∧
  (∀ (h : CmdRef) (d : HostData) (s : State), s.cmdsRun = true →
    exec (.surfaceFlip h d) s = .next (s.after (
      s.runCmd h 0x32 (fun s e =>
      if e.len.toNat = 0 then s.surfFlipCmd e none
      else s.withData d e (fun b => s.surfFlipCmd e (some (Config.flipRect b))))))) ∧
  (∀ (h : CmdRef) (s : State), s.cmdsRun = true →
    exec (.surfaceDelete h) s = .next (s.after (s.runCmd h 0x33 (fun s e => s.surfDeleteCmd e)))) ∧
  (∀ (h : CmdRef) (d : HostData) (s : State), s.cmdsRun = true →
    exec (.layerSet h d) s = .next (s.after (s.runCmd h 0x34 (fun s e => s.withData d e (fun b => s.layerCmd e b))))) ∧
  (∀ (h : CmdRef) (s : State), s.cmdsRun = true → exec (.fbQuery h) s = .next (s.after (s.runCmd h 0x40 (fun s e => s.fbQueryCmd e)))) ∧
  (∀ (h : CmdRef) (s : State), s.cmdsRun = true → exec (.fbPin h) s = .next (s.after (s.runCmd h 0x41 (fun s e => s.fbPinCmd e)))) ∧
  (∀ (h : CmdRef) (s : State), s.cmdsRun = true →
    exec (.fbRelease h) s = .next (s.after (s.runCmd h 0x42 (fun s e => s.fbReleaseCmd e)))) ∧
  (∀ (h : CmdRef) (s : State), s.cmdsRun = true →
    exec (.laneDrain h) s = .next (s.after (s.runCmd h 0x60 (fun s e => s.laneDrainCmd h e)))) ∧
  (∀ (h : CmdRef) (s : State), s.cmdsRun = true →
    exec (.laneRelease h) s = .next (s.after (s.runCmd h 0x61 (fun s e => s.laneReleaseCmd e)))) ∧
  (∀ (h : CmdRef) (d : HostData) (flashOk : Bool) (s : State), s.cmdsRun = true →
    exec (.imageInstall h d flashOk) s = .next (s.after (s.installOp h d flashOk))) ∧
  (∀ (h : CmdRef) (s : State), s.cmdsRun = true → exec (.imageRatchet h) s = .next (s.after (s.ratchetOp h))) ∧
  (∀ (h : CmdRef) (d : HostData) (s : State), s.cmdsRun = true → exec (.waymapInstall h d) s = .next (s.after (s.waymapInstallOp h d))) ∧
  (∀ (h : CmdRef) (d : HostData) (s : State), s.cmdsRun = true → exec (.detour h d) s = .next (s.after (s.detourOp h d))) ∧
  (∀ (h : CmdRef) (d : HostData) (s : State), s.cmdsRun = true → exec (.attest h d) s = .next (s.after (s.attestOp h d))) ∧
  (∀ (h : CmdRef) (s : State), s.cmdsRun = true → exec (.attestCert h) s = .next (s.after (s.certOp h))) ∧
  (∀ (h : CmdRef) (s : State), s.cmdsRun = true →
    exec (.timeSource h) s = .next (s.after (s.runCmd h 0x80 (fun s e => s.timeSourceCmd e)))) ∧
  (∀ (h : CmdRef) (s : State), s.cmdsRun = true → exec (.ptpCtl h) s = .next (s.after (s.runCmd h 0x81 (fun s e => s.ptpCmd e none)))) ∧
  (∀ (h : CmdRef) (s : State), s.cmdsRun = true → exec (.powerState h) s = .next (s.after (s.powerStateOp h))) ∧
  (∀ (h : CmdRef) (s : State), s.cmdsRun = true →
    exec (.faultLogRead h) s = .next (s.after (s.runCmd h 0x91 (fun s e => s.faultLogCmd e)))) ∧
  (∀ (_v : W32) (s : State), s.barTakes 0x400048 = true → exec (.heartbeat _v) s = .next (s.after s.restartWatchdog)) ∧
  (∀ s : State, s.live = true → exec .heartbeatTimeout s = .next (s.after s.hbExpire)) ∧
  (∀ (src : SrcId) (context : W32) (detail : W64) (s : State), s.live = true →
    exec (.eventAssert src context detail) s = .next (s.after (s.assertSrc src.val (Config.eventCode (nameOf src.val)).toNat context.toNat detail.toNat))) ∧
  (∀ (src : SrcId) (s : State), s.live = true → exec (.eventDeassert src) s = .next (s.after (s.deassertSrc src.val))) ∧
  (∀ (t : TgtId) (s : State), (if t.val < 5 then s.live else s.barServes 0x501000) = true →
    exec (.claim t) s = .next (s.after (s.claimOp t.val))) ∧
  (∀ (t : TgtId) (v : W32) (s : State), (if t.val < 5 then s.live else s.barTakes 0x501000) = true →
    exec (.complete t v) s = .next (s.after (s.completeOp t.val (fld v.toNat 0 16)))) ∧
  (∀ (t : TgtId) (v : W32) (s : State), ((if t.val < 5 then s.live else s.barTakes 0x501000) && tb v.toNat 0) = true →
    exec (.thaw t v) s = .next (s.after (s.thawOp t.val))) ∧
  (∀ (sp : SpId) (s : State), s.live = true → exec (.spReportMissed sp) s = .next (s.after (s.spMissed sp.val))) ∧
  (∀ (sp : SpId) (s : State), s.live = true → exec (.spRestartComplete sp) s = .next (s.after (s.spRestarted sp.val))) ∧
  (∀ (sp : SpId) (s : State), s.live = true → exec (.spHoldExpire sp) s = .next (s.after (s.spHeld sp.val))) ∧
  (∀ s : State, s.live = true → exec .svpWatchdogExpire s = .next (s.after (s.raise fCpuSvpWdog 0 0))) ∧
  (∀ (c : DmaId) (v : W32) (s : State), (s.dmaMay c.val && tb v.toNat 31 && !tb v.toNat 30) = true →
    exec (.dmaGo c v) s = .next (s.after (s.dmaGo c.val v false))) ∧
  (∀ (c : DmaId) (v : W32) (s : State), (s.dmaMay c.val && tb v.toNat 31 && tb v.toNat 30) = true →
    exec (.dmaResume c v) s = .next (s.after (s.dmaGo c.val v true))) ∧
  (∀ (c : DmaId) (hostData : Bytes) (s : State), s.live = true →
    exec (.dmaTransferDone c hostData) s = .next (s.after (s.dmaDone c.val hostData))) ∧
  (∀ (addr : W64) (space : DmaSpace) (write : Bool) (s : State), s.live = true →
    exec (.dmaBusError addr space write) s = .next (s.after (s.dmaBusError addr (decide (space = .host)) write))) ∧
  (∀ (v : W32) (s : State), s.barTakes 0x600040 = true → exec (.dmaBuserrClear v) s = .next (s.after (s.buserrClear v.toNat))) ∧
  (∀ (image : Bytes) (s : State), s.live = true → exec (.debugTokenPresent image) s = .next (s.after ((s.presentToken image).1))) ∧
  (∀ (v : W32) (s : State), (s.barTakes 0x300080 && s.plt.recovery && tb v.toNat 31 && decide (fld v.toNat 29 2 = 0)) = true →
    exec (.recoveryProgram v) s = .next (s.after (s.recProgram v))) ∧
  (∀ (v : W32) (s : State), (s.barTakes 0x300080 && s.plt.recovery && tb v.toNat 31 && decide (fld v.toNat 29 2 = 1)) = true →
    exec (.recoveryVerify v) s = .next (s.after (s.recVerify v))) ∧
  (∀ (flashOk : Bool) (s : State), (s.plt.up && s.plt.recovery) = true →
    exec (.recoveryProgramDone flashOk) s = .next (s.after (s.recDone flashOk))) ∧
  (∀ (v : Byte) (s : State), s.plt.up = true → exec (.stateReq v) s = .next (s.after (s.stateReq v.toNat))) ∧
  (∀ s : State, s.plt.up = true → exec .stateRead s = .next (s.after (s.mgmtRead s.pwrStat.toNat))) ∧
  (∀ s : State, s.plt.up = true → exec .healthRead s = .next (s.after (s.mgmtRead s.glb.health))) ∧
  (∀ (addr : BitVec 7) (s : State), s.plt.up = true → exec (.mgmtAddressMatch addr) s = .next (s.after (s.mgmtMatch addr.toNat))) ∧
  (∀ s : State, s.plt.up = true → exec .smbusTimeout s = .next (s.after s.smbusTimeout)) ∧
  (∀ s : State, s.plt.up = true → exec .blockStopDone s = .next (s.after s.blockStop)) ∧
  (∀ s : State, s.plt.up = true → exec .drainTimeout s = .next (s.after s.drainTimeout)) ∧
  (∀ s : State, s.plt.up = true → exec .entryRetry s = .next (s.after s.entryRetry)) ∧
  (∀ (lowUs : Nat) (b : BoardInputs) (s : State), (s.plt.up || decide (s.plt.cur = 4)) = true →
    exec (.wakeN lowUs b) s = .next (s.after (s.wakeN lowUs b))) ∧
  (∀ s : State, s.plt.up = true → exec .wakeTimer s = .next (s.after s.wakeTimer)) ∧
  (∀ (l : LaneId) (s : State), s.live = true → exec (.laneIdleTimeout l) s = .next (s.after (s.laneIdle l.val))) ∧
  (∀ (p : PipeId) (s : State), s.live = true → exec (.pipeIdleTimeout p) s = .next (s.after (s.pipeIdle p.val))) ∧
  (∀ (vin holdup : Nat) (s : State), s.plt.up = true → exec (.vinFall vin holdup) s = .next (s.after (s.vinFall vin holdup))) ∧
  (∀ (vin : Nat) (s : State), s.plt.up = true → exec (.vinReturn vin) s = .next (s.after (s.vinReturn vin))) ∧
  (∀ s : State, s.plt.up = true → exec .holdupExhausted s = .next (s.after s.holdupOut)) ∧
  (∀ s : State, s.plt.up = true → exec .holdupChargeTimeout s = .next (s.after s.chargeTimeout)) ∧
  (∀ (src : FltId) (unit particulars : W16) (s : State), s.plt.up = true →
    exec (.faultRaise src unit particulars) s = .next (s.after (s.raiseWith src.val unit.toNat particulars.toNat false))) ∧
  (∀ (src : FltId) (v : W32) (s : State), s.barTakes 0x200000 = true →
    exec (.fltSrcForce src v) s = .next (s.after (s.force src.val v.toNat))) ∧
  (∀ (src : FltId) (v : W32) (s : State), s.barTakes 0x200000 = true →
    exec (.fltStickyClear src v) s = .next (s.after (s.stickyClear src.val v.toNat))) ∧
  (∀ (v : W32) (s : State), s.barTakes 0x200048 = true → exec (.selfchkInject v) s = .next (s.after (s.inject v.toNat))) ∧
  (∀ s : State, (s.plt.up && !s.flt.safe) = true → exec .selfcheckMismatch s = .next (s.after s.enterSafe)) ∧
  (∀ (l : LaneId) (s : State), s.live = true → exec (.sliceStallTimeout l) s = .next (s.after (s.stallTimeout l.val))) ∧
  (∀ s : State, s.live = true → exec .faultLogFlush s = .next (s.after s.flushLog)) ∧
  (∀ (u : UnitId) (v : W32) (s : State), s.hdrTakes u = true →
    exec (.ctlEnWrite u v) s = .next (s.after (s.headerWrite (unitKey u) 0 v.toNat))) ∧
  (∀ (u : UnitId) (s : State), s.plt.up = true → exec (.unitStopComplete u) s = .next (s.after (s.stopComplete (unitKey u)))) ∧
  (∀ (u : UnitId) (v : W32) (s : State), s.hdrTakes u = true →
    exec (.ignwClear u v) s = .next (s.after (s.headerWrite (unitKey u) 4 v.toNat))) ∧
  (∀ (u : UnitId) (v : W32) (s : State), s.hdrTakes u = true →
    exec (.oobClear u v) s = .next (s.after (s.headerWrite (unitKey u) 8 v.toNat))) ∧
  (∀ (addr v : W32) (s : State), (s.barTakes addr.toNat && (pairDesc addr.toNat).isSome) = true →
    exec (.rwsWrite addr v) s = .next (s.after (s.rwsWrite addr.toNat v.toNat))) ∧
  (∀ s : State, s.pcie = true → exec .bar0BadAccess s = .next (s.after s.badAccess)) ∧
  (∀ (v : W32) (s : State), s.barTakes 0x68 = true → exec (.badaccClear v) s = .next (s.after (s.badClear v.toNat))) ∧
  (∀ (w : IndId) (v : W32) (s : State), (s.barTakes (indBase (indKey w))) = true →
    exec (.indAddrWrite w v) s = .next (s.after (s.indAccess (indKey w) (.addr v)))) ∧
  (∀ (w : IndId) (s : State), (s.barServes (indBase (indKey w))) = true →
    exec (.indDataRead w) s = .next (s.after (s.indAccess (indKey w) .read))) ∧
  (∀ (w : IndId) (v : W32) (s : State), (s.barTakes (indBase (indKey w))) = true →
    exec (.indDataWrite w v) s = .next (s.after (s.indAccess (indKey w) (.write v)))) ∧
  (∀ (w : IndId) (s : State), s.plt.up = true → exec (.indPrefetchDone w) s = .next (s.after (s.indDone (indKey w)))) ∧
  (∀ (w : IndId) (v : W32) (s : State), (s.barTakes (indBase (indKey w))) = true →
    exec (.indErrClear w v) s = .next (s.after (s.indClear (indKey w) v.toNat))) ∧
  (∀ (v : W32) (s : State), s.barTakes 0x30 = true → exec (.snapshot v) s = .next (s.after (s.snap v.toNat))) ∧
  (∀ s : State, s.plt.up = true → exec .snapshotComplete s = .next (s.after s.snapDone)) ∧
  (∀ s : State, s.barServes 0x40 = true → exec .timeRead s = .next (s.after s.timeLatch)) ∧
  (∀ (addr v : W32) (s : State), s.barTakes addr.toNat = true →
    exec (.registerWrite addr v) s = .next (s.after (if addr.toNat % 4 = 0 then s.writeBar addr.toNat v else s.badAccess))) ∧
  (∀ (p : PortId) (linkUp : Bool) (speed : BitVec 2) (fullDuplex : Bool) (s : State), s.live = true →
    exec (.sgmiiControlWordChange p linkUp speed fullDuplex) s = .next (s.after (s.sgmii p.val linkUp speed.toNat fullDuplex)))

/-- A command's own effect is all that happens where nothing is left to settle: every other field, the queue among them,
is as it was. -/
def Obligations.SettledStateStands : Prop :=
  ∀ (c : Instr) (s t : State), exec c s = .next (s.after t) → t.quiet = true → exec c s = .next { t with pending := s.pending }

/-! ### The register interface (R56 to R72) -/

/-- The header (R58, R59, R61): EN written 1 starts a unit, or defers the start while a stop is in progress; EN written 0 begins a
stop or cancels a deferral; RUNNING falls when the stop completes; FLAG written 1 clears a count. Each such write is taken,
where a header exists and it is not one of firmware's DMA channels. -/
def Obligations.HeaderCommandsAnswer : Prop :=
  (∀ (u : UnitId) (v : W32) (s : State), s.hdrTakes u = true → isFwDma (unitKey u) = false →
    let k := unitKey u
    exec (.ignwClear u v) s =
      .next (s.after (if tb v.toNat 31 then s.setUnit k { s.unit k with ignwFlag := false, ignw := 0 } else s)) ∧
    exec (.oobClear u v) s =
      .next (s.after (if tb v.toNat 31 then s.setUnit k { s.unit k with oobFlag := false, oob := 0 } else s))) ∧
  (∀ (u : UnitId) (v : W32) (s : State), s.hdrTakes u = true → isFwDma (unitKey u) = false →
    (isPortKey (unitKey u) = true → (s.port (unitKey u - 128)).mapped = false ∧ s.noPorts = false) →
    let k := unitKey u
    let w := s.ctlWakes k
    let h := w.unit k
    (tb v.toNat 0 = true → h.en = true → exec (.ctlEnWrite u v) s = .next (s.after w)) ∧
    (tb v.toNat 0 = true → h.en = false → h.running = true →
      exec (.ctlEnWrite u v) s = .next (s.after (w.setUnit k { h with enPending := true }))) ∧
    (tb v.toNat 0 = true → h.en = false → h.running = false → w.pltHolds k = false → w.portHeld k = false →
      exec (.ctlEnWrite u v) s = .next (s.after (w.startUnit k))) ∧
    (tb v.toNat 0 = false → h.enPending = true →
      exec (.ctlEnWrite u v) s = .next (s.after (w.setUnit k { h with enPending := false }))) ∧
    (tb v.toNat 0 = false → h.enPending = false → h.en = true →
      exec (.ctlEnWrite u v) s = .next (s.after (w.stopUnit k)))) ∧
  (∀ (b : Fin 17) (s : State), b.val ∉ [bHQE, bDMA, bMEM, bTMG, bCAS] →
    s.startUnit b.val = s.setUnit b.val { s.unit b.val with en := true, enPending := false, running := true } ∧
    s.stopUnit b.val = s.setUnit b.val { s.unit b.val with en := false }) ∧
  (∀ (u : UnitId) (s : State), s.plt.up = true → (s.unit (unitKey u)).running = true → (s.unit (unitKey u)).en = false →
    s.mayStop (unitKey u) = true →
    exec (.unitStopComplete u) s =
      .next (s.after (if (s.unit (unitKey u)).enPending
        then ((s.fallUnit (unitKey u)).restartState (unitKey u)).startUnit (unitKey u) else s.fallUnit (unitKey u))))

/-- A write to a register stores its fields; static fields do not change while the header's RUNNING is 1 (R60), whatever is
written. -/
def Obligations.StaticFieldsKeepTheirValues : Prop :=
  ∀ (a v old : Nat) (s : State) (d : RegDesc) (f : RField), old < 2 ^ 32 → regDesc a = some d → f ∈ d.fields → f.static = true →
    fld (s.newWord d true old v) f.lo f.w = fld old f.lo f.w

/-- A register write: GLB_SCRATCH takes the word (R72); an address that is not aligned is ignored and counted (R56); a
boundary-applied write within the bounds goes to the shadow, with PEND while its unit runs and to both values otherwise, and
one outside them changes only the header's count (R62, R63, R66). -/
def Obligations.RegisterWritesAnswer : Prop :=
  (∀ (v : W32) (s : State), s.barTakes 0x50 = true →
    exec (.registerWrite 0x50 v) s = .next (s.after { s with regs := Tbl.put s.regs 0x50 v })) ∧
  (∀ (a v : W32) (s : State), s.barTakes a.toNat = true → a.toNat % 4 ≠ 0 →
    exec (.registerWrite a v) s =
      .next (s.after { s with glb := { s.glb with badFlag := true, badCount := min (s.glb.badCount + 1) 0xFFFF } })) ∧
  (∀ (a v : W32) (s : State) (d : PairDesc), s.barTakes a.toNat = true → pairDesc a.toNat = some d →
    (d.ids.all (fun e => s.inBounds e.1 (fld v.toNat e.2.1 e.2.2)) = false →
      exec (.rwsWrite a v) s = .next (s.after (s.oob d.key))) ∧
    (d.ids.all (fun e => s.inBounds e.1 (fld v.toNat e.2.1 e.2.2)) = true → s.pairRuns a.toNat d.key = false →
      exec (.rwsWrite a v) s = .next (s.after { s with
        regs := Tbl.put (Tbl.put s.regs a.toNat (w32 (fld v.toNat 0 d.width))) (a.toNat + 4) (w32 (fld v.toNat 0 d.width)) })) ∧
    (d.ids.all (fun e => s.inBounds e.1 (fld v.toNat e.2.1 e.2.2)) = true → s.pairRuns a.toNat d.key = true →
      ∃ t, exec (.rwsWrite a v) s = .next (s.after t) ∧
        t.regs = Tbl.put (Tbl.put s.regs a.toNat (w32 (fld v.toNat 0 d.width))) (a.toNat + 4)
          (w32 (fld (s.word (a.toNat + 4) d.reset) 0 31 + 2 ^ 31)) ∧
        t = { s with regs := t.regs, tmg := { s.tmg with rateAt := t.tmg.rateAt } }))

/-- An indirect pair (R67, R68): an access while BUSY is held; _IND_ADDR takes its fields and begins a prefetch; a read gives the
prefetched word, or 0 and RANGE beyond the space; a write posts its word, or is ignored with RANGE, READONLY or LOCKED;
and ERRF written 1 clears the error. -/
def Obligations.IndirectPairsAnswer : Prop :=
  (∀ (w : IndId) (v : W32) (s : State), s.barTakes (indBase (indKey w)) = true →
    (s.indSt (indKey w)).busy = true →
    let hold := fun a => s.setInd (indKey w) { s.indSt (indKey w) with held := (s.indSt (indKey w)).held ++ [a] }
    exec (.indAddrWrite w v) s = .next (s.after (hold (.addr v))) ∧
    exec (.indDataRead w) s = .next (s.after (hold .read)) ∧
    exec (.indDataWrite w v) s = .next (s.after (hold (.write v)))) ∧
  (∀ (w : IndId) (v : W32) (s : State), s.barTakes (indBase (indKey w)) = true →
    let k := indKey w
    let x := s.indSt k
    x.busy = false →
    exec (.indAddrWrite w v) s = .next (s.after (s.setInd k { x with
      ainc := tb v.toNat 31, space := fld v.toNat 28 3, waddr := fld v.toNat 0 28, busy := true, post := none })) ∧
    (∀ n rw, s.spaceOf k x.space = some (n, rw) → x.waddr < n →
      exec (.indDataRead w) s =
        .next (s.after ((s.setInd k { x.next with busy := x.ainc }).emit (.regRead (indBase k + 4) x.data)))) ∧
    (∀ n rw, s.spaceOf k x.space = some (n, rw) → n ≤ x.waddr →
      exec (.indDataRead w) s =
        .next (s.after ((s.setInd k { (x.fail eRANGE).next with busy := x.ainc }).emit (.regRead (indBase k + 4) 0))) ∧
      exec (.indDataWrite w v) s = .next (s.after (s.setInd k { (x.fail eRANGE).next with busy := true }))) ∧
    (∀ n, s.spaceOf k x.space = some (n, true) → x.waddr < n → s.indLocked k x.waddr = false →
      exec (.indDataWrite w v) s =
        .next (s.after (s.setInd k { x.next with post := some v, busy := true }))) ∧
    (∀ n, s.spaceOf k x.space = some (n, true) → x.waddr < n → s.indLocked k x.waddr = true →
      exec (.indDataWrite w v) s = .next (s.after (s.setInd k { (x.fail eLOCKED).next with busy := true }))) ∧
    (∀ n, s.spaceOf k x.space = some (n, false) → x.waddr < n →
      exec (.indDataWrite w v) s = .next (s.after (s.setInd k { (x.fail eREADONLY).next with busy := true })))) ∧
  (∀ (w : IndId) (s : State) (n : Nat) (rw : Bool), s.plt.up = true →
    let k := indKey w
    let x := s.indSt k
    x.busy = true → x.post = none → x.held = [] → s.spaceOf k x.space = some (n, rw) → x.waddr < n →
    exec (.indPrefetchDone w) s =
      .next (s.after (s.setInd k { x with busy := false, data := w32 (s.indWord k x.space x.waddr) }))) ∧
  (∀ (w : IndId) (v : W32) (s : State), s.barTakes (indBase (indKey w)) = true → tb v.toNat 30 = true →
    exec (.indErrClear w v) s =
      .next (s.after (s.setInd (indKey w) { s.indSt (indKey w) with errf := false, err := 0, errAddr := 0 })))

/-- A word posted into a context record reads back as the word (R67, R68): its record word, and every byte of the records
outside it reads as before. -/
def Obligations.PostedRecordWordReadsBack : Prop :=
  ∀ (s : State) (a v : Nat), v < 2 ^ 32 →
    (s.indLand 0 0 a v).indWord 0 0 a = v ∧
    (∀ r off : Nat, off < 256 → (256 * r + off < 4 * a ∨ 4 * a + 4 ≤ 256 * r + off) →
      (s.indLand 0 0 a v).recByte r off = s.recByte r off)

/-- GLB (R56, R70, R72): a bad access sets FLAG and counts, saturating; FLAG written 1 clears both; a GO with a scope of 0 to 16 or 0xFF
starts a copy and another, or one while BUSY, counts in LOST; the copy advances the sequence by one and takes the module
time; a read of GLB_TIME_LO latches the two other words. A read of GLB_ID gives the part, the stepping and the voted module ID,
and the two words of a holding register give what was copied into it (R69). -/
def Obligations.GlbCommandsAnswer : Prop :=
  (∀ s : State, s.pcie = true →
    exec .bar0BadAccess s =
      .next (s.after { s with glb := { s.glb with badFlag := true, badCount := min (s.glb.badCount + 1) 0xFFFF } })) ∧
  (∀ (v : W32) (s : State), s.barTakes 0x68 = true → tb v.toNat 31 = true →
    exec (.badaccClear v) s = .next (s.after { s with glb := { s.glb with badFlag := false, badCount := 0 } })) ∧
  (∀ (v : W32) (s : State), s.barTakes 0x30 = true → tb v.toNat 31 = true → s.glb.snapBusy = false →
    (fld v.toNat 0 8 ≤ 16 ∨ fld v.toNat 0 8 = 255) →
    exec (.snapshot v) s = .next (s.after { s with
      glb := { s.glb with snapScope := fld v.toNat 0 8, snapBusy := true, snapFor := fld v.toNat 0 8 } })) ∧
  (∀ (v : W32) (s : State), s.barTakes 0x30 = true → tb v.toNat 31 = true →
    (s.glb.snapBusy = true ∨ (16 < fld v.toNat 0 8 ∧ fld v.toNat 0 8 ≠ 255)) →
    exec (.snapshot v) s = .next (s.after { s with
      glb := { s.glb with snapScope := fld v.toNat 0 8, snapLost := min (s.glb.snapLost + 1) 0xFFFF } })) ∧
  (∀ s : State, s.plt.up = true → s.glb.snapBusy = true →
    ∃ h, exec .snapshotComplete s = .next (s.after { s with
      held := h, glb := { s.glb with snapBusy := false, snapSeq := s.glb.snapSeq + 1, snapTime := s.ns } }) ∧
      (s.cnt.wf = true → ∀ k : Nat, Tbl.find s.cnt k ≠ none → (s.glb.snapFor = 255 ∨ cntBlock k = s.glb.snapFor) →
        Tbl.get 0 h k = Tbl.get 0 s.cnt k) ∧
      (∀ k : Nat, s.glb.snapFor ≠ 255 → cntBlock k ≠ s.glb.snapFor → Tbl.get 0 h k = Tbl.get 0 s.held k)) ∧
  (∀ s : State, s.barServes 0x40 = true →
    exec .timeRead s = .next (s.after (State.emit { s with
      glb := { s.glb with timeHi := w32 (s.ns / 2 ^ 32), timeFrac := s.time % 2 ^ 16 } } (.regRead 0x40 (w32 (s.ns % 2 ^ 32)))))) ∧
  (∀ s : State, s.barServes 0 = true → s.readBar 0 = some (w32 (0x9256B100 + s.plt.cascId % 4))) ∧
  (∀ (s : State) (n : Fin 8), s.barServes (0xD00100 + 8 * n.val) = true → s.barServes (0xD00104 + 8 * n.val) = true →
    let h := Tbl.get 0 s.held (cntKey bMSC 0 n.val)
    s.readBar (0xD00100 + 8 * n.val) = some (w32 (h % 2 ^ 32)) ∧
    s.readBar (0xD00104 + 8 * n.val) = some (w32 (h / 2 ^ 32 % 2 ^ 16)))
/-! ### Coding lanes (R73 to R121) -/

/-- Lane instructions (R73, R76, R86 to R88, R108): the job at the head of a lane's queue leaves it as it starts, enters its vector, and runs in its
context. NOP and FENCE complete; LOAD_CONTEXT fills the prefetch slot, SAVE_CONTEXT unloads both; a reserved opcode and a row job for a
context that is closed or of the other kind raise LANE_BAD_JOB; a decode attempt whose data ends early is abandoned (R226); and a row job is
marked late after its deadline. -/
def Obligations.LaneInstructionsAnswer : Prop :=
  ∀ (l : LaneId) (j : Job) (s : State), s.live = true → s.headJob l.val = some j →
    let u := s.popJob l.val
    let plain := fun (c : Instr) => ∃ (t : State) (r : LaneRun), exec c s = .next (s.after t) ∧ (t.lane l.val).run = some r ∧ r.job = j ∧
      r.visible = true ∧ (t.lane l.val).ms = .run ∧ (t.lane l.val).upc = vectorOf j.op ∧ (t.lane l.val).queue = (u.lane l.val).queue
    (j.op = .nop → plain (.laneNop l)) ∧
    (j.op = .fence → (∀ m : Nat, m ∈ u.members l.val → (u.lane m).gate = false) → plain (.fence l)) ∧
    (j.op = .load → plain (.loadContext l) ∧ ∃ t : State, exec (.loadContext l) s = .next (s.after t) ∧ (t.lane l.val).prefetch = some j.ctx) ∧
    (j.op = .save → plain (.saveContext l) ∧ ∃ t : State, exec (.saveContext l) s = .next (s.after t) ∧ (t.lane l.val).active = none ∧
      (t.lane l.val).prefetch = none) ∧
    (∀ n, j.op = .reserved n →
      exec (.laneBadJob l) s = .next (s.after ((u.freeJob j).raise fLaneBadJob l.val j.ctx))) ∧
    (j.op = .encode → Tbl.find s.opens j.ctx ≠ some 3 →
      exec (.encodeRow l) s = .next (s.after ((u.freeJob j).raise fLaneBadJob l.val j.ctx))) ∧
    (j.op = .encode → Tbl.find s.opens j.ctx = some 3 → ∃ (t : State) (r : LaneRun),
      exec (.encodeRow l) s = .next (s.after t) ∧ (t.lane l.val).run = some r ∧ r.job.ctx = j.ctx ∧ r.job.row = j.row ∧
        r.job.pic = j.pic ∧ r.visible = false ∧ r.start = s.ns ∧ r.late = decide (j.deadline < s.ns) ∧
        (∀ p, j.plan = some p → r.job = j ∧ r.target = p.1 ∧ r.qp = p.2.1 ∧ r.coast = p.2.2) ∧
        (t.lane l.val).ms = .run ∧ (t.lane l.val).upc = 0x30 ∧ (t.lane l.val).active = some j.ctx) ∧
    (∀ (f : DecodeFacts) (t : State), f.ranOut = true → s.shortRow l.val = some t → exec (.decodeRow l f) s = .next (s.after t)) ∧
    (∀ f : DecodeFacts, j.op = .decode → Tbl.find s.opens j.ctx ≠ some 4 → (f.ranOut = false ∨ s.shortRow l.val = none) →
      exec (.decodeRow l f) s = .next (s.after ((u.freeJob j).raise fLaneBadJob l.val j.ctx))) ∧
    (∀ f : DecodeFacts, j.op = .decode → Tbl.find s.opens j.ctx = some 4 → (f.ranOut = false ∨ s.shortRow l.val = none) →
      ∃ (t : State) (r : LaneRun),
      exec (.decodeRow l f) s = .next (s.after t) ∧ (t.lane l.val).run = some r ∧ r.job.ctx = j.ctx ∧ r.job.row = j.row ∧ r.job.pic = j.pic ∧
        r.visible = false ∧ r.bytes = f.bytes ∧ r.start = s.ns ∧ r.late = decide (j.deadline < s.ns) ∧ (t.lane l.val).ms = .run ∧
        (t.lane l.val).upc = 0x40 ∧ (t.lane l.val).active = some j.ctx)

/-- The end of a row and of a picture (R17, R74, R76, R86, R92, R174): a row that runs, whose job still stands and whose turn has come, becomes
visible with its record in the statistics FIFO; one whose job's generation has passed is discarded and counted; an encoded row without SLICE
buffers raises the SLICE trap instead; a flush of a picture leaves its record; and a stall of 10 ms is lasting. -/
def Obligations.RowsBecomeVisibleTogether : Prop :=
  (∀ (l : LaneId) (r : LaneRun) (f : RowFacts) (s : State), s.live = true → (s.lane l.val).run = some r → r.visible = false →
    (s.lane l.val).ms ≠ .halted → (s.lane l.val).power = 2 → (s.lane l.val).lsf.length < 512 →
    (((s.job r.job.idx).gen ≠ r.job.gen ∨ Tbl.find s.msc.jobs r.job.idx = none) →
      exec (.rowComplete l f) s = .next (s.after ((s.bump bMSC 7).runVisible l.val))) ∧
    ((s.job r.job.idx).gen = r.job.gen → Tbl.find s.msc.jobs r.job.idx ≠ none → s.rasterTurn l.val r.job = true →
      ((r.job.op = .decode ∨ (r.job.op = .encode ∧ (s.takeSlices l.val r.job.ctx (ceilDiv f.bits 8)).2 ≠ none)) →
        ∃ t : State, exec (.rowComplete l f) s = .next (s.after t) ∧
          (t.lane l.val).run = some { r with visible := true } ∧ (t.lane l.val).lsf.length = (s.lane l.val).lsf.length + 1) ∧
      (∀ t : State, r.job.op = .encode → s.takeSlices l.val r.job.ctx (ceilDiv f.bits 8) = (t, none) →
        exec (.rowComplete l f) s = .next (s.after (t.sliceTrap l.val))))) ∧
  (∀ (l : LaneId) (j : Job) (s : State), s.live = true → s.headJob l.val = some j → j.op = .flush →
    Tbl.find s.opens j.ctx = some 4 → ((s.popJob l.val).lane l.val).lsf.length < 512 →
    ∃ t : State, exec (.flushPicture l) s = .next (s.after t) ∧
      (t.lane l.val).lsf.length = ((s.popJob l.val).lane l.val).lsf.length + 1) ∧
  (∀ (l : LaneId) (j : Job) (s : State), s.live = true → s.headJob l.val = some j → j.op = .flush →
    Tbl.find s.opens j.ctx = some 3 → ((s.popJob l.val).enc j.ctx).cur.open_ = false → ((s.popJob l.val).lane l.val).lsf.length < 512 →
    ∃ t : State, exec (.flushPicture l) s = .next (s.after t) ∧
      (t.lane l.val).lsf.length = ((s.popJob l.val).lane l.val).lsf.length + 1) ∧
  (∀ (l : LaneId) (t0 : Nat) (s : State), s.live = true → (s.lane l.val).stallAt = some t0 →
    (s.fltSrc fLaneSliceStall).outcome = .pending →
    (t0 + 10 * ms ≤ s.ns → exec (.sliceStallTimeout l) s = .next (s.after (s.decideFault fLaneSliceStall l.val true))) ∧
    (s.ns < t0 + 10 * ms → exec (.sliceStallTimeout l) s = .next (s.after s)))

/-- Microwords (R103 to R107): each is the word at the micro-PC of a lane that fetches, of its kind and with good parity. ISSUE sends its nanoword
repeat + 1 times before the next word; BRANCH goes to its target when its condition differs from NEG; CALL and RETURN use the stack
of eight; END_JOB waits for visible results; WAIT and DRAIN stall; the loads load. -/
def Obligations.MicrowordsAnswer : Prop :=
  ∀ (l : LaneId) (w : Nat) (out : Bool) (s : State), s.live = true →
    let x := s.lane l.val
    let go := (x.upc + 1) % 8192
    let nw := Tbl.get 0 x.nano (fld w 12 10)
    (∀ b : Bool, s.mword l.val 0 = some w → (x.waits = true ∨ (nanoSyndrome nw = 0 ∧ tb nw 190 = true ∧ b = false)) →
      exec (.issueMw l b) s = .next (s.after s)) ∧
    (∀ b : Bool, s.mword l.val 0 = some w → x.waits = false → nanoSyndrome nw = 0 → (tb nw 190 = false ∨ b = true) →
      ∃ t : State, exec (.issueMw l b) s = .next (s.after t) ∧
        (x.rep.getD (fld w 8 4 + 1) ≤ 1 → (t.lane l.val).upc = go ∧ (t.lane l.val).rep = none) ∧
        (1 < x.rep.getD (fld w 8 4 + 1) → (t.lane l.val).upc = x.upc ∧
          (t.lane l.val).rep = some (x.rep.getD (fld w 8 4 + 1) - 1)) ∧
        (t.lane l.val).stages = stagesOf x.stages nw ∧ (t.lane l.val).atomic = (x.atomic || tb nw 191)) ∧
    (s.mword l.val 1 = some w → fld w 16 6 < 0x20 →
      ∃ t : State, exec (.branchMw l out) s = .next (s.after t) ∧
        (t.lane l.val).loop0 = (if fld w 16 6 = 1 then (x.loop0 + 2 ^ 15 - 1) % 2 ^ 15 else x.loop0) ∧
        (t.lane l.val).loop1 = (if fld w 16 6 = 2 then (x.loop1 + 2 ^ 15 - 1) % 2 ^ 15 else x.loop1) ∧
        (3 ≤ fld w 16 6 → (t.lane l.val).upc = (if s.condition l.val (fld w 16 6) x.loop0 x.loop1 out = tb w 15 then go else fld w 0 13)) ∧
        (fld w 16 6 = 0 → (t.lane l.val).upc = (if tb w 15 then go else fld w 0 13)) ∧
        (fld w 16 6 = 1 → (t.lane l.val).upc = (if decide ((t.lane l.val).loop0 ≠ 0) = tb w 15 then go else fld w 0 13)) ∧
        (fld w 16 6 = 2 → (t.lane l.val).upc = (if decide ((t.lane l.val).loop1 ≠ 0) = tb w 15 then go else fld w 0 13))) ∧
    (s.mword l.val 2 = some w → tb w 21 = false → x.stack.length < 8 →
      exec (.callMw l) s = .next (s.after (s.setLane l.val { x with stack := go :: x.stack, upc := fld w 0 13 }))) ∧
    (∀ (a : Nat) (r : List Nat), s.mword l.val 2 = some w → tb w 21 = true → x.stack = a :: r →
      exec (.returnMw l) s = .next (s.after (s.setLane l.val { x with stack := r, upc := a }))) ∧
    (s.special l.val 0 = some w → x.quiet = false → exec (.endJob l) s = .next (s.after s)) ∧
    (s.special l.val 0 = some w → x.quiet = true →
      ∃ t : State, exec (.endJob l) s = .next (s.after t) ∧ (t.lane l.val).run = none ∧ (t.lane l.val).atomic = false) ∧
    (s.special l.val 2 = some w → fld w 0 6 < 0x20 →
      (s.condition l.val (fld w 0 6) x.loop0 x.loop1 out = true →
        exec (.waitMw l out) s = .next (s.after (s.setLane l.val { x with upc := go }))) ∧
      (s.condition l.val (fld w 0 6) x.loop0 x.loop1 out = false → exec (.waitMw l out) s = .next (s.after s))) ∧
    (s.special l.val 3 = some w → ∃ t : State, exec (.loopLoad l) s = .next (s.after t) ∧ t.lane l.val =
      (if tb w 15 then { x with loop1 := fld w 0 15, upc := go } else { x with loop0 := fld w 0 15, upc := go })) ∧
    (s.special l.val 4 = some w → ∃ t : State, exec (.latchLoad l) s = .next (s.after t) ∧ t.lane l.val =
      { x with latches := setAt x.latches (fld w 14 2) (w32 (fld w 0 14)), upc := go }) ∧
    (s.special l.val 5 = some w → exec (.postSummary l) s = .next (s.after (s.setLane l.val { x with upc := go }))) ∧
    (s.special l.val 6 = some w → ∃ t : State, exec (.nextCtu l) s = .next (s.after t) ∧
      (t.lane l.val).ctu = x.ctu + 1 ∧ (t.lane l.val).upc = go) ∧
    (s.special l.val 7 = some w → exec (.drainMw l false) s = .next (s.after s) ∧
      exec (.drainMw l true) s = .next (s.after (s.setLane l.val { x with upc := go })))

/-- Micro-traps (R111 to R113): a trap enters the vector of its cause with the interrupted state in a frame; one whose priority is taken
waits; inside an atomic region causes 0 and 1 stall, and 2 and 3 wait; NEIGHBOUR arises in a carriageway alone; and TRAP_RETURN restores the
newest frame, and for DRAM_RETRY issues its nanoword again. -/
def Obligations.MicroTrapsAnswer : Prop :=
  ∀ (l : LaneId) (c : Fin 4) (s : State), s.live = true → (s.lane l.val).fetching = true →
    let x := s.lane l.val
    (c.val = 2 → x.cwSize ≤ 1 → exec (.microTrap l c) s = .next (s.after s)) ∧
    ((c.val = 2 → 1 < x.cwSize) →
      (x.atomic = false → x.trapPending = 0 → (x.busyTrap c.val = true ∨ 4 ≤ x.frames.length) →
        exec (.microTrap l c) s = .next (s.after (s.setLane l.val { x with trapPending := 2 ^ c.val }))) ∧
      (x.atomic = false → x.trapPending = 0 → x.busyTrap c.val = false → x.frames.length < 4 →
        ∃ t : State, exec (.microTrap l c) s = .next (s.after t) ∧ (t.lane l.val).ms = .trap ∧
          (t.lane l.val).upc = 0x80 + 16 * c.val ∧ tb (t.lane l.val).trapActive c.val = true ∧ (t.lane l.val).trapPending = 0 ∧
          (t.lane l.val).frames =
            { cause := c.val, upc := x.upc, rep := x.rep.getD 0, loop0 := x.loop0, loop1 := x.loop1, latches := x.latches,
              sp := x.stack.length, nano := if c.val = 0 then x.lastNano else none, boundary := false } :: x.frames) ∧
      (x.atomic = true → c.val = 0 →
        exec (.microTrap l c) s = .next (s.after (s.setLane l.val { x with
          memStall := s.readPending l.val, trapDeferred := satAdd x.trapDeferred 1 0xFFFF }))) ∧
      (x.atomic = true → c.val = 1 → exec (.microTrap l c) s = .next (s.after (s.sliceStall l.val))) ∧
      (x.atomic = true → 2 ≤ c.val → tb x.trapPending c.val = false →
        exec (.microTrap l c) s = .next (s.after (s.setLane l.val { x with
          trapPending := x.trapPending + 2 ^ c.val, trapDeferred := satAdd x.trapDeferred 1 0xFFFF }))) ∧
      (x.atomic = true → 2 ≤ c.val → tb x.trapPending c.val = true → exec (.microTrap l c) s = .next (s.after s))) ∧
    (∀ (v : Nat) (f : TrapFrame) (r : List TrapFrame), s.special l.val 1 = some v → x.frames = f :: r → x.trapPending = 0 →
      (∀ i, f.nano = some i → nanoSyndrome (Tbl.get 0 x.nano i) = 0) →
      ∃ t : State, exec (.trapReturn l) s = .next (s.after t) ∧ (t.lane l.val).upc = f.upc ∧ (t.lane l.val).frames = r ∧
        (t.lane l.val).loop0 = f.loop0 ∧ (t.lane l.val).loop1 = f.loop1 ∧ (t.lane l.val).latches = f.latches ∧
        (t.lane l.val).rep = (if f.rep = 0 then none else some f.rep) ∧
        (∀ i, f.nano = some i → (t.lane l.val).stages = stagesOf x.stages (Tbl.get 0 x.nano i)) ∧
        (t.lane l.val).ms = (if r.isEmpty then (if f.boundary then .idle else .run) else .trap) ∧
        tb (t.lane l.val).trapActive f.cause = false)

/-- Machine checks and patches (R104, R114 to R121): a bad fetch, a stack error or a reserved code halts the lane, records where and raises
LANE_MCHK; SVP's service of a new address, read back with good parity, releases the lane, and any other quarantines it; with an unreadable
golden copy the lane waits for its rebuild, which quarantines it when the image in flash fails; a refused patch changes no lane, and an accepted
one loads its lanes one by one, for 1.5 ms each, with a result for each. -/
def Obligations.MachineChecksAnswer : Prop :=
  (∀ (l : LaneId) (k : MchkKind) (s : State), s.live = true → (s.lane l.val).fetching = true →
    ∃ t : State, exec (.machineCheck l k) s = .next (s.after t) ∧ (t.lane l.val).ms = .halted ∧
      (t.lane l.val).check = true ∧ (t.lane l.val).outcome = .none ∧ (t.fltSrc fLaneMchk).sticky = true ∧
      (t.lane l.val).mchk = (match k with
        | .parity nano a syn => b2n nano * 2 ^ 29 + syn.toNat * 2 ^ 13 + a.toNat
        | .stack a => 1 * 2 ^ 27 + a.toNat
        | .illegal a => 2 * 2 ^ 27 + a.toNat)) ∧
  (∀ (l : LaneId) (w : Nat) (s : State), s.live = true →
    (s.mword l.val 2 = some w → tb w 21 = false → 8 ≤ (s.lane l.val).stack.length →
      exec (.callMw l) s = .next (s.after (s.machineCheck l.val false (s.lane l.val).upc 0 cSTACK))) ∧
    (s.mword l.val 2 = some w → tb w 21 = true → (s.lane l.val).stack = [] →
      exec (.returnMw l) s = .next (s.after (s.machineCheck l.val false (s.lane l.val).upc 0 cSTACK))) ∧
    (s.mword l.val 1 = some w → 0x20 ≤ fld w 16 6 →
      ∀ b : Bool, exec (.branchMw l b) s = .next (s.after (s.machineCheck l.val false (s.lane l.val).upc 0 cILLEGAL))) ∧
    (s.mword l.val 3 = some w → 8 ≤ fld w 16 6 →
      exec (.endJob l) s = .next (s.after (s.machineCheck l.val false (s.lane l.val).upc 0 cILLEGAL)))) ∧
  (∀ (l : LaneId) (s : State), s.live = true → (s.lane l.val).fetching = true →
    let w := Tbl.get 0 (s.lane l.val).micro (s.lane l.val).upc
    microSyndrome w ≠ 0 →
      ∀ b : Bool, exec (.branchMw l b) s = .next (s.after (s.machineCheck l.val false (s.lane l.val).upc (microSyndrome w) cPARITY))) ∧
  (∀ (l : LaneId) (s : State), s.live = true → (s.lane l.val).ms = .halted → (s.lane l.val).check = true →
    s.lanes.any (fun e => e.2.rebuild) = false →
    let x := s.lane l.val
    let addr := (tb x.mchk 29, fld x.mchk 0 13)
    (∀ b : Bool, exec (.mchkService l false b) s = .next (s.after (s.setLane l.val { x with rebuild := true }))) ∧
    (∀ b : Bool, x.cwSize ≤ 1 → (∀ j, s.failedJob l.val = some j → j.retry = false) → ∃ t : State,
      exec (.mchkService l true b) s = .next (s.after t) ∧ (t.lane l.val).run = none ∧
      (if (s.reload l.val addr.1 addr.2 b).2 = true ∧ ¬ addr ∈ x.record
        then (t.lane l.val).ms = .idle ∧ (t.lane l.val).record = x.record ++ [addr] ∧ (t.lane l.val).quarantined = x.quarantined
        else (t.lane l.val).quarantined = true ∧ (t.lane l.val).mapped = true))) ∧
  (∀ (l : LaneId) (a b : Bool) (s : State), s.live = true → (s.lane l.val).rebuild = true →
    ((s.flashImage (s.lane l.val).mc = none ∨ a = false) → ∃ t : State, exec (.goldenRebuildDone l a b) s = .next (s.after t) ∧
      (t.lane l.val).quarantined = true ∧ (t.fltSrc fLaneGolden).sticky = true) ∧
    (∃ t : State, exec (.goldenRebuildDone l a false) s = .next (s.after t) ∧ (t.lane l.val).quarantined = true ∧
      (t.lane l.val).rebuild = false)) ∧
  (∀ (h : CmdRef) (d : HostData) (fl : List LaneId) (e : SubEntry) (s : State), s.cmdsRun = true → s.serves 0 = true →
    s.command h 0x73 = some e → s.structural = false → s.hqe.bme = true →
    (d = none → exec (.mcPatch h d fl) s = .next (s.after (s.finish h cHOST_DMA 0 []))) ∧
    (∀ b : Bytes, d = some b →
      let p := b.take e.len.toNat
      let r := s.patchCode p (lanesOf (e.param 0 8))
      (r ≠ 0 → exec (.mcPatch h d fl) s = .next (s.after ((s.verified (decide (r ≠ 1))).finish h cREJECTED r []))) ∧
      (∀ l : LaneId, r = 0 → lanesOf (e.param 0 8) = [l.val] → (s.lane l.val).quarantined = false → s.laneFree l.val = true →
        ∃ t : State, exec (.mcPatch h d fl) s = .next (s.after t) ∧ (t.lane l.val).loading = true ∧ t.golden.patching = true ∧
          t.golden.loads = [l.val] ∧ t.golden.due = s.ns + 1500 * us ∧ t.golden.cmd = some h))) ∧
  (∀ (s : State) (l : Nat) (ls : List Nat), s.golden.loads = l :: ls → ¬ l ∈ ls → s.golden.patching = true → (s.lane l).loading = true →
    s.golden.due ≤ s.ns →
    let img := if s.golden.toBase then s.golden.image else s.golden.patchImage
    let id := if s.golden.toBase then s.golden.base else s.golden.patch.getD {}
    let t := s.patchLoad
    (t.lane l).loading = false ∧
      (if readsBack img = true ∧ ¬ l ∈ s.golden.failing then (t.lane l).loadResult = 0 ∧ (t.lane l).mc = id
        else (t.lane l).loadResult = 9 ∧ (t.lane l).mc = (s.lane l).mc))

/-- Lane registers (R92 to R100, R122): LSF_POP takes the oldest record and latches its rest, an uncorrectable one reads as type 0xE and raises
LANE_LSF_UE, an empty FIFO reads the sequence; the clears clear; an enabled counter keeps its static fields; a wrapping counter
starts again with its OVF bit; LAN_TAG_CFG seeds the LFSR as EN rises; and LAN_TAG_REC0 takes the oldest tag. -/
def Obligations.LaneRegistersAnswer : Prop :=
  ∀ (l : LaneId) (s : State),
    let x := s.lane l.val
    let pop := laneAddr l.val 0x64
    let rec0 := laneAddr l.val 0x290
    (s.barServes 0x1000000 = true →
      (∀ e : EccResult, x.lsf = [] → exec (.lsfPop l e) s =
        .next (s.after ((s.setLane l.val { x with lsfLatch := [0, 0, 0] }).emit (.regRead pop (w32 x.lsfSeq))))) ∧
      (∀ w r, x.lsf = w :: r →
        exec (.lsfPop l .clean) s = .next (s.after ((s.setLane l.val { x with lsf := r, lsfLatch := w.drop 1 }).emit
          (.regRead pop (getAt 0 w 0)))) ∧
        exec (.lsfPop l .single) s = .next (s.after ((s.setLane l.val { x with
          lsf := r, lsfLatch := w.drop 1, eccCorr := satAdd x.eccCorr 1 0xFFFF }).emit (.regRead pop (getAt 0 w 0)))) ∧
        (∃ t : State, exec (.lsfPop l .uncorrectable) s = .next (s.after t) ∧ (t.lane l.val).lsf = r ∧
          (t.lane l.val).eccUncorr = satAdd x.eccUncorr 1 0xFFFF ∧ (t.fltSrc fLaneLsfUe).sticky = true)) ∧
      (x.tags = [] → exec (.tagRecPop l) s =
        .next (s.after ((s.setLane l.val { x with tagLatch := List.replicate 7 0 }).emit (.regRead rec0 0)))) ∧
      (∀ w r, x.tags = w :: r → exec (.tagRecPop l) s = .next (s.after
        ((s.setLane l.val { x with tags := r, tagLatch := w.drop 1 }).emit (.regRead rec0 (getAt 0 w 0)))))) ∧
    (s.barTakes 0x1000000 = true →
      (∀ v : W32, tb v.toNat 0 = true → exec (.lsfClr l v) s =
        .next (s.after (s.setLane l.val { x with eccCorr := 0, eccUncorr := 0, lsfLost := 0 }))) ∧
      (∀ v : W32, tb v.toNat 0 = false → exec (.lsfClr l v) s = .next (s.after s)) ∧
      (∀ v : W32, ∃ t : State, exec (.pmcClr l v) s = .next (s.after t) ∧ ∀ n : Fin 8, t.cntOf bLAN (l.val + 1) n.val =
        (if tb v.toNat n.val then 0 else s.cntOf bLAN (l.val + 1) n.val)) ∧
      (∀ (n : Fin 8) (v : W32), let old := s.laneReg l.val (0x200 + 4 * n.val)
        ∃ t : State, exec (.pmcCfgWrite l n v) s = .next (s.after t) ∧
          tb (t.laneReg l.val (0x200 + 4 * n.val)) 31 = tb v.toNat 31 ∧
          tb (t.laneReg l.val (0x200 + 4 * n.val)) 28 = tb v.toNat 28 ∧
          fld (t.laneReg l.val (0x200 + 4 * n.val)) 29 2 = (if tb old 31 then fld old 29 2 else fld v.toNat 29 2) ∧
          fld (t.laneReg l.val (0x200 + 4 * n.val)) 0 10 = (if tb old 31 then fld old 0 10 else fld v.toNat 0 10)) ∧
      (∀ v : W32, let old := (Tbl.get 10 s.regs (laneAddr l.val 0x280)).toNat
        let seed := fld (Tbl.get 1 s.regs (laneAddr l.val 0x284)).toNat 0 24
        ∃ t : State, exec (.tagCfgWrite l v) s = .next (s.after t) ∧
          tb (Tbl.get 10 t.regs (laneAddr l.val 0x280)).toNat 31 = tb v.toNat 31 ∧
          (tb old 31 = false → tb v.toNat 31 = true → (t.lane l.val).lfsr = (if seed = 0 then 1 else seed)) ∧
          (tb old 31 = false → 4 ≤ fld v.toNat 0 5 → fld v.toNat 0 5 ≤ 16 →
            fld (Tbl.get 10 t.regs (laneAddr l.val 0x280)).toNat 0 5 = fld v.toNat 0 5) ∧
          (tb old 31 = true →
            fld (Tbl.get 10 t.regs (laneAddr l.val 0x280)).toNat 0 5 = fld old 0 5))) ∧
    (s.live = true → ∀ n : Fin 8, tb (s.laneReg l.val (0x200 + 4 * n.val)) 31 = true →
      s.cntOf bLAN (l.val + 1) n.val = 2 ^ 48 - 1 → tb (s.laneReg l.val (0x200 + 4 * n.val)) 30 = false →
      ∃ t : State, exec (.pmcWrap l n) s = .next (s.after t) ∧ t.cntOf bLAN (l.val + 1) n.val = 0 ∧
        tb (t.lane l.val).pmcOvf n.val = true)

/-- The scheduler (R20, R170 to R182): a display's next row makes its jobs as soon as HORIZON allows and no row of an earlier milestone waits, and no
other row does; a source row's job is entered, released or judged; a freed entry serves the oldest creation that waits; the first ready job by
key goes to its lane's queue or a free pipe; a composition row whose sources are late is released with repeats; overload is evaluated every
10 ms; STEER_DISABLE clears EN; and a woken lane runs vector 0x00C0. -/
def Obligations.SchedulerAnswers : Prop :=
  (∀ (d : CtxId) (pic row : Nat) (s : State), s.mscWorks = true →
    let u := if row = 0 then s.applyLead d.val else s
    (((u.raster d.val).nextPic ≠ pic ∨ (u.raster d.val).nextRow ≠ row ∨ u.creates d.val = false) →
      exec (.rowJobCreate d pic row) s = .next (s.after s)) ∧
    (u.flt.safe = false → u.running bMSC = true → u.creates d.val = true → (u.raster d.val).nextPic = pic →
      (u.raster d.val).nextRow = row → u.rowDue d.val pic row ≤ Int.ofNat u.ns →
      u.earlierRow d.val (u.milestone d.val row pic) = false →
      ∃ t : State, exec (.rowJobCreate d pic row) s = .next (s.after t) ∧
        (t.raster d.val).nextRow = (if u.displayRows d.val ≤ row + 1 then 0 else row + 1) ∧
        (t.raster d.val).nextPic = (if u.displayRows d.val ≤ row + 1 then pic + 1 else pic))) ∧
  (∀ (r : CtxId) (row : Nat) (s : State), s.mscWorks = true →
    (Tbl.find s.opens r.val = some 4 → exec (.sourceRowArrival r row) s =
      .next (s.after (s.createDecode r.val row nullHandle false 0).releaseJobs)) ∧
    (∀ j : Job, Tbl.find s.opens r.val = some 3 → s.firstJob ((s.msc.jobs.map Prod.snd).filter (fun j =>
        decide (j.op = .encode) && decide (j.ctx = r.val) && decide (j.row = row) && !j.released)) = some j →
      exec (.sourceRowArrival r row) s =
        .next (s.after ((if row = 0 then s.takeRecon r.val j.pic else s).putJob { j with released := true }))) ∧
    (Tbl.find s.opens r.val ≠ some 3 → Tbl.find s.opens r.val ≠ some 4 →
      exec (.sourceRowArrival r row) s = .next (s.after s.releaseJobs))) ∧
  (∀ (j : Job) (q : List Job) (t s : State), s.mscWorks = true → s.msc.waiting = j :: q → s.newJob j = some t →
    exec .jobTableEntryFreed s = .next (s.after ({ t with msc := { t.msc with waiting := q } }).releaseJobs)) ∧
  (∀ (l : LaneId) (j : Job) (s : State), s.mscWorks = true → s.running bMSC = true → s.flt.safe = false → s.laneTakes l.val = true →
    (s.lane (s.leadFor l.val)).queue.length < s.laneDepth →
    s.firstJob ((s.msc.jobs.map Prod.snd).filter (fun j => j.released && !j.placed && decide (j.op ≠ .compose) &&
      decide (s.laneOfJob j = some l.val) && s.mayRun j && s.inStep j)) = some j → j.op = .decode → j.retry = false →
    ∃ t : State, exec (.jobDispatch (.lane l)) s = .next (s.after t) ∧
      (t.lane (s.leadFor l.val)).queue = (s.lane (s.leadFor l.val)).queue ++ [{ j with placed := true }] ∧
      t.job j.idx = { j with placed := true }) ∧
  (∀ (j : Job) (p : Nat) (s : State), s.mscWorks = true → s.running bMSC = true → s.flt.safe = false →
    s.firstJob ((s.msc.jobs.map Prod.snd).filter (fun j => j.released && !j.placed && decide (j.op = .compose) && s.mayRun j)) =
      some j → (s.cmpStarted j.ctx j.pic && (s.composedCols j).isEmpty) = false →
    s.freePipe (if j.retry then j.fromLane - 65 else 8) = some p →
    ∃ t : State, exec (.jobDispatch .pipes) s = .next (s.after t) ∧ (t.pipe p).job = some { j with placed := true } ∧
      (t.pipe p).begun = false ∧ ((s.pipe p).power = 0 → (t.pipe p).wakeAt = some (s.ns + 15 * us))) ∧
  (∀ (i : JobId) (j : Job) (s : State), s.mscWorks = true → Tbl.find s.msc.jobs i.val = some j → j.op = .compose →
    j.released = false → ¬ i.val ∈ s.msc.repeats →
    (s.sourcesPresent j = true → exec (.sourceRepeat i) s = .next (s.after s)) ∧
    (s.ns + s.cmpCost (s.cf j.ctx 0x08 2) j.row < j.deadline → exec (.sourceRepeat i) s = .next (s.after s)) ∧
    (s.sourcesPresent j = false → j.deadline ≤ s.ns + s.cmpCost (s.cf j.ctx 0x08 2) j.row →
      ∃ t : State, exec (.sourceRepeat i) s = .next (s.after t) ∧ i.val ∈ t.msc.repeats)) ∧
  (∀ s : State, s.live = true → s.running bMSC = true →
    (s.ns < s.msc.ovlAt + 10 * ms → exec .overloadEvaluate s = .next (s.after s)) ∧
    (s.msc.ovlAt + 10 * ms ≤ s.ns → ∃ t : State, exec .overloadEvaluate s = .next (s.after t) ∧ t.msc.ovlAt = s.ns)) ∧
  (∀ (v : W32) (s : State), s.barTakes 0xD00048 = true → tb v.toNat 31 = false → ∃ t : State,
    exec (.steerDisable v) s = .next (s.after t) ∧ tb t.mscSteer 31 = false) ∧
  (∀ (l : LaneId) (t0 : Nat) (s : State), s.live = true → (s.lane l.val).wakeAt = some t0 →
    (t0 ≤ s.ns → ∃ t : State, exec (.domainReady (.lane l)) s = .next (s.after t) ∧ (t.lane l.val).power = 2 ∧
      (t.lane l.val).wakeAt = none ∧ (t.lane l.val).active = none ∧ (t.lane l.val).prefetch = none ∧ (t.lane l.val).ms = .run ∧
      (t.lane l.val).upc = 0xC0) ∧
    (s.ns < t0 → exec (.domainReady (.lane l)) s = .next (s.after s)))



/-! ### Composition, assembly and input flows (R156 to R160, R171, R184, R208 to R226, R453) -/

/-- Rows composed (R184, R191, R453): a pipe begins its job, noting whether its source was poisoned; a row that continues its picture
and is not late writes its samples into its slot and changes nothing else; a composed row is released to its encode context, and one composed at its retry
settles the fault; a context whose layers are all OFF shows its background, clamped to the range (R193, at 10 bits); a row that fails is released once more, with the failing pipe noted; and a row that fails twice is abandoned. -/
def Obligations.ComposedRowsAnswer : Prop :=
  (∀ (p : PipeId) (b : Bool) (j : Job) (s : State), s.live = true → s.running bCMP = true → s.flt.safe = false →
    (s.pipe p.val).job = some j → (s.pipe p.val).begun = false → (s.pipe p.val).power = 2 → (s.pipe p.val).mapped = false →
    (∃ t : State, exec (.composeRow p b) s = .next (s.after t) ∧ (t.pipe p.val).begun = true ∧ (t.pipe p.val).poisoned = b ∧
      (t.pipe p.val).idleAt = none) ∧
    (s.cmpStarted j.ctx j.pic = true → s.ns + s.cmpCost (s.cf j.ctx 0x08 2) j.row ≤ j.deadline →
      let v := s.writeSlot j
      exec (.composeRow p false) s = .next (s.after (v.setPipe p.val
        { s.pipe p.val with begun := true, start := s.ns, poisoned := false, conc := v.readsConcealed j, idleAt := none })))) ∧
  (∀ (s : State) (c x y : Nat) (n : Nat → Nat), (∀ l ∈ s.layers c, l.type = 0) → tb (s.cf c 0x02 2) 3 = true →
    tb (s.cf c 0x02 2) 2 = false → s.lumaAt c n x y = min 940 (max 64 (fld (s.cf c 0x0C 4) 20 10))) ∧
  (∀ (p : PipeId) (j : Job) (s : State), s.live = true → (s.pipe p.val).job = some j → (s.pipe p.val).begun = true →
    let x := s.pipe p.val
    let u := s.setPipe p.val { x with job := none, begun := false, idleAt := none }
    ((j.retry = false ∨ (u.fltSrc fCmpPipe).outcome ≠ .pending) →
      exec (.composeRowComplete p true) s = .next (s.after (u.rowComposed p.val j x.conc))) ∧
    (j.retry = true → (u.fltSrc fCmpPipe).outcome = .pending →
      exec (.composeRowComplete p true) s =
        .next (s.after ((u.decideFault fCmpPipe (j.fromLane - 65) false).rowComposed p.val j x.conc))) ∧
    (j.retry = false → exec (.composeRowComplete p false) s = .next (s.after ((s.pipeFault p.val).putJob
      { j with retry := true, placed := false, released := true, attempts := j.attempts + 1, fromLane := 65 + p.val }))) ∧
    (j.retry = true → j.sess = 0xFFFF → exec (.composeRowComplete p false) s = .next (s.after
      (((s.pipeFault p.val).raise fRowAbandoned j.ctx j.row).rowComposed p.val j x.conc))) ∧
    (j.retry = true → j.sess ≠ 0xFFFF → exec (.composeRowComplete p false) s = .next (s.after
      ((((s.pipeFault p.val).raise fRowAbandoned j.ctx j.row).incCf j.sess 0x90 4 1).rowComposed p.val j x.conc))))

/-- Assembly and input flows (R159, R160, R208, R220, R225): the oldest coded row is taken and every session's segments pass in their
transmission order; an unaccepted packet is counted; a flow's first packet starts it; the expected packet passes on with
those queued behind it; one beyond a gap waits, and its gap's timer runs; one behind is late; a gap whose time has run
out is declared lost; and a hold whose time has run out is released. -/
def Obligations.AssemblyAndInputAnswer : Prop :=
  (∀ (e : CtxId) (s : State), s.live = true → s.running bASM = true → s.flt.safe = false →
    let pass := fun u : State =>
      u.asm.segs.foldl (fun (t : State) x => t.flushSess x.1 (Tbl.get [] t.asm.segs x.1).length) u
    (Tbl.get [] s.asm.rows e.val = [] → exec (.asmEnqueue e) s = .next (s.after (pass s))) ∧
    (∀ (r : CodedRow) (l : List CodedRow) (u : State), Tbl.get [] s.asm.rows e.val = r :: l → s.takeRow e.val r = some u →
      exec (.asmEnqueue e) s = .next (s.after (pass u))) ∧
    (∀ (r : CodedRow) (l : List CodedRow), Tbl.get [] s.asm.rows e.val = r :: l → s.takeRow e.val r = none →
      exec (.asmEnqueue e) s = .next (s.after (pass s.nullReturn)))) ∧
  (∀ (f : CtxId) (k : RtpIn) (s : State), s.works bASM = true → Tbl.find s.opens f.val = some 2 →
    let x := s.djq f.val
    let c := (s.bump bASM 7).incCf f.val 0x5C 4 1
    let u := (((s.bump bASM 6).incCf f.val 0x40 8 1).incCf f.val 0x48 8 k.bytes).setCf f.val 0x01 1 2
    let ahead := serial16 k.seq.toNat x.expect
    (k.accepted = false → x.unsupp = true → exec (.rtpPacketIn f k) s = .next (s.after c)) ∧
    (k.accepted = false → x.unsupp = false →
      exec (.rtpPacketIn f k) s = .next (s.after ((c.setDj f.val { x with unsupp := true }).event .asmInUnsupp f.val 0))) ∧
    (k.accepted = true → x.started = false → exec (.rtpPacketIn f k) s = .next (s.after
      ((u.setDj f.val { x with started := true, ssrc := k.ssrc, expect := (k.seq.toNat + 1) % 2 ^ 16, passed := 1, queue := [],
                               arrived := [], gapAt := none }).passOn f.val k))) ∧
    (k.accepted = true → x.started = true → k.ssrc = x.ssrc → ahead = 0 → exec (.rtpPacketIn f k) s = .next (s.after
      (((u.setDj f.val { x with expect := (x.expect + 1) % 2 ^ 16, passed := x.passed + 1 }).passOn f.val k).djDrain f.val
        (x.queue.length + 1)))) ∧
    (k.accepted = true → x.started = true → k.ssrc = x.ssrc → 32768 < ahead → serial16 x.expect k.seq.toNat ≤ x.passed →
      exec (.rtpPacketIn f k) s = .next (s.after (u.incCf f.val 0x58 4 1))) ∧
    (k.accepted = true → x.started = true → k.ssrc = x.ssrc → 1 ≤ ahead → ahead ≤ 32768 → (∀ y ∈ x.queue, y.seq ≠ k.seq) →
      x.queue.length < max 16 (u.cf f.val 0x32 2) → exec (.rtpPacketIn f k) s = .next (s.after
        (u.setDj f.val (x.hold k s.ns))))) ∧
  (∀ (f : CtxId) (t0 : Nat) (s : State), s.works bASM = true → (s.djq f.val).gapAt = some t0 →
    (t0 + s.cf f.val 0x34 4 * us ≤ s.ns → exec (.dejitterTimeout f) s = .next (s.after (s.declareLost f.val false))) ∧
    (s.ns < t0 + s.cf f.val 0x34 4 * us → exec (.dejitterTimeout f) s = .next (s.after s))) ∧
  (∀ (d : CtxId) (q : W16) (h : Held) (t0 : Nat) (s : State), s.works bASM = true →
    Tbl.find s.asm.cache (heldKey d.val q.toNat) = some h → h.expiry = some t0 →
    (t0 ≤ s.ns → exec (.holdExpire d q) s = .next (s.after ((s.releaseHold (heldKey d.val q.toNat)).bump bASM 5))) ∧
    (s.ns < t0 → exec (.holdExpire d q) s = .next (s.after s)))

/-! ### Erelm (R230 to R266) -/

/-- Messages of an endpoint (R233, R237, R241 to R247, R255 to R263): a message of an open session without a key, with version, length and
source as the session has them, is accepted, renews the silence timer, and retires what it acknowledges; HELLO opens a session that waits for it, reopens one that is open, and is reported where it matches none;
OPEN_ACK opens or refuses; MARKER drives the raster of an open session; ROW_ACK releases what it newly covers; LOSS and
REFRESH_REQ are answered; a time request is answered; STATUS is kept, and a panel fault reported; CLOSE ends the session. -/
def Obligations.ErelmMessagesAnswer : Prop :=
  (∀ (h : ErelmHdr) (type : Nat) (any : Bool) (s : State),
    let d := h.session.toNat
    Tbl.find s.opens d = some 1 → (s.es d).ph = .open_ → h.version = 1 → h.lengthOk = true →
    (s.net d).epAddr = h.srcAddr → (s.net d).epUdp = h.srcUdp.toNat → (s.net d).keyId = 0 → (s.es d).queue = [] →
    let left := (s.es d).unacked.filter (fun m => decide (2 ^ 31 ≤ serial32 h.ack.toNat m.seq))
    s.accept h type any = (s.setEs d { s.es d with lastRx := s.ns, unacked := left }, some d) ∧
    (h.seq.toNat = (s.es d).expected → h.seq ≠ 0xFFFFFFFF →
      ((s.reliable d h).1.es d).expected = (s.es d).expected + 1 ∧ (s.reliable d h).2 = true)) ∧
  (∀ (h : ErelmHdr) (b : HelloBody) (s : State), h.version = 1 → h.lengthOk = true → h.session = 0xFFFF →
    (∀ d : Nat, s.helloSess h = some d → s.spWorks d = true →
      ((s.es d).ph = .waitHello → exec (.hello h b) s = .next (s.after (s.sendOpen d b))) ∧
      ((s.es d).ph = .refused → exec (.hello h b) s = .next (s.after s)) ∧
      ((s.es d).ph = .open_ →
        let u := ((s.endStream d).event .erelmReopen d 0).esCount d 12 1
        exec (.hello h b) s = .next (s.after ((u.setEs d ((u.es d).clear .waitHello)).sendOpen d b)))) ∧
    (s.helloSess h = none → s.live = true → (s.cpu 1).ph = .run →
      (∀ e : Bytes × Nat, s.erelm.helloAt.find? (fun (e : Bytes × Nat) => decide (e.1 = h.srcAddr)) = some e → s.ns < e.2 + 10 * oneSec →
        exec (.hello h b) s = .next (s.after s)) ∧
      (s.erelm.helloAt.find? (fun (e : Bytes × Nat) => decide (e.1 = h.srcAddr)) = none → exec (.hello h b) s = .next (s.after
        (({ s with erelm := { s.erelm with
              helloAt := s.erelm.helloAt.filter (fun (e : Bytes × Nat) => decide (e.1 ≠ h.srcAddr)) ++ [(h.srcAddr, s.ns)] } }).event
          .erelmHello noCtx (helloDetail b)))))) ∧
  (∀ (h : ErelmHdr) (r : Byte) (d : Nat) (u v : State) (s : State), s.spWorks h.session.toNat = true →
    s.accept h 0x03 (decide (r = 6)) = (u, some d) → u.reliable d h = (v, true) → (v.es d).ph = .opening →
    (r ≠ 0 → exec (.openAck h r) s = .next (s.after ((v.setEs d { v.es d with ph := .refused, unacked := [], queue := [] }).event .erelmRefused d r.toNat))) ∧
    (r = 0 → ∃ w : State, exec (.openAck h r) s = .next (s.after (w.event .erelmOpen d 0)) ∧ (w.es d).ph = .open_ ∧
      w.raster d = { v.raster d with m := {}, second := {} })) ∧
  (∀ (h : ErelmHdr) (r : Byte) (d : Nat) (u v : State) (s : State), s.spWorks h.session.toNat = true →
    s.accept h 0x03 (decide (r = 6)) = (u, some d) → u.reliable d h = (v, false) →
    exec (.openAck h r) s = .next (s.after v)) ∧
  (∀ (h : ErelmHdr) (f : W32) (l st : W16) (tm : W64) (d : Nat) (u : State) (s : State), s.spWorks h.session.toNat = true →
    s.accept h 0x10 false = (u, some d) →
    ((u.es d).ph ≠ .open_ → exec (.marker h f l st tm) s = .next (s.after u)) ∧
    ((u.es d).ph = .open_ →
      let v := u.markerOp d f.toNat l.toNat tm.toNat (sgn st.toNat 16)
      v.cf d 0x01 1 ≠ sLOCKED ∨ u.cf d 0x01 1 = sLOCKED →
      exec (.marker h f l st tm) s = .next (s.after (v.rasterStatus d (u.cf d 0x01 1))))) ∧
  (∀ (h : ErelmHdr) (pic : W32) (row cum : W16) (late : Bool) (tot : W32) (d : Nat) (u : State) (s : State),
    s.spWorks h.session.toNat = true → s.accept h 0x11 false = (u, some d) →
    let v := (u.setEs d { u.es d with late := tot }).esCount d 9 1
    let n := serial16 cum.toNat (v.es d).cum
    let ahead := serial16 (Tbl.get 0 v.asm.seqs d) cum.toNat
    ((n = 0 ∨ 32768 ≤ n) → exec (.rowAck h pic row cum late tot) s = .next (s.after v)) ∧
    (1 ≤ n → n < 32768 → (ahead = 0 ∨ 32768 < ahead) →
      exec (.rowAck h pic row cum late tot) s = .next (s.after (v.esCount d 10 1))) ∧
    (1 ≤ n → n < 32768 → 1 ≤ ahead → ahead ≤ 32768 → Tbl.find v.asm.cache (heldKey d cum.toNat) = none →
      let w := (List.range n).foldl (fun (t : State) i => t.releaseHold (heldKey d (((v.es d).cum + 1 + i) % 65536))) v
      exec (.rowAck h pic row cum late tot) s = .next (s.after (w.setEs d { w.es d with cum := cum.toNat })))) ∧
  (∀ (h : ErelmHdr) (l : List (W16 × W16)) (d : Nat) (u v : State) (s : State), s.spWorks h.session.toNat = true →
    s.accept h 0x12 false = (u, some d) → u.reliable d h = (v, true) → (v.es d).ph = .open_ →
    let seqs := l.flatMap (fun r => v.lossSeqs d r)
    let a := seqs.foldl (fun (a : State × Bool) q =>
      ((a.1.answerLoss d q).1, a.2 || decide ((a.1.answerLoss d q).2 = .refresh))) ((v.esCount d 5 1).esCount d 6 seqs.length, false)
    exec (.loss h l) s = .next (s.after (if a.2 then a.1.refreshFor d h.seq.toNat 0 else a.1))) ∧
  (∀ (h : ErelmHdr) (r : Byte) (d : Nat) (u v : State) (s : State), s.spWorks h.session.toNat = true →
    s.accept h 0x13 false = (u, some d) → u.reliable d h = (v, true) → (v.es d).ph = .open_ →
    exec (.refreshReq h r) s = .next (s.after ((v.esCount d 7 1).refreshFor d h.seq.toNat 1))) ∧
  (∀ (h : ErelmHdr) (d : Nat) (u : State) (s : State), s.spWorks h.session.toNat = true → s.accept h 0x20 false = (u, some d) →
    exec (.keepalive h none) s = .next (s.after u) ∧
    ((u.es d).ph = .open_ → (u.es d).resp = none → ∀ (q : W64) (x : ESess), Tbl.find u.erelm.sess d = some x →
      let v := u.sendKeep d (beBytes 8 q.toNat ++ beBytes 8 (u.ingressStamp h.port.val) ++ zeros 16)
      exec (.keepalive h (some q)) s = .next (s.after (v.setEs d { v.es d with
        prevReq := q, resp := if v.swc.nextCopy = u.swc.nextCopy then none else some u.swc.nextCopy })))) ∧
  (∀ (h : ErelmHdr) (u : State) (s : State), s.spWorks h.session.toNat = true → s.accept h 0x20 false = (u, none) →
    exec (.keepalive h none) s = .next (s.after u)) ∧
  (∀ (h : ErelmHdr) (b : StatusBody) (d : Nat) (u v : State) (s : State), s.spWorks h.session.toNat = true →
    s.accept h 0x21 false = (u, some d) → u.reliable d h = (v, true) →
    let w := v.setEs d { v.es d with status := some b, late := b.lateTotal }
    ((b.panel ≠ 2 ∨ (v.es d).status.map (fun x => x.panel) = some 2) → exec (.status h b) s = .next (s.after w)) ∧
    (b.panel = 2 → (v.es d).status.map (fun x => x.panel) ≠ some 2 →
      exec (.status h b) s = .next (s.after (w.event .erelmEpFault d 0)))) ∧
  (∀ (h : ErelmHdr) (r : Byte) (d : Nat) (u v : State) (s : State), s.spWorks h.session.toNat = true →
    s.accept h 0x22 false = (u, some d) → u.reliable d h = (v, true) →
    let w := (v.sendKeep d []).event .erelmClose d r.toNat
    ((w.es d).ph = .closing ∨ (w.es d).ph = .shutdown → exec (.close h r) s = .next (s.after (w.closeDone d))) ∧
    ((w.es d).ph ≠ .closing → (w.es d).ph ≠ .shutdown →
      exec (.close h r) s = .next (s.after ((w.endStream d).setEs d ((w.es d).clear .waitHello)))))

/-- What falls due in a session (R236 to R239, R245, R246, R166, R169, R262): unacknowledged messages are sent again after 2 ms, and after
five sendings the session fails; an acknowledgement due and 100 ms without sending send a KEEPALIVE; 1 s of silence
fails the session; a marker that does not come is counted, the third in a row loses a locked raster; 250 ms without one
suspend it; and steering is evaluated once a period. -/
def Obligations.ErelmTimersAnswer : Prop :=
  (∀ (d : CtxId) (m : EMsg) (r : List EMsg) (s : State), s.spWorks d.val = true → (s.es d.val).unacked = m :: r →
    (s.ns < m.at_ + 2 * ms → exec (.erelmRetransmit d) s = .next (s.after s)) ∧
    (m.at_ + 2 * ms ≤ s.ns → 5 ≤ m.sends → exec (.erelmRetransmit d) s = .next (s.after (s.failEs d.val 0))) ∧
    (m.at_ + 2 * ms ≤ s.ns → m.sends < 5 →
      let u := s.setEs d.val { s.es d.val with
        unacked := (m :: r).map (fun (k : EMsg) => { k with sends := k.sends + 1, at_ := s.ns }) }
      exec (.erelmRetransmit d) s = .next (s.after
        (((m :: r).foldl (fun (t : State) k => t.sendRaw d.val k.type k.seq false k.payload) u).esCount d.val 1 (r.length + 1))))) ∧
  (∀ (d : CtxId) (t0 : Nat) (s : State), s.spWorks d.val = true → (s.es d.val).ackAt = some t0 →
    (t0 ≤ s.ns → exec (.ackDue d) s = .next (s.after (s.sendKeep d.val []))) ∧
    (s.ns < t0 → exec (.ackDue d) s = .next (s.after s))) ∧
  (∀ (d : CtxId) (s : State), s.spWorks d.val = true → ((s.es d.val).ph = .open_ ∨ (s.es d.val).ph = .opening) →
    ((s.es d.val).lastTx + 100 * ms ≤ s.ns → exec (.keepaliveDue d) s = .next (s.after (s.sendKeep d.val []))) ∧
    (s.ns < (s.es d.val).lastTx + 100 * ms → exec (.keepaliveDue d) s = .next (s.after s)) ∧
    ((s.es d.val).lastRx + oneSec ≤ s.ns → exec (.sessionSilence d) s = .next (s.after (s.failEs d.val 1))) ∧
    (s.ns < (s.es d.val).lastRx + oneSec → exec (.sessionSilence d) s = .next (s.after s))) ∧
  (∀ (d : CtxId) (s : State), s.works bMSC = true →
    let st := s.cf d.val 0x01 1
    let x := s.raster d.val
    let gap := (Int.ofNat (64 + fld s.mscLock 16 8) * x.m.lp / fx).toNat
    (st = sLOCKED → x.m.markers ≠ 0 → x.lastRx + (x.missed + 1) * gap ≤ s.ns →
      let u := ((s.setRaster d.val { x with missed := x.missed + 1 }).incCf d.val 0x68 4 1).bump bMSC 2
      let run := min 255 (u.cf d.val 0x47 1 + 1)
      let v := u.setCf d.val 0x47 1 run
      let w := if 3 ≤ run then ((v.setCf d.val 0x01 1 sLOST).incCf d.val 0x94 4 1).event .mscRasterLost d.val 0 else v
      exec (.markerMissing d) s = .next (s.after (w.rasterStatus d.val sLOCKED))) ∧
    ((st = sLOCKED ∨ st = sLOST ∨ st = sRELOCK ∨ st = sACQUIRE) → s.cf d.val 0x48 8 + 250 * ms ≤ s.ns →
      let u := s.setCf d.val 0x01 1 sSUSPENDED
      let v := if x.suspAt.isSome then u else u.setRaster d.val { x with suspAt := some s.ns, suspMs := 0 }
      exec (.sessionSuspend d) s = .next (s.after ((v.event .mscSuspend d.val 0).rasterStatus d.val st))) ∧
    (s.ns < s.cf d.val 0x48 8 + 250 * ms → exec (.sessionSuspend d) s = .next (s.after s))) ∧
  (∀ (f : CtxId) (lead : Nat) (s : State), s.works bMSC = true → s.leadOf f.val = some lead → Tbl.find s.opens f.val = some 6 →
    let n := s.cf f.val 0x10 4
    let due := match Tbl.find s.msc.steerAt f.val with
      | none => true
      | some p => decide (p + max 1 ((Tbl.find s.msc.steerPer f.val).getD (fld s.mscSteer 8 8)) ≤ n)
    (due = false → exec (.steerEvaluate f) s = .next (s.after s)) ∧
    (due = true →
      let m := { s.msc with steerAt := Tbl.put s.msc.steerAt f.val n, steerPer := Tbl.put s.msc.steerPer f.val (fld s.mscSteer 8 8) }
      let u := ({ s with msc := m }).setCf f.val 0x18 2 lead
      (u.lockedMembers f.val = [lead] → exec (.steerEvaluate f) s = .next (s.after u)) ∧
      (∀ d : Nat, d ≠ lead → (u.lockedMembers f.val = [lead, d] ∨ u.lockedMembers f.val = [d, lead]) →
        let ph := u.phi lead d n
        let v := u.setCfI d 0x54 4 (clampI (-2147483648) 2147483647 ph)
        let x := v.slewFor lead ph
        exec (.steerEvaluate f) s = .next (s.after
          (if tb v.mscSteer 31 ∧ v.steerOk d ∧ x ≠ v.cfI d 0x50 2 then v.steerTo d x else v)))))
/-! ### Switch core and traffic manager (R268 to R306) -/

/-- COPY_ARRIVE (R275, R279, R282, R291): a copy for a port that is down, or for a queue that takes none, is discarded and counted;
behind an empty layby the admitted copy joins its queue, and the idle port decides; otherwise a copy of ASM waits in the layby
while that has room, and any other keeps its cells and waits. -/
def Obligations.ArrivingCopiesAreAdmittedInOrder : Prop :=
  ∀ (i : Nat) (c : Copy) (s : State), s.works bSWC = true → Tbl.find s.swc.copies i = some c →
    (c.place = .arriving ∨ c.place = .held) →
    (s.portDown c.dest = true → exec (.copyArrive i) s = .next (s.after (s.discardDown i))) ∧
    (s.portDown c.dest = false → s.queueOpen c.queue = false →
      exec (.copyArrive i) s = .next (s.after ((s.discardCopy i).bump bTMG 11))) ∧
    (∀ a : Bool × Nat × Nat, s.portDown c.dest = false → s.queueOpen c.queue = true → s.laybyOf c.dest c.cls = [] →
      s.admission c = some a →
      exec (.copyArrive i) s = .next (s.after (if c.dest < 256 then (s.join i a).txDecide c.dest else s.join i a))) ∧
    (s.portDown c.dest = false → s.queueOpen c.queue = true → (s.laybyOf c.dest c.cls ≠ [] ∨ s.admission c = none) →
      let u := if c.place = .arriving ∧ s.limitOk c.queue c.n = false then s.bump bTMG 11 else s
      (c.fromAsm = true → (s.laybyOf c.dest c.cls).length < s.laybyMax → s.swc.laybyUse < 32768 →
        ∃ t : State, exec (.copyArrive i) s = .next (s.after t) ∧ t.laybyOf c.dest c.cls = s.laybyOf c.dest c.cls ++ [i] ∧
          (t.copy i).place = .layby s.ns (s.ns + fld s.laybyCfg 24 8 * ms) ∧ t.swc.laybyUse = s.swc.laybyUse + 1 ∧
          t.swc.used = s.swc.used ∧ t.tmg.queues = s.tmg.queues) ∧
      ((c.fromAsm = false ∨ s.laybyMax ≤ (s.laybyOf c.dest c.cls).length ∨ 32768 ≤ s.swc.laybyUse) →
        exec (.copyArrive i) s = .next (s.after (u.setCopy i { c with place := .held }))))

/-- Nothing is lost to congestion (R275, R279): no copy for a port that is up, or for another destination, is lost while its queue takes
copies: it joins, waits in its layby, or waits with its cells where it was written. Accounts (R273): admission charges the cells of a copy, no more and no fewer, within the class's limit and the shared accounts; and
the copy's end returns the same split. -/
def Obligations.CopiesAndAccountsAreKept : Prop :=
  (∀ (i : Nat) (c : Copy) (s : State), Tbl.find s.swc.copies i = some c → s.portDown c.dest = false →
    s.queueOpen c.queue = true → ∃ k : Copy, Tbl.find (s.arrive i).1.swc.copies i = some k ∧ k.head = c.head ∧ k.body = c.body ∧
      k.data = c.data) ∧
  (∀ (s : State) (d c n a b : Nat), s.charge d c n = some (a, b) →
    a + b = n ∧ (0 < a → Tbl.get 0 s.swc.used (acctKey d c) + a ≤ Tbl.get 0 s.swc.lim (acctKey d c)) ∧
    (0 < b → s.swc.sharedUsed + b ≤ s.swc.sharedSize ∧ Tbl.get 0 s.swc.sused d + b ≤ Tbl.get 0 s.swc.cap d)) ∧
  (∀ (s : State) (k : Copy), k.chargeable = true →
    let t := (s.addAcct k.dest k.cls k.own k.shared).dropAcct k
    t.swc.sharedUsed = s.swc.sharedUsed ∧
    (∀ x : Nat, Tbl.get 0 t.swc.used x = Tbl.get 0 s.swc.used x ∧ Tbl.get 0 t.swc.sused x = Tbl.get 0 s.swc.sused x))

/-- Laybys (R280, R281): the front copy leaves when it is admitted, the first that is not ends the round, and a round of admission from an
empty layby does nothing; a class of HOLD_MASK never prunes, and in another class each copy whose time has run out is pruned. -/
def Obligations.LaybysAdmitAndPrune : Prop :=
  (∀ (d : DestId) (c : ClassId) (s : State), s.works bSWC = true → s.laybyOf d.val c.val = [] →
    exec (.laybyAdmit d c) s = .next (s.after s)) ∧
  (∀ (d : DestId) (c : ClassId) (i : Nat) (r : List Nat) (s : State), s.works bSWC = true → s.laybyOf d.val c.val = i :: r →
    s.queueOpen (s.copy i).queue = true → s.admission (s.copy i) = none → exec (.laybyAdmit d c) s = .next (s.after s)) ∧
  (∀ (d : DestId) (c : ClassId) (i : Nat) (a : Bool × Nat × Nat) (s : State), s.works bSWC = true → 256 ≤ d.val →
    s.laybyOf d.val c.val = [i] → s.queueOpen (s.copy i).queue = true → s.admission (s.copy i) = some a →
    exec (.laybyAdmit d c) s = .next (s.after ((s.leaveLayby d.val c.val i).join i a))) ∧
  (∀ (s : State) (d c i n : Nat) (r : List Nat) (a : Bool × Nat × Nat), s.laybyOf d c = i :: r →
    s.queueOpen (s.copy i).queue = true → s.admission (s.copy i) = some a →
    s.laybyAdmit d c (n + 1) = ((s.leaveLayby d c i).join i a).laybyAdmit d c n) ∧
  (∀ (d : DestId) (c : ClassId) (s : State), s.works bSWC = true → tb (fld s.laybyCfg 16 8) c.val = true →
    exec (.laybyPrune d c) s = .next (s.after s)) ∧
  (∀ (d : DestId) (c : ClassId) (i t0 due : Nat) (s : State), s.works bSWC = true → tb (fld s.laybyCfg 16 8) c.val = false →
    s.laybyOf d.val c.val = [i] → (s.copy i).place = .layby t0 due →
    (due ≤ s.ns → exec (.laybyPrune d c) s = .next (s.after (s.pruneCopy i))) ∧
    (s.ns < due → exec (.laybyPrune d c) s = .next (s.after s)))

/-- The resequencer (R284, R285): the expected cell passes on, with the held cells that follow it; one at most 1,023 ahead is held and
starts the gap timer; one behind is late and counted; one further ahead ends the gap at the nearest held cell, itself
where none is held; and a gap is declared when its timer has run out. -/
def Obligations.ResequencerPassesCellsInOrder : Prop :=
  (∀ (c : SeqCell) (s : State), s.works bSWC = true →
    let k := rsqKey c.group.val c.src.toNat
    let x := s.rsq k
    let d := serial16 c.seq.toNat x.expect
    (d = 0 → exec (.reseqCell c) s = .next (s.after
      ((((s.setRsq k { x with expect := wrapAdd x.expect 1 16 }).rsqPass k c).rsqDrain k 1024).rsqTimer k))) ∧
    (d = 0 → x.held = [] → c.last = false → ∃ t : State, exec (.reseqCell c) s = .next (s.after t) ∧
      t.rsq k = { x with expect := wrapAdd x.expect 1 16, gapAt := none, heldAt := [],
                         passed := Tbl.put x.passed c.copyId (Tbl.get 0 x.passed c.copyId + 1) }) ∧
    (1 ≤ d → d ≤ 1023 → ∃ t : State, exec (.reseqCell c) s = .next (s.after t) ∧
      t.rsq k = ({ x with held := x.held ++ [c], heldAt := x.heldAt ++ [(c.seq.toNat, s.ns)] }).retime ∧
      (x.held = [] → x.heldAt = [] → (t.rsq k).gapAt = some s.ns)) ∧
    (32768 ≤ d → exec (.reseqCell c) s = .next (s.after (s.bump bSWC 5))) ∧
    (1024 ≤ d → d ≤ 32767 → x.held = [] → x.passed = [] → c.last = false →
      ∃ t : State, exec (.reseqCell c) s = .next (s.after t) ∧ tb t.swc.evstat 3 = true ∧
        (t.rsq k).expect = wrapAdd c.seq.toNat 1 16 ∧ (t.rsq k).held = [])) ∧
  (∀ (g : GroupId) (src : Byte) (t0 : Nat) (s : State), s.works bSWC = true →
    (s.rsq (rsqKey g.val src.toNat)).gapAt = some t0 →
    (t0 + fld (Tbl.get 50 s.regs 0x90005C).toNat 0 10 * us ≤ s.ns →
      exec (.reseqGapTimeout g src) s = .next (s.after (s.rsqGap (rsqKey g.val src.toNat)))) ∧
    (s.ns < t0 + fld (Tbl.get 50 s.regs 0x90005C).toNat 0 10 * us → exec (.reseqGapTimeout g src) s = .next (s.after s)))

/-- The transmit decision (R294, R302, R305): a port that is not idle sends nothing; an eligible class-7 queue comes first; then the class-6
queue with the earliest milestone, once its open time has come; and the head of the queue that is chosen is then in
transmission. -/
def Obligations.TransmitDecisionOrder : Prop :=
  (∀ (s : State) (p : Nat), s.portIdle p = false → s.txDecide p = s) ∧
  (∀ (s : State) (p : Nat), s.portIdle p = true → s.paused p 7 = false →
    (∃ q, q ∈ s.portQueues p (· == 7) ∧ s.shaperOk q = true) →
    ∃ q, q ∈ s.portQueues p (· == 7) ∧ s.shaperOk q = true ∧
      s.txDecide p = (s.setPort p { s.port p with last7 := q }).startFrame p q) ∧
  (∀ (s : State) (p q : Nat), s.portIdle p = true →
    (s.paused p 7 = true ∨ ∀ r ∈ s.portQueues p (· == 7), s.shaperOk r = false) → s.paused p 6 = false →
    s.gateQueue p = some q → s.openTime p (s.headOf q).milestone ≤ s.ns → s.txDecide p = s.startFrame p q) ∧
  (∀ (s : State) (p q : Nat), s.gateQueue p = some q → q ∈ s.portQueues p (· == 6) ∧
    ∀ r ∈ s.portQueues p (· == 6), (s.headOf q).milestone ≤ (s.headOf r).milestone) ∧
  (∀ (s : State) (p q i : Nat) (rest : List Nat), (s.queue q).copies = i :: rest →
    ∃ t : TxSt, ((s.startFrame p q).port p).tx = some t ∧ t.copy = i ∧ t.start = s.ns ∧
      t.ends = s.ns + s.bitNs p (((s.copy i).len + 20) * 8) ∧ t.readBytes = 0)

/-- The timers of TMG (R294, R300, R301, R305): a gate that opens and a fit refused long enough let the port decide; a frame's end counts
it, releases its copy and lets the port decide; and the buckets are credited every 128 ns, one that is enabled by its rate up
to its burst. -/
def Obligations.TrafficCommandsAnswer : Prop :=
  (∀ (p : PortId) (t0 : Nat) (s : State), s.works bTMG = true → s.openLimit p.val = some t0 →
    (t0 ≤ s.ns → exec (.gateOpen p) s = .next (s.after (s.txDecide p.val))) ∧
    (s.ns < t0 → exec (.gateOpen p) s = .next (s.after s))) ∧
  (∀ (p : PortId) (t : TxSt) (s : State), s.live = true → (s.port p.val).tx = some t →
    (t.ends ≤ s.ns → exec (.frameTxEnd p) s = .next (s.after ((s.endFrame p.val t).txDecide p.val))) ∧
    (s.ns < t.ends → exec (.frameTxEnd p) s = .next (s.after s))) ∧
  (∀ (q : QueueId) (t0 : Nat) (s : State), s.works bTMG = true → (s.queue q.val).fitAt = some t0 →
    (t0 ≤ s.ns →
      exec (.fitMaxExpire q) s = .next (s.after (s.txDecide (s.queue q.val).dest))) ∧
    (s.ns < t0 → exec (.fitMaxExpire q) s = .next (s.after s))) ∧
  (∀ s : State, s.works bTMG = true → s.tmg.creditAt + 128 ≤ s.ns →
    exec .tokenCredit s = .next (s.after ({ s with tmg := { s.tmg with creditAt := s.tmg.creditAt + 128 } }).creditAll)) ∧
  (∀ (s : State) (f : Nat) (b : Bucket), s.tmg.psh = [] → s.tmg.qsh = [] → s.tmg.pol = [(f, b)] → b.asks = [] →
    (s.bkEn (polAddr f) = true → s.creditAll.pol f = s.creditBk (polAddr f) b) ∧
    (s.bkEn (polAddr f) = false → s.creditAll = s)) ∧
  (∀ (s : State) (a : Nat) (b : Bucket), b.tokens ≤ Int.ofNat (s.bkBurst a * 2 ^ 16) →
    (s.creditBk a b).tokens ≤ Int.ofNat (s.bkBurst a * 2 ^ 16) ∧ b.tokens ≤ (s.creditBk a b).tokens)

/-! ### Ports (R276, R277, R293, R309 to R325) -/

/-- FRAME_RECEIVED (R303, R314, R386): a port that is not UP receives nothing; the first failed check counts and discards; a good frame counts in
RX_FRAMES and RX_BYTES; one beyond the headroom is discarded at the port; one for a handler goes on to it, a PTP message with its receive time stamped; one that matches no
flow goes to the exception ring; and one that its flow's policer passes, marks or drops is written in its class, in
class 0, or not at all. -/
def Obligations.FrameReceptionAnswers : Prop :=
  ∀ (p : PortId) (f : RxFrame) (s : State), s.live = true →
    let n := p.val
    let u := (s.bumpU bPRT (n + 1) 0 1).bumpU bPRT (n + 1) 1 f.length
    let k : Copy := { kind := .forward, len := f.length, data := f.bytes }
    let m := u.mirrorAll false none n k
    let cls := u.ingressClass n f
    let late := u.beyondHeadroom n cls (cellsFor f.length)
    let good := f.fcsOk = true ∧ 64 ≤ f.length ∧ f.length ≤ fld (s.prtCfg n) 0 14
    ((s.port n).ph ≠ .up → exec (.frameReceived p f) s = .next (s.after s)) ∧
    ((s.port n).ph = .up → f.fcsOk = false → exec (.frameReceived p f) s = .next (s.after (s.bumpU bPRT (n + 1) 4 1))) ∧
    ((s.port n).ph = .up → f.fcsOk = true → f.length < 64 →
      exec (.frameReceived p f) s = .next (s.after (s.bumpU bPRT (n + 1) 5 1))) ∧
    ((s.port n).ph = .up → f.fcsOk = true → 64 ≤ f.length → fld (s.prtCfg n) 0 14 < f.length →
      exec (.frameReceived p f) s = .next (s.after (s.bumpU bPRT (n + 1) 6 1))) ∧
    ((s.port n).ph = .up → good → late = true → exec (.frameReceived p f) s = .next (s.after (u.headroomDiscard n))) ∧
    ((s.port n).ph = .up → good → late = false → f.erelm = true → exec (.frameReceived p f) s = .next (s.after (m.ptpRx n f.bytes))) ∧
    ((s.port n).ph = .up → good → late = false → f.erelm = false → u.flowOf n f = none →
      exec (.frameReceived p f) s = .next (s.after (m.exception n cls f))) ∧
    (∀ (r : Nat) (v : State) (x : Policed), (s.port n).ph = .up → good → late = false → f.erelm = false →
      u.flowOf n f = some r → m.police (r - m.partBase 2) f.length n cls = (v, x) →
      exec (.frameReceived p f) s = .next (s.after (match x with
        | .drop => v
        | .pass => (v.mirrorAll false (some r) n k).writeFlow n r cls f.length f.bytes
        | .mark => (v.mirrorAll false (some r) n k).writeFlow n r 0 f.length f.bytes)))

/-- Pauses (R277, R293, R316 to R318): a received PAUSE or PFC frame holds each class it names for its quanta, or releases it, and touches no
other class; a pause whose quanta have run out ends; one that has held its class for TIME_MS is ignored, counted and
reported; EN = 0 of the watchdog ends all ignoring; and a lasting request is repeated. -/
def Obligations.PausesAnswer : Prop :=
  (∀ (p : PortId) (f : PauseFrame) (s : State), s.live = true → (s.port p.val).ph = .up →
    ∃ u : State, exec (.pauseFrameReceived p f) s = .next (s.after (if (pauseClasses f).any (fun c => decide (quantaFor f c = 0)) then u.txDecide p.val else u)) ∧
      (∀ c : ClassId, (f.pfc = false ∨ tb f.classes.toNat c.val = true) →
        (quantaFor f c.val = 0 → Tbl.find (u.port p.val).pauses c.val = none) ∧
        (quantaFor f c.val ≠ 0 → ∃ y : PauseSt, Tbl.find (u.port p.val).pauses c.val = some y ∧
          y.ends = s.ns + s.quantaNs p.val (quantaFor f c.val))) ∧
      (∀ c : ClassId, f.pfc = true → tb f.classes.toNat c.val = false →
        Tbl.find (u.port p.val).pauses c.val = Tbl.find (s.port p.val).pauses c.val)) ∧
  (∀ (p : PortId) (c : ClassId) (x : PauseSt) (s : State), s.live = true → Tbl.find (s.port p.val).pauses c.val = some x →
    (x.ends ≤ s.ns → exec (.pauseExpire p c) s = .next (s.after ((s.endPause p.val c.val).txDecide p.val))) ∧
    (s.ns < x.ends → exec (.pauseExpire p c) s = .next (s.after s)) ∧
    (tb s.pswCfg 31 = true → x.ignored = false → s.ns < x.ends → x.since + x.limitMs * ms ≤ s.ns →
      ∃ u : State, exec (.pauseStorm p c) s = .next (s.after (u.txDecide p.val)) ∧ u.paused p.val c.val = false ∧
        tb u.swc.evstat 0 = true ∧ u.cntOf bSWC 0 6 = (s.cntOf bSWC 0 6 + 1) % 2 ^ 48) ∧
    ((tb s.pswCfg 31 = false ∨ s.ns < x.since + x.limitMs * ms) → exec (.pauseStorm p c) s = .next (s.after s))) ∧
  (∀ (v : W32) (s : State), s.barTakes 0x900058 = true →
    ∃ t : State, exec (.pswCfgWrite v) s = .next (s.after t) ∧ tb t.pswCfg 31 = tb v.toNat 31 ∧
      (10 ≤ fld v.toNat 0 10 → fld v.toNat 0 10 ≤ 1000 → fld t.pswCfg 0 10 = fld v.toNat 0 10) ∧
      ((fld v.toNat 0 10 < 10 ∨ 1000 < fld v.toNat 0 10) → fld t.pswCfg 0 10 = fld s.pswCfg 0 10) ∧
      (tb v.toNat 31 = false → ∀ (p c : Nat) (x : PauseSt), Tbl.find (t.port p).pauses c = some x → x.ignored = false)) ∧
  (∀ (p : PortId) (s : State), s.live = true → (s.port p.val).ph = .up → (s.port p.val).xoff ≠ 0 → (s.port p.val).pfcDue ≤ s.ns →
    exec (.pfcRefresh p) s = .next (s.after (((s.setPort p.val { s.port p.val with
      pfcDue := s.ns + s.quantaNs p.val (s.quanta p.val / 2) }).emit
        (.pause p.val (decide (s.pfcEn p.val ≠ 0)) (s.port p.val).xoff (s.quanta p.val))).bumpU bPRT (p.val + 1) 9 1)))

/-- Link state (R310 to R313): signal takes an enabled port that is down to TRAINING; synchronisation takes it to HOLD, unless negotiation holds
it down; 10 ms of HOLD take it to UP; a loss starts the debounce, synchronisation ends it, and 200 µs of it lead back to
TRAINING; in SGMII the PHY's control word does the same. -/
def Obligations.LinkStateAnswers : Prop :=
  (∀ (p : PortId) (s : State), s.live = true → Tbl.get false s.plt.blockOn (p.val / 8) = true →
    (s.portEn p.val = true → (s.port p.val).mapped = false → s.portOff p.val = false → (s.port p.val).ph = .down →
      ∃ t : State, exec (.signalDetect p) s = .next (s.after t) ∧
        t.port p.val = { s.port p.val with ph := .training, lossAt := none }) ∧
    ((s.portEn p.val = false ∨ (s.port p.val).mapped = true ∨ s.portOff p.val = true ∨ (s.port p.val).ph ≠ .down) →
      exec (.signalDetect p) s = .next (s.after s))) ∧
  (∀ (p : PortId) (n : NegResult) (s : State), s.live = true → Tbl.get false s.plt.blockOn (p.val / 8) = true →
    let x := s.port p.val
    ((x.ph = .training ∨ x.ph = .retrain) → s.negBad p.val n = true →
      exec (.pcsSync p n) s = .next (s.after (s.setPort p.val { x with negFail := true }))) ∧
    ((x.ph = .training ∨ x.ph = .retrain) → s.negBad p.val n = false →
      exec (.pcsSync p n) s = .next (s.after (s.setPort p.val { x with ph := .hold, holdDue := s.ns + 10 * ms, negFail := false, pauseOk := (if s.portMode p.val = 1 ∧ s.portAn p.val then n.pauseOk else true), lossAt := none }))) ∧
    ((x.ph = .up ∨ x.ph = .hold) → exec (.pcsSync p n) s = .next (s.after (s.setPort p.val { x with lossAt := none })))) ∧
  (∀ (p : PortId) (s : State), s.live = true →
    let x := s.port p.val
    (x.ph = .hold → x.holdDue ≤ s.ns → exec (.linkHoldExpire p) s = .next (s.after
      ((((s.setPort p.val { x with ph := .up, retrainDue := none }).startCredits (s.ofPort p.val)).event (.portLink p.val true) p.val p.val).txDecide p.val))) ∧
    ((x.ph ≠ .hold ∨ s.ns < x.holdDue) → exec (.linkHoldExpire p) s = .next (s.after s)) ∧
    ((x.ph = .up ∨ x.ph = .hold) → exec (.pcsSyncLoss p) s =
      .next (s.after (s.setPort p.val { x with lossAt := some (x.lossAt.getD s.ns) }))) ∧
    (∀ t0 : Nat, x.lossAt = some t0 → t0 + 200 * us ≤ s.ns →
      ∃ t : State, exec (.linkLossTimeout p) s = .next (s.after t) ∧ (t.port p.val).ph = .training ∧
        (t.port p.val).lossAt = none ∧ (x.ph = .up → (t.port p.val).tx = none ∧ (t.port p.val).pauses = [])) ∧
    (∀ t0 : Nat, x.lossAt = some t0 → s.ns < t0 + 200 * us → exec (.linkLossTimeout p) s = .next (s.after s))) ∧
  (∀ (p : PortId) (speed : BitVec 2) (s : State), s.live = true → s.portMode p.val = 0 → (s.port p.val).mapped = false →
    s.portEn p.val = true →
    (∀ up : Bool, (s.port p.val).ph ≠ .up → (s.port p.val).ph ≠ .hold →
      exec (.sgmiiControlWordChange p up speed false) s =
        .next (s.after (s.setPort p.val { s.port p.val with negFail := true }))) ∧
    ((s.port p.val).ph = .training → ∃ t : State, exec (.sgmiiControlWordChange p true speed true) s = .next (s.after t) ∧
      t.port p.val = { s.port p.val with
        negFail := false
        speed := speed.toNat
        pauseOk := true
        ph := .hold
        holdDue := s.ns + 10 * ms }) ∧
    (((s.port p.val).ph = .up ∨ (s.port p.val).ph = .hold) →
      ∃ t : State, exec (.sgmiiControlWordChange p false speed true) s = .next (s.after t) ∧ (t.port p.val).ph = .training))

/-- Receiver margin (R323 to R325): a measurement is kept, below WARN it is reported once, and the second in a row below FAIL starts a retrain
of at most 500 ms; a second failure within 60 s degrades the port for good and raises PRT_DEGRADED; 60 s without one
count a transient fault. -/
def Obligations.ReceiverMarginAnswers : Prop :=
  (∀ (p : PortId) (m : BitVec 6) (s : State), s.live = true → (s.port p.val).ph = .up →
    let warn := fld (Tbl.get 12 s.regs (prtAddr p.val 0x28)).toNat 0 6
    let fail := fld (Tbl.get 6 s.regs (prtAddr p.val 0x2C)).toNat 0 6
    let x := s.port p.val
    (warn + 2 ≤ m.toNat → fail ≤ m.toNat → exec (.eyeMeasurement p m) s = .next (s.after (s.setPort p.val { x with
      margin := m.toNat
      lowCount := 0
      lowRaised := false }))) ∧
    (m.toNat < warn → fail ≤ m.toNat → x.lowRaised = false → exec (.eyeMeasurement p m) s = .next (s.after
      ((s.setPort p.val { x with
        margin := m.toNat
        lowCount := 0
        lowRaised := true }).event (.portMargin p.val) p.val m.toNat))) ∧
    (m.toNat < fail → x.lowCount = 0 → ∃ t : State, exec (.eyeMeasurement p m) s = .next (s.after t) ∧
      (t.port p.val).margin = m.toNat ∧ (t.port p.val).lowCount = 1 ∧ (t.port p.val).ph = .up) ∧
    (m.toNat < fail → 1 ≤ x.lowCount → (∀ t0 : Nat, x.failAt = some t0 → t0 + 60 * oneSec ≤ s.ns) →
      ∃ t : State, exec (.eyeMeasurement p m) s = .next (s.after t) ∧ (t.port p.val).ph = .retrain ∧
        (t.port p.val).retrainDue = some (s.ns + 500 * ms) ∧ (t.port p.val).failAt = some s.ns ∧ (t.port p.val).rank = 1) ∧
    (∀ t0 : Nat, m.toNat < fail → 1 ≤ x.lowCount → x.failAt = some t0 → s.ns < t0 + 60 * oneSec →
      ∃ t : State, exec (.eyeMeasurement p m) s = .next (s.after t) ∧ (t.port p.val).ph = .degraded ∧
        (t.port p.val).mapped = true ∧ (t.fltSrc fPrtDegraded).sticky = true)) ∧
  (∀ (p : PortId) (t0 : Nat) (s : State), s.live = true → (s.port p.val).retrainDue = some t0 → t0 ≤ s.ns →
    (s.port p.val).ph ≠ .up →
    ((s.port p.val).rank < 2 → exec (.retrainTimeout p) s = .next (s.after (s.beginRetrain p.val))) ∧
    (2 ≤ (s.port p.val).rank → exec (.retrainTimeout p) s = .next (s.after (s.degradePort p.val)))) ∧
  (∀ (p : PortId) (t0 : Nat) (s : State), s.live = true → (s.port p.val).failAt = some t0 → t0 + 60 * oneSec ≤ s.ns →
    (s.port p.val).ph = .up → exec (.retrainWindowExpire p) s = .next (s.after
      ((s.setPort p.val { s.port p.val with failAt := none, rank := 0 }).bumpU bPRT (p.val + 1) 10 1)))

/-- MDIO and PPS (R319, R322): GO with the frame's clause and operation starts that frame and makes the bus busy; a GO while it is busy is
ignored; a read takes the response, or sets ERR and returns 0xFFFF; a pulse within 1 ms of the expected second is followed. -/
def Obligations.MdioAndPpsAnswer : Prop :=
  (∀ (b : BusId) (v : W32) (s : State), s.barTakes 0xB00040 = true → tb v.toNat 31 = true → (s.mdio b.val).busy = false →
    let go := (s.setMdio b.val { busy := true, err := false, word := w32 (fld v.toNat 0 29) }).emit (.mdio b.val v)
    (tb v.toNat 28 = false → fld v.toNat 26 2 = 1 → exec (.mdioC22Write b v) s = .next (s.after go)) ∧
    (tb v.toNat 28 = false → fld v.toNat 26 2 = 3 → exec (.mdioC22Read b v) s = .next (s.after go)) ∧
    (tb v.toNat 28 = true → fld v.toNat 26 2 = 0 → exec (.mdioC45Address b v) s = .next (s.after go)) ∧
    (tb v.toNat 28 = true → fld v.toNat 26 2 = 1 → exec (.mdioC45Write b v) s = .next (s.after go)) ∧
    (tb v.toNat 28 = true → fld v.toNat 26 2 = 2 → exec (.mdioC45ReadInc b v) s = .next (s.after go)) ∧
    (tb v.toNat 28 = true → fld v.toNat 26 2 = 3 → exec (.mdioC45Read b v) s = .next (s.after go))) ∧
  (∀ (b : BusId) (v : W32) (s : State), s.barTakes 0xB00040 = true → (s.mdio b.val).busy = true →
    exec (.mdioC22Read b v) s = .next (s.after s) ∧ exec (.mdioC22Write b v) s = .next (s.after s)) ∧
  (∀ (b : BusId) (s : State), s.live = true → (s.mdio b.val).busy = true →
    let w := (s.mdio b.val).word.toNat
    (fld w 26 2 = 3 ∨ (tb w 28 = true ∧ fld w 26 2 = 2) →
      (∀ d : W16, exec (.mdioFrameComplete b (some d)) s = .next (s.after (s.setMdio b.val
        { busy := false, err := false, word := w32 (setFld w 0 16 d.toNat) }))) ∧
      exec (.mdioFrameComplete b none) s = .next (s.after (s.setMdio b.val
        { busy := false, err := true, word := w32 (setFld w 0 16 0xFFFF) }))) ∧
    (∀ r : Option W16, fld w 26 2 < 2 → exec (.mdioFrameComplete b r) s = .next (s.after (s.setMdio b.val
      { s.mdio b.val with busy := false })))) ∧
  (∀ s : State, s.live = true → s.clk.src = .pps → s.plt.cascId = 0 →
    (s.clk.ppsAt = none → exec .ppsInEdge s = .next (s.after { s with clk := { s.clk with ppsAt := some s.ns } })) ∧
    (∀ t0 : Nat, s.clk.ppsAt = some t0 →
      let off : Int := Int.ofNat s.ns - Int.ofNat (t0 + oneSec)
      (off.natAbs ≤ ms → exec .ppsInEdge s =
        .next (s.after { s with clk := { s.clk with ppsAt := some s.ns, slew := Config.servo off } })) ∧
      (ms < off.natAbs → exec .ppsInEdge s = .next (s.after s))))

/-! ### Cascade (R326 to R335) -/

/-- Bring-up of an Imnunis link (R327, R329, R331, R333): each step leads to the next, a failed step back to step 1, a wrong peer to MISWIRE, and
CREDIT to UP with the credits of R330, of which the digest that a module sends to module 0 takes one (R46); a link without a peer trains again every 100 ms; a retrain that has not come UP in
100 ms takes the link down; and a module that follows module 0 over its direct link is locked to it, slewing by at most 250 ppm. -/
def Obligations.CascadeBringUpAnswers : Prop :=
  (∀ (l : LinkId) (r : TrainResult) (s : State), s.live = true → ((s.link l.val).ph = .training ∨ (s.link l.val).ph = .retrain) →
    let x := s.link l.val
    (x.step ≤ 3 → r.lanesBad.toNat ≠ 0 →
      let e := s.excludeLanes l.val r.lanesBad.toNat
      ((e.link l.val).inUse ≠ 0 →
        exec (.casTrainStepComplete l r) s = .next (s.after (e.setLink l.val { e.link l.val with step := 1 }))) ∧
      ((e.link l.val).inUse = 0 → ∃ t : State, exec (.casTrainStepComplete l r) s = .next (s.after t) ∧
        (t.link l.val).ph = (if (e.link l.val).out = 15 then .failed else .down))) ∧
    ((3 < x.step ∨ r.lanesBad.toNat = 0) → r.ok = false →
      exec (.casTrainStepComplete l r) s = .next (s.after (s.setLink l.val { x with step := 1 }))) ∧
    (1 ≤ x.step → x.step ≤ 3 → r.lanesBad.toNat = 0 → r.ok = true →
      exec (.casTrainStepComplete l r) s = .next (s.after (s.setLink l.val { x with step := x.step + 1 }))) ∧
    (x.step = 4 → r.ok = true → (r.peerId.toNat ≠ (s.plt.cascId + l.val + 1) % 4 ∨ r.peerCasc.toNat ≠ s.cas.size) →
      ∃ t : State, exec (.casTrainStepComplete l r) s = .next (s.after t) ∧ (t.link l.val).ph = .down ∧
        (t.link l.val).miswire = true ∧ (t.fltSrc fCasMiswire).sticky = true) ∧
    (x.step = 4 → r.ok = true → r.peerId.toNat = (s.plt.cascId + l.val + 1) % 4 → r.peerCasc.toNat = s.cas.size →
      exec (.casTrainStepComplete l r) s = .next (s.after (s.setLink l.val { x with step := 5, peer := r.peerId.toNat }))) ∧
    (x.step = 5 → r.ok = true → r.peerDigest = s.way.digest → ∃ t : State,
      exec (.casTrainStepComplete l r) s = .next (s.after t) ∧ t.link l.val = { x with mediaClosed := false, step := 6 }) ∧
    (x.step = 6 → r.ok = true → x.txq = [] → ∃ t : State,
      exec (.casTrainStepComplete l r) s = .next (s.after t) ∧ (t.link l.val).ph = .up ∧
        ((s.plt.cascId = 0 ∨ peerOf s.plt.cascId l.val ≠ 0) → (t.link l.val).credits = [16, 64, 64, 256]) ∧
        (s.plt.cascId ≠ 0 → peerOf s.plt.cascId l.val = 0 → x.replay.length < 1024 →
          (t.link l.val).credits = [15, 64, 64, 256] ∧ (t.link l.val).nextSeq = (x.nextSeq + 1) % 4096))) ∧
  (∀ (l : LinkId) (s : State), s.live = true → s.running (linkKey l.val) = true →
    ((s.link l.val).ph = .down ∨ (s.link l.val).ph = .training) → (s.link l.val).miswire = false →
    (∀ t0 : Nat, (s.link l.val).retryDue = some t0 → t0 ≤ s.ns) →
    exec (.casPeerRetry l) s = .next (s.after (s.setLink l.val { s.link l.val with
      ph := .training
      step := 1
      inUse := 15 - (s.link l.val).out
      retryDue := some (s.ns + 100 * ms) }))) ∧
  (∀ (l : LinkId) (t0 : Nat) (s : State), s.live = true → (s.link l.val).retrainDue = some t0 → t0 ≤ s.ns →
    (s.link l.val).ph ≠ .up → ∃ t : State, exec (.casRetrainTimeout l) s = .next (s.after t) ∧ (t.link l.val).ph = .down ∧
      (t.link l.val).replay = [] ∧ (t.link l.val).txq = []) ∧
  (∀ (off : Int) (s : State), s.live = true → s.plt.cascId ≠ 0 → s.plt.cascId < 4 →
    (s.link (3 - s.plt.cascId)).ph = .up → s.cas.holdover = false → ∃ t : State,
      exec (.casTimeExchange off) s = .next (s.after t) ∧ t.cas.locked = true ∧ t.cas.offset = off ∧
        t.cas.path = 3 - s.plt.cascId ∧ -250000 ≤ t.clk.slew ∧ t.clk.slew ≤ 250000 ∧ t.time = s.time)

/-- Link frames (R328 to R330): a damaged frame is counted and answered with a nak; the frame in order is counted and acknowledged, one
received before is acknowledged again, one after a gap is answered with a nak, and each answer returns credits that have fallen due; an acknowledgement empties the replay buffer up to
it; returned credits are added; and the oldest frame's 2 µs make the sender replay, a fourth failure retrain. -/
def Obligations.LinkFramesAnswer : Prop :=
  (∀ (l : LinkId) (f : LinkFrame) (s : State), s.live = true →
    let x := s.link l.val
    let back := (x.expect + 4095) % 4096
    let acked := s.linkAcked l.val f.ack.toNat
    let y := acked.link l.val
    let u := acked.setLink l.val { y with credits := setAt y.credits f.crVc.toNat (getAt 0 y.credits f.crVc.toNat + f.crCount.toNat) }
    (x.ph ≠ .up → exec (.linkFrameReceived l f) s = .next (s.after s)) ∧
    (x.ph = .up → f.crcOk = false → exec (.linkFrameReceived l f) s =
      .next (s.after (((s.bumpLink l.val 5 1).credited l.val).emit (.linkFrame l.val 0 true 0 x.expect x.creditVc x.creditCount [])))) ∧
    (x.ph = .up → f.crcOk = true → f.nak = false → x.txq = [] →
      (f.payload = [] → exec (.linkFrameReceived l f) s = .next (s.after u)) ∧
      (f.payload ≠ [] → f.seq.toNat = x.expect → ∃ t : State, exec (.linkFrameReceived l f) s = .next (s.after t) ∧
        (t.link l.val).expect = (x.expect + 1) % 4096 ∧
        t.cntOf bCAS (l.val + 1) 1 = (s.cntOf bCAS (l.val + 1) 1 + 1) % 2 ^ 48) ∧
      (f.payload ≠ [] → f.seq.toNat ≠ x.expect → seq12le f.seq.toNat x.expect = true →
        exec (.linkFrameReceived l f) s = .next (s.after ((u.credited l.val).emit (.linkFrame l.val 0 false 0 back y.creditVc y.creditCount [])))) ∧
      (f.payload ≠ [] → f.seq.toNat ≠ x.expect → seq12le f.seq.toNat x.expect = false →
        exec (.linkFrameReceived l f) s = .next (s.after ((u.credited l.val).emit (.linkFrame l.val 0 true 0 x.expect y.creditVc y.creditCount []))))) ∧
    (x.ph = .up → f.crcOk = true → f.nak = true → f.payload = [] → x.txq = [] →
      let named := s.linkAcked l.val ((f.ack.toNat + 4095) % 4096)
      let z := named.link l.val
      exec (.linkFrameReceived l f) s = .next (s.after ((named.setLink l.val
        { z with credits := setAt z.credits f.crVc.toNat (getAt 0 z.credits f.crVc.toNat + f.crCount.toNat) }).replayOp l.val))) ∧
    (∀ g ∈ y.replay, g ∈ x.replay ∧ seq12le g.seq f.ack.toNat = false)) ∧
  (∀ (l : LinkId) (g : ReplayFrame) (q : List ReplayFrame) (s : State), s.live = true → (s.link l.val).replay = g :: q →
    (s.link l.val).ph = .up →
    (s.ns < g.at_ + 2 * us → exec (.replayTimeout l) s = .next (s.after s)) ∧
    (g.at_ + 2 * us ≤ s.ns → (∀ e ∈ g :: q, e.sends < 4) → ∃ t : State, exec (.replayTimeout l) s = .next (s.after t) ∧
      (t.link l.val).ph = .up ∧ (t.link l.val).replay = (g :: q).map (fun e => { e with sends := e.sends + 1, at_ := s.ns })) ∧
    (g.at_ + 2 * us ≤ s.ns → (∃ e ∈ g :: q, 4 ≤ e.sends) → ∃ t : State, exec (.replayTimeout l) s = .next (s.after t) ∧
      (t.link l.val).ph = .retrain ∧ (t.link l.val).step = 1 ∧ (t.link l.val).replay = g :: q ∧
      (t.link l.val).retrainDue = some (s.ns + 100 * ms)))


/-! ### The buffer pool manager (R340 to R351) -/

/-- INC, PIN, DEC, FREE and XFER (R342, R343, R348, R349): a reference added, or refused and counted; a reference released; a buffer
freed by the DEC or FREE that takes its last reference; the owner changed; and each double free or wrong owner rejected. -/
def Obligations.BufferReferencesAnswer : Prop :=
  ∀ (agent : Byte) (h : W32) (s : State), s.live = true →
    let k := hKey h
    let b := s.buf k
    (s.stale h = false → b.alloc = true → b.count < 1023 →
      exec (.inc agent h) s = .next (s.after (s.setBuf k { b with count := b.count + 1 }))) ∧
    ((s.stale h = true ∨ b.alloc = false ∨ 1023 ≤ b.count) → exec (.inc agent h) s = .next (s.after (s.bump bBPM 5))) ∧
    (s.stale h = false → b.alloc = true → 0 < b.count → b.count < 1023 →
      exec (.pin agent h) s = .next (s.after (s.setBuf k { b with count := b.count + 1 }))) ∧
    ((s.stale h = true ∨ b.alloc = false ∨ 1023 ≤ b.count ∨ b.count = 0) →
      exec (.pin agent h) s = .next (s.after (s.bump bBPM 6))) ∧
    (s.stale h = false → b.alloc = true → (1 < b.count ∨ (b.count = 1 ∧ b.marks ≠ 0)) →
      exec (.dec agent h) s = .next (s.after (s.setBuf k { b with count := b.count - 1 })) ∧
      (b.owner = agent.toNat →
        exec (.free agent h) s = .next (s.after (s.setBuf k { b with count := b.count - 1 })))) ∧
    (s.stale h = false → b.alloc = true → b.count = 1 → b.marks = 0 → tb (s.frame h).attr 0 = false →
      exec (.dec agent h) s = .next (s.after ((s.setBuf k { b with count := 0 }).freeBuf h)) ∧
      (b.owner = agent.toNat →
        exec (.free agent h) s = .next (s.after ((s.setBuf k { b with count := 0 }).freeBuf h)))) ∧
    (s.stale h = false → b.alloc = true → 0 < b.count → b.owner ≠ agent.toNat →
      exec (.free agent h) s = .next (s.after (s.wrongOwner oFREE agent.toNat h))) ∧
    (∀ a : Byte, s.stale h = false → b.alloc = true → b.owner = agent.toNat →
      exec (.xfer agent h a) s = .next (s.after (s.setBuf k { b with owner := a.toNat }))) ∧
    (∀ a : Byte, (s.stale h = true ∨ b.alloc = false ∨ b.owner ≠ agent.toNat) →
      exec (.xfer agent h a) s = .next (s.after (s.wrongOwner oXFER agent.toNat h)))

/-- A buffer freed has its allocated bit clear, owner 0, count 0 and no marks, its generation one higher modulo 128, and is one more free
buffer of its pool; FREES rises by one; and the handle that freed it is stale from then on, so a second DEC or FREE of it is a
double free and a PIN of it is refused. No other buffer changes. -/
def Obligations.FreedBufferReturnsOnce : Prop :=
  ∀ (s : State) (h : W32), (s.buf (hKey h)).withheld = false → s.stale h = false →
    let t := s.freeBuf h
    t.buf (hKey h) =
      { s.buf (hKey h) with alloc := false, owner := 0, count := 0, marks := 0, gen := ((s.buf (hKey h)).gen + 1) % 128 } ∧
    (t.pool (hPool h)).free = (s.pool (hPool h)).free + 1 ∧
    t.cntOf bBPM 0 1 = (s.cntOf bBPM 0 1 + 1) % 2 ^ 48 ∧
    t.stale h = true ∧ t.isDouble h = true ∧ (t.incRef true h).2 = false ∧
    (∀ k : Nat, k ≠ hKey h → t.buf k = s.buf k)

/-- Double frees (R348): a DEC, FREE or CLRMARK of a buffer that is free, by a stale handle, of a buffer of another type than FRAME whose
count is 0, and a CLRMARK of a FRAME whose mark is clear, are rejected: no buffer and no pool changes, DOUBLE_FREE rises by one, the log
takes the operation while it has room, and BPM_DOUBLE_FREE is raised. -/
def Obligations.DoubleFreeIsRejected : Prop :=
  ∀ (agent : Byte) (h : W32) (s : State), s.live = true →
    let k := hKey h
    let b := s.buf k
    ((b.alloc = false ∨ s.stale h = true ∨ (s.isFrame h = false ∧ b.count = 0)) →
      exec (.dec agent h) s = .next (s.after (s.doubleFree oDEC agent.toNat h)) ∧
      exec (.free agent h) s = .next (s.after (s.doubleFree oFREE agent.toNat h)) ∧
      ∀ m : Fin 5, exec (.clrmark agent h m) s = .next (s.after (s.doubleFree oCLRMARK agent.toNat h))) ∧
    (∀ m : Fin 5, s.isFrame h = true → tb b.marks m.val = false →
      exec (.clrmark agent h m) s = .next (s.after (s.doubleFree oCLRMARK agent.toNat h))) ∧
    (∀ op : Nat,
      let d := s.doubleFree op agent.toNat h
      d.bpm.bufs = s.bpm.bufs ∧ d.bpm.pools = s.bpm.pools ∧ d.bpm.frames = s.bpm.frames ∧
      d.cntOf bBPM 0 3 = (s.cntOf bBPM 0 3 + 1) % 2 ^ 48 ∧
      (s.bpm.log.length < 64 → ∃ e : BpmLog, d.bpm.log = s.bpm.log ++ [e] ∧ e.kind = 1 ∧ e.op = op ∧ e.agent = agent.toNat ∧
        e.handle = h ∧ e.seq = (s.bpm.logSeq + 1) % 256) ∧
      (64 ≤ s.bpm.log.length → d.bpm.log = s.bpm.log ∧ d.bpm.logLost = min (s.bpm.logLost + 1) 0xFFFF ∧
        d.bpm.logSeq = (s.bpm.logSeq + 1) % 256) ∧
      (d.fltSrc fBpmDoubleFree).sticky = true ∧
      (d.fltSrc fBpmDoubleFree).count = min ((s.fltSrc fBpmDoubleFree).count + 1) 0xFFFF)

/-- ALLOC, SETMARK and CLRMARK (R342, R345 to R349): a free buffer of the pool taken for the caller, with the count asked for (0 for a FRAME)
and a handle of its pool, generation and index; the null handle, counted, on a pool empty for the caller; a mark set or cleared
for the agents R148 names, the buffer freed by the CLRMARK that leaves no mark and no reference. -/
def Obligations.AllocAndMarksAnswer : Prop :=
  (∀ (agent : Byte) (p : PoolId) (n : Nat) (r : Bool) (s : State), s.live = true →
    (s.emptyFor p.val r = true →
      exec (.alloc agent p n r) s =
        .next (s.after (State.bump { s with bpm := { s.bpm with lastHandle := nullHandle } } bBPM 2))) ∧
    (∀ i : Nat, s.emptyFor p.val r = false → s.freeIdx p.val = some i →
      ∃ t, exec (.alloc agent p n r) s = .next (s.after t) ∧
        (s.buf (bufKey p.val i)).alloc = false ∧
        t.bpm.lastHandle = mkHandle p.val (s.buf (bufKey p.val i)).gen i ∧
        t.buf (bufKey p.val i) = { s.buf (bufKey p.val i) with
          alloc := true, owner := agent.toNat, count := (if (s.pool p.val).cfg.type = tFRAME then 0 else n), marks := 0 } ∧
        (t.pool p.val).free + 1 = (s.pool p.val).free ∧
        (∀ k : Nat, k ≠ bufKey p.val i → t.buf k = s.buf k))) ∧
  (∀ (agent : Byte) (h : W32) (m : Fin 5) (s : State), s.live = true →
    let k := hKey h
    let b := s.buf k
    (s.stale h = false → b.alloc = true → s.isFrame h = true → mayMark agent.toNat m.val = true → tb b.marks m.val = false →
      exec (.setmark agent h m) s = .next (s.after (s.setBuf k { b with marks := b.marks + 2 ^ m.val }))) ∧
    (s.stale h = false → b.alloc = true → s.isFrame h = true → mayMark agent.toNat m.val = false →
      exec (.setmark agent h m) s = .next (s.after (s.wrongOwner oSETMARK agent.toNat h))) ∧
    (s.stale h = false → b.alloc = true → s.isFrame h = true → mayClear agent.toNat m.val = true → tb b.marks m.val = true →
      (b.marks ≠ 2 ^ m.val ∨ b.count ≠ 0) →
      exec (.clrmark agent h m) s = .next (s.after (s.setBuf k { b with marks := b.marks - 2 ^ m.val }))) ∧
    (s.stale h = false → b.alloc = true → s.isFrame h = true → mayClear agent.toNat m.val = true → b.marks = 2 ^ m.val →
      b.count = 0 → tb (s.frame h).attr 0 = false →
      exec (.clrmark agent h m) s = .next (s.after ((s.setBuf k { b with marks := 0 }).freeBuf h))))

/-- BPM's registers (R350, R351): a query stores its handle and its result; a read of the log takes its head entry and latches its
other words, and an empty log reads the last sequence number; BPM_LOG_CLR empties the log. -/
def Obligations.BpmRegistersAnswer : Prop :=
  (∀ (v : W32) (s : State), s.barTakes 0x800040 = true →
    exec (.bpmQuery v) s = .next (s.after { s with
      regs := Tbl.put s.regs 0x800040 v, bpm := { s.bpm with queryRes := s.queryWord v } })) ∧
  (∀ s : State, s.barServes 0x800000 = true → s.bpm.log = [] →
    exec .bpmLogPop s =
      .next (s.after (State.emit { s with bpm := { s.bpm with latch := [0, 0, 0] } } (.regRead 0x800054 (w32 s.bpm.logSeq))))) ∧
  (∀ (s : State) (e : BpmLog) (r : List BpmLog), s.barServes 0x800000 = true → s.bpm.log = e :: r →
    exec .bpmLogPop s =
      .next (s.after (State.emit { s with
        bpm := { s.bpm with log := r, latch := [e.handle, w32 e.time, w32 e.gen] } }
        (.regRead 0x800054 (w32 (e.kind * 2 ^ 28 + e.op * 2 ^ 24 + e.agent * 2 ^ 16 + e.owner * 2 ^ 8 + e.seq)))))) ∧
  (∀ (v : W32) (s : State), s.barTakes 0x800064 = true → tb v.toNat 0 = true →
    exec (.bpmLogClr v) s = .next (s.after { s with bpm := { s.bpm with log := [], logLost := 0 } }))

/-! ### Module memory (R354 to R369) -/

/-- Two module addresses at the same offset of the same channel are the same address, in both interleaves (R354). Bytes stored in module
memory read back, every byte outside them reads as before where no block that the store touches is poisoned, and the
store clears the poison of each whole block (R364). -/
def Obligations.StoredBytesReadBack : Prop :=
  (∀ (s : State) (a b : Nat), s.chanOf a = s.chanOf b → s.chanOff a = s.chanOff b → a = b) ∧
  ∀ (s : State) (a : Nat) (b : Bytes),
    (s.store a b).dram a b.length = b ∧
    ((∀ k ∈ blocksOf a b.length, Tbl.find s.mem.poison k = none) →
      ∀ i : Nat, (i < a ∨ a + b.length ≤ i) → (s.store a b).dram i 1 = s.dram i 1) ∧
    (∀ k : Nat, a ≤ 32 * k → 32 * k + 32 ≤ a + b.length → Tbl.find (s.store a b).mem.poison k = none)

/-- Reads and writes (R354 to R358, R364): a write inside the usable range stores its bytes and joins its channel's write queue; a read of a block that a queued write covers is served from there; a read that finds
its channel free to execute it is answered at once, and one in a refresh window or a retrain waits in its bank's queue; a clean or corrected
read returns the block; a block already poisoned returns poisoned data; an uncorrectable read waits for its second attempt, which returns the
block or poisons it; a request beyond the range raises MEM_RANGE, and the read of it is poisoned. -/
def Obligations.MemoryCommandsAnswer : Prop :=
  (∀ (g : Byte) (a : W64) (d : Bytes) (s : State), s.live = true →
    let c := s.chanOf a.toNat
    (a.toNat + d.length ≤ s.memEnd → (s.chan c).inflight < 256 →
      ∃ t, exec (.memWrite g a d) s = .next (s.after t) ∧ t.mem.dram = (s.store a.toNat d).mem.dram ∧
        t.mem.poison = (s.store a.toNat d).mem.poison ∧ t.cntOf bMEM 0 1 = (s.cntOf bMEM 0 1 + 1) % 2 ^ 48 ∧
        ((s.chan c).writes.length < 16 → (t.chan c).writes = (s.chan c).writes ++ [{ agent := g, addr := a.toNat, data := d }]) ∧
        (47 ≤ (s.chan c).writes.length → (t.chan c).writes.length = 16)) ∧
    (s.memEnd < a.toNat + d.length → exec (.memWrite g a d) s = .next (s.after (s.raise fMemRange g.toNat 0)))) ∧
  (∀ (g : Byte) (a : W64) (r : EccResult) (s : State), s.live = true →
    let c := s.chanOf a.toNat
    let bank := Config.dramBank (s.chanOff a.toNat) % 16
    let q : MemReq := { agent := g, addr := a.toNat, at_ := s.ns, kind := .read r (s.poisoned a.toNat 1) false,
                        data := s.dram (a.toNat / 32 * 32) 32 }
    (s.memEnd ≤ a.toNat →
      exec (.memRead g a r) s = .next (s.after
        (((s.raise fMemRange g.toNat 0).answer (zeros 32) true).lanePoison g.toNat))) ∧
    (a.toNat < s.memEnd → s.queuedAt a.toNat = true →
      exec (.memRead g a r) s = .next (s.after ((s.bump bMEM 0).answer (s.dram (a.toNat / 32 * 32) 32) false))) ∧
    (a.toNat < s.memEnd → s.queuedAt a.toNat = false → (s.chan c).inflight < 256 → (s.chan c).writes.length < 48 → s.memStalls = true →
      exec (.memRead g a r) s = .next (s.after (s.enqueueReq c q))) ∧
    (a.toNat < s.memEnd → s.queuedAt a.toNat = false → (s.chan c).inflight < 256 → (s.chan c).writes.length < 48 →
      (s.chan c).banks = [] → s.memStalls = false →
      (s.chan c).slot ≤ s.memSlotNow → (s.chan c).ph ≠ .selfRefresh →
      ((s.chan c).mayActivate s.ns = true ∨ s.rowHit c bank q = true) →
      ∃ t, exec (.memRead g a r) s = .next (s.after t) ∧ t.mem.dram = s.mem.dram ∧ t.mem.poison = s.mem.poison ∧
        (t.chan c).banks = [] ∧
        (s.poisoned a.toNat 1 = true → t.mem.lastPoisoned = true ∧ t.mem.lastRead = zeros 32) ∧
        (s.poisoned a.toNat 1 = false → r ≠ .uncorrectable →
          t.mem.lastPoisoned = false ∧ t.mem.lastRead = s.dram (a.toNat / 32 * 32) 32) ∧
        (s.poisoned a.toNat 1 = false → r = .uncorrectable →
          (t.chan c).retry = (s.chan c).retry ++ [{ agent := g, addr := a.toNat, scrub := false, data := s.dram (a.toNat / 32 * 32) 32 }]))) ∧
  (∀ (c : ChanId) (e : MemRetry) (q : List MemRetry) (s : State), s.live = true → (s.chan c.val).retry = e :: q →
    (s.chan c.val).writes.length < 48 → (s.chan c.val).banks = [] → s.memStalls = false → (s.chan c.val).slot ≤ s.memSlotNow →
    (s.chan c.val).ph ≠ .selfRefresh → (s.chan c.val).mayActivate s.ns = true →
    (∃ t, exec (.memRetryRead c true) s = .next (s.after t) ∧ t.mem.lastPoisoned = false ∧
      t.mem.lastRead = e.data ∧ (t.chan c.val).retry = q ∧ t.mem.poison = s.mem.poison) ∧
    (∃ t, exec (.memRetryRead c false) s = .next (s.after t) ∧ t.mem.lastPoisoned = true ∧
      Tbl.find t.mem.poison (e.addr / 32) = some () ∧ (t.fltSrc fMemUe).sticky = true))

/-- The schedule of module memory (R356, R358 to R363, R368): what a channel executes next; refresh windows one tREFI apart that close every row, an announced interval taking effect at the second
window, a row precharged when its timer ends, the temperature and oscillator readouts, retrains no closer than 10 ms, and the
patrol's next block. -/
def Obligations.MemoryScheduleAnswers : Prop :=
  (∀ (s : State) (c b : Nat) (r : MemReq), s.chooseReq c = some (b, r) →
    let l := s.reqsOf c
    let old := fun (e : Nat × MemReq) => decide (e.2.at_ + 2 * us < s.ns)
    let hit := fun (e : Nat × MemReq) => s.rowHit c e.1 e.2
    (b, r) ∈ l ∧
    (l.any old = true → old (b, r) = true ∧ ∀ e ∈ l, old e = true → r.at_ ≤ e.2.at_) ∧
    (l.any old = false → l.any (fun e => hit e && decide (e.2.writes = (s.chan c).writing)) = true →
      hit (b, r) = true ∧ r.writes = (s.chan c).writing) ∧
    (hit (b, r) = false → l.any old = true ∨ (s.chan c).mayActivate s.ns = true)) ∧
  (∀ s : State, s.memAwake = true → s.mem.nextWindow ≤ s.ns → s.mem.change = none →
    exec .refreshWindow s = .next (s.after
      { s.bump bMEM 8 with mem := { s.closeRows.mem with nextWindow := s.mem.nextWindow + s.mem.trefi } })) ∧
  (∀ (s : State) (hot : Bool), s.memAwake = true → s.mem.nextWindow ≤ s.ns → s.mem.change = some (hot, 0) →
    ∃ t, exec .refreshWindow s = .next (s.after t) ∧ t.mem.hot = hot ∧ t.mem.trefi = (if hot then 1952 else 3904) ∧
      t.mem.change = none ∧ t.mem.nextWindow = s.mem.nextWindow + (if hot then 1952 else 3904) ∧ t.flt.capChanged = true) ∧
  (∀ (c : ChanId) (b : Fin 16) (r due : Nat) (s : State), s.live = true →
    Tbl.find (s.chan c.val).rows b.val = some (r, due) → due ≤ s.ns →
    exec (.rowIdleTimeout c b) s =
      .next (s.after (s.setChan c.val { s.chan c.val with rows := Tbl.del (s.chan c.val).rows b.val }))) ∧
  (∀ (die : Int) (fast : Bool) (s : State), s.live = true → (850 < die ∨ fast = true) → s.mem.hot = false →
    s.mem.change = none →
    exec (.tempReadout die fast) s =
      .next (s.after { s with mem := { s.mem with dieC := die, coolSince := (if die ≤ 820
        then some (s.mem.coolSince.getD s.ns) else none), change := some (true, 1) } })) ∧
  (∀ (die : Int) (t0 : Nat) (s : State), s.live = true → die ≤ 820 → s.mem.hot = true → s.mem.change = none →
    s.mem.coolSince = some t0 → t0 + oneSec ≤ s.ns →
    exec (.tempReadout die false) s =
      .next (s.after { s with mem := { s.mem with dieC := die, change := some (false, 1) } })) ∧
  (∀ (d : List (BitVec 6)) (c : ChanId) (s : State), s.memAwake = true → (s.chan c.val).ph ≠ .excluded →
    ∃ t, exec (.oscReadout d) s = .next (s.after t) ∧ (t.chan c.val).drift = getAt 0 (d.map (·.toNat)) c.val ∧
      (s.driftMax < getAt 0 (d.map (·.toNat)) c.val → ∃ e ∈ t.mem.retrainQ, e.1 = c.val)) ∧
  (∀ (p : Bool) (c at_ : Nat) (q : List (Nat × Nat)) (s : State), s.memAwake = true → s.mem.retrainQ = (c, at_) :: q →
    at_ + ms ≤ s.ns → (∀ t0, s.mem.lastRetrain = some t0 → t0 + 10 * ms ≤ s.ns) →
    ∃ t, exec (.channelRetrain p) s = .next (s.after t) ∧ t.mem.lastRetrain = some s.ns ∧
      (p = true → t.mem.retrainQ = q ∧ (t.chan c).retrainFails = 0 ∧
        t.cntOf bMEM 0 6 = (s.cntOf bMEM 0 6 + 1) % 2 ^ 48) ∧
      (p = false → (s.chan c).retrainFails = 0 → t.mem.retrainQ = (c, at_) :: q ∧ (t.chan c).retrainFails = 1) ∧
      (p = false → 1 ≤ (s.chan c).retrainFails → t.mem.retrainQ = q ∧ (t.chan c).failed = true)) ∧
  (∀ (r : EccResult) (s : State), s.memAwake = true → tb s.memCfg 23 = true →
    let x := s.chan (s.chanOf s.mem.scrubPos)
    x.inflight < 256 → x.wanted = false → x.slot ≤ s.memSlotNow → s.memStalls = false →
    ∃ t, exec (.scrubRead r) s = .next (s.after t) ∧
      t.mem.scrubPos = (if s.memEnd ≤ s.mem.scrubPos + 32 then 0 else s.mem.scrubPos + 32))

/-! ### The host interface (R374 to R389, R481) -/

/-- A function-level reset, a hot reset, a loss of the link and PERST_N (R374): Bus Master Enable and HQE_CTL.EN are 0, every ring but ring 0 and
every event queue is HELD, ring 0 keeps its sequences, the host is detached, and no media function changes. PERST_N released
brings the link up; a configuration request is answered from the ready time on, and retried before it. -/
def Obligations.HostResetsAnswer : Prop :=
  (∀ s : State, s.pcie = true → ∃ t,
    exec .functionLevelReset s = .next (s.after t) ∧ exec .hotReset s = .next (s.after t) ∧
    exec .pcieLinkLoss s = .next (s.after { t with hqe := { t.hqe with linkUp := false, gen := 0, width := 0 } }) ∧
    exec .perstAssert s = .next (s.after { t with hqe := { t.hqe with linkUp := false, gen := 0, width := 0, perst := true } }) ∧
    t.hqe.bme = false ∧ (t.unit bHQE).en = false ∧ t.hqe.attached = false ∧ t.ring 0 = s.ring 0 ∧
    (∀ r : Nat, r ≠ 0 → (s.ring r).ph ≠ .free → (t.ring r).ph = .held) ∧
    (∀ q : Nat, (s.eq q).ph ≠ .free → (t.eq q).ph = .held) ∧
    t.lanes = s.lanes ∧ t.msc = s.msc ∧ t.cmp = s.cmp ∧ t.swc = s.swc ∧ t.tmg = s.tmg ∧ t.asm = s.asm ∧ t.erelm = s.erelm ∧
    t.prt = s.prt ∧ t.cas = s.cas ∧ t.mem = s.mem ∧ t.bpm = s.bpm ∧ t.ctx = s.ctx ∧ t.opens = s.opens) ∧
  (∀ (c : Bool) (g : BitVec 3) (w : BitVec 4) (s : State), s.pcie = true → s.hqe.perst = true →
    exec (.perstDeassert c g w) s = .next (s.after { s with
      hqe := { s.hqe with perst := false, sris := !c, linkUp := true, gen := g.toNat, width := w.toNat } })) ∧
  (∀ (b : Bool) (s : State), s.pcie = true → s.hqe.linkUp = true →
    (s.hqe.readyAt ≤ s.ns →
      exec (.configRequest (some b)) s = .next (s.after { s.emit .answered with hqe := { s.hqe with bme := b } }) ∧
      exec (.configRequest none) s = .next (s.after (s.emit .answered))) ∧
    (s.ns < s.hqe.readyAt →
      exec (.configRequest (some b)) s =
        .next (s.after (State.emit { s with hqe := { s.hqe with crs := s.hqe.crs + 1 } } .crs))))

/-- Doorbells and the watchdog (R377, R379, R382, R387): every doorbell and HQE_HEARTBEAT restart the watchdog; SQ_TAIL names at most the
ring's size of new entries, or stops the ring with reason DOORBELL; CQ_HEAD and EQ_DB move within what was produced, or are
ignored and counted; an armed queue signals once; and the watchdog's expiry detaches the host. -/
def Obligations.DoorbellsAnswer : Prop :=
  (∀ (r : RingId) (v : W32) (l : List SubEntry) (s : State), s.cmdsRun = true → s.running bHQE = true →
    let w := s.restartWatchdog
    let x := s.ring r.val
    let n := serial32 v.toNat x.consumed.toNat
    (x.ph ≠ .run → exec (.sqTail r v l) s = .next (s.after (w.bump bHQE 4)) ∧
      exec (.cqHead r v) s = .next (s.after (w.bump bHQE 4))) ∧
    (x.ph = .run → v = x.consumed → exec (.sqTail r v l) s = .next (s.after w)) ∧
    (x.ph = .run → v ≠ x.consumed → n ≤ x.size → exec (.sqTail r v l) s = .next (s.after
      (((w.setRing r.val { x with tailSeen := v, waiting := w.readEntries n l }).ringStat r.val).pump r.val))) ∧
    (x.ph = .run → v ≠ x.consumed → x.size < n → exec (.sqTail r v l) s = .next (s.after (w.stopRing r.val 1))) ∧
    (x.ph = .run → 0 < serial32 v.toNat x.headSeen.toNat →
      serial32 v.toNat x.headSeen.toNat ≤ serial32 x.produced.toNat x.headSeen.toNat →
      exec (.cqHead r v) s = .next (s.after (((w.setRing r.val { x with headSeen := v }).ringStat r.val).pump r.val))) ∧
    (x.ph = .run → (serial32 v.toNat x.headSeen.toNat = 0 ∨
        serial32 x.produced.toNat x.headSeen.toNat < serial32 v.toNat x.headSeen.toNat) →
      exec (.cqHead r v) s = .next (s.after (w.bump bHQE 4)))) ∧
  (∀ (q : EqId) (v : W32) (s : State), s.cmdsRun = true → s.running bHQE = true →
    let w := s.restartWatchdog
    let e := s.eq q.val
    ((e.ph ≠ .run ∨ serial32 e.posted.toNat e.db.toNat < serial32 v.toNat e.db.toNat) →
      exec (.eqDb q v) s = .next (s.after (w.bump bHQE 4))) ∧
    (e.ph = .run → serial32 v.toNat e.db.toNat ≤ serial32 e.posted.toNat e.db.toNat →
      ∃ t : State, exec (.eqDb q v) s = .next (s.after (((t.eqStat q.val).eqOverflowRec q.val).eqSignal q.val)) ∧
        (t.eq q.val).db = v ∧ (t.eq q.val).armed = true ∧ (t.eq q.val).posted = e.posted ∧
        t.coalAct q.val = fld (Tbl.get 1 s.regs (coalAddr q.val)).toNat 0 24)) ∧
  (∀ (q : EqId) (s : State), s.live = true →
    let e := s.eq q.val
    e.ph ≠ .free → e.armed = true → 0 < e.unread →
    (fld (s.coalAct q.val) 0 8 ≤ e.unread ∨ (∃ t0, e.firstAt = some t0 ∧ t0 + fld (s.coalAct q.val) 8 16 * us ≤ s.ns)) →
    exec (.eqCoalTimeout q) s = .next (s.after ((s.setEq q.val { e with armed := false }).msix q.val))) ∧
  (∀ (v : W32) (s : State), s.barTakes 0x400048 = true →
    exec (.heartbeat v) s = .next (s.after { s with
      hqe := { s.hqe with hbAt := s.ns, hbTimeout := fld (s.word 0x400044 2000) 0 16 } })) ∧
  (∀ s : State, s.live = true → s.hqe.attached = true → s.hqe.hbTimeout ≠ 0 → s.hqe.hbAt + s.hqe.hbTimeout * ms ≤ s.ns →
    ∃ t, exec .heartbeatTimeout s = .next (s.after t) ∧ t.hqe.attached = false ∧ t.ring 0 = s.ring 0 ∧
      (∀ r : Nat, r ≠ 0 → (s.ring r).ph ≠ .free → (t.ring r).ph = .held))

/-- The completion ring never overflows (R379): entries are consumed, and commands completed, only so that the completions not taken
plus the submissions in flight stay within the ring's size. -/
def Obligations.CompletionSlotsAreReserved : Prop :=
  (∀ (s : State) (r n : Nat),
    let fits := fun x : Ring => serial32 x.produced.toNat x.headSeen.toNat + x.flight.length ≤ x.size
    fits (s.ring r) → fits ((s.pumpN r n).ring r)) ∧
  (∀ (s : State) (r : Nat) (e : SubEntry) (st d : Nat) (b : Bytes),
    let fits := fun x : Ring => serial32 x.produced.toNat x.headSeen.toNat + x.flight.length ≤ x.size
    fits (s.ring r) → (∃ f ∈ (s.ring r).flight, f.e.sseq = e.sseq) → fits ((s.complete r e st d b).ring r))

/-- Rings and event queues by command (R381, R383, R384, R388, R481): NOP completes OK; RING_CREATE makes a free ring run with sequences at
0; RING_DELETE frees it; RING_RESYNC moves it, sequences unchanged, and answers the oldest completion kept; EQ_CREATE, EQ_DELETE
and EQ_RESYNC do the same for event queues, a resynchronised one empty and armed; ATTACH attaches and answers the events lost. -/
def Obligations.RingAndQueueCommandsAnswer : Prop :=
  ∀ (h : CmdRef) (e : SubEntry) (s : State), s.cmdsRun = true → s.serves 0 = true →
    (s.command h 0x01 = some e → exec (.nop h) s = .next (s.after (s.finish h cOK 0 []))) ∧
    (s.command h 0x10 = some e → ringTarget e = true → e.param 0 1 ≤ 2 → isPow2In (e.param 2 2) 16 4096 = true →
      placeOk e (e.param 2 2) = true → (e.param 20 2 < 2048 ∨ e.param 20 2 = 0xFFFF) →
      e.target.toNat < getAt 0 s.way.queueParts 2 / 2 → (s.ring e.target.toNat).ph = .free →
      exec (.ringCreate h) s = .next (s.after (((s.setRing e.target.toNat {
        ph := .run, kind := e.param 0 1, size := e.param 2 2, sqBase := e.addr.toNat, cqBase := e.param 4 8, srBase := e.param 12 8,
        errEq := e.param 20 2 }).ringStat e.target.toNat).finish h cOK 0 []))) ∧
    (s.command h 0x10 = some e → ringTarget e = false → exec (.ringCreate h) s = .next (s.after (s.finish h cBAD_PARAM 0 []))) ∧
    (s.command h 0x11 = some e → ringTarget e = true → (s.ring e.target.toNat).ph ≠ .free →
      ∃ t : State, exec (.ringDelete h) s = .next (s.after (t.finish h cOK 0 [])) ∧ (t.ring e.target.toNat).ph = .free ∧
        (t.ring e.target.toNat).flight = []) ∧
    (s.command h 0x12 = some e → ringTarget e = true → (s.ring e.target.toNat).ph ≠ .free →
      placeOk e (s.ring e.target.toNat).size = true →
      ∃ t : State, exec (.ringResync h) s = .next (s.after (t.finish h cOK 0 (leBytes 4
          (match (s.ring e.target.toNat).kept with | c :: _ => c.cseq | [] => (s.ring e.target.toNat).produced + 1).toNat))) ∧
        (t.ring e.target.toNat).ph = .run ∧ (t.ring e.target.toNat).waiting = [] ∧
        (t.ring e.target.toNat).cqBase = e.param 4 8 ∧
        (t.ring e.target.toNat).consumed = (s.ring e.target.toNat).consumed ∧
        (t.ring e.target.toNat).produced = (s.ring e.target.toNat).produced) ∧
    (s.command h 0x13 = some e → eqTarget e = true → eqPlaceOk e = true → s.eqCoalOk e = true →
      (s.eq e.target.toNat).ph = .free →
      exec (.eqCreate h) s = .next (s.after ((((s.setCoal e.target.toNat e).setEq e.target.toNat {
        ph := .run, base := e.addr.toNat, size := e.param 0 4, srBase := e.param 4 8, armed := true }).eqStat
          e.target.toNat).finish h cOK 0 []))) ∧
    (s.command h 0x14 = some e → eqTarget e = true → (s.eq e.target.toNat).ph ≠ .free →
      exec (.eqDelete h) s = .next (s.after (((s.setEq e.target.toNat { s.eq e.target.toNat with
        ph := .free, armed := false, firstAt := none }).eqStat e.target.toNat).finish h cOK 0 []))) ∧
    (s.command h 0x15 = some e → eqTarget e = true → eqPlaceOk e = true → s.eqCoalOk e = true →
      (s.eq e.target.toNat).ph ≠ .free →
      exec (.eqResync h) s = .next (s.after ((((s.setCoal e.target.toNat e).setEq e.target.toNat { s.eq e.target.toNat with
        ph := .run, base := e.addr.toNat, size := e.param 0 4, srBase := e.param 4 8, armed := true,
        db := (s.eq e.target.toNat).posted, firstAt := none }).eqStat e.target.toNat).finish h cOK 0 []))) ∧
    (s.command h 0x16 = some e →
      ∃ t : State, exec (.attach h) s = .next (s.after (t.finish h cOK 0 (leBytes 4 (s.hqe.lostDetached % 2 ^ 32)))) ∧
        t.hqe.attached = true ∧ t.hqe.lostDetached = 0 ∧ t.hqe.hbAt = s.ns)

/-- TX and RX rings (R375, R386): a frame read from the host is copied to its egress queue with its bytes, and its entry completes; a
posted buffer takes a frame that waits; a frame that waited WAIT_US is discarded and counted. -/
def Obligations.FrameRingsAnswer : Prop :=
  (∀ (h : CmdRef) (e : SubEntry) (b : Bytes) (s : State), s.cmdsRun = true → s.frontEntry h kTX 0x100 = some e →
    e.target.toNat < 262144 → 0 < e.len.toNat → e.len.toNat + 4 ≤ 9216 →
    let q := s.queue e.target.toNat
    let n := cellsFor (max 64 (e.len.toNat + 4))
    let a := s.allocMany aHqe 0 1 false n
    (s.hqe.bme = true → s.hasCredit 4 (s.groupOf q.dest) q.cls n = true → a.2.length = n →
      exec (.txFrame h (some b)) s = .next (s.after
        (((((a.1.takeCredit 4 (s.groupOf q.dest) q.cls n).writeCells (max 64 (e.len.toNat + 4)) a.2 [] true).newCopy
          { kind := .host, dest := q.dest, cls := q.cls, queue := e.target.toNat, head := a.2,
            len := max 64 (e.len.toNat + 4), src := 36, unit := some 4, data := padTo e.len.toNat b }).1).complete
              h.ring.val e cOK 0 []))) ∧
    exec (.txFrame h none) s = .next (s.after (s.complete h.ring.val e cHOST_DMA 0 []))) ∧
  (∀ (h : CmdRef) (s : State), s.cmdsRun = true → (s.ring h.ring.val).kind = kRX → (s.flightOf h).isSome = true →
    tb s.excCfg 31 = true → fld s.excCfg 0 14 = h.ring.val →
    exec (.rxBuffer h) s = .next (s.after (s.excFill h.ring.val s.hqe.exc.length))) ∧
  (∀ s : State, s.live = true →
    ∃ t, exec .excWaitTimeout s = .next (s.after t) ∧
      t.hqe = { s.hqe with exc := s.hqe.exc.filter (fun e => decide (s.ns < e.due)) } ∧
      t.cntOf bHQE 0 6 =
        (s.cntOf bHQE 0 6 + (s.hqe.exc.filter (fun e => decide (e.due ≤ s.ns))).length) % 2 ^ 48)

/-- Contexts and sessions by command (R68, R383, R384): the image read at addr opens, changes or lays out; its code and detail are
answered; CTX_QUERY and SESSION_QUERY write their copies to the buffer; a closed record answers STATE. -/
def Obligations.ContextCommandsAnswer : Prop :=
  ∀ (h : CmdRef) (e : SubEntry) (b : Bytes) (s : State), s.cmdsRun = true → s.serves 0 = true → s.hqe.bme = true →
    let img := b.take e.len.toNat
    let r := e.target.toNat
    (s.command h 0x20 = some e →
      exec (.ctxOpen h (some b)) s = .next (s.after ((s.openCtx r (padTo 256 img)).1.finish h (s.openCtx r (padTo 256 img)).2.1
        (s.openCtx r (padTo 256 img)).2.2.1 (s.openCtx r (padTo 256 img)).2.2.2))) ∧
    (s.command h 0x21 = some e →
      exec (.ctxChange h (some b)) s =
        .next (s.after ((s.changeCtx r img).1.finish h (s.changeCtx r img).2.1 (s.changeCtx r img).2.2 []))) ∧
    (s.command h 0x22 = some e → s.boundCtx r = false → (s.erelm.sess.all (fun x => decide (x.2.closer ≠ some h))) = true →
      ((Tbl.find s.opens r = some 2 → exec (.ctxClose h) s = .next (s.after ((s.closeFlow r).finish h cOK 0 []))) ∧
       (Tbl.find s.opens r = some 3 → exec (.ctxClose h) s = .next (s.after ((s.closeEnc r).finish h cOK 0 []))) ∧
       (Tbl.find s.opens r = some 4 → exec (.ctxClose h) s = .next (s.after ((s.closeDec r).finish h cOK 0 []))) ∧
       (Tbl.find s.opens r = some 5 → exec (.ctxClose h) s = .next (s.after ((s.closeCmp r).finish h cOK 0 []))) ∧
       (Tbl.find s.opens r = some 1 → exec (.ctxClose h) s = .next (s.after (s.closeEs r 1 (some h)))) ∧
       (Tbl.find s.opens r = none → r < 40960 → exec (.ctxClose h) s = .next (s.after (s.finish h cSTATE 0 []))))) ∧
    (s.command h 0x22 = some e → s.boundCtx r = true → (s.erelm.sess.all (fun x => decide (x.2.closer ≠ some h))) = true →
      exec (.ctxClose h) s = .next (s.after (s.finish h cSTATE 0 []))) ∧
    (s.command h 0x23 = some e → r < 40960 → (Tbl.find s.opens r).isSome = true →
      exec (.ctxQuery h) s = .next (s.after ((s.toHost e.addr.toNat (s.ctxImage r)).finish h cOK 0 []))) ∧
    (s.command h 0x24 = some e →
      exec (.layoutSet h (some b)) s =
        .next (s.after ((s.setLayout r img).1.finish h (s.setLayout r img).2.1 (s.setLayout r img).2.2 []))) ∧
    (s.command h 0x25 = some e →
      exec (.sessionNet h (some b)) s =
        .next (s.after ((s.setNet r (Config.netOf img)).1.finish h (s.setNet r (Config.netOf img)).2 0 []))) ∧
    (s.command h 0x26 = some e → r < 40960 → s.isOpen r kSESS = true →
      exec (.sessionQuery h) s = .next (s.after
        ((s.toHost e.addr.toNat ((Config.sessionReport (s.sessionWords r)).take e.len.toNat)).finish h cOK 0 []))) ∧
    (s.command h 0x20 = some e → exec (.ctxOpen h none) s = .next (s.after (s.finish h cHOST_DMA 0 []))) ∧
    (s.command h 0x23 = some e → r < 40960 → Tbl.find s.opens r = none →
      exec (.ctxQuery h) s = .next (s.after (s.finish h cSTATE 0 [])))

/-- Surfaces, layers and frame buffers by command (R147, R149, R186 to R188, R194, R195): a surface takes the lowest free handle; an upload
fills its back buffer; a flip exchanges its buffers; an unbound one is deleted; LAYER_SET waits for the next output picture;
a frame buffer is queried, pinned and released. -/
def Obligations.SurfaceAndFrameCommandsAnswer : Prop :=
  ∀ (h : CmdRef) (e : SubEntry) (b : Bytes) (s : State), s.cmdsRun = true → s.serves 0 = true → s.hqe.bme = true →
    let img := b.take e.len.toNat
    let n := e.target.toNat
    (∀ k : Nat, s.command h 0x30 = some e → s.surfaceOk (Config.surfaceOf img) = true → s.cmp.surfs.free 65536 = some k →
      let d := Config.surfaceOf img
      exec (.surfaceCreate h (some b)) s = .next (s.after ((s.setSurface k {
        base := d.base, width := d.width, height := d.height, pitch := d.pitch, format := d.format, size := d.pitch * d.height }).finish h cOK 0 (leBytes 4 k)))) ∧
    (s.command h 0x30 = some e → s.surfaceOk (Config.surfaceOf img) = false →
      exec (.surfaceCreate h (some b)) s = .next (s.after (s.finish h cBAD_PARAM 0 []))) ∧
    (∀ x : Surface, s.command h 0x31 = some e → Tbl.find s.cmp.surfs n = some x →
      (Config.uploadOf img).offset + (Config.uploadOf img).samples.length ≤ x.size → (Config.uploadOf img).palette = none →
      exec (.surfaceUpload h (some b)) s = .next (s.after
        ((s.store (x.backAt + (Config.uploadOf img).offset) (Config.uploadOf img).samples).finish h cOK 0 []))) ∧
    (s.command h 0x32 = some e → (Tbl.find s.cmp.surfs n).isSome = true → e.len = 0 →
      exec (.surfaceFlip h (some b)) s = .next (s.after ((s.flip n none).finish h cOK 0 []))) ∧
    (s.command h 0x32 = some e → (Tbl.find s.cmp.surfs n).isSome = true → e.len ≠ 0 →
      exec (.surfaceFlip h (some b)) s = .next (s.after ((s.flip n (some (Config.flipRect img))).finish h cOK 0 []))) ∧
    (s.command h 0x33 = some e → (Tbl.find s.cmp.surfs n).isSome = true → s.bindersOf n = [] → s.surfInUse n = false →
      s.surfPending n = false →
      exec (.surfaceDelete h) s = .next (s.after
        (State.finish { s with cmp := { s.cmp with surfs := Tbl.del s.cmp.surfs n } } h cOK 0 []))) ∧
    (s.command h 0x33 = some e → (Tbl.find s.cmp.surfs n).isSome = true → s.bindersOf n ≠ [] →
      exec (.surfaceDelete h) s = .next (s.after (s.finish h cSTATE 0 []))) ∧
    (s.command h 0x34 = some e → (Config.layerCmd img).slots = [] → n < 40960 → s.isOpen n kCMP = true →
      ∃ x, exec (.layerSet h (some b)) s = .next (s.after ((s.setCmpCtx n x).finish h cOK 0 [])) ∧
        x.pendDesc = (s.cmpCtx n).pendDesc ∧
        (∀ v, (Config.layerCmd img).globalAlpha = some v → x.pendGa = some (v % 256)) ∧
        (∀ v, (Config.layerCmd img).background = some v → x.pendBg = some (v % 2 ^ 30))) ∧
    (s.command h 0x40 = some e → s.fbBad e.target = none →
      exec (.fbQuery h) s = .next (s.after ((s.toHost e.addr.toNat (s.frameBytes e.target)).finish h cOK 0 []))) ∧
    (s.command h 0x41 = some e → s.fbBad e.target = none → (s.buf (hKey e.target)).count < 1023 →
      exec (.fbPin h) s = .next (s.after ((s.setBuf (hKey e.target)
        { s.buf (hKey e.target) with count := (s.buf (hKey e.target)).count + 1 }).finish h cOK 0 []))) ∧
    (s.command h 0x42 = some e → s.fbBad e.target = none → 0 < (s.buf (hKey e.target)).count →
      exec (.fbRelease h) s = .next (s.after ((s.decRefA aHost e.target).finish h cOK 0 [])))

/-- Traffic queues, lanes, time and the fault log by command (R51, R88, R291, R322, R457): QUEUE_OPEN enables a descriptor with its parameters;
DRAIN refuses new copies and completes when the queue is empty; FLUSH discards what it holds; LANE_DRAIN and LANE_RELEASE begin
and end the draining of the lanes named; a time source is chosen; records of the log are copied, newest first. -/
def Obligations.QueueLaneAndLogCommandsAnswer : Prop :=
  ∀ (h : CmdRef) (e : SubEntry) (s : State), s.cmdsRun = true → s.serves 0 = true →
    let q := e.target.toNat
    (s.command h 0x50 = some e → q < 262144 → e.param 4 2 < 264 → e.param 8 2 < 4096 →
      (e.param 10 2 < 16384 ∨ e.param 10 2 = 0xFFFF) → (s.queue q).en = false →
      exec (.queueOpen h) s = .next (s.after ((s.setQueue q {
        en := true, dest := e.param 4 2, cls := fld (e.param 6 1) 0 3, limit := fld (e.param 0 4) 0 19, drr := e.param 8 2, shaper := e.param 10 2 }).finish h cOK 0 []))) ∧
    (s.command h 0x50 = some e → q < 262144 → e.param 4 2 < 264 → e.param 8 2 < 4096 →
      (e.param 10 2 < 16384 ∨ e.param 10 2 = 0xFFFF) → (s.queue q).en = true →
      exec (.queueOpen h) s = .next (s.after (s.finish h cSTATE 0 []))) ∧
    (s.command h 0x51 = some e → q < 262144 → e.param 0 1 = 0 → (s.queue q).closer ≠ some h → (s.queue q).en = true →
      exec (.queueCloseDrain h) s = .next (s.after
        ((s.setQueue q { s.queue q with draining := true, closer := some h }).closeIfEmpty q))) ∧
    (s.command h 0x51 = some e → q < 262144 → e.param 0 1 = 1 → (s.queue q).en = true →
      ∃ t : State, exec (.queueCloseFlush h) s = .next (s.after (t.finish h cOK 0 [])) ∧ (t.queue q).en = false ∧
        (t.queue q).copies = [] ∧ (t.queue q).cells = 0 ∧
        t.cntOf bTMG 0 12 = (s.cntOf bTMG 0 12 + (s.queue q).copies.length) % 2 ^ 48) ∧
    (s.command h 0x60 = some e → h ∉ s.msc.drains →
      ∃ t, exec (.laneDrain h) s = .next (s.after t) ∧ t.msc.drains = s.msc.drains ++ [h] ∧ t.flt.capChanged = true ∧
        (∀ l ∈ lanesOf (e.param 0 8), (t.lane l).draining = true)) ∧
    (s.command h 0x61 = some e →
      ∃ t : State, exec (.laneRelease h) s = .next (s.after (t.finish h cOK 0 [])) ∧
        (∀ l ∈ lanesOf (e.param 0 8), (t.lane l).draining = false)) ∧
    (s.command h 0x80 = some e → q ≤ 2 →
      exec (.timeSource h) s = .next (s.after (State.finish { s with clk := { s.clk with
        src := (if q = 0 then .ptp else if q = 1 then .pps else .free), slew := 0, ppsAt := none } } h cOK 0 []))) ∧
    (s.command h 0x80 = some e → 2 < q → exec (.timeSource h) s = .next (s.after (s.finish h cBAD_PARAM 0 []))) ∧
    (s.command h 0x81 = some e → exec (.ptpCtl h) s = .next (s.after
      (State.finish { s with clk := { s.clk with ptpPorts := Config.ptpPorts e.target [] } } h cOK 0 []))) ∧
    (s.command h 0x91 = some e → e.param 0 4 = 0 → 0 < e.param 4 4 → e.param 4 4 * 32 ≤ e.len.toNat → s.hqe.bme = true →
      ∀ (r : LogRec) (l : List LogRec), (s.flash.log ++ s.flt.pendingLog).reverse = r :: l →
      exec (.faultLogRead h) s = .next (s.after
        ((s.toHost e.addr.toNat (((r :: l).take (e.param 4 4)).flatMap logBytes)).finish h cOK 0
          (leBytes 4 ((r :: l).take (e.param 4 4)).length ++ leBytes 4 r.seq))))

/-! ### Events, processors, DMA (R394 to R410) -/

/-- Assertion (R396): an edge makes an idle source pending, with its particulars and the route word of that moment, is merged and counted at
a pending one, and makes one in service pending again; source 0 never asserts; a level that de-asserts while pending returns to idle. -/
def Obligations.EventSourcesAnswer : Prop :=
  ∀ (n : SrcId) (c : W32) (d : W64) (s : State), s.live = true →
    let code := (Config.eventCode (nameOf n.val)).toNat
    let e := s.src n.val
    let s1 := s.bump bEVC 0
    (n.val = 0 → exec (.eventAssert n c d) s = .next (s.after s)) ∧
    (n.val ≠ 0 → isLevel n.val = false → e.ph = .idle →
      exec (.eventAssert n c d) s = .next (s.after ((s1.setSrc n.val { e with
        ph := .pending, rt := s.routeWord n.val, code := code, context := c.toNat, detail := d.toNat,
        time := s.ns }).assign n.val))) ∧
    (n.val ≠ 0 → isLevel n.val = false → (e.ph = .pending ∨ (e.ph = .inService ∧ e.again = true)) →
      ∃ t, exec (.eventAssert n c d) s = .next (s.after t) ∧ (t.src n.val).ph = e.ph ∧ (t.src n.val).again = e.again ∧
        (t.src n.val).target = e.target ∧ (t.src n.val).merged = min (e.merged + 1) 0xFFFF ∧
        t.cntOf bEVC 0 1 = (s.cntOf bEVC 0 1 + 1) % 2 ^ 48) ∧
    (n.val ≠ 0 → isLevel n.val = false → e.ph = .inService → e.again = false →
      exec (.eventAssert n c d) s = .next (s.after (s1.setSrc n.val { e with
        again := true, code := code, context := c.toNat, detail := d.toNat, time := s.ns }))) ∧
    (isLevel n.val = true → e.asserted = false → e.ph = .idle →
      ∃ t : State, exec (.eventAssert n c d) s = .next (s.after (t.assign n.val)) ∧ t.src n.val = { e with
        asserted := true, ph := .pending, rt := s.routeWord n.val, code := code, context := c.toNat, detail := d.toNat,
        time := s.ns }) ∧
    (isLevel n.val = true → (e.asserted = true ∨ e.ph ≠ .idle) →
      exec (.eventAssert n c d) s = .next (s.after (s1.setSrc n.val { e with
        asserted := true, code := code, context := c.toNat, detail := d.toNat, time := s.ns }))) ∧
    (isLevel n.val = true → e.ph = .pending →
      exec (.eventDeassert n) s = .next (s.after (s.setSrc n.val { e with
        asserted := false, ph := .idle, target := none, unrouted := false }))) ∧
    (isLevel n.val = true → e.ph ≠ .pending →
      exec (.eventDeassert n) s = .next (s.after (s.setSrc n.val { e with asserted := false }))) ∧
    (isLevel n.val = false → exec (.eventDeassert n) s = .next (s.after s))

/-- Claim, complete and thaw at a processor's target (R400 to R402): the claim takes the best eligible source, pushes it with the
threshold and raises the threshold to its priority; a full stack of 8 and a target without an eligible source read 0; a
complete of the top pops it; any other freezes the target; a frozen target claims nothing and ignores every complete; and
THAW empties the stack. The host's targets answer alike while the module serves BAR0 there. -/
def Obligations.ClaimCompleteThawAnswer : Prop :=
  ∀ (t : TgtId) (v : W32) (s : State), (if t.val < 5 then s.live = true else s.barTakes 0x501000 = true) →
    let x := s.tgt t.val
    ((x.frozen = true ∨ s.tgtEn t.val = false ∨ s.tgtClaims t.val = false) →
      exec (.claim t) s = .next (s.after (s.emit (.claimed t.val 0)))) ∧
    (x.frozen = false → s.tgtEn t.val = true → s.tgtClaims t.val = true → s.best t.val = none →
      exec (.claim t) s = .next (s.after ((s.bump bEVC 3).emit (.claimed t.val 0)))) ∧
    (∀ n : Nat, x.frozen = false → s.tgtEn t.val = true → s.tgtClaims t.val = true → s.best t.val = some n →
      (8 ≤ x.stack.length → exec (.claim t) s =
        .next (s.after (((s.setTgt t.val { x with stackFull := true }).bump bEVC 4).emit (.claimed t.val 0)))) ∧
      (x.stack.length < 8 → exec (.claim t) s = .next (s.after
        ((((s.setTgt t.val { x with stack := (n, s.tgtThr t.val) :: x.stack, thr := s.prio n }).setSrc n
          { s.src n with ph := .inService, again := false }).bump bEVC 2).emit (.claimed t.val n))))) ∧
    (x.frozen = true → exec (.complete t v) s = .next (s.after s)) ∧
    (∀ m thr rest, x.frozen = false → x.stack = (m, thr) :: rest → fld v.toNat 0 16 = m →
      exec (.complete t v) s = .next (s.after
        (((s.setTgt t.val { x with stack := rest, thr := thr }).release m).signalLeft t.val))) ∧
    (x.frozen = false → (∀ m thr rest, x.stack = (m, thr) :: rest → fld v.toNat 0 16 ≠ m) →
      ∃ u, exec (.complete t v) s = .next (s.after u) ∧ (u.tgt t.val).frozen = true ∧ (u.tgt t.val).stack = x.stack ∧
        u.cntOf bEVC 0 5 = (s.cntOf bEVC 0 5 + 1) % 2 ^ 48) ∧
    (tb v.toNat 0 = true → ∃ u, exec (.thaw t v) s = .next (s.after u) ∧ (u.tgt t.val).frozen = false ∧
      (u.tgt t.val).stack = [])

/-- A claim returns an eligible source of the highest priority, the lowest number among equals (R400). -/
def Obligations.ClaimTakesTheHighestPriority : Prop :=
  ∀ (s : State) (t n : Nat), s.evc.srcs.wf = true → s.best t = some n →
    s.eligible t n = true ∧ s.tgtThr t < s.prio n ∧
    (∀ m : Nat, s.eligible t m = true → s.prio m < s.prio n ∨ (s.prio m = s.prio n ∧ n ≤ m))

/-- Session processors (R394): the restart after missed reports, service again 3 ms later, the end of the 60 s window, the second
restart inside it, which maps the processor out and raises CPU_SP_LOST, and SVP's watchdog. -/
def Obligations.ProcessorSupervisionAnswers : Prop :=
  (∀ (sp : SpId) (s : State), s.live = true →
    let x := s.cpu (sp.val + 1)
    (x.ph = .run → x.watched = false →
      ∃ t, exec (.spReportMissed sp) s = .next (s.after (t.setCpu (sp.val + 1)
        { x with ph := .restarting, restarts := min (x.restarts + 1) 255, restartAt := some t.ns, watched := true })) ∧
        (tb x.services 0 = true → t = s.abortCommands) ∧ (tb x.services 0 = false → t = s)) ∧
    (∀ r : Nat, x.ph = .run → x.watched = true → x.restartAt = some r → s.ns ≤ r + 60 * oneSec → tb x.services 0 = false →
      exec (.spReportMissed sp) s = .next (s.after ((((s.setCpu (sp.val + 1)
        { x with ph := .mappedOut, watched := false }).moveServices (sp.val + 1)).setHealth hSP).raise fCpuSpLost
          (sp.val + 1) 0))) ∧
    (∀ r : Nat, x.ph = .restarting → x.restartAt = some r → r + 3 * ms ≤ s.ns →
      exec (.spRestartComplete sp) s = .next (s.after (s.setCpu (sp.val + 1) { x with ph := .run }))) ∧
    (∀ r : Nat, x.ph = .run → x.watched = true → x.restartAt = some r → r + 60 * oneSec ≤ s.ns →
      exec (.spHoldExpire sp) s = .next (s.after (s.setCpu (sp.val + 1) { x with watched := false })))) ∧
  (∀ s : State, s.live = true → exec .svpWatchdogExpire s = .next (s.after (s.raise fCpuSvpWdog 0 0)))

/-- DMA (R406, R409): GO is ignored and counted without EN or while BUSY, refused with its reason in ERR, and otherwise accepted, with
REMAIN at COUNT, or at what was left with RESUME; a transfer done has moved COUNT bytes, reads DONE, and raises DMA_DONE
where IRQ asks; a failed access stops every channel and latches where; BUSERR is cleared by writing 1. -/
def Obligations.DmaCommandsAnswer : Prop :=
  (∀ (c : DmaId) (v : W32) (s : State), s.dmaMay c.val = true → tb v.toNat 31 = true →
    let x := s.dmaCh c.val
    let u := s.dmaXctl c.val v
    (tb v.toNat 30 = false → ((s.unit (dmaKey c.val)).en = false ∨ x.busy = true) →
      exec (.dmaGo c v) s = .next (s.after (s.ignw (dmaKey c.val)))) ∧
    (tb v.toNat 30 = false → (s.unit (dmaKey c.val)).en = true → x.busy = false → u.dmaErr c.val ≠ 0 →
      exec (.dmaGo c v) s = .next (s.after (u.setDmaCh c.val { u.dmaCh c.val with err := u.dmaErr c.val }))) ∧
    (tb v.toNat 30 = false → (s.unit (dmaKey c.val)).en = true → x.busy = false → u.dmaErr c.val = 0 →
      ∃ t, exec (.dmaGo c v) s = .next (s.after t) ∧ (t.dmaCh c.val).busy = true ∧ (t.dmaCh c.val).err = 0 ∧
        (t.dmaCh c.val).remain = s.dmaCount c.val) ∧
    (tb v.toNat 30 = true → (s.unit (dmaKey c.val)).en = true → x.busy = false → u.dmaErr c.val = 0 →
      ∃ t, exec (.dmaResume c v) s = .next (s.after t) ∧ (t.dmaCh c.val).busy = true ∧
        (t.dmaCh c.val).remain = min x.remain (s.dmaCount c.val))) ∧
  (∀ (c : DmaId) (b : Bytes) (s : State), s.live = true → s.dmaReady c.val = true → s.dmaSrcHost c.val = true →
    ∃ t, exec (.dmaTransferDone c b) s = .next (s.after t) ∧ (t.dmaCh c.val).busy = false ∧ (t.dmaCh c.val).done = true ∧
      (t.dmaCh c.val).remain = 0) ∧
  (∀ (a : W64) (sp : DmaSpace) (w : Bool) (s : State), s.live = true → s.dma.chans.any (fun e => e.2.busy) = true →
    ∃ t, exec (.dmaBusError a sp w) s = .next (s.after t) ∧ t.dma.buserr = true ∧ t.dma.errAddr = a ∧ t.dma.errWrite = w ∧
      t.dma.errHost = decide (sp = .host) ∧ (∀ c : DmaId, (t.dmaCh c.val).busy = false)) ∧
  (∀ (v : W32) (s : State), s.barTakes 0x600040 = true → tb v.toNat 31 = true →
    exec (.dmaBuserrClear v) s = .next (s.after { s with dma := { s.dma with buserr := false } }))

/-! ### Security (R40, R51 to R55, R418 to R428) -/

/-- Images, waymaps, detours, quotes and tokens (R40, R48, R52, R53, R420, R421, R423 to R425): while a structural operation runs an image is
turned away; one that every check passes is installed and counted, and one that a check refuses completes REJECTED with its
code; a good bundle is stored in the bank that does not run; the ratchet raises the counters to what runs; a waymap goes to
the slot that does not run; a detour commits its image and begins APPLY; a quote and the certificate go to the host's
buffer; and a debug token unlocks its level, or counts as refused, and each presentation changes the challenge. -/
def Obligations.ImagesAndQuotesAnswer : Prop :=
  (∀ (h : CmdRef) (e : SubEntry) (b : Bytes) (ok : Bool) (s : State), s.cmdsRun = true → s.serves 0 = true → s.hqe.bme = true →
    let x := b.take e.len.toNat
    (s.command h 0x70 = some e → e.ratchet = false → s.structural = true →
      exec (.imageInstall h (some b) ok) s = .next (s.after (s.finish h cBUSY 0x12 []))) ∧
    (∀ t : State, s.command h 0x70 = some e → e.ratchet = false → s.structural = false →
      s.install e.target.toNat x ok = (t, 0) → imgKind x ≠ 5 →
      exec (.imageInstall h (some b) ok) s = .next (s.after ((t.bump bSEC 0).finish h cOK 0 []))) ∧
    (∀ (t : State) (n : Nat), s.command h 0x70 = some e → e.ratchet = false → s.structural = false →
      s.install e.target.toNat x ok = (t, n) → n ≠ 0 → imgKind x ≠ 5 →
      exec (.imageInstall h (some b) ok) s = .next (s.after ((t.bump bSEC 1).finish h cREJECTED n []))) ∧
    (imgHdrOk x (min bankSize x.length) = true → imgKind x = 1 → e.target.toNat ≤ 1 → e.target.toNat ≠ s.sec.bank →
      s.vendorCode x "FV9256-FW" = 0 → s.flash.fwCtr ≤ imgSvn x →
      s.install e.target.toNat x true =
        ({ s.writeFlash (bankOff e.target.toNat) bankSize x with
           sec := { (s.writeFlash (bankOff e.target.toNat) bankSize x).sec with altValid := true } }, 0)) ∧
    (s.command h 0x70 = some e → e.ratchet = true → s.structural = false → s.sec.svn ≤ 64 → s.lanesSvn ≤ 64 →
      ∃ t : State, exec (.imageRatchet h) s = .next (s.after (t.finish h cOK 0 [])) ∧
        t.flash.fwCtr = max s.flash.fwCtr s.sec.svn ∧ t.flash.mcCtr = max s.flash.mcCtr s.lanesSvn ∧
        t.flash.data = s.flash.data) ∧
    (s.command h 0x71 = some e → s.structural = false → s.wmCheck x x.length = none →
      exec (.waymapInstall h (some b)) s = .next (s.after
        (((s.writeFlash (slotOff s.otherSlot) slotSize x).bump bSEC 0).finish h cOK 0 (leBytes 4 s.otherSlot)))) ∧
    (∀ r k i : Nat, s.command h 0x71 = some e → s.structural = false → s.wmCheck x x.length = some (r, k, i) →
      ∃ t : State, exec (.waymapInstall h (some b)) s = .next (s.after ((t.bump bSEC 1).finish h cREJECTED r [])) ∧
        t = { s with sec := { s.sec with wm := { s.sec.wm with reason := r, skind := k, section_ := i } } }) ∧
    (∀ lanes blocks : List Nat, s.command h 0x72 = some e → s.sec.detour = none → s.structural = false →
      s.detourCheck x = (0, lanes, blocks) →
      ∃ t, exec (.detour h (some b)) s = .next (s.after t) ∧ t.sec.detour = some (some h) ∧ t.sec.detLanes = lanes ∧
        t.sec.detBlocks = blocks ∧ t.sec.detImage = x ∧ t.sec.wm.phase = 3 ∧
        (blocks = [] → t.sec.detDue = s.ns + 2 * ms) ∧ (blocks ≠ [] → s.ns + 5 * ms ≤ t.sec.detDue)) ∧
    (∀ (r : Nat) (lanes blocks : List Nat), s.command h 0x72 = some e → s.sec.detour = none → s.structural = false →
      s.detourCheck x = (r, lanes, blocks) → r ≠ 0 →
      exec (.detour h (some b)) s = .next (s.after (((s.setDet 5 r).bump bSEC 1).finish h cREJECTED r []))) ∧
    (s.command h 0x74 = some e → e.cert = false → s.sec.detour = none →
      exec (.attest h (some b)) s = .next (s.after
        (((s.bump bSEC 2).toHost e.addr.toNat (s.quoteBody x ++
          padTo 114 (Config.edSign Config.identityPriv (Config.shake256 (s.quoteBody x) 64) "FV9256-AT"))).finish h cOK 0 []))) ∧
    (s.command h 0x74 = some e → e.cert = true →
      exec (.attestCert h) s = .next (s.after ((s.toHost e.addr.toNat Config.deviceCert).finish h cOK 0 [])))) ∧
  (∀ (b : Bytes) (s : State), s.live = true →
    (s.sec.dbgFails < 3 → s.tokenCode b = 0 →
      ∃ t, exec (.debugTokenPresent b) s = .next (s.after t) ∧ t.sec.dbgLevel = rd b 64 1 ∧ t.sec.token = true ∧
        t.sec.chal = Config.challenge s.free ∧ t.sec.dbgFails = s.sec.dbgFails ∧ (rd b 64 1 = 2 → t.sec.keys = []) ∧
        (rd b 64 1 ≠ 2 → t.sec.keys = s.sec.keys)) ∧
    (s.sec.dbgFails < 3 → s.tokenCode b ≠ 0 →
      ∃ t, exec (.debugTokenPresent b) s = .next (s.after t) ∧ t.sec.dbgLevel = s.sec.dbgLevel ∧ t.sec.token = s.sec.token ∧
        t.sec.chal = Config.challenge s.free ∧ t.sec.dbgFails = s.sec.dbgFails + 1 ∧ t.sec.keys = s.sec.keys) ∧
    (3 ≤ s.sec.dbgFails → exec (.debugTokenPresent b) s =
      .next (s.after (State.draw { s with sec := { s.sec with chal := Config.challenge s.free } }))))

/-! ### Supply and power states (R430 to R446, R469, R475, R478) -/

/-- Supply, reset and hold-up (R430, R432, R444 to R446, R478): VIN_RISE starts a module without supply; RESET_N resets after its 10 us; the lockout
and a thermal shutdown stop the module, unless, for the lockout, HOLDUP carries it; a fall of VIN below THRESH asserts
PFAIL_N, and where HOLDUP carries the module sheds load and flushes the log; VIN that has returned for 10 ms ends it; and a
HOLDUP not charged in 5 s raises its fault. -/
def Obligations.SupplyCommandsAnswer : Prop :=
  (∀ (b : BoardInputs) (s : State), s.plt.up = false → s.plt.thermal = false →
    exec (.vinRise b) s = .next (s.after (s.coldStart b))) ∧
  (∀ (b : BoardInputs) (s : State), s.plt.thermal = true → exec (.thermalRestart b) s = .next (s.after (s.coldStart b))) ∧
  (∀ (n : Nat) (b : BoardInputs) (s : State), s.plt.up = true →
    (10 ≤ n → exec (.resetN n b) s = .next (s.after (s.moduleReset b))) ∧
    (n < 10 → exec (.resetN n b) s = .next (s.after s))) ∧
  (∀ s : State, s.plt.up = true →
    (s.plt.onHoldup = true → exec .vinLockout s = .next (s.after s)) ∧
    (s.plt.onHoldup = false →
      ∃ t, exec .vinLockout s = .next (s.after t) ∧ t.plt.up = false ∧ t.flash = s.flash ∧ t.plt.thermal = s.plt.thermal) ∧
    (∃ t, exec .thermalShutdown s = .next (s.after t) ∧ t.plt.up = false ∧ t.flash = s.flash ∧ t.plt.thermal = true) ∧
    (s.plt.onHoldup = true →
      ∃ t, exec .holdupExhausted s = .next (s.after t) ∧ t.plt.up = false ∧ t.flash = s.flash ∧ t.plt.exhausted = true) ∧
    (s.plt.onHoldup = false → exec .holdupExhausted s = .next (s.after s))) ∧
  (∀ (vin hold : Nat) (s : State), s.plt.up = true → s.plt.pfail = false →
    (s.thresh ≤ vin → exec (.vinFall vin hold) s = .next (s.after s)) ∧
    (vin < s.thresh →
      ∃ u : State, u.plt.pfail = true ∧ u.plt.pfailAt = s.ns ∧ u.plt.chargeAt = none ∧ u.plt.onHoldup = decide (vin < hold) ∧
        u.plt.vin = some (s.ns, vin) ∧ u.plt.holdup = some (s.ns, hold) ∧ u.out = s.out ++ [.pin "PFAIL_N" true] ∧
        u.cntOf bPLT 0 3 = (s.cntOf bPLT 0 3 + 1) % 2 ^ 48 ∧
        (hold ≤ vin → exec (.vinFall vin hold) s = .next (s.after (u.event .pltPfail noCtx vin))) ∧
        (vin < hold →
          let w := u.event .pltPfail noCtx vin
          exec (.vinFall vin hold) s = .next (s.after ((w.shed (fld w.pfailCfg 0 2)).flushLog))))) ∧
  (∀ (vin : Nat) (s : State), s.plt.up = true →
    ((s.plt.pfail = false ∨ vin < s.thresh + 5 ∨ s.ns < s.plt.pfailAt + 10 * ms) →
      exec (.vinReturn vin) s = .next (s.after s)) ∧
    (s.plt.pfail = true → s.thresh + 5 ≤ vin → s.plt.pfailAt + 10 * ms ≤ s.ns →
      ∃ u : State, u.plt.pfail = false ∧ u.plt.onHoldup = false ∧ u.plt.chargeAt = some s.ns ∧
        u.out = s.out ++ [.pin "PFAIL_N" false] ∧
        exec (.vinReturn vin) s = .next (s.after (u.event .pltPfailEnd noCtx vin).unshed))) ∧
  (∀ (t0 : Nat) (s : State), s.plt.up = true → s.plt.chargeAt = some t0 →
    (t0 + 5 * oneSec ≤ s.ns →
      exec .holdupChargeTimeout s =
        .next (s.after (State.raise { s with plt := { s.plt with chargeAt := none } } fPltHoldup 0 0))) ∧
    (s.ns < t0 + 5 * oneSec → exec .holdupChargeTimeout s = .next (s.after s)))

/-- Power states (R434 to R442, R475): a request for the present state completes, one for a deeper state begins the entry, and one that
comes during a transition, a detour or a patch takes the pending slot; a block that agrees is stopped and the next is asked, one that refuses
ends or delays the entry, and after the last the state is reached; wakes are latched during an entry and else served; the
management bus reads and requests in RUN and IDLE, and wakes SLEEP; an idle carriageway is given SAVE_CONTEXT and FENCE and then
powers down (R88), and an idle pipe powers down. -/
def Obligations.PowerCommandsAnswer : Prop :=
  (∀ (h : CmdRef) (e : SubEntry) (s : State), s.cmdsRun = true → s.serves 0 = true → s.command h 0x90 = some e →
    s.plt.cmd ≠ some h → s.plt.pend = none →
    let t := e.target.toNat
    (4 < t → exec (.powerState h) s = .next (s.after (s.finish h cBAD_PARAM 0 []))) ∧
    (s.structural = false → t = s.plt.cur → t ≤ 4 →
      exec (.powerState h) s = .next (s.after (s.finish h cOK 0 []))) ∧
    (s.structural = false → s.plt.cur < t → t ≤ 4 →
      exec (.powerState h) s = .next (s.after (State.enter { s with plt := { s.plt with
        target := t, cmd := some h, retries := 0, tries := 0, autoRetry := tb s.pwrCfg 31 } }))) ∧
    (s.structural = true → t ≤ 4 →
      exec (.powerState h) s = .next (s.after { s with plt := { s.plt with pend := some (t, some h) } }))) ∧
  (∀ (v : Byte) (s : State), s.plt.up = true → s.plt.cur ≤ 1 →
    (4 < v.toNat → exec (.stateReq v) s = .next (s.after (s.emit (.mgmt false [])))) ∧
    (v.toNat ≤ 4 → s.plt.recovery = false →
      exec (.stateReq v) s = .next (s.after ((s.emit (.mgmt true [])).powerReq v.toNat none))) ∧
    exec .stateRead s = .next (s.after (s.emit (.mgmt true (leBytes 4 s.pwrStat.toNat)))) ∧
    exec .healthRead s = .next (s.after (s.emit (.mgmt true (leBytes 4 s.glb.health))))) ∧
  (∀ (a : BitVec 7) (s : State), s.plt.up = true →
    (a.toNat ≠ 0x58 + s.plt.cascId % 4 → exec (.mgmtAddressMatch a) s = .next (s.after s)) ∧
    (a.toNat = 0x58 + s.plt.cascId % 4 → s.plt.cur < 2 →
      exec (.mgmtAddressMatch a) s = .next (s.after
        (State.wakeEvent { s.emit (.mgmt true []) with plt := { s.plt with mgmt := true } } 1))) ∧
    (a.toNat = 0x58 + s.plt.cascId % 4 → 2 ≤ s.plt.cur →
      exec (.mgmtAddressMatch a) s = .next (s.after (((s.emit (.mgmt true [])).emit (.mgmt false [])).wakeEvent 1)))) ∧
  (∀ s : State, s.plt.up = true →
    exec .smbusTimeout s = .next (s.after (State.emit { s with plt := { s.plt with mgmt := false } } (.pin "SMB_SDA" false)))) ∧
  (∀ s : State, s.plt.up = true →
    let b := s.plt.block
    ((s.plt.busy = false ∨ b = 0) → exec .blockStopDone s = .next (s.after s)) ∧
    (s.plt.busy = true → b ≠ 0 → s.refuses b = true → exec .blockStopDone s = .next (s.after (s.refuse b))) ∧
    (s.plt.busy = true → b ≠ 0 → s.refuses b = false → s.stopDone b = false → exec .blockStopDone s = .next (s.after s)) ∧
    (s.plt.busy = true → b ≠ 0 → s.refuses b = false → s.stopDone b = true →
      let u := s.stopBlock b
      let nx := (stopList u.plt.cur u.plt.target).find? (fun x => decide (b < x))
      (∀ n : Nat, nx = some n →
        exec .blockStopDone s = .next (s.after (State.askBlock { u with plt := { u.plt with block := n } } n))) ∧
      (nx = none → exec .blockStopDone s = .next (s.after u.reach)))) ∧
  (∀ (t0 : Nat) (s : State), s.plt.up = true → s.plt.drainDue = some t0 → s.plt.busy = true → s.plt.block = 5 →
    (t0 ≤ s.ns → s.egressEmpty = false → exec .drainTimeout s = .next (s.after (s.refuse 5))) ∧
    ((s.ns < t0 ∨ s.egressEmpty = true) → exec .drainTimeout s = .next (s.after s))) ∧
  (∀ (t0 : Nat) (s : State), s.plt.up = true → s.plt.retryDue = some t0 →
    (t0 ≤ s.ns →
      exec .entryRetry s = .next (s.after (State.enter { s with plt := { s.plt with retries := s.plt.tries } }))) ∧
    (s.ns < t0 → exec .entryRetry s = .next (s.after s))) ∧
  (∀ (n : Nat) (b : BoardInputs) (s : State),
    (n < 50 → s.plt.up = true → exec (.wakeN n b) s = .next (s.after s)) ∧
    (50 ≤ n → s.plt.up = true → s.plt.cur ≠ 4 → exec (.wakeN n b) s = .next (s.after (s.wakeEvent 0))) ∧
    (50 ≤ n → s.plt.cur = 4 →
      ∃ u : State, exec (.wakeN n b) s = .next (s.after (u.event .pltWake noCtx 0)) ∧ u.plt.wakeFlags = 1 ∧ u.plt.wakeFrom = 4 ∧
        u.flash = (s.coldStart b).flash)) ∧
  (∀ (t0 : Nat) (s : State), s.plt.up = true → s.plt.timerDue = some t0 →
    (t0 ≤ s.ns →
      exec .wakeTimer s = .next (s.after (State.wakeEvent { s with plt := { s.plt with timerDue := none } } 3))) ∧
    (s.ns < t0 → exec .wakeTimer s = .next (s.after s))) ∧
  (∀ (src : Nat) (s : State),
    (s.plt.busy = true → s.wakeEvent src = { s with plt := { s.plt with latched := some (s.plt.latched.getD src) } }) ∧
    (s.plt.busy = false → s.wakesFrom src = false → s.wakeEvent src = s) ∧
    (s.plt.busy = false → s.wakesFrom src = true → s.wakeEvent src = s.wakeTo src)) ∧
  (∀ (l : LaneId) (t0 : Nat) (s : State), s.live = true → (s.lane l.val).idleAt = some t0 →
    let idle := (s.members l.val).all (fun m => s.laneIsIdle m)
    (t0 ≤ s.ns → idle = true → exec (.laneIdleTimeout l) s = .next (s.after (s.gate l.val))) ∧
    ((s.ns < t0 ∨ idle = false) → exec (.laneIdleTimeout l) s = .next (s.after s))) ∧
  (∀ (s : State) (l : Nat),
    let q := s.leadFor l
    ((s.running (laneKey q) = false ∨ (s.lane q).power ≠ 2) → (s.gate l).lane l = (s.lane l).off) ∧
    (s.running (laneKey q) = true → (s.lane q).power = 2 → (s.lane q).gate = false →
      ((s.gate l).lane q).gate = true ∧ ((s.gate l).lane q).power = 2 ∧
        ((s.gate l).lane q).queue = (s.lane q).queue ++ [{ op := .save, ctx := (s.lane q).active.getD 0 }, { op := .fence }])) ∧
  (∀ (p : PipeId) (t0 : Nat) (s : State), s.live = true → (s.pipe p.val).idleAt = some t0 →
    (t0 ≤ s.ns →
      exec (.pipeIdleTimeout p) s = .next (s.after (s.setPipe p.val { s.pipe p.val with power := 0, idleAt := none }))) ∧
    (s.ns < t0 → exec (.pipeIdleTimeout p) s = .next (s.after s)))

/-! ### Faults (R427, R428, R449 to R457, R461) -/

/-- A raise (R449 to R451, R457): STICKY is set, COUNT rises, saturating, OUTCOME and DETAIL are those of the raise, and the raise is logged; a forced
raise is marked, its detail all ones; STICKY written 1 clears STICKY and PIN_LATCH and keeps COUNT and OUTCOME; an injected
or found mismatch of FLT's copies enters the safe state; a flush moves the records to the log, which keeps the last 131,072;
and recovery programs a chunk, answers its result, and verifies the bank, which asks for the module reset when it passes. -/
def Obligations.FaultAndRecoveryCommandsAnswer : Prop :=
  (∀ (n : FltId) (u p : W16) (s : State), s.plt.up = true →
    ∃ t, exec (.faultRaise n u p) s = .next (s.after t) ∧ (t.fltSrc n.val).sticky = true ∧ (t.fltSrc n.val).forced = false ∧
      (t.fltSrc n.val).count = min ((s.fltSrc n.val).count + 1) 0xFFFF ∧ (t.fltSrc n.val).outcome = raiseOutcome n.val ∧
      (t.fltSrc n.val).detail = w32 (u.toNat + p.toNat * 2 ^ 16) ∧
      ∃ (r : LogRec) (l : List LogRec), t.flt.pendingLog = s.flt.pendingLog ++ r :: l ∧ r.source = n.val ∧ r.outcome = 0 ∧
        r.seq = s.flt.nextSeq ∧ r.time = s.ns) ∧
  (∀ (n : FltId) (v : W32) (s : State), s.barTakes 0x200000 = true →
    (tb v.toNat 0 = true →
      ∃ t, exec (.fltSrcForce n v) s = .next (s.after t) ∧ (t.fltSrc n.val).sticky = true ∧ (t.fltSrc n.val).forced = true ∧
        (t.fltSrc n.val).detail = 0xFFFFFFFF ∧ t.flt.replaceN = s.flt.replaceN) ∧
    (tb v.toNat 0 = false → exec (.fltSrcForce n v) s = .next (s.after s)) ∧
    (tb v.toNat 31 = true → exec (.fltStickyClear n v) s =
      .next (s.after (s.setFltSrc n.val { s.fltSrc n.val with sticky := false, pinLatch := false }))) ∧
    (tb v.toNat 31 = false → exec (.fltStickyClear n v) s = .next (s.after s))) ∧
  (∀ (v : W32) (s : State), s.barTakes 0x200048 = true → tb v.toNat 31 = true →
    exec (.selfchkInject v) s = .next (s.after s.enterSafe)) ∧
  (∀ s : State, s.plt.up = true → s.flt.safe = false → exec .selfcheckMismatch s = .next (s.after s.enterSafe)) ∧
  (∀ s : State, s.enterSafe.flt.safe = true ∧ tb s.enterSafe.glb.health hSAFE = true ∧ s.enterSafe.flt.srcs = s.flt.srcs) ∧
  (∀ s : State, s.live = true →
    ∃ t, exec .faultLogFlush s = .next (s.after t) ∧ t.flt.pendingLog = [] ∧ t.flash.log.length ≤ 131072 ∧
      (∃ l : List LogRec, l ++ t.flash.log = s.flash.log ++ s.flt.pendingLog) ∧ t.flash.data = s.flash.data) ∧
  (∀ (v : W32) (s : State), s.barTakes 0x300080 = true → s.plt.recovery = true → tb v.toNat 31 = true → s.sec.recBusy = false →
    (fld v.toNat 29 2 = 0 → ∃ t, exec (.recoveryProgram v) s = .next (s.after t) ∧ t.sec.recBusy = true ∧
      (fld v.toNat 0 10 ≤ 383 → fld t.sec.recWord.toNat 0 10 = fld v.toNat 0 10)) ∧
    (fld v.toNat 29 2 = 1 → (s.recWrite v).bankCode (s.recWrite v).recBank = 0 →
      ∃ t, exec (.recoveryVerify v) s = .next (s.after t) ∧ t.flt.resetReq = true ∧
        t.cntOf bSEC 0 0 = (s.cntOf bSEC 0 0 + 1) % 2 ^ 48) ∧
    (fld v.toNat 29 2 = 1 → (s.recWrite v).bankCode (s.recWrite v).recBank ≠ 0 →
      ∃ t, exec (.recoveryVerify v) s = .next (s.after t) ∧ t.flt.resetReq = s.flt.resetReq ∧
        t.sec.recResult = (s.recWrite v).bankCode (s.recWrite v).recBank)) ∧
  (∀ (ok : Bool) (s : State), s.plt.up = true → s.plt.recovery = true → s.sec.recBusy = true →
    ∃ t, exec (.recoveryProgramDone ok) s = .next (s.after t) ∧ t.sec.recBusy = false ∧
      (ok = true → t.sec.recResult = 0) ∧ (ok = false → t.sec.recResult = eFLASH))

/-! ### The whole module -/

/-- A module without supply does nothing, whatever is commanded, until VIN rises, the die has cooled after a thermal shutdown, or, in OFF,
WAKE_N or the lockout comes (R430, R434, R440, R478). In the safe state every write to BAR0, every doorbell and every
command of a ring is ignored (R454, item 3). -/
def Obligations.UnsuppliedOrSafeModuleIsInert : Prop :=
  (∀ (c : Instr) (s : State), s.plt.up = false → (∀ b, c = .vinRise b → s.plt.thermal = true) →
    (∀ b, c = .thermalRestart b → s.plt.thermal = false) → ((c = .vinLockout ∨ ∃ n b, c = .wakeN n b) → s.plt.cur ≠ 4) →
    exec c s = .next s) ∧
  (∀ (c : Instr) (s : State), s.flt.safe = true → fromHost c = true → exec c s = .next s)

/-- The state after reset: a module without supply, with nothing waiting, its memories empty and in canonical form, and the queue well formed. -/
def Obligations.ResetIsWithoutSupply : Prop :=
  State.reset.plt.up = false ∧ State.reset.pending = [] ∧ State.reset.memoryWf = true ∧ State.reset.queueWf = true ∧
  State.reset.opens = [] ∧ State.reset.mem.dram = [] ∧ State.reset.bpm.bufs = []

/-- Every step goes on, takes exactly the command at the front, and leaves the rest of the queue, in order and well formed. -/
def Obligations.StepTakesTheFrontAndKeepsTheRest : Prop :=
  ∀ s : State, s.queueWf = true → ∃ t : State, step s = .next t ∧ t.pending = s.pending.tail ∧ t.queueWf = true
end

