-- ==== Sys2Proof/Laws/Table.lean ====
section
/-! SUPPORT. Laws of sparse tables: what is read after a write, and that every operation keeps the canonical form. -/

namespace Sys2Proof

variable {α : Type}

/-! ### Reading after writing -/

@[simp] theorem Tbl.find_nil (k : Nat) : Tbl.find ([] : Tbl α) k = none := rfl

theorem Tbl.find_del_same (t : Tbl α) (k : Nat) : Tbl.find (Tbl.del t k) k = none := by
  induction t with
  | nil => rfl
  | cons e r ih =>
    obtain ⟨k', v⟩ := e
    by_cases h : k = k' <;> simp [Tbl.del, Tbl.find, h]
    · subst h; exact ih
    · simpa [h] using ih

theorem Tbl.find_del_other (t : Tbl α) {k j : Nat} (h : j ≠ k) : Tbl.find (Tbl.del t k) j = Tbl.find t j := by
  induction t with
  | nil => rfl
  | cons e r ih =>
    obtain ⟨k', v⟩ := e
    by_cases hk : k = k'
    · subst hk; simp [Tbl.del, Tbl.find, h, ih]
    · simp [Tbl.del, Tbl.find, hk, ih]

theorem Tbl.find_ins_same (t : Tbl α) (k : Nat) (v : α) (h : Tbl.find t k = none) : Tbl.find (Tbl.ins t k v) k = some v := by
  induction t with
  | nil => simp [Tbl.ins, Tbl.find]
  | cons e r ih =>
    obtain ⟨k', v'⟩ := e
    have hk : k ≠ k' := by intro e; subst e; simp [Tbl.find] at h
    have hr : Tbl.find r k = none := by simpa [Tbl.find, hk] using h
    by_cases hl : k < k' <;> simp [Tbl.ins, Tbl.find, hl, hk, ih hr]

theorem Tbl.find_ins_other (t : Tbl α) {k j : Nat} (v : α) (h : j ≠ k) : Tbl.find (Tbl.ins t k v) j = Tbl.find t j := by
  induction t with
  | nil => simp [Tbl.ins, Tbl.find, h]
  | cons e r ih =>
    obtain ⟨k', v'⟩ := e
    by_cases hl : k < k' <;> simp [Tbl.ins, Tbl.find, hl, h, ih]

@[simp] theorem Tbl.find_put_same (t : Tbl α) (k : Nat) (v : α) : Tbl.find (Tbl.put t k v) k = some v :=
  Tbl.find_ins_same _ k v (Tbl.find_del_same t k)

theorem Tbl.find_put_other (t : Tbl α) {k j : Nat} (v : α) (h : j ≠ k) : Tbl.find (Tbl.put t k v) j = Tbl.find t j := by
  rw [Tbl.put, Tbl.find_ins_other _ _ h, Tbl.find_del_other _ h]

@[simp] theorem Tbl.get_put_same (d : α) (t : Tbl α) (k : Nat) (v : α) : Tbl.get d (Tbl.put t k v) k = v := by
  simp [Tbl.get]

theorem Tbl.get_put_other (d : α) (t : Tbl α) {k j : Nat} (v : α) (h : j ≠ k) :
    Tbl.get d (Tbl.put t k v) j = Tbl.get d t j := by
  simp [Tbl.get, Tbl.find_put_other t v h]

@[simp] theorem Tbl.get_del_same (d : α) (t : Tbl α) (k : Nat) : Tbl.get d (Tbl.del t k) k = d := by
  simp [Tbl.get, Tbl.find_del_same]

theorem Tbl.get_del_other (d : α) (t : Tbl α) {k j : Nat} (h : j ≠ k) : Tbl.get d (Tbl.del t k) j = Tbl.get d t j := by
  simp [Tbl.get, Tbl.find_del_other t h]

@[simp] theorem Tbl.get_set_same [DecidableEq α] (d : α) (t : Tbl α) (k : Nat) (v : α) : Tbl.get d (Tbl.set d t k v) k = v := by
  unfold Tbl.set
  split
  · simp_all
  · simp [Tbl.get, Tbl.find_ins_same _ k v (Tbl.find_del_same t k)]

theorem Tbl.get_set_other [DecidableEq α] (d : α) (t : Tbl α) {k j : Nat} (v : α) (h : j ≠ k) :
    Tbl.get d (Tbl.set d t k v) j = Tbl.get d t j := by
  unfold Tbl.set
  split
  · exact Tbl.get_del_other d t h
  · simp [Tbl.get, Tbl.find_ins_other _ v h, Tbl.find_del_other t h]

/-! ### The canonical form -/

theorem Tbl.risesFrom_mono {t : Tbl α} {a b : Nat} (h : Tbl.risesFrom t b = true) (hab : a ≤ b) : Tbl.risesFrom t a = true := by
  cases t with
  | nil => rfl
  | cons e r =>
    obtain ⟨k, v⟩ := e
    simp [Tbl.risesFrom] at h ⊢
    exact ⟨by omega, h.2⟩

theorem Tbl.risesFrom_del {t : Tbl α} {a : Nat} (k : Nat) (h : Tbl.risesFrom t a = true) : Tbl.risesFrom (Tbl.del t k) a = true := by
  induction t generalizing a with
  | nil => rfl
  | cons e r ih =>
    obtain ⟨k', v⟩ := e
    simp [Tbl.risesFrom] at h
    by_cases hk : k = k'
    · simp [Tbl.del, hk]
      have := ih h.2
      rw [hk] at this
      exact Tbl.risesFrom_mono this (by omega)
    · simp [Tbl.del, hk, Tbl.risesFrom, h.1, ih h.2]

theorem Tbl.risesFrom_ins {t : Tbl α} {a k : Nat} (v : α) (hk : a ≤ k) (hn : Tbl.find t k = none)
    (h : Tbl.risesFrom t a = true) : Tbl.risesFrom (Tbl.ins t k v) a = true := by
  induction t generalizing a with
  | nil => simp [Tbl.ins, Tbl.risesFrom, hk]
  | cons e r ih =>
    obtain ⟨k', v'⟩ := e
    have hne : k ≠ k' := by intro e; subst e; simp [Tbl.find] at hn
    have hr : Tbl.find r k = none := by simpa [Tbl.find, hne] using hn
    simp [Tbl.risesFrom] at h
    by_cases hl : k < k'
    · simp [Tbl.ins, hl, Tbl.risesFrom, hk, h.2] <;> omega
    · simp [Tbl.ins, hl, Tbl.risesFrom, h.1]
      exact ih (by omega) hr h.2

theorem Tbl.wf_put {t : Tbl α} (k : Nat) (v : α) (h : Tbl.wf t = true) : Tbl.wf (Tbl.put t k v) = true :=
  Tbl.risesFrom_ins v (Nat.zero_le k) (Tbl.find_del_same t k) (Tbl.risesFrom_del k h)

theorem Tbl.wf_del {t : Tbl α} (k : Nat) (h : Tbl.wf t = true) : Tbl.wf (Tbl.del t k) = true := Tbl.risesFrom_del k h

theorem Tbl.risesFrom_filter {t : Tbl α} {a : Nat} (p : Nat × α → Bool) (h : Tbl.risesFrom t a = true) :
    Tbl.risesFrom (t.filter p) a = true := by
  induction t generalizing a with
  | nil => rfl
  | cons e r ih =>
    obtain ⟨k, v⟩ := e
    simp [Tbl.risesFrom] at h
    by_cases hp : p (k, v) = true
    · simp [hp, Tbl.risesFrom, h.1, ih h.2]
    · simp [hp]
      exact Tbl.risesFrom_mono (ih h.2) (by omega)

theorem Tbl.all_del {t : Tbl α} (p : Nat × α → Bool) (k : Nat) (h : t.all p = true) : (Tbl.del t k).all p = true := by
  induction t with
  | nil => rfl
  | cons e r ih =>
    obtain ⟨k', v⟩ := e
    simp only [List.all_cons, Bool.and_eq_true] at h
    by_cases hk : k = k'
    · simp only [Tbl.del, hk, if_true]; rw [← hk]; exact ih h.2
    · simp only [Tbl.del, hk, if_false, List.all_cons, h.1, ih h.2, Bool.and_self]

theorem Tbl.all_ins {t : Tbl α} (p : Nat × α → Bool) (k : Nat) (v : α) (hv : p (k, v) = true) (h : t.all p = true) :
    (Tbl.ins t k v).all p = true := by
  induction t with
  | nil => simp [Tbl.ins, hv]
  | cons e r ih =>
    obtain ⟨k', v'⟩ := e
    simp only [List.all_cons, Bool.and_eq_true] at h
    by_cases hk : k < k'
    · simp only [Tbl.ins, hk, if_true, List.all_cons, hv, h.1, h.2, Bool.and_self]
    · simp only [Tbl.ins, hk, if_false, List.all_cons, h.1, ih h.2, Bool.and_self]

/-- A byte memory keeps its canonical form under a write. -/
theorem Tbl.wfSet_set [DecidableEq α] {d : α} {t : Tbl α} (k : Nat) (v : α) (h : Tbl.wfSet d t = true) :
    Tbl.wfSet d (Tbl.set d t k v) = true := by
  simp only [Tbl.wfSet, Bool.and_eq_true] at h ⊢
  unfold Tbl.set
  split
  · exact ⟨Tbl.wf_del k h.1, Tbl.all_del _ k h.2⟩
  · rename_i hv
    exact ⟨Tbl.risesFrom_ins v (Nat.zero_le k) (Tbl.find_del_same t k) (Tbl.risesFrom_del k h.1),
      Tbl.all_ins _ k v (by simp [hv]) (Tbl.all_del _ k h.2)⟩

/-- A byte memory keeps its canonical form when entries are left out. -/
theorem Tbl.wfSet_filter [DecidableEq α] {d : α} {t : Tbl α} (p : Nat × α → Bool) (h : Tbl.wfSet d t = true) :
    Tbl.wfSet d (t.filter p) = true := by
  simp only [Tbl.wfSet, Bool.and_eq_true] at h ⊢
  refine ⟨Tbl.risesFrom_filter p h.1, ?_⟩
  rw [List.all_eq_true] at h ⊢
  intro x hx
  exact h.2 x (List.mem_filter.1 hx).1

end Sys2Proof
end

