-- ==== Sys2Proof/Laws/State.lean ====
section
/-! SUPPORT. One lemma for each field of State under each named update: what the update leaves as it was, and what it makes. -/

namespace Sys2Proof.Machine

open Sys2Proof


/-! ### setUnit -/

@[simp] theorem State.setUnit_pending (s : State) (k : Nat) (x : UnitHdr) : (s.setUnit k x).pending = s.pending := rfl
@[simp] theorem State.setUnit_time (s : State) (k : Nat) (x : UnitHdr) : (s.setUnit k x).time = s.time := rfl
@[simp] theorem State.setUnit_free (s : State) (k : Nat) (x : UnitHdr) : (s.setUnit k x).free = s.free := rfl
@[simp] theorem State.setUnit_out (s : State) (k : Nat) (x : UnitHdr) : (s.setUnit k x).out = s.out := rfl
@[simp] theorem State.setUnit_clk (s : State) (k : Nat) (x : UnitHdr) : (s.setUnit k x).clk = s.clk := rfl
@[simp] theorem State.setUnit_regs (s : State) (k : Nat) (x : UnitHdr) : (s.setUnit k x).regs = s.regs := rfl
@[simp] theorem State.setUnit_ind (s : State) (k : Nat) (x : UnitHdr) : (s.setUnit k x).ind = s.ind := rfl
@[simp] theorem State.setUnit_cnt (s : State) (k : Nat) (x : UnitHdr) : (s.setUnit k x).cnt = s.cnt := rfl
@[simp] theorem State.setUnit_held (s : State) (k : Nat) (x : UnitHdr) : (s.setUnit k x).held = s.held := rfl
@[simp] theorem State.setUnit_glb (s : State) (k : Nat) (x : UnitHdr) : (s.setUnit k x).glb = s.glb := rfl
@[simp] theorem State.setUnit_flash (s : State) (k : Nat) (x : UnitHdr) : (s.setUnit k x).flash = s.flash := rfl
@[simp] theorem State.setUnit_way (s : State) (k : Nat) (x : UnitHdr) : (s.setUnit k x).way = s.way := rfl
@[simp] theorem State.setUnit_flt (s : State) (k : Nat) (x : UnitHdr) : (s.setUnit k x).flt = s.flt := rfl
@[simp] theorem State.setUnit_evc (s : State) (k : Nat) (x : UnitHdr) : (s.setUnit k x).evc = s.evc := rfl
@[simp] theorem State.setUnit_cpus (s : State) (k : Nat) (x : UnitHdr) : (s.setUnit k x).cpus = s.cpus := rfl
@[simp] theorem State.setUnit_dma (s : State) (k : Nat) (x : UnitHdr) : (s.setUnit k x).dma = s.dma := rfl
@[simp] theorem State.setUnit_hqe (s : State) (k : Nat) (x : UnitHdr) : (s.setUnit k x).hqe = s.hqe := rfl
@[simp] theorem State.setUnit_bpm (s : State) (k : Nat) (x : UnitHdr) : (s.setUnit k x).bpm = s.bpm := rfl
@[simp] theorem State.setUnit_mem (s : State) (k : Nat) (x : UnitHdr) : (s.setUnit k x).mem = s.mem := rfl
@[simp] theorem State.setUnit_swc (s : State) (k : Nat) (x : UnitHdr) : (s.setUnit k x).swc = s.swc := rfl
@[simp] theorem State.setUnit_tmg (s : State) (k : Nat) (x : UnitHdr) : (s.setUnit k x).tmg = s.tmg := rfl
@[simp] theorem State.setUnit_asm (s : State) (k : Nat) (x : UnitHdr) : (s.setUnit k x).asm = s.asm := rfl
@[simp] theorem State.setUnit_erelm (s : State) (k : Nat) (x : UnitHdr) : (s.setUnit k x).erelm = s.erelm := rfl
@[simp] theorem State.setUnit_prt (s : State) (k : Nat) (x : UnitHdr) : (s.setUnit k x).prt = s.prt := rfl
@[simp] theorem State.setUnit_cas (s : State) (k : Nat) (x : UnitHdr) : (s.setUnit k x).cas = s.cas := rfl
@[simp] theorem State.setUnit_sec (s : State) (k : Nat) (x : UnitHdr) : (s.setUnit k x).sec = s.sec := rfl
@[simp] theorem State.setUnit_plt (s : State) (k : Nat) (x : UnitHdr) : (s.setUnit k x).plt = s.plt := rfl
@[simp] theorem State.setUnit_lanes (s : State) (k : Nat) (x : UnitHdr) : (s.setUnit k x).lanes = s.lanes := rfl
@[simp] theorem State.setUnit_golden (s : State) (k : Nat) (x : UnitHdr) : (s.setUnit k x).golden = s.golden := rfl
@[simp] theorem State.setUnit_msc (s : State) (k : Nat) (x : UnitHdr) : (s.setUnit k x).msc = s.msc := rfl
@[simp] theorem State.setUnit_cmp (s : State) (k : Nat) (x : UnitHdr) : (s.setUnit k x).cmp = s.cmp := rfl
@[simp] theorem State.setUnit_ctx (s : State) (k : Nat) (x : UnitHdr) : (s.setUnit k x).ctx = s.ctx := rfl
@[simp] theorem State.setUnit_opens (s : State) (k : Nat) (x : UnitHdr) : (s.setUnit k x).opens = s.opens := rfl
@[simp] theorem State.setUnit_flowQ (s : State) (k : Nat) (x : UnitHdr) : (s.setUnit k x).flowQ = s.flowQ := rfl
@[simp] theorem State.setUnit_sessQ (s : State) (k : Nat) (x : UnitHdr) : (s.setUnit k x).sessQ = s.sessQ := rfl
@[simp] theorem State.setUnit_same (s : State) (k : Nat) (x : UnitHdr) : (s.setUnit k x).unit k = x := Tbl.get_put_same _ _ k x
theorem State.setUnit_other (s : State) (k : Nat) (x : UnitHdr) (j : Nat) (h : j ≠ k) : (s.setUnit k x).unit j = s.unit j := Tbl.get_put_other _ _ x h

/-! ### setRing -/

@[simp] theorem State.setRing_pending (s : State) (k : Nat) (x : Ring) : (s.setRing k x).pending = s.pending := rfl
@[simp] theorem State.setRing_time (s : State) (k : Nat) (x : Ring) : (s.setRing k x).time = s.time := rfl
@[simp] theorem State.setRing_free (s : State) (k : Nat) (x : Ring) : (s.setRing k x).free = s.free := rfl
@[simp] theorem State.setRing_out (s : State) (k : Nat) (x : Ring) : (s.setRing k x).out = s.out := rfl
@[simp] theorem State.setRing_clk (s : State) (k : Nat) (x : Ring) : (s.setRing k x).clk = s.clk := rfl
@[simp] theorem State.setRing_units (s : State) (k : Nat) (x : Ring) : (s.setRing k x).units = s.units := rfl
@[simp] theorem State.setRing_regs (s : State) (k : Nat) (x : Ring) : (s.setRing k x).regs = s.regs := rfl
@[simp] theorem State.setRing_ind (s : State) (k : Nat) (x : Ring) : (s.setRing k x).ind = s.ind := rfl
@[simp] theorem State.setRing_cnt (s : State) (k : Nat) (x : Ring) : (s.setRing k x).cnt = s.cnt := rfl
@[simp] theorem State.setRing_held (s : State) (k : Nat) (x : Ring) : (s.setRing k x).held = s.held := rfl
@[simp] theorem State.setRing_glb (s : State) (k : Nat) (x : Ring) : (s.setRing k x).glb = s.glb := rfl
@[simp] theorem State.setRing_flash (s : State) (k : Nat) (x : Ring) : (s.setRing k x).flash = s.flash := rfl
@[simp] theorem State.setRing_way (s : State) (k : Nat) (x : Ring) : (s.setRing k x).way = s.way := rfl
@[simp] theorem State.setRing_flt (s : State) (k : Nat) (x : Ring) : (s.setRing k x).flt = s.flt := rfl
@[simp] theorem State.setRing_evc (s : State) (k : Nat) (x : Ring) : (s.setRing k x).evc = s.evc := rfl
@[simp] theorem State.setRing_cpus (s : State) (k : Nat) (x : Ring) : (s.setRing k x).cpus = s.cpus := rfl
@[simp] theorem State.setRing_dma (s : State) (k : Nat) (x : Ring) : (s.setRing k x).dma = s.dma := rfl
@[simp] theorem State.setRing_bpm (s : State) (k : Nat) (x : Ring) : (s.setRing k x).bpm = s.bpm := rfl
@[simp] theorem State.setRing_mem (s : State) (k : Nat) (x : Ring) : (s.setRing k x).mem = s.mem := rfl
@[simp] theorem State.setRing_swc (s : State) (k : Nat) (x : Ring) : (s.setRing k x).swc = s.swc := rfl
@[simp] theorem State.setRing_tmg (s : State) (k : Nat) (x : Ring) : (s.setRing k x).tmg = s.tmg := rfl
@[simp] theorem State.setRing_asm (s : State) (k : Nat) (x : Ring) : (s.setRing k x).asm = s.asm := rfl
@[simp] theorem State.setRing_erelm (s : State) (k : Nat) (x : Ring) : (s.setRing k x).erelm = s.erelm := rfl
@[simp] theorem State.setRing_prt (s : State) (k : Nat) (x : Ring) : (s.setRing k x).prt = s.prt := rfl
@[simp] theorem State.setRing_cas (s : State) (k : Nat) (x : Ring) : (s.setRing k x).cas = s.cas := rfl
@[simp] theorem State.setRing_sec (s : State) (k : Nat) (x : Ring) : (s.setRing k x).sec = s.sec := rfl
@[simp] theorem State.setRing_plt (s : State) (k : Nat) (x : Ring) : (s.setRing k x).plt = s.plt := rfl
@[simp] theorem State.setRing_lanes (s : State) (k : Nat) (x : Ring) : (s.setRing k x).lanes = s.lanes := rfl
@[simp] theorem State.setRing_golden (s : State) (k : Nat) (x : Ring) : (s.setRing k x).golden = s.golden := rfl
@[simp] theorem State.setRing_msc (s : State) (k : Nat) (x : Ring) : (s.setRing k x).msc = s.msc := rfl
@[simp] theorem State.setRing_cmp (s : State) (k : Nat) (x : Ring) : (s.setRing k x).cmp = s.cmp := rfl
@[simp] theorem State.setRing_ctx (s : State) (k : Nat) (x : Ring) : (s.setRing k x).ctx = s.ctx := rfl
@[simp] theorem State.setRing_opens (s : State) (k : Nat) (x : Ring) : (s.setRing k x).opens = s.opens := rfl
@[simp] theorem State.setRing_flowQ (s : State) (k : Nat) (x : Ring) : (s.setRing k x).flowQ = s.flowQ := rfl
@[simp] theorem State.setRing_sessQ (s : State) (k : Nat) (x : Ring) : (s.setRing k x).sessQ = s.sessQ := rfl
@[simp] theorem State.setRing_same (s : State) (k : Nat) (x : Ring) : (s.setRing k x).ring k = x := Tbl.get_put_same _ _ k x
theorem State.setRing_other (s : State) (k : Nat) (x : Ring) (j : Nat) (h : j ≠ k) : (s.setRing k x).ring j = s.ring j := Tbl.get_put_other _ _ x h

/-! ### setEq -/

@[simp] theorem State.setEq_pending (s : State) (k : Nat) (x : EvQ) : (s.setEq k x).pending = s.pending := rfl
@[simp] theorem State.setEq_time (s : State) (k : Nat) (x : EvQ) : (s.setEq k x).time = s.time := rfl
@[simp] theorem State.setEq_free (s : State) (k : Nat) (x : EvQ) : (s.setEq k x).free = s.free := rfl
@[simp] theorem State.setEq_out (s : State) (k : Nat) (x : EvQ) : (s.setEq k x).out = s.out := rfl
@[simp] theorem State.setEq_clk (s : State) (k : Nat) (x : EvQ) : (s.setEq k x).clk = s.clk := rfl
@[simp] theorem State.setEq_units (s : State) (k : Nat) (x : EvQ) : (s.setEq k x).units = s.units := rfl
@[simp] theorem State.setEq_regs (s : State) (k : Nat) (x : EvQ) : (s.setEq k x).regs = s.regs := rfl
@[simp] theorem State.setEq_ind (s : State) (k : Nat) (x : EvQ) : (s.setEq k x).ind = s.ind := rfl
@[simp] theorem State.setEq_cnt (s : State) (k : Nat) (x : EvQ) : (s.setEq k x).cnt = s.cnt := rfl
@[simp] theorem State.setEq_held (s : State) (k : Nat) (x : EvQ) : (s.setEq k x).held = s.held := rfl
@[simp] theorem State.setEq_glb (s : State) (k : Nat) (x : EvQ) : (s.setEq k x).glb = s.glb := rfl
@[simp] theorem State.setEq_flash (s : State) (k : Nat) (x : EvQ) : (s.setEq k x).flash = s.flash := rfl
@[simp] theorem State.setEq_way (s : State) (k : Nat) (x : EvQ) : (s.setEq k x).way = s.way := rfl
@[simp] theorem State.setEq_flt (s : State) (k : Nat) (x : EvQ) : (s.setEq k x).flt = s.flt := rfl
@[simp] theorem State.setEq_evc (s : State) (k : Nat) (x : EvQ) : (s.setEq k x).evc = s.evc := rfl
@[simp] theorem State.setEq_cpus (s : State) (k : Nat) (x : EvQ) : (s.setEq k x).cpus = s.cpus := rfl
@[simp] theorem State.setEq_dma (s : State) (k : Nat) (x : EvQ) : (s.setEq k x).dma = s.dma := rfl
@[simp] theorem State.setEq_bpm (s : State) (k : Nat) (x : EvQ) : (s.setEq k x).bpm = s.bpm := rfl
@[simp] theorem State.setEq_mem (s : State) (k : Nat) (x : EvQ) : (s.setEq k x).mem = s.mem := rfl
@[simp] theorem State.setEq_swc (s : State) (k : Nat) (x : EvQ) : (s.setEq k x).swc = s.swc := rfl
@[simp] theorem State.setEq_tmg (s : State) (k : Nat) (x : EvQ) : (s.setEq k x).tmg = s.tmg := rfl
@[simp] theorem State.setEq_asm (s : State) (k : Nat) (x : EvQ) : (s.setEq k x).asm = s.asm := rfl
@[simp] theorem State.setEq_erelm (s : State) (k : Nat) (x : EvQ) : (s.setEq k x).erelm = s.erelm := rfl
@[simp] theorem State.setEq_prt (s : State) (k : Nat) (x : EvQ) : (s.setEq k x).prt = s.prt := rfl
@[simp] theorem State.setEq_cas (s : State) (k : Nat) (x : EvQ) : (s.setEq k x).cas = s.cas := rfl
@[simp] theorem State.setEq_sec (s : State) (k : Nat) (x : EvQ) : (s.setEq k x).sec = s.sec := rfl
@[simp] theorem State.setEq_plt (s : State) (k : Nat) (x : EvQ) : (s.setEq k x).plt = s.plt := rfl
@[simp] theorem State.setEq_lanes (s : State) (k : Nat) (x : EvQ) : (s.setEq k x).lanes = s.lanes := rfl
@[simp] theorem State.setEq_golden (s : State) (k : Nat) (x : EvQ) : (s.setEq k x).golden = s.golden := rfl
@[simp] theorem State.setEq_msc (s : State) (k : Nat) (x : EvQ) : (s.setEq k x).msc = s.msc := rfl
@[simp] theorem State.setEq_cmp (s : State) (k : Nat) (x : EvQ) : (s.setEq k x).cmp = s.cmp := rfl
@[simp] theorem State.setEq_ctx (s : State) (k : Nat) (x : EvQ) : (s.setEq k x).ctx = s.ctx := rfl
@[simp] theorem State.setEq_opens (s : State) (k : Nat) (x : EvQ) : (s.setEq k x).opens = s.opens := rfl
@[simp] theorem State.setEq_flowQ (s : State) (k : Nat) (x : EvQ) : (s.setEq k x).flowQ = s.flowQ := rfl
@[simp] theorem State.setEq_sessQ (s : State) (k : Nat) (x : EvQ) : (s.setEq k x).sessQ = s.sessQ := rfl
@[simp] theorem State.setEq_same (s : State) (k : Nat) (x : EvQ) : (s.setEq k x).eq k = x := Tbl.get_put_same _ _ k x
theorem State.setEq_other (s : State) (k : Nat) (x : EvQ) (j : Nat) (h : j ≠ k) : (s.setEq k x).eq j = s.eq j := Tbl.get_put_other _ _ x h

/-! ### setSrc -/

@[simp] theorem State.setSrc_pending (s : State) (k : Nat) (x : EvSrc) : (s.setSrc k x).pending = s.pending := rfl
@[simp] theorem State.setSrc_time (s : State) (k : Nat) (x : EvSrc) : (s.setSrc k x).time = s.time := rfl
@[simp] theorem State.setSrc_free (s : State) (k : Nat) (x : EvSrc) : (s.setSrc k x).free = s.free := rfl
@[simp] theorem State.setSrc_out (s : State) (k : Nat) (x : EvSrc) : (s.setSrc k x).out = s.out := rfl
@[simp] theorem State.setSrc_clk (s : State) (k : Nat) (x : EvSrc) : (s.setSrc k x).clk = s.clk := rfl
@[simp] theorem State.setSrc_units (s : State) (k : Nat) (x : EvSrc) : (s.setSrc k x).units = s.units := rfl
@[simp] theorem State.setSrc_regs (s : State) (k : Nat) (x : EvSrc) : (s.setSrc k x).regs = s.regs := rfl
@[simp] theorem State.setSrc_ind (s : State) (k : Nat) (x : EvSrc) : (s.setSrc k x).ind = s.ind := rfl
@[simp] theorem State.setSrc_cnt (s : State) (k : Nat) (x : EvSrc) : (s.setSrc k x).cnt = s.cnt := rfl
@[simp] theorem State.setSrc_held (s : State) (k : Nat) (x : EvSrc) : (s.setSrc k x).held = s.held := rfl
@[simp] theorem State.setSrc_glb (s : State) (k : Nat) (x : EvSrc) : (s.setSrc k x).glb = s.glb := rfl
@[simp] theorem State.setSrc_flash (s : State) (k : Nat) (x : EvSrc) : (s.setSrc k x).flash = s.flash := rfl
@[simp] theorem State.setSrc_way (s : State) (k : Nat) (x : EvSrc) : (s.setSrc k x).way = s.way := rfl
@[simp] theorem State.setSrc_flt (s : State) (k : Nat) (x : EvSrc) : (s.setSrc k x).flt = s.flt := rfl
@[simp] theorem State.setSrc_cpus (s : State) (k : Nat) (x : EvSrc) : (s.setSrc k x).cpus = s.cpus := rfl
@[simp] theorem State.setSrc_dma (s : State) (k : Nat) (x : EvSrc) : (s.setSrc k x).dma = s.dma := rfl
@[simp] theorem State.setSrc_hqe (s : State) (k : Nat) (x : EvSrc) : (s.setSrc k x).hqe = s.hqe := rfl
@[simp] theorem State.setSrc_bpm (s : State) (k : Nat) (x : EvSrc) : (s.setSrc k x).bpm = s.bpm := rfl
@[simp] theorem State.setSrc_mem (s : State) (k : Nat) (x : EvSrc) : (s.setSrc k x).mem = s.mem := rfl
@[simp] theorem State.setSrc_swc (s : State) (k : Nat) (x : EvSrc) : (s.setSrc k x).swc = s.swc := rfl
@[simp] theorem State.setSrc_tmg (s : State) (k : Nat) (x : EvSrc) : (s.setSrc k x).tmg = s.tmg := rfl
@[simp] theorem State.setSrc_asm (s : State) (k : Nat) (x : EvSrc) : (s.setSrc k x).asm = s.asm := rfl
@[simp] theorem State.setSrc_erelm (s : State) (k : Nat) (x : EvSrc) : (s.setSrc k x).erelm = s.erelm := rfl
@[simp] theorem State.setSrc_prt (s : State) (k : Nat) (x : EvSrc) : (s.setSrc k x).prt = s.prt := rfl
@[simp] theorem State.setSrc_cas (s : State) (k : Nat) (x : EvSrc) : (s.setSrc k x).cas = s.cas := rfl
@[simp] theorem State.setSrc_sec (s : State) (k : Nat) (x : EvSrc) : (s.setSrc k x).sec = s.sec := rfl
@[simp] theorem State.setSrc_plt (s : State) (k : Nat) (x : EvSrc) : (s.setSrc k x).plt = s.plt := rfl
@[simp] theorem State.setSrc_lanes (s : State) (k : Nat) (x : EvSrc) : (s.setSrc k x).lanes = s.lanes := rfl
@[simp] theorem State.setSrc_golden (s : State) (k : Nat) (x : EvSrc) : (s.setSrc k x).golden = s.golden := rfl
@[simp] theorem State.setSrc_msc (s : State) (k : Nat) (x : EvSrc) : (s.setSrc k x).msc = s.msc := rfl
@[simp] theorem State.setSrc_cmp (s : State) (k : Nat) (x : EvSrc) : (s.setSrc k x).cmp = s.cmp := rfl
@[simp] theorem State.setSrc_ctx (s : State) (k : Nat) (x : EvSrc) : (s.setSrc k x).ctx = s.ctx := rfl
@[simp] theorem State.setSrc_opens (s : State) (k : Nat) (x : EvSrc) : (s.setSrc k x).opens = s.opens := rfl
@[simp] theorem State.setSrc_flowQ (s : State) (k : Nat) (x : EvSrc) : (s.setSrc k x).flowQ = s.flowQ := rfl
@[simp] theorem State.setSrc_sessQ (s : State) (k : Nat) (x : EvSrc) : (s.setSrc k x).sessQ = s.sessQ := rfl
@[simp] theorem State.setSrc_same (s : State) (k : Nat) (x : EvSrc) : (s.setSrc k x).src k = x := Tbl.get_put_same _ _ k x
theorem State.setSrc_other (s : State) (k : Nat) (x : EvSrc) (j : Nat) (h : j ≠ k) : (s.setSrc k x).src j = s.src j := Tbl.get_put_other _ _ x h

/-! ### setTgt -/

@[simp] theorem State.setTgt_pending (s : State) (k : Nat) (x : EvTgt) : (s.setTgt k x).pending = s.pending := rfl
@[simp] theorem State.setTgt_time (s : State) (k : Nat) (x : EvTgt) : (s.setTgt k x).time = s.time := rfl
@[simp] theorem State.setTgt_free (s : State) (k : Nat) (x : EvTgt) : (s.setTgt k x).free = s.free := rfl
@[simp] theorem State.setTgt_out (s : State) (k : Nat) (x : EvTgt) : (s.setTgt k x).out = s.out := rfl
@[simp] theorem State.setTgt_clk (s : State) (k : Nat) (x : EvTgt) : (s.setTgt k x).clk = s.clk := rfl
@[simp] theorem State.setTgt_units (s : State) (k : Nat) (x : EvTgt) : (s.setTgt k x).units = s.units := rfl
@[simp] theorem State.setTgt_regs (s : State) (k : Nat) (x : EvTgt) : (s.setTgt k x).regs = s.regs := rfl
@[simp] theorem State.setTgt_ind (s : State) (k : Nat) (x : EvTgt) : (s.setTgt k x).ind = s.ind := rfl
@[simp] theorem State.setTgt_cnt (s : State) (k : Nat) (x : EvTgt) : (s.setTgt k x).cnt = s.cnt := rfl
@[simp] theorem State.setTgt_held (s : State) (k : Nat) (x : EvTgt) : (s.setTgt k x).held = s.held := rfl
@[simp] theorem State.setTgt_glb (s : State) (k : Nat) (x : EvTgt) : (s.setTgt k x).glb = s.glb := rfl
@[simp] theorem State.setTgt_flash (s : State) (k : Nat) (x : EvTgt) : (s.setTgt k x).flash = s.flash := rfl
@[simp] theorem State.setTgt_way (s : State) (k : Nat) (x : EvTgt) : (s.setTgt k x).way = s.way := rfl
@[simp] theorem State.setTgt_flt (s : State) (k : Nat) (x : EvTgt) : (s.setTgt k x).flt = s.flt := rfl
@[simp] theorem State.setTgt_cpus (s : State) (k : Nat) (x : EvTgt) : (s.setTgt k x).cpus = s.cpus := rfl
@[simp] theorem State.setTgt_dma (s : State) (k : Nat) (x : EvTgt) : (s.setTgt k x).dma = s.dma := rfl
@[simp] theorem State.setTgt_hqe (s : State) (k : Nat) (x : EvTgt) : (s.setTgt k x).hqe = s.hqe := rfl
@[simp] theorem State.setTgt_bpm (s : State) (k : Nat) (x : EvTgt) : (s.setTgt k x).bpm = s.bpm := rfl
@[simp] theorem State.setTgt_mem (s : State) (k : Nat) (x : EvTgt) : (s.setTgt k x).mem = s.mem := rfl
@[simp] theorem State.setTgt_swc (s : State) (k : Nat) (x : EvTgt) : (s.setTgt k x).swc = s.swc := rfl
@[simp] theorem State.setTgt_tmg (s : State) (k : Nat) (x : EvTgt) : (s.setTgt k x).tmg = s.tmg := rfl
@[simp] theorem State.setTgt_asm (s : State) (k : Nat) (x : EvTgt) : (s.setTgt k x).asm = s.asm := rfl
@[simp] theorem State.setTgt_erelm (s : State) (k : Nat) (x : EvTgt) : (s.setTgt k x).erelm = s.erelm := rfl
@[simp] theorem State.setTgt_prt (s : State) (k : Nat) (x : EvTgt) : (s.setTgt k x).prt = s.prt := rfl
@[simp] theorem State.setTgt_cas (s : State) (k : Nat) (x : EvTgt) : (s.setTgt k x).cas = s.cas := rfl
@[simp] theorem State.setTgt_sec (s : State) (k : Nat) (x : EvTgt) : (s.setTgt k x).sec = s.sec := rfl
@[simp] theorem State.setTgt_plt (s : State) (k : Nat) (x : EvTgt) : (s.setTgt k x).plt = s.plt := rfl
@[simp] theorem State.setTgt_lanes (s : State) (k : Nat) (x : EvTgt) : (s.setTgt k x).lanes = s.lanes := rfl
@[simp] theorem State.setTgt_golden (s : State) (k : Nat) (x : EvTgt) : (s.setTgt k x).golden = s.golden := rfl
@[simp] theorem State.setTgt_msc (s : State) (k : Nat) (x : EvTgt) : (s.setTgt k x).msc = s.msc := rfl
@[simp] theorem State.setTgt_cmp (s : State) (k : Nat) (x : EvTgt) : (s.setTgt k x).cmp = s.cmp := rfl
@[simp] theorem State.setTgt_ctx (s : State) (k : Nat) (x : EvTgt) : (s.setTgt k x).ctx = s.ctx := rfl
@[simp] theorem State.setTgt_opens (s : State) (k : Nat) (x : EvTgt) : (s.setTgt k x).opens = s.opens := rfl
@[simp] theorem State.setTgt_flowQ (s : State) (k : Nat) (x : EvTgt) : (s.setTgt k x).flowQ = s.flowQ := rfl
@[simp] theorem State.setTgt_sessQ (s : State) (k : Nat) (x : EvTgt) : (s.setTgt k x).sessQ = s.sessQ := rfl
@[simp] theorem State.setTgt_same (s : State) (k : Nat) (x : EvTgt) : (s.setTgt k x).tgt k = x := Tbl.get_put_same _ _ k x
theorem State.setTgt_other (s : State) (k : Nat) (x : EvTgt) (j : Nat) (h : j ≠ k) : (s.setTgt k x).tgt j = s.tgt j := Tbl.get_put_other _ _ x h

/-! ### setFltSrc -/

@[simp] theorem State.setFltSrc_pending (s : State) (k : Nat) (x : FltSrc) : (s.setFltSrc k x).pending = s.pending := rfl
@[simp] theorem State.setFltSrc_time (s : State) (k : Nat) (x : FltSrc) : (s.setFltSrc k x).time = s.time := rfl
@[simp] theorem State.setFltSrc_free (s : State) (k : Nat) (x : FltSrc) : (s.setFltSrc k x).free = s.free := rfl
@[simp] theorem State.setFltSrc_out (s : State) (k : Nat) (x : FltSrc) : (s.setFltSrc k x).out = s.out := rfl
@[simp] theorem State.setFltSrc_clk (s : State) (k : Nat) (x : FltSrc) : (s.setFltSrc k x).clk = s.clk := rfl
@[simp] theorem State.setFltSrc_units (s : State) (k : Nat) (x : FltSrc) : (s.setFltSrc k x).units = s.units := rfl
@[simp] theorem State.setFltSrc_regs (s : State) (k : Nat) (x : FltSrc) : (s.setFltSrc k x).regs = s.regs := rfl
@[simp] theorem State.setFltSrc_ind (s : State) (k : Nat) (x : FltSrc) : (s.setFltSrc k x).ind = s.ind := rfl
@[simp] theorem State.setFltSrc_cnt (s : State) (k : Nat) (x : FltSrc) : (s.setFltSrc k x).cnt = s.cnt := rfl
@[simp] theorem State.setFltSrc_held (s : State) (k : Nat) (x : FltSrc) : (s.setFltSrc k x).held = s.held := rfl
@[simp] theorem State.setFltSrc_glb (s : State) (k : Nat) (x : FltSrc) : (s.setFltSrc k x).glb = s.glb := rfl
@[simp] theorem State.setFltSrc_flash (s : State) (k : Nat) (x : FltSrc) : (s.setFltSrc k x).flash = s.flash := rfl
@[simp] theorem State.setFltSrc_way (s : State) (k : Nat) (x : FltSrc) : (s.setFltSrc k x).way = s.way := rfl
@[simp] theorem State.setFltSrc_evc (s : State) (k : Nat) (x : FltSrc) : (s.setFltSrc k x).evc = s.evc := rfl
@[simp] theorem State.setFltSrc_cpus (s : State) (k : Nat) (x : FltSrc) : (s.setFltSrc k x).cpus = s.cpus := rfl
@[simp] theorem State.setFltSrc_dma (s : State) (k : Nat) (x : FltSrc) : (s.setFltSrc k x).dma = s.dma := rfl
@[simp] theorem State.setFltSrc_hqe (s : State) (k : Nat) (x : FltSrc) : (s.setFltSrc k x).hqe = s.hqe := rfl
@[simp] theorem State.setFltSrc_bpm (s : State) (k : Nat) (x : FltSrc) : (s.setFltSrc k x).bpm = s.bpm := rfl
@[simp] theorem State.setFltSrc_mem (s : State) (k : Nat) (x : FltSrc) : (s.setFltSrc k x).mem = s.mem := rfl
@[simp] theorem State.setFltSrc_swc (s : State) (k : Nat) (x : FltSrc) : (s.setFltSrc k x).swc = s.swc := rfl
@[simp] theorem State.setFltSrc_tmg (s : State) (k : Nat) (x : FltSrc) : (s.setFltSrc k x).tmg = s.tmg := rfl
@[simp] theorem State.setFltSrc_asm (s : State) (k : Nat) (x : FltSrc) : (s.setFltSrc k x).asm = s.asm := rfl
@[simp] theorem State.setFltSrc_erelm (s : State) (k : Nat) (x : FltSrc) : (s.setFltSrc k x).erelm = s.erelm := rfl
@[simp] theorem State.setFltSrc_prt (s : State) (k : Nat) (x : FltSrc) : (s.setFltSrc k x).prt = s.prt := rfl
@[simp] theorem State.setFltSrc_cas (s : State) (k : Nat) (x : FltSrc) : (s.setFltSrc k x).cas = s.cas := rfl
@[simp] theorem State.setFltSrc_sec (s : State) (k : Nat) (x : FltSrc) : (s.setFltSrc k x).sec = s.sec := rfl
@[simp] theorem State.setFltSrc_plt (s : State) (k : Nat) (x : FltSrc) : (s.setFltSrc k x).plt = s.plt := rfl
@[simp] theorem State.setFltSrc_lanes (s : State) (k : Nat) (x : FltSrc) : (s.setFltSrc k x).lanes = s.lanes := rfl
@[simp] theorem State.setFltSrc_golden (s : State) (k : Nat) (x : FltSrc) : (s.setFltSrc k x).golden = s.golden := rfl
@[simp] theorem State.setFltSrc_msc (s : State) (k : Nat) (x : FltSrc) : (s.setFltSrc k x).msc = s.msc := rfl
@[simp] theorem State.setFltSrc_cmp (s : State) (k : Nat) (x : FltSrc) : (s.setFltSrc k x).cmp = s.cmp := rfl
@[simp] theorem State.setFltSrc_ctx (s : State) (k : Nat) (x : FltSrc) : (s.setFltSrc k x).ctx = s.ctx := rfl
@[simp] theorem State.setFltSrc_opens (s : State) (k : Nat) (x : FltSrc) : (s.setFltSrc k x).opens = s.opens := rfl
@[simp] theorem State.setFltSrc_flowQ (s : State) (k : Nat) (x : FltSrc) : (s.setFltSrc k x).flowQ = s.flowQ := rfl
@[simp] theorem State.setFltSrc_sessQ (s : State) (k : Nat) (x : FltSrc) : (s.setFltSrc k x).sessQ = s.sessQ := rfl
@[simp] theorem State.setFltSrc_same (s : State) (k : Nat) (x : FltSrc) : (s.setFltSrc k x).fltSrc k = x := Tbl.get_put_same _ _ k x
theorem State.setFltSrc_other (s : State) (k : Nat) (x : FltSrc) (j : Nat) (h : j ≠ k) : (s.setFltSrc k x).fltSrc j = s.fltSrc j := Tbl.get_put_other _ _ x h

/-! ### setBuf -/

@[simp] theorem State.setBuf_pending (s : State) (k : Nat) (x : Buf) : (s.setBuf k x).pending = s.pending := rfl
@[simp] theorem State.setBuf_time (s : State) (k : Nat) (x : Buf) : (s.setBuf k x).time = s.time := rfl
@[simp] theorem State.setBuf_free (s : State) (k : Nat) (x : Buf) : (s.setBuf k x).free = s.free := rfl
@[simp] theorem State.setBuf_out (s : State) (k : Nat) (x : Buf) : (s.setBuf k x).out = s.out := rfl
@[simp] theorem State.setBuf_clk (s : State) (k : Nat) (x : Buf) : (s.setBuf k x).clk = s.clk := rfl
@[simp] theorem State.setBuf_units (s : State) (k : Nat) (x : Buf) : (s.setBuf k x).units = s.units := rfl
@[simp] theorem State.setBuf_regs (s : State) (k : Nat) (x : Buf) : (s.setBuf k x).regs = s.regs := rfl
@[simp] theorem State.setBuf_ind (s : State) (k : Nat) (x : Buf) : (s.setBuf k x).ind = s.ind := rfl
@[simp] theorem State.setBuf_cnt (s : State) (k : Nat) (x : Buf) : (s.setBuf k x).cnt = s.cnt := rfl
@[simp] theorem State.setBuf_held (s : State) (k : Nat) (x : Buf) : (s.setBuf k x).held = s.held := rfl
@[simp] theorem State.setBuf_glb (s : State) (k : Nat) (x : Buf) : (s.setBuf k x).glb = s.glb := rfl
@[simp] theorem State.setBuf_flash (s : State) (k : Nat) (x : Buf) : (s.setBuf k x).flash = s.flash := rfl
@[simp] theorem State.setBuf_way (s : State) (k : Nat) (x : Buf) : (s.setBuf k x).way = s.way := rfl
@[simp] theorem State.setBuf_flt (s : State) (k : Nat) (x : Buf) : (s.setBuf k x).flt = s.flt := rfl
@[simp] theorem State.setBuf_evc (s : State) (k : Nat) (x : Buf) : (s.setBuf k x).evc = s.evc := rfl
@[simp] theorem State.setBuf_cpus (s : State) (k : Nat) (x : Buf) : (s.setBuf k x).cpus = s.cpus := rfl
@[simp] theorem State.setBuf_dma (s : State) (k : Nat) (x : Buf) : (s.setBuf k x).dma = s.dma := rfl
@[simp] theorem State.setBuf_hqe (s : State) (k : Nat) (x : Buf) : (s.setBuf k x).hqe = s.hqe := rfl
@[simp] theorem State.setBuf_mem (s : State) (k : Nat) (x : Buf) : (s.setBuf k x).mem = s.mem := rfl
@[simp] theorem State.setBuf_swc (s : State) (k : Nat) (x : Buf) : (s.setBuf k x).swc = s.swc := rfl
@[simp] theorem State.setBuf_tmg (s : State) (k : Nat) (x : Buf) : (s.setBuf k x).tmg = s.tmg := rfl
@[simp] theorem State.setBuf_asm (s : State) (k : Nat) (x : Buf) : (s.setBuf k x).asm = s.asm := rfl
@[simp] theorem State.setBuf_erelm (s : State) (k : Nat) (x : Buf) : (s.setBuf k x).erelm = s.erelm := rfl
@[simp] theorem State.setBuf_prt (s : State) (k : Nat) (x : Buf) : (s.setBuf k x).prt = s.prt := rfl
@[simp] theorem State.setBuf_cas (s : State) (k : Nat) (x : Buf) : (s.setBuf k x).cas = s.cas := rfl
@[simp] theorem State.setBuf_sec (s : State) (k : Nat) (x : Buf) : (s.setBuf k x).sec = s.sec := rfl
@[simp] theorem State.setBuf_plt (s : State) (k : Nat) (x : Buf) : (s.setBuf k x).plt = s.plt := rfl
@[simp] theorem State.setBuf_lanes (s : State) (k : Nat) (x : Buf) : (s.setBuf k x).lanes = s.lanes := rfl
@[simp] theorem State.setBuf_golden (s : State) (k : Nat) (x : Buf) : (s.setBuf k x).golden = s.golden := rfl
@[simp] theorem State.setBuf_msc (s : State) (k : Nat) (x : Buf) : (s.setBuf k x).msc = s.msc := rfl
@[simp] theorem State.setBuf_cmp (s : State) (k : Nat) (x : Buf) : (s.setBuf k x).cmp = s.cmp := rfl
@[simp] theorem State.setBuf_ctx (s : State) (k : Nat) (x : Buf) : (s.setBuf k x).ctx = s.ctx := rfl
@[simp] theorem State.setBuf_opens (s : State) (k : Nat) (x : Buf) : (s.setBuf k x).opens = s.opens := rfl
@[simp] theorem State.setBuf_flowQ (s : State) (k : Nat) (x : Buf) : (s.setBuf k x).flowQ = s.flowQ := rfl
@[simp] theorem State.setBuf_sessQ (s : State) (k : Nat) (x : Buf) : (s.setBuf k x).sessQ = s.sessQ := rfl
@[simp] theorem State.setBuf_same (s : State) (k : Nat) (x : Buf) : (s.setBuf k x).buf k = x := Tbl.get_put_same _ _ k x
theorem State.setBuf_other (s : State) (k : Nat) (x : Buf) (j : Nat) (h : j ≠ k) : (s.setBuf k x).buf j = s.buf j := Tbl.get_put_other _ _ x h

/-! ### setPool -/

@[simp] theorem State.setPool_pending (s : State) (k : Nat) (x : Pool) : (s.setPool k x).pending = s.pending := rfl
@[simp] theorem State.setPool_time (s : State) (k : Nat) (x : Pool) : (s.setPool k x).time = s.time := rfl
@[simp] theorem State.setPool_free (s : State) (k : Nat) (x : Pool) : (s.setPool k x).free = s.free := rfl
@[simp] theorem State.setPool_out (s : State) (k : Nat) (x : Pool) : (s.setPool k x).out = s.out := rfl
@[simp] theorem State.setPool_clk (s : State) (k : Nat) (x : Pool) : (s.setPool k x).clk = s.clk := rfl
@[simp] theorem State.setPool_units (s : State) (k : Nat) (x : Pool) : (s.setPool k x).units = s.units := rfl
@[simp] theorem State.setPool_regs (s : State) (k : Nat) (x : Pool) : (s.setPool k x).regs = s.regs := rfl
@[simp] theorem State.setPool_ind (s : State) (k : Nat) (x : Pool) : (s.setPool k x).ind = s.ind := rfl
@[simp] theorem State.setPool_cnt (s : State) (k : Nat) (x : Pool) : (s.setPool k x).cnt = s.cnt := rfl
@[simp] theorem State.setPool_held (s : State) (k : Nat) (x : Pool) : (s.setPool k x).held = s.held := rfl
@[simp] theorem State.setPool_glb (s : State) (k : Nat) (x : Pool) : (s.setPool k x).glb = s.glb := rfl
@[simp] theorem State.setPool_flash (s : State) (k : Nat) (x : Pool) : (s.setPool k x).flash = s.flash := rfl
@[simp] theorem State.setPool_way (s : State) (k : Nat) (x : Pool) : (s.setPool k x).way = s.way := rfl
@[simp] theorem State.setPool_flt (s : State) (k : Nat) (x : Pool) : (s.setPool k x).flt = s.flt := rfl
@[simp] theorem State.setPool_evc (s : State) (k : Nat) (x : Pool) : (s.setPool k x).evc = s.evc := rfl
@[simp] theorem State.setPool_cpus (s : State) (k : Nat) (x : Pool) : (s.setPool k x).cpus = s.cpus := rfl
@[simp] theorem State.setPool_dma (s : State) (k : Nat) (x : Pool) : (s.setPool k x).dma = s.dma := rfl
@[simp] theorem State.setPool_hqe (s : State) (k : Nat) (x : Pool) : (s.setPool k x).hqe = s.hqe := rfl
@[simp] theorem State.setPool_mem (s : State) (k : Nat) (x : Pool) : (s.setPool k x).mem = s.mem := rfl
@[simp] theorem State.setPool_swc (s : State) (k : Nat) (x : Pool) : (s.setPool k x).swc = s.swc := rfl
@[simp] theorem State.setPool_tmg (s : State) (k : Nat) (x : Pool) : (s.setPool k x).tmg = s.tmg := rfl
@[simp] theorem State.setPool_asm (s : State) (k : Nat) (x : Pool) : (s.setPool k x).asm = s.asm := rfl
@[simp] theorem State.setPool_erelm (s : State) (k : Nat) (x : Pool) : (s.setPool k x).erelm = s.erelm := rfl
@[simp] theorem State.setPool_prt (s : State) (k : Nat) (x : Pool) : (s.setPool k x).prt = s.prt := rfl
@[simp] theorem State.setPool_cas (s : State) (k : Nat) (x : Pool) : (s.setPool k x).cas = s.cas := rfl
@[simp] theorem State.setPool_sec (s : State) (k : Nat) (x : Pool) : (s.setPool k x).sec = s.sec := rfl
@[simp] theorem State.setPool_plt (s : State) (k : Nat) (x : Pool) : (s.setPool k x).plt = s.plt := rfl
@[simp] theorem State.setPool_lanes (s : State) (k : Nat) (x : Pool) : (s.setPool k x).lanes = s.lanes := rfl
@[simp] theorem State.setPool_golden (s : State) (k : Nat) (x : Pool) : (s.setPool k x).golden = s.golden := rfl
@[simp] theorem State.setPool_msc (s : State) (k : Nat) (x : Pool) : (s.setPool k x).msc = s.msc := rfl
@[simp] theorem State.setPool_cmp (s : State) (k : Nat) (x : Pool) : (s.setPool k x).cmp = s.cmp := rfl
@[simp] theorem State.setPool_ctx (s : State) (k : Nat) (x : Pool) : (s.setPool k x).ctx = s.ctx := rfl
@[simp] theorem State.setPool_opens (s : State) (k : Nat) (x : Pool) : (s.setPool k x).opens = s.opens := rfl
@[simp] theorem State.setPool_flowQ (s : State) (k : Nat) (x : Pool) : (s.setPool k x).flowQ = s.flowQ := rfl
@[simp] theorem State.setPool_sessQ (s : State) (k : Nat) (x : Pool) : (s.setPool k x).sessQ = s.sessQ := rfl
@[simp] theorem State.setPool_same (s : State) (k : Nat) (x : Pool) : (s.setPool k x).pool k = x := Tbl.get_put_same _ _ k x
theorem State.setPool_other (s : State) (k : Nat) (x : Pool) (j : Nat) (h : j ≠ k) : (s.setPool k x).pool j = s.pool j := Tbl.get_put_other _ _ x h

/-! ### setChan -/

@[simp] theorem State.setChan_pending (s : State) (k : Nat) (x : Chan) : (s.setChan k x).pending = s.pending := rfl
@[simp] theorem State.setChan_time (s : State) (k : Nat) (x : Chan) : (s.setChan k x).time = s.time := rfl
@[simp] theorem State.setChan_free (s : State) (k : Nat) (x : Chan) : (s.setChan k x).free = s.free := rfl
@[simp] theorem State.setChan_out (s : State) (k : Nat) (x : Chan) : (s.setChan k x).out = s.out := rfl
@[simp] theorem State.setChan_clk (s : State) (k : Nat) (x : Chan) : (s.setChan k x).clk = s.clk := rfl
@[simp] theorem State.setChan_units (s : State) (k : Nat) (x : Chan) : (s.setChan k x).units = s.units := rfl
@[simp] theorem State.setChan_regs (s : State) (k : Nat) (x : Chan) : (s.setChan k x).regs = s.regs := rfl
@[simp] theorem State.setChan_ind (s : State) (k : Nat) (x : Chan) : (s.setChan k x).ind = s.ind := rfl
@[simp] theorem State.setChan_cnt (s : State) (k : Nat) (x : Chan) : (s.setChan k x).cnt = s.cnt := rfl
@[simp] theorem State.setChan_held (s : State) (k : Nat) (x : Chan) : (s.setChan k x).held = s.held := rfl
@[simp] theorem State.setChan_glb (s : State) (k : Nat) (x : Chan) : (s.setChan k x).glb = s.glb := rfl
@[simp] theorem State.setChan_flash (s : State) (k : Nat) (x : Chan) : (s.setChan k x).flash = s.flash := rfl
@[simp] theorem State.setChan_way (s : State) (k : Nat) (x : Chan) : (s.setChan k x).way = s.way := rfl
@[simp] theorem State.setChan_flt (s : State) (k : Nat) (x : Chan) : (s.setChan k x).flt = s.flt := rfl
@[simp] theorem State.setChan_evc (s : State) (k : Nat) (x : Chan) : (s.setChan k x).evc = s.evc := rfl
@[simp] theorem State.setChan_cpus (s : State) (k : Nat) (x : Chan) : (s.setChan k x).cpus = s.cpus := rfl
@[simp] theorem State.setChan_dma (s : State) (k : Nat) (x : Chan) : (s.setChan k x).dma = s.dma := rfl
@[simp] theorem State.setChan_hqe (s : State) (k : Nat) (x : Chan) : (s.setChan k x).hqe = s.hqe := rfl
@[simp] theorem State.setChan_bpm (s : State) (k : Nat) (x : Chan) : (s.setChan k x).bpm = s.bpm := rfl
@[simp] theorem State.setChan_swc (s : State) (k : Nat) (x : Chan) : (s.setChan k x).swc = s.swc := rfl
@[simp] theorem State.setChan_tmg (s : State) (k : Nat) (x : Chan) : (s.setChan k x).tmg = s.tmg := rfl
@[simp] theorem State.setChan_asm (s : State) (k : Nat) (x : Chan) : (s.setChan k x).asm = s.asm := rfl
@[simp] theorem State.setChan_erelm (s : State) (k : Nat) (x : Chan) : (s.setChan k x).erelm = s.erelm := rfl
@[simp] theorem State.setChan_prt (s : State) (k : Nat) (x : Chan) : (s.setChan k x).prt = s.prt := rfl
@[simp] theorem State.setChan_cas (s : State) (k : Nat) (x : Chan) : (s.setChan k x).cas = s.cas := rfl
@[simp] theorem State.setChan_sec (s : State) (k : Nat) (x : Chan) : (s.setChan k x).sec = s.sec := rfl
@[simp] theorem State.setChan_plt (s : State) (k : Nat) (x : Chan) : (s.setChan k x).plt = s.plt := rfl
@[simp] theorem State.setChan_lanes (s : State) (k : Nat) (x : Chan) : (s.setChan k x).lanes = s.lanes := rfl
@[simp] theorem State.setChan_golden (s : State) (k : Nat) (x : Chan) : (s.setChan k x).golden = s.golden := rfl
@[simp] theorem State.setChan_msc (s : State) (k : Nat) (x : Chan) : (s.setChan k x).msc = s.msc := rfl
@[simp] theorem State.setChan_cmp (s : State) (k : Nat) (x : Chan) : (s.setChan k x).cmp = s.cmp := rfl
@[simp] theorem State.setChan_ctx (s : State) (k : Nat) (x : Chan) : (s.setChan k x).ctx = s.ctx := rfl
@[simp] theorem State.setChan_opens (s : State) (k : Nat) (x : Chan) : (s.setChan k x).opens = s.opens := rfl
@[simp] theorem State.setChan_flowQ (s : State) (k : Nat) (x : Chan) : (s.setChan k x).flowQ = s.flowQ := rfl
@[simp] theorem State.setChan_sessQ (s : State) (k : Nat) (x : Chan) : (s.setChan k x).sessQ = s.sessQ := rfl
@[simp] theorem State.setChan_same (s : State) (k : Nat) (x : Chan) : (s.setChan k x).chan k = x := Tbl.get_put_same _ _ k x
theorem State.setChan_other (s : State) (k : Nat) (x : Chan) (j : Nat) (h : j ≠ k) : (s.setChan k x).chan j = s.chan j := Tbl.get_put_other _ _ x h

/-! ### setCopy -/

@[simp] theorem State.setCopy_pending (s : State) (k : Nat) (x : Copy) : (s.setCopy k x).pending = s.pending := rfl
@[simp] theorem State.setCopy_time (s : State) (k : Nat) (x : Copy) : (s.setCopy k x).time = s.time := rfl
@[simp] theorem State.setCopy_free (s : State) (k : Nat) (x : Copy) : (s.setCopy k x).free = s.free := rfl
@[simp] theorem State.setCopy_out (s : State) (k : Nat) (x : Copy) : (s.setCopy k x).out = s.out := rfl
@[simp] theorem State.setCopy_clk (s : State) (k : Nat) (x : Copy) : (s.setCopy k x).clk = s.clk := rfl
@[simp] theorem State.setCopy_units (s : State) (k : Nat) (x : Copy) : (s.setCopy k x).units = s.units := rfl
@[simp] theorem State.setCopy_regs (s : State) (k : Nat) (x : Copy) : (s.setCopy k x).regs = s.regs := rfl
@[simp] theorem State.setCopy_ind (s : State) (k : Nat) (x : Copy) : (s.setCopy k x).ind = s.ind := rfl
@[simp] theorem State.setCopy_cnt (s : State) (k : Nat) (x : Copy) : (s.setCopy k x).cnt = s.cnt := rfl
@[simp] theorem State.setCopy_held (s : State) (k : Nat) (x : Copy) : (s.setCopy k x).held = s.held := rfl
@[simp] theorem State.setCopy_glb (s : State) (k : Nat) (x : Copy) : (s.setCopy k x).glb = s.glb := rfl
@[simp] theorem State.setCopy_flash (s : State) (k : Nat) (x : Copy) : (s.setCopy k x).flash = s.flash := rfl
@[simp] theorem State.setCopy_way (s : State) (k : Nat) (x : Copy) : (s.setCopy k x).way = s.way := rfl
@[simp] theorem State.setCopy_flt (s : State) (k : Nat) (x : Copy) : (s.setCopy k x).flt = s.flt := rfl
@[simp] theorem State.setCopy_evc (s : State) (k : Nat) (x : Copy) : (s.setCopy k x).evc = s.evc := rfl
@[simp] theorem State.setCopy_cpus (s : State) (k : Nat) (x : Copy) : (s.setCopy k x).cpus = s.cpus := rfl
@[simp] theorem State.setCopy_dma (s : State) (k : Nat) (x : Copy) : (s.setCopy k x).dma = s.dma := rfl
@[simp] theorem State.setCopy_hqe (s : State) (k : Nat) (x : Copy) : (s.setCopy k x).hqe = s.hqe := rfl
@[simp] theorem State.setCopy_bpm (s : State) (k : Nat) (x : Copy) : (s.setCopy k x).bpm = s.bpm := rfl
@[simp] theorem State.setCopy_mem (s : State) (k : Nat) (x : Copy) : (s.setCopy k x).mem = s.mem := rfl
@[simp] theorem State.setCopy_tmg (s : State) (k : Nat) (x : Copy) : (s.setCopy k x).tmg = s.tmg := rfl
@[simp] theorem State.setCopy_asm (s : State) (k : Nat) (x : Copy) : (s.setCopy k x).asm = s.asm := rfl
@[simp] theorem State.setCopy_erelm (s : State) (k : Nat) (x : Copy) : (s.setCopy k x).erelm = s.erelm := rfl
@[simp] theorem State.setCopy_prt (s : State) (k : Nat) (x : Copy) : (s.setCopy k x).prt = s.prt := rfl
@[simp] theorem State.setCopy_cas (s : State) (k : Nat) (x : Copy) : (s.setCopy k x).cas = s.cas := rfl
@[simp] theorem State.setCopy_sec (s : State) (k : Nat) (x : Copy) : (s.setCopy k x).sec = s.sec := rfl
@[simp] theorem State.setCopy_plt (s : State) (k : Nat) (x : Copy) : (s.setCopy k x).plt = s.plt := rfl
@[simp] theorem State.setCopy_lanes (s : State) (k : Nat) (x : Copy) : (s.setCopy k x).lanes = s.lanes := rfl
@[simp] theorem State.setCopy_golden (s : State) (k : Nat) (x : Copy) : (s.setCopy k x).golden = s.golden := rfl
@[simp] theorem State.setCopy_msc (s : State) (k : Nat) (x : Copy) : (s.setCopy k x).msc = s.msc := rfl
@[simp] theorem State.setCopy_cmp (s : State) (k : Nat) (x : Copy) : (s.setCopy k x).cmp = s.cmp := rfl
@[simp] theorem State.setCopy_ctx (s : State) (k : Nat) (x : Copy) : (s.setCopy k x).ctx = s.ctx := rfl
@[simp] theorem State.setCopy_opens (s : State) (k : Nat) (x : Copy) : (s.setCopy k x).opens = s.opens := rfl
@[simp] theorem State.setCopy_flowQ (s : State) (k : Nat) (x : Copy) : (s.setCopy k x).flowQ = s.flowQ := rfl
@[simp] theorem State.setCopy_sessQ (s : State) (k : Nat) (x : Copy) : (s.setCopy k x).sessQ = s.sessQ := rfl
@[simp] theorem State.setCopy_same (s : State) (k : Nat) (x : Copy) : (s.setCopy k x).copy k = x := Tbl.get_put_same _ _ k x
theorem State.setCopy_other (s : State) (k : Nat) (x : Copy) (j : Nat) (h : j ≠ k) : (s.setCopy k x).copy j = s.copy j := Tbl.get_put_other _ _ x h

/-! ### setQueue -/

@[simp] theorem State.setQueue_pending (s : State) (k : Nat) (x : QDesc) : (s.setQueue k x).pending = s.pending := rfl
@[simp] theorem State.setQueue_time (s : State) (k : Nat) (x : QDesc) : (s.setQueue k x).time = s.time := rfl
@[simp] theorem State.setQueue_free (s : State) (k : Nat) (x : QDesc) : (s.setQueue k x).free = s.free := rfl
@[simp] theorem State.setQueue_out (s : State) (k : Nat) (x : QDesc) : (s.setQueue k x).out = s.out := rfl
@[simp] theorem State.setQueue_clk (s : State) (k : Nat) (x : QDesc) : (s.setQueue k x).clk = s.clk := rfl
@[simp] theorem State.setQueue_units (s : State) (k : Nat) (x : QDesc) : (s.setQueue k x).units = s.units := rfl
@[simp] theorem State.setQueue_regs (s : State) (k : Nat) (x : QDesc) : (s.setQueue k x).regs = s.regs := rfl
@[simp] theorem State.setQueue_ind (s : State) (k : Nat) (x : QDesc) : (s.setQueue k x).ind = s.ind := rfl
@[simp] theorem State.setQueue_cnt (s : State) (k : Nat) (x : QDesc) : (s.setQueue k x).cnt = s.cnt := rfl
@[simp] theorem State.setQueue_held (s : State) (k : Nat) (x : QDesc) : (s.setQueue k x).held = s.held := rfl
@[simp] theorem State.setQueue_glb (s : State) (k : Nat) (x : QDesc) : (s.setQueue k x).glb = s.glb := rfl
@[simp] theorem State.setQueue_flash (s : State) (k : Nat) (x : QDesc) : (s.setQueue k x).flash = s.flash := rfl
@[simp] theorem State.setQueue_way (s : State) (k : Nat) (x : QDesc) : (s.setQueue k x).way = s.way := rfl
@[simp] theorem State.setQueue_flt (s : State) (k : Nat) (x : QDesc) : (s.setQueue k x).flt = s.flt := rfl
@[simp] theorem State.setQueue_evc (s : State) (k : Nat) (x : QDesc) : (s.setQueue k x).evc = s.evc := rfl
@[simp] theorem State.setQueue_cpus (s : State) (k : Nat) (x : QDesc) : (s.setQueue k x).cpus = s.cpus := rfl
@[simp] theorem State.setQueue_dma (s : State) (k : Nat) (x : QDesc) : (s.setQueue k x).dma = s.dma := rfl
@[simp] theorem State.setQueue_hqe (s : State) (k : Nat) (x : QDesc) : (s.setQueue k x).hqe = s.hqe := rfl
@[simp] theorem State.setQueue_bpm (s : State) (k : Nat) (x : QDesc) : (s.setQueue k x).bpm = s.bpm := rfl
@[simp] theorem State.setQueue_mem (s : State) (k : Nat) (x : QDesc) : (s.setQueue k x).mem = s.mem := rfl
@[simp] theorem State.setQueue_swc (s : State) (k : Nat) (x : QDesc) : (s.setQueue k x).swc = s.swc := rfl
@[simp] theorem State.setQueue_asm (s : State) (k : Nat) (x : QDesc) : (s.setQueue k x).asm = s.asm := rfl
@[simp] theorem State.setQueue_erelm (s : State) (k : Nat) (x : QDesc) : (s.setQueue k x).erelm = s.erelm := rfl
@[simp] theorem State.setQueue_prt (s : State) (k : Nat) (x : QDesc) : (s.setQueue k x).prt = s.prt := rfl
@[simp] theorem State.setQueue_cas (s : State) (k : Nat) (x : QDesc) : (s.setQueue k x).cas = s.cas := rfl
@[simp] theorem State.setQueue_sec (s : State) (k : Nat) (x : QDesc) : (s.setQueue k x).sec = s.sec := rfl
@[simp] theorem State.setQueue_plt (s : State) (k : Nat) (x : QDesc) : (s.setQueue k x).plt = s.plt := rfl
@[simp] theorem State.setQueue_lanes (s : State) (k : Nat) (x : QDesc) : (s.setQueue k x).lanes = s.lanes := rfl
@[simp] theorem State.setQueue_golden (s : State) (k : Nat) (x : QDesc) : (s.setQueue k x).golden = s.golden := rfl
@[simp] theorem State.setQueue_msc (s : State) (k : Nat) (x : QDesc) : (s.setQueue k x).msc = s.msc := rfl
@[simp] theorem State.setQueue_cmp (s : State) (k : Nat) (x : QDesc) : (s.setQueue k x).cmp = s.cmp := rfl
@[simp] theorem State.setQueue_ctx (s : State) (k : Nat) (x : QDesc) : (s.setQueue k x).ctx = s.ctx := rfl
@[simp] theorem State.setQueue_opens (s : State) (k : Nat) (x : QDesc) : (s.setQueue k x).opens = s.opens := rfl
@[simp] theorem State.setQueue_flowQ (s : State) (k : Nat) (x : QDesc) : (s.setQueue k x).flowQ = s.flowQ := rfl
@[simp] theorem State.setQueue_sessQ (s : State) (k : Nat) (x : QDesc) : (s.setQueue k x).sessQ = s.sessQ := rfl
@[simp] theorem State.setQueue_same (s : State) (k : Nat) (x : QDesc) : (s.setQueue k x).queue k = x := Tbl.get_put_same _ _ k x
theorem State.setQueue_other (s : State) (k : Nat) (x : QDesc) (j : Nat) (h : j ≠ k) : (s.setQueue k x).queue j = s.queue j := Tbl.get_put_other _ _ x h

/-! ### setPort -/

@[simp] theorem State.setPort_pending (s : State) (k : Nat) (x : Port) : (s.setPort k x).pending = s.pending := rfl
@[simp] theorem State.setPort_time (s : State) (k : Nat) (x : Port) : (s.setPort k x).time = s.time := rfl
@[simp] theorem State.setPort_free (s : State) (k : Nat) (x : Port) : (s.setPort k x).free = s.free := rfl
@[simp] theorem State.setPort_out (s : State) (k : Nat) (x : Port) : (s.setPort k x).out = s.out := rfl
@[simp] theorem State.setPort_clk (s : State) (k : Nat) (x : Port) : (s.setPort k x).clk = s.clk := rfl
@[simp] theorem State.setPort_units (s : State) (k : Nat) (x : Port) : (s.setPort k x).units = s.units := rfl
@[simp] theorem State.setPort_regs (s : State) (k : Nat) (x : Port) : (s.setPort k x).regs = s.regs := rfl
@[simp] theorem State.setPort_ind (s : State) (k : Nat) (x : Port) : (s.setPort k x).ind = s.ind := rfl
@[simp] theorem State.setPort_cnt (s : State) (k : Nat) (x : Port) : (s.setPort k x).cnt = s.cnt := rfl
@[simp] theorem State.setPort_held (s : State) (k : Nat) (x : Port) : (s.setPort k x).held = s.held := rfl
@[simp] theorem State.setPort_glb (s : State) (k : Nat) (x : Port) : (s.setPort k x).glb = s.glb := rfl
@[simp] theorem State.setPort_flash (s : State) (k : Nat) (x : Port) : (s.setPort k x).flash = s.flash := rfl
@[simp] theorem State.setPort_way (s : State) (k : Nat) (x : Port) : (s.setPort k x).way = s.way := rfl
@[simp] theorem State.setPort_flt (s : State) (k : Nat) (x : Port) : (s.setPort k x).flt = s.flt := rfl
@[simp] theorem State.setPort_evc (s : State) (k : Nat) (x : Port) : (s.setPort k x).evc = s.evc := rfl
@[simp] theorem State.setPort_cpus (s : State) (k : Nat) (x : Port) : (s.setPort k x).cpus = s.cpus := rfl
@[simp] theorem State.setPort_dma (s : State) (k : Nat) (x : Port) : (s.setPort k x).dma = s.dma := rfl
@[simp] theorem State.setPort_hqe (s : State) (k : Nat) (x : Port) : (s.setPort k x).hqe = s.hqe := rfl
@[simp] theorem State.setPort_bpm (s : State) (k : Nat) (x : Port) : (s.setPort k x).bpm = s.bpm := rfl
@[simp] theorem State.setPort_mem (s : State) (k : Nat) (x : Port) : (s.setPort k x).mem = s.mem := rfl
@[simp] theorem State.setPort_swc (s : State) (k : Nat) (x : Port) : (s.setPort k x).swc = s.swc := rfl
@[simp] theorem State.setPort_tmg (s : State) (k : Nat) (x : Port) : (s.setPort k x).tmg = s.tmg := rfl
@[simp] theorem State.setPort_asm (s : State) (k : Nat) (x : Port) : (s.setPort k x).asm = s.asm := rfl
@[simp] theorem State.setPort_erelm (s : State) (k : Nat) (x : Port) : (s.setPort k x).erelm = s.erelm := rfl
@[simp] theorem State.setPort_cas (s : State) (k : Nat) (x : Port) : (s.setPort k x).cas = s.cas := rfl
@[simp] theorem State.setPort_sec (s : State) (k : Nat) (x : Port) : (s.setPort k x).sec = s.sec := rfl
@[simp] theorem State.setPort_plt (s : State) (k : Nat) (x : Port) : (s.setPort k x).plt = s.plt := rfl
@[simp] theorem State.setPort_lanes (s : State) (k : Nat) (x : Port) : (s.setPort k x).lanes = s.lanes := rfl
@[simp] theorem State.setPort_golden (s : State) (k : Nat) (x : Port) : (s.setPort k x).golden = s.golden := rfl
@[simp] theorem State.setPort_msc (s : State) (k : Nat) (x : Port) : (s.setPort k x).msc = s.msc := rfl
@[simp] theorem State.setPort_cmp (s : State) (k : Nat) (x : Port) : (s.setPort k x).cmp = s.cmp := rfl
@[simp] theorem State.setPort_ctx (s : State) (k : Nat) (x : Port) : (s.setPort k x).ctx = s.ctx := rfl
@[simp] theorem State.setPort_opens (s : State) (k : Nat) (x : Port) : (s.setPort k x).opens = s.opens := rfl
@[simp] theorem State.setPort_flowQ (s : State) (k : Nat) (x : Port) : (s.setPort k x).flowQ = s.flowQ := rfl
@[simp] theorem State.setPort_sessQ (s : State) (k : Nat) (x : Port) : (s.setPort k x).sessQ = s.sessQ := rfl
@[simp] theorem State.setPort_same (s : State) (k : Nat) (x : Port) : (s.setPort k x).port k = x := Tbl.get_put_same _ _ k x
theorem State.setPort_other (s : State) (k : Nat) (x : Port) (j : Nat) (h : j ≠ k) : (s.setPort k x).port j = s.port j := Tbl.get_put_other _ _ x h

/-! ### setRsq -/

@[simp] theorem State.setRsq_pending (s : State) (k : Nat) (x : Rsq) : (s.setRsq k x).pending = s.pending := rfl
@[simp] theorem State.setRsq_time (s : State) (k : Nat) (x : Rsq) : (s.setRsq k x).time = s.time := rfl
@[simp] theorem State.setRsq_free (s : State) (k : Nat) (x : Rsq) : (s.setRsq k x).free = s.free := rfl
@[simp] theorem State.setRsq_out (s : State) (k : Nat) (x : Rsq) : (s.setRsq k x).out = s.out := rfl
@[simp] theorem State.setRsq_clk (s : State) (k : Nat) (x : Rsq) : (s.setRsq k x).clk = s.clk := rfl
@[simp] theorem State.setRsq_units (s : State) (k : Nat) (x : Rsq) : (s.setRsq k x).units = s.units := rfl
@[simp] theorem State.setRsq_regs (s : State) (k : Nat) (x : Rsq) : (s.setRsq k x).regs = s.regs := rfl
@[simp] theorem State.setRsq_ind (s : State) (k : Nat) (x : Rsq) : (s.setRsq k x).ind = s.ind := rfl
@[simp] theorem State.setRsq_cnt (s : State) (k : Nat) (x : Rsq) : (s.setRsq k x).cnt = s.cnt := rfl
@[simp] theorem State.setRsq_held (s : State) (k : Nat) (x : Rsq) : (s.setRsq k x).held = s.held := rfl
@[simp] theorem State.setRsq_glb (s : State) (k : Nat) (x : Rsq) : (s.setRsq k x).glb = s.glb := rfl
@[simp] theorem State.setRsq_flash (s : State) (k : Nat) (x : Rsq) : (s.setRsq k x).flash = s.flash := rfl
@[simp] theorem State.setRsq_way (s : State) (k : Nat) (x : Rsq) : (s.setRsq k x).way = s.way := rfl
@[simp] theorem State.setRsq_flt (s : State) (k : Nat) (x : Rsq) : (s.setRsq k x).flt = s.flt := rfl
@[simp] theorem State.setRsq_evc (s : State) (k : Nat) (x : Rsq) : (s.setRsq k x).evc = s.evc := rfl
@[simp] theorem State.setRsq_cpus (s : State) (k : Nat) (x : Rsq) : (s.setRsq k x).cpus = s.cpus := rfl
@[simp] theorem State.setRsq_dma (s : State) (k : Nat) (x : Rsq) : (s.setRsq k x).dma = s.dma := rfl
@[simp] theorem State.setRsq_hqe (s : State) (k : Nat) (x : Rsq) : (s.setRsq k x).hqe = s.hqe := rfl
@[simp] theorem State.setRsq_bpm (s : State) (k : Nat) (x : Rsq) : (s.setRsq k x).bpm = s.bpm := rfl
@[simp] theorem State.setRsq_mem (s : State) (k : Nat) (x : Rsq) : (s.setRsq k x).mem = s.mem := rfl
@[simp] theorem State.setRsq_tmg (s : State) (k : Nat) (x : Rsq) : (s.setRsq k x).tmg = s.tmg := rfl
@[simp] theorem State.setRsq_asm (s : State) (k : Nat) (x : Rsq) : (s.setRsq k x).asm = s.asm := rfl
@[simp] theorem State.setRsq_erelm (s : State) (k : Nat) (x : Rsq) : (s.setRsq k x).erelm = s.erelm := rfl
@[simp] theorem State.setRsq_prt (s : State) (k : Nat) (x : Rsq) : (s.setRsq k x).prt = s.prt := rfl
@[simp] theorem State.setRsq_cas (s : State) (k : Nat) (x : Rsq) : (s.setRsq k x).cas = s.cas := rfl
@[simp] theorem State.setRsq_sec (s : State) (k : Nat) (x : Rsq) : (s.setRsq k x).sec = s.sec := rfl
@[simp] theorem State.setRsq_plt (s : State) (k : Nat) (x : Rsq) : (s.setRsq k x).plt = s.plt := rfl
@[simp] theorem State.setRsq_lanes (s : State) (k : Nat) (x : Rsq) : (s.setRsq k x).lanes = s.lanes := rfl
@[simp] theorem State.setRsq_golden (s : State) (k : Nat) (x : Rsq) : (s.setRsq k x).golden = s.golden := rfl
@[simp] theorem State.setRsq_msc (s : State) (k : Nat) (x : Rsq) : (s.setRsq k x).msc = s.msc := rfl
@[simp] theorem State.setRsq_cmp (s : State) (k : Nat) (x : Rsq) : (s.setRsq k x).cmp = s.cmp := rfl
@[simp] theorem State.setRsq_ctx (s : State) (k : Nat) (x : Rsq) : (s.setRsq k x).ctx = s.ctx := rfl
@[simp] theorem State.setRsq_opens (s : State) (k : Nat) (x : Rsq) : (s.setRsq k x).opens = s.opens := rfl
@[simp] theorem State.setRsq_flowQ (s : State) (k : Nat) (x : Rsq) : (s.setRsq k x).flowQ = s.flowQ := rfl
@[simp] theorem State.setRsq_sessQ (s : State) (k : Nat) (x : Rsq) : (s.setRsq k x).sessQ = s.sessQ := rfl
@[simp] theorem State.setRsq_same (s : State) (k : Nat) (x : Rsq) : (s.setRsq k x).rsq k = x := Tbl.get_put_same _ _ k x
theorem State.setRsq_other (s : State) (k : Nat) (x : Rsq) (j : Nat) (h : j ≠ k) : (s.setRsq k x).rsq j = s.rsq j := Tbl.get_put_other _ _ x h

/-! ### setMdio -/

@[simp] theorem State.setMdio_pending (s : State) (k : Nat) (x : MdioSt) : (s.setMdio k x).pending = s.pending := rfl
@[simp] theorem State.setMdio_time (s : State) (k : Nat) (x : MdioSt) : (s.setMdio k x).time = s.time := rfl
@[simp] theorem State.setMdio_free (s : State) (k : Nat) (x : MdioSt) : (s.setMdio k x).free = s.free := rfl
@[simp] theorem State.setMdio_out (s : State) (k : Nat) (x : MdioSt) : (s.setMdio k x).out = s.out := rfl
@[simp] theorem State.setMdio_clk (s : State) (k : Nat) (x : MdioSt) : (s.setMdio k x).clk = s.clk := rfl
@[simp] theorem State.setMdio_units (s : State) (k : Nat) (x : MdioSt) : (s.setMdio k x).units = s.units := rfl
@[simp] theorem State.setMdio_regs (s : State) (k : Nat) (x : MdioSt) : (s.setMdio k x).regs = s.regs := rfl
@[simp] theorem State.setMdio_ind (s : State) (k : Nat) (x : MdioSt) : (s.setMdio k x).ind = s.ind := rfl
@[simp] theorem State.setMdio_cnt (s : State) (k : Nat) (x : MdioSt) : (s.setMdio k x).cnt = s.cnt := rfl
@[simp] theorem State.setMdio_held (s : State) (k : Nat) (x : MdioSt) : (s.setMdio k x).held = s.held := rfl
@[simp] theorem State.setMdio_glb (s : State) (k : Nat) (x : MdioSt) : (s.setMdio k x).glb = s.glb := rfl
@[simp] theorem State.setMdio_flash (s : State) (k : Nat) (x : MdioSt) : (s.setMdio k x).flash = s.flash := rfl
@[simp] theorem State.setMdio_way (s : State) (k : Nat) (x : MdioSt) : (s.setMdio k x).way = s.way := rfl
@[simp] theorem State.setMdio_flt (s : State) (k : Nat) (x : MdioSt) : (s.setMdio k x).flt = s.flt := rfl
@[simp] theorem State.setMdio_evc (s : State) (k : Nat) (x : MdioSt) : (s.setMdio k x).evc = s.evc := rfl
@[simp] theorem State.setMdio_cpus (s : State) (k : Nat) (x : MdioSt) : (s.setMdio k x).cpus = s.cpus := rfl
@[simp] theorem State.setMdio_dma (s : State) (k : Nat) (x : MdioSt) : (s.setMdio k x).dma = s.dma := rfl
@[simp] theorem State.setMdio_hqe (s : State) (k : Nat) (x : MdioSt) : (s.setMdio k x).hqe = s.hqe := rfl
@[simp] theorem State.setMdio_bpm (s : State) (k : Nat) (x : MdioSt) : (s.setMdio k x).bpm = s.bpm := rfl
@[simp] theorem State.setMdio_mem (s : State) (k : Nat) (x : MdioSt) : (s.setMdio k x).mem = s.mem := rfl
@[simp] theorem State.setMdio_swc (s : State) (k : Nat) (x : MdioSt) : (s.setMdio k x).swc = s.swc := rfl
@[simp] theorem State.setMdio_tmg (s : State) (k : Nat) (x : MdioSt) : (s.setMdio k x).tmg = s.tmg := rfl
@[simp] theorem State.setMdio_asm (s : State) (k : Nat) (x : MdioSt) : (s.setMdio k x).asm = s.asm := rfl
@[simp] theorem State.setMdio_erelm (s : State) (k : Nat) (x : MdioSt) : (s.setMdio k x).erelm = s.erelm := rfl
@[simp] theorem State.setMdio_cas (s : State) (k : Nat) (x : MdioSt) : (s.setMdio k x).cas = s.cas := rfl
@[simp] theorem State.setMdio_sec (s : State) (k : Nat) (x : MdioSt) : (s.setMdio k x).sec = s.sec := rfl
@[simp] theorem State.setMdio_plt (s : State) (k : Nat) (x : MdioSt) : (s.setMdio k x).plt = s.plt := rfl
@[simp] theorem State.setMdio_lanes (s : State) (k : Nat) (x : MdioSt) : (s.setMdio k x).lanes = s.lanes := rfl
@[simp] theorem State.setMdio_golden (s : State) (k : Nat) (x : MdioSt) : (s.setMdio k x).golden = s.golden := rfl
@[simp] theorem State.setMdio_msc (s : State) (k : Nat) (x : MdioSt) : (s.setMdio k x).msc = s.msc := rfl
@[simp] theorem State.setMdio_cmp (s : State) (k : Nat) (x : MdioSt) : (s.setMdio k x).cmp = s.cmp := rfl
@[simp] theorem State.setMdio_ctx (s : State) (k : Nat) (x : MdioSt) : (s.setMdio k x).ctx = s.ctx := rfl
@[simp] theorem State.setMdio_opens (s : State) (k : Nat) (x : MdioSt) : (s.setMdio k x).opens = s.opens := rfl
@[simp] theorem State.setMdio_flowQ (s : State) (k : Nat) (x : MdioSt) : (s.setMdio k x).flowQ = s.flowQ := rfl
@[simp] theorem State.setMdio_sessQ (s : State) (k : Nat) (x : MdioSt) : (s.setMdio k x).sessQ = s.sessQ := rfl
@[simp] theorem State.setMdio_same (s : State) (k : Nat) (x : MdioSt) : (s.setMdio k x).mdio k = x := Tbl.get_put_same _ _ k x
theorem State.setMdio_other (s : State) (k : Nat) (x : MdioSt) (j : Nat) (h : j ≠ k) : (s.setMdio k x).mdio j = s.mdio j := Tbl.get_put_other _ _ x h

/-! ### setLink -/

@[simp] theorem State.setLink_pending (s : State) (k : Nat) (x : CasLink) : (s.setLink k x).pending = s.pending := rfl
@[simp] theorem State.setLink_time (s : State) (k : Nat) (x : CasLink) : (s.setLink k x).time = s.time := rfl
@[simp] theorem State.setLink_free (s : State) (k : Nat) (x : CasLink) : (s.setLink k x).free = s.free := rfl
@[simp] theorem State.setLink_out (s : State) (k : Nat) (x : CasLink) : (s.setLink k x).out = s.out := rfl
@[simp] theorem State.setLink_clk (s : State) (k : Nat) (x : CasLink) : (s.setLink k x).clk = s.clk := rfl
@[simp] theorem State.setLink_units (s : State) (k : Nat) (x : CasLink) : (s.setLink k x).units = s.units := rfl
@[simp] theorem State.setLink_regs (s : State) (k : Nat) (x : CasLink) : (s.setLink k x).regs = s.regs := rfl
@[simp] theorem State.setLink_ind (s : State) (k : Nat) (x : CasLink) : (s.setLink k x).ind = s.ind := rfl
@[simp] theorem State.setLink_cnt (s : State) (k : Nat) (x : CasLink) : (s.setLink k x).cnt = s.cnt := rfl
@[simp] theorem State.setLink_held (s : State) (k : Nat) (x : CasLink) : (s.setLink k x).held = s.held := rfl
@[simp] theorem State.setLink_glb (s : State) (k : Nat) (x : CasLink) : (s.setLink k x).glb = s.glb := rfl
@[simp] theorem State.setLink_flash (s : State) (k : Nat) (x : CasLink) : (s.setLink k x).flash = s.flash := rfl
@[simp] theorem State.setLink_way (s : State) (k : Nat) (x : CasLink) : (s.setLink k x).way = s.way := rfl
@[simp] theorem State.setLink_flt (s : State) (k : Nat) (x : CasLink) : (s.setLink k x).flt = s.flt := rfl
@[simp] theorem State.setLink_evc (s : State) (k : Nat) (x : CasLink) : (s.setLink k x).evc = s.evc := rfl
@[simp] theorem State.setLink_cpus (s : State) (k : Nat) (x : CasLink) : (s.setLink k x).cpus = s.cpus := rfl
@[simp] theorem State.setLink_dma (s : State) (k : Nat) (x : CasLink) : (s.setLink k x).dma = s.dma := rfl
@[simp] theorem State.setLink_hqe (s : State) (k : Nat) (x : CasLink) : (s.setLink k x).hqe = s.hqe := rfl
@[simp] theorem State.setLink_bpm (s : State) (k : Nat) (x : CasLink) : (s.setLink k x).bpm = s.bpm := rfl
@[simp] theorem State.setLink_mem (s : State) (k : Nat) (x : CasLink) : (s.setLink k x).mem = s.mem := rfl
@[simp] theorem State.setLink_swc (s : State) (k : Nat) (x : CasLink) : (s.setLink k x).swc = s.swc := rfl
@[simp] theorem State.setLink_tmg (s : State) (k : Nat) (x : CasLink) : (s.setLink k x).tmg = s.tmg := rfl
@[simp] theorem State.setLink_asm (s : State) (k : Nat) (x : CasLink) : (s.setLink k x).asm = s.asm := rfl
@[simp] theorem State.setLink_erelm (s : State) (k : Nat) (x : CasLink) : (s.setLink k x).erelm = s.erelm := rfl
@[simp] theorem State.setLink_prt (s : State) (k : Nat) (x : CasLink) : (s.setLink k x).prt = s.prt := rfl
@[simp] theorem State.setLink_sec (s : State) (k : Nat) (x : CasLink) : (s.setLink k x).sec = s.sec := rfl
@[simp] theorem State.setLink_plt (s : State) (k : Nat) (x : CasLink) : (s.setLink k x).plt = s.plt := rfl
@[simp] theorem State.setLink_lanes (s : State) (k : Nat) (x : CasLink) : (s.setLink k x).lanes = s.lanes := rfl
@[simp] theorem State.setLink_golden (s : State) (k : Nat) (x : CasLink) : (s.setLink k x).golden = s.golden := rfl
@[simp] theorem State.setLink_msc (s : State) (k : Nat) (x : CasLink) : (s.setLink k x).msc = s.msc := rfl
@[simp] theorem State.setLink_cmp (s : State) (k : Nat) (x : CasLink) : (s.setLink k x).cmp = s.cmp := rfl
@[simp] theorem State.setLink_ctx (s : State) (k : Nat) (x : CasLink) : (s.setLink k x).ctx = s.ctx := rfl
@[simp] theorem State.setLink_opens (s : State) (k : Nat) (x : CasLink) : (s.setLink k x).opens = s.opens := rfl
@[simp] theorem State.setLink_flowQ (s : State) (k : Nat) (x : CasLink) : (s.setLink k x).flowQ = s.flowQ := rfl
@[simp] theorem State.setLink_sessQ (s : State) (k : Nat) (x : CasLink) : (s.setLink k x).sessQ = s.sessQ := rfl
@[simp] theorem State.setLink_same (s : State) (k : Nat) (x : CasLink) : (s.setLink k x).link k = x := Tbl.get_put_same _ _ k x
theorem State.setLink_other (s : State) (k : Nat) (x : CasLink) (j : Nat) (h : j ≠ k) : (s.setLink k x).link j = s.link j := Tbl.get_put_other _ _ x h

/-! ### setEnc -/

@[simp] theorem State.setEnc_pending (s : State) (k : Nat) (x : EncSt) : (s.setEnc k x).pending = s.pending := rfl
@[simp] theorem State.setEnc_time (s : State) (k : Nat) (x : EncSt) : (s.setEnc k x).time = s.time := rfl
@[simp] theorem State.setEnc_free (s : State) (k : Nat) (x : EncSt) : (s.setEnc k x).free = s.free := rfl
@[simp] theorem State.setEnc_out (s : State) (k : Nat) (x : EncSt) : (s.setEnc k x).out = s.out := rfl
@[simp] theorem State.setEnc_clk (s : State) (k : Nat) (x : EncSt) : (s.setEnc k x).clk = s.clk := rfl
@[simp] theorem State.setEnc_units (s : State) (k : Nat) (x : EncSt) : (s.setEnc k x).units = s.units := rfl
@[simp] theorem State.setEnc_regs (s : State) (k : Nat) (x : EncSt) : (s.setEnc k x).regs = s.regs := rfl
@[simp] theorem State.setEnc_ind (s : State) (k : Nat) (x : EncSt) : (s.setEnc k x).ind = s.ind := rfl
@[simp] theorem State.setEnc_cnt (s : State) (k : Nat) (x : EncSt) : (s.setEnc k x).cnt = s.cnt := rfl
@[simp] theorem State.setEnc_held (s : State) (k : Nat) (x : EncSt) : (s.setEnc k x).held = s.held := rfl
@[simp] theorem State.setEnc_glb (s : State) (k : Nat) (x : EncSt) : (s.setEnc k x).glb = s.glb := rfl
@[simp] theorem State.setEnc_flash (s : State) (k : Nat) (x : EncSt) : (s.setEnc k x).flash = s.flash := rfl
@[simp] theorem State.setEnc_way (s : State) (k : Nat) (x : EncSt) : (s.setEnc k x).way = s.way := rfl
@[simp] theorem State.setEnc_flt (s : State) (k : Nat) (x : EncSt) : (s.setEnc k x).flt = s.flt := rfl
@[simp] theorem State.setEnc_evc (s : State) (k : Nat) (x : EncSt) : (s.setEnc k x).evc = s.evc := rfl
@[simp] theorem State.setEnc_cpus (s : State) (k : Nat) (x : EncSt) : (s.setEnc k x).cpus = s.cpus := rfl
@[simp] theorem State.setEnc_dma (s : State) (k : Nat) (x : EncSt) : (s.setEnc k x).dma = s.dma := rfl
@[simp] theorem State.setEnc_hqe (s : State) (k : Nat) (x : EncSt) : (s.setEnc k x).hqe = s.hqe := rfl
@[simp] theorem State.setEnc_bpm (s : State) (k : Nat) (x : EncSt) : (s.setEnc k x).bpm = s.bpm := rfl
@[simp] theorem State.setEnc_mem (s : State) (k : Nat) (x : EncSt) : (s.setEnc k x).mem = s.mem := rfl
@[simp] theorem State.setEnc_swc (s : State) (k : Nat) (x : EncSt) : (s.setEnc k x).swc = s.swc := rfl
@[simp] theorem State.setEnc_tmg (s : State) (k : Nat) (x : EncSt) : (s.setEnc k x).tmg = s.tmg := rfl
@[simp] theorem State.setEnc_asm (s : State) (k : Nat) (x : EncSt) : (s.setEnc k x).asm = s.asm := rfl
@[simp] theorem State.setEnc_erelm (s : State) (k : Nat) (x : EncSt) : (s.setEnc k x).erelm = s.erelm := rfl
@[simp] theorem State.setEnc_prt (s : State) (k : Nat) (x : EncSt) : (s.setEnc k x).prt = s.prt := rfl
@[simp] theorem State.setEnc_cas (s : State) (k : Nat) (x : EncSt) : (s.setEnc k x).cas = s.cas := rfl
@[simp] theorem State.setEnc_sec (s : State) (k : Nat) (x : EncSt) : (s.setEnc k x).sec = s.sec := rfl
@[simp] theorem State.setEnc_plt (s : State) (k : Nat) (x : EncSt) : (s.setEnc k x).plt = s.plt := rfl
@[simp] theorem State.setEnc_lanes (s : State) (k : Nat) (x : EncSt) : (s.setEnc k x).lanes = s.lanes := rfl
@[simp] theorem State.setEnc_golden (s : State) (k : Nat) (x : EncSt) : (s.setEnc k x).golden = s.golden := rfl
@[simp] theorem State.setEnc_cmp (s : State) (k : Nat) (x : EncSt) : (s.setEnc k x).cmp = s.cmp := rfl
@[simp] theorem State.setEnc_ctx (s : State) (k : Nat) (x : EncSt) : (s.setEnc k x).ctx = s.ctx := rfl
@[simp] theorem State.setEnc_opens (s : State) (k : Nat) (x : EncSt) : (s.setEnc k x).opens = s.opens := rfl
@[simp] theorem State.setEnc_flowQ (s : State) (k : Nat) (x : EncSt) : (s.setEnc k x).flowQ = s.flowQ := rfl
@[simp] theorem State.setEnc_sessQ (s : State) (k : Nat) (x : EncSt) : (s.setEnc k x).sessQ = s.sessQ := rfl
@[simp] theorem State.setEnc_same (s : State) (k : Nat) (x : EncSt) : (s.setEnc k x).enc k = x := Tbl.get_put_same _ _ k x
theorem State.setEnc_other (s : State) (k : Nat) (x : EncSt) (j : Nat) (h : j ≠ k) : (s.setEnc k x).enc j = s.enc j := Tbl.get_put_other _ _ x h

/-! ### setDec -/

@[simp] theorem State.setDec_pending (s : State) (k : Nat) (x : DecSt) : (s.setDec k x).pending = s.pending := rfl
@[simp] theorem State.setDec_time (s : State) (k : Nat) (x : DecSt) : (s.setDec k x).time = s.time := rfl
@[simp] theorem State.setDec_free (s : State) (k : Nat) (x : DecSt) : (s.setDec k x).free = s.free := rfl
@[simp] theorem State.setDec_out (s : State) (k : Nat) (x : DecSt) : (s.setDec k x).out = s.out := rfl
@[simp] theorem State.setDec_clk (s : State) (k : Nat) (x : DecSt) : (s.setDec k x).clk = s.clk := rfl
@[simp] theorem State.setDec_units (s : State) (k : Nat) (x : DecSt) : (s.setDec k x).units = s.units := rfl
@[simp] theorem State.setDec_regs (s : State) (k : Nat) (x : DecSt) : (s.setDec k x).regs = s.regs := rfl
@[simp] theorem State.setDec_ind (s : State) (k : Nat) (x : DecSt) : (s.setDec k x).ind = s.ind := rfl
@[simp] theorem State.setDec_cnt (s : State) (k : Nat) (x : DecSt) : (s.setDec k x).cnt = s.cnt := rfl
@[simp] theorem State.setDec_held (s : State) (k : Nat) (x : DecSt) : (s.setDec k x).held = s.held := rfl
@[simp] theorem State.setDec_glb (s : State) (k : Nat) (x : DecSt) : (s.setDec k x).glb = s.glb := rfl
@[simp] theorem State.setDec_flash (s : State) (k : Nat) (x : DecSt) : (s.setDec k x).flash = s.flash := rfl
@[simp] theorem State.setDec_way (s : State) (k : Nat) (x : DecSt) : (s.setDec k x).way = s.way := rfl
@[simp] theorem State.setDec_flt (s : State) (k : Nat) (x : DecSt) : (s.setDec k x).flt = s.flt := rfl
@[simp] theorem State.setDec_evc (s : State) (k : Nat) (x : DecSt) : (s.setDec k x).evc = s.evc := rfl
@[simp] theorem State.setDec_cpus (s : State) (k : Nat) (x : DecSt) : (s.setDec k x).cpus = s.cpus := rfl
@[simp] theorem State.setDec_dma (s : State) (k : Nat) (x : DecSt) : (s.setDec k x).dma = s.dma := rfl
@[simp] theorem State.setDec_hqe (s : State) (k : Nat) (x : DecSt) : (s.setDec k x).hqe = s.hqe := rfl
@[simp] theorem State.setDec_bpm (s : State) (k : Nat) (x : DecSt) : (s.setDec k x).bpm = s.bpm := rfl
@[simp] theorem State.setDec_mem (s : State) (k : Nat) (x : DecSt) : (s.setDec k x).mem = s.mem := rfl
@[simp] theorem State.setDec_swc (s : State) (k : Nat) (x : DecSt) : (s.setDec k x).swc = s.swc := rfl
@[simp] theorem State.setDec_tmg (s : State) (k : Nat) (x : DecSt) : (s.setDec k x).tmg = s.tmg := rfl
@[simp] theorem State.setDec_asm (s : State) (k : Nat) (x : DecSt) : (s.setDec k x).asm = s.asm := rfl
@[simp] theorem State.setDec_erelm (s : State) (k : Nat) (x : DecSt) : (s.setDec k x).erelm = s.erelm := rfl
@[simp] theorem State.setDec_prt (s : State) (k : Nat) (x : DecSt) : (s.setDec k x).prt = s.prt := rfl
@[simp] theorem State.setDec_cas (s : State) (k : Nat) (x : DecSt) : (s.setDec k x).cas = s.cas := rfl
@[simp] theorem State.setDec_sec (s : State) (k : Nat) (x : DecSt) : (s.setDec k x).sec = s.sec := rfl
@[simp] theorem State.setDec_plt (s : State) (k : Nat) (x : DecSt) : (s.setDec k x).plt = s.plt := rfl
@[simp] theorem State.setDec_lanes (s : State) (k : Nat) (x : DecSt) : (s.setDec k x).lanes = s.lanes := rfl
@[simp] theorem State.setDec_golden (s : State) (k : Nat) (x : DecSt) : (s.setDec k x).golden = s.golden := rfl
@[simp] theorem State.setDec_cmp (s : State) (k : Nat) (x : DecSt) : (s.setDec k x).cmp = s.cmp := rfl
@[simp] theorem State.setDec_ctx (s : State) (k : Nat) (x : DecSt) : (s.setDec k x).ctx = s.ctx := rfl
@[simp] theorem State.setDec_opens (s : State) (k : Nat) (x : DecSt) : (s.setDec k x).opens = s.opens := rfl
@[simp] theorem State.setDec_flowQ (s : State) (k : Nat) (x : DecSt) : (s.setDec k x).flowQ = s.flowQ := rfl
@[simp] theorem State.setDec_sessQ (s : State) (k : Nat) (x : DecSt) : (s.setDec k x).sessQ = s.sessQ := rfl
@[simp] theorem State.setDec_same (s : State) (k : Nat) (x : DecSt) : (s.setDec k x).dec k = x := Tbl.get_put_same _ _ k x
theorem State.setDec_other (s : State) (k : Nat) (x : DecSt) (j : Nat) (h : j ≠ k) : (s.setDec k x).dec j = s.dec j := Tbl.get_put_other _ _ x h

/-! ### setRaster -/

@[simp] theorem State.setRaster_pending (s : State) (k : Nat) (x : Raster) : (s.setRaster k x).pending = s.pending := rfl
@[simp] theorem State.setRaster_time (s : State) (k : Nat) (x : Raster) : (s.setRaster k x).time = s.time := rfl
@[simp] theorem State.setRaster_free (s : State) (k : Nat) (x : Raster) : (s.setRaster k x).free = s.free := rfl
@[simp] theorem State.setRaster_out (s : State) (k : Nat) (x : Raster) : (s.setRaster k x).out = s.out := rfl
@[simp] theorem State.setRaster_clk (s : State) (k : Nat) (x : Raster) : (s.setRaster k x).clk = s.clk := rfl
@[simp] theorem State.setRaster_units (s : State) (k : Nat) (x : Raster) : (s.setRaster k x).units = s.units := rfl
@[simp] theorem State.setRaster_regs (s : State) (k : Nat) (x : Raster) : (s.setRaster k x).regs = s.regs := rfl
@[simp] theorem State.setRaster_ind (s : State) (k : Nat) (x : Raster) : (s.setRaster k x).ind = s.ind := rfl
@[simp] theorem State.setRaster_cnt (s : State) (k : Nat) (x : Raster) : (s.setRaster k x).cnt = s.cnt := rfl
@[simp] theorem State.setRaster_held (s : State) (k : Nat) (x : Raster) : (s.setRaster k x).held = s.held := rfl
@[simp] theorem State.setRaster_glb (s : State) (k : Nat) (x : Raster) : (s.setRaster k x).glb = s.glb := rfl
@[simp] theorem State.setRaster_flash (s : State) (k : Nat) (x : Raster) : (s.setRaster k x).flash = s.flash := rfl
@[simp] theorem State.setRaster_way (s : State) (k : Nat) (x : Raster) : (s.setRaster k x).way = s.way := rfl
@[simp] theorem State.setRaster_flt (s : State) (k : Nat) (x : Raster) : (s.setRaster k x).flt = s.flt := rfl
@[simp] theorem State.setRaster_evc (s : State) (k : Nat) (x : Raster) : (s.setRaster k x).evc = s.evc := rfl
@[simp] theorem State.setRaster_cpus (s : State) (k : Nat) (x : Raster) : (s.setRaster k x).cpus = s.cpus := rfl
@[simp] theorem State.setRaster_dma (s : State) (k : Nat) (x : Raster) : (s.setRaster k x).dma = s.dma := rfl
@[simp] theorem State.setRaster_hqe (s : State) (k : Nat) (x : Raster) : (s.setRaster k x).hqe = s.hqe := rfl
@[simp] theorem State.setRaster_bpm (s : State) (k : Nat) (x : Raster) : (s.setRaster k x).bpm = s.bpm := rfl
@[simp] theorem State.setRaster_mem (s : State) (k : Nat) (x : Raster) : (s.setRaster k x).mem = s.mem := rfl
@[simp] theorem State.setRaster_swc (s : State) (k : Nat) (x : Raster) : (s.setRaster k x).swc = s.swc := rfl
@[simp] theorem State.setRaster_tmg (s : State) (k : Nat) (x : Raster) : (s.setRaster k x).tmg = s.tmg := rfl
@[simp] theorem State.setRaster_asm (s : State) (k : Nat) (x : Raster) : (s.setRaster k x).asm = s.asm := rfl
@[simp] theorem State.setRaster_erelm (s : State) (k : Nat) (x : Raster) : (s.setRaster k x).erelm = s.erelm := rfl
@[simp] theorem State.setRaster_prt (s : State) (k : Nat) (x : Raster) : (s.setRaster k x).prt = s.prt := rfl
@[simp] theorem State.setRaster_cas (s : State) (k : Nat) (x : Raster) : (s.setRaster k x).cas = s.cas := rfl
@[simp] theorem State.setRaster_sec (s : State) (k : Nat) (x : Raster) : (s.setRaster k x).sec = s.sec := rfl
@[simp] theorem State.setRaster_plt (s : State) (k : Nat) (x : Raster) : (s.setRaster k x).plt = s.plt := rfl
@[simp] theorem State.setRaster_lanes (s : State) (k : Nat) (x : Raster) : (s.setRaster k x).lanes = s.lanes := rfl
@[simp] theorem State.setRaster_golden (s : State) (k : Nat) (x : Raster) : (s.setRaster k x).golden = s.golden := rfl
@[simp] theorem State.setRaster_cmp (s : State) (k : Nat) (x : Raster) : (s.setRaster k x).cmp = s.cmp := rfl
@[simp] theorem State.setRaster_ctx (s : State) (k : Nat) (x : Raster) : (s.setRaster k x).ctx = s.ctx := rfl
@[simp] theorem State.setRaster_opens (s : State) (k : Nat) (x : Raster) : (s.setRaster k x).opens = s.opens := rfl
@[simp] theorem State.setRaster_flowQ (s : State) (k : Nat) (x : Raster) : (s.setRaster k x).flowQ = s.flowQ := rfl
@[simp] theorem State.setRaster_sessQ (s : State) (k : Nat) (x : Raster) : (s.setRaster k x).sessQ = s.sessQ := rfl
@[simp] theorem State.setRaster_same (s : State) (k : Nat) (x : Raster) : (s.setRaster k x).raster k = x := Tbl.get_put_same _ _ k x
theorem State.setRaster_other (s : State) (k : Nat) (x : Raster) (j : Nat) (h : j ≠ k) : (s.setRaster k x).raster j = s.raster j := Tbl.get_put_other _ _ x h

/-! ### setPipe -/

@[simp] theorem State.setPipe_pending (s : State) (k : Nat) (x : Pipe) : (s.setPipe k x).pending = s.pending := rfl
@[simp] theorem State.setPipe_time (s : State) (k : Nat) (x : Pipe) : (s.setPipe k x).time = s.time := rfl
@[simp] theorem State.setPipe_free (s : State) (k : Nat) (x : Pipe) : (s.setPipe k x).free = s.free := rfl
@[simp] theorem State.setPipe_out (s : State) (k : Nat) (x : Pipe) : (s.setPipe k x).out = s.out := rfl
@[simp] theorem State.setPipe_clk (s : State) (k : Nat) (x : Pipe) : (s.setPipe k x).clk = s.clk := rfl
@[simp] theorem State.setPipe_units (s : State) (k : Nat) (x : Pipe) : (s.setPipe k x).units = s.units := rfl
@[simp] theorem State.setPipe_regs (s : State) (k : Nat) (x : Pipe) : (s.setPipe k x).regs = s.regs := rfl
@[simp] theorem State.setPipe_ind (s : State) (k : Nat) (x : Pipe) : (s.setPipe k x).ind = s.ind := rfl
@[simp] theorem State.setPipe_cnt (s : State) (k : Nat) (x : Pipe) : (s.setPipe k x).cnt = s.cnt := rfl
@[simp] theorem State.setPipe_held (s : State) (k : Nat) (x : Pipe) : (s.setPipe k x).held = s.held := rfl
@[simp] theorem State.setPipe_glb (s : State) (k : Nat) (x : Pipe) : (s.setPipe k x).glb = s.glb := rfl
@[simp] theorem State.setPipe_flash (s : State) (k : Nat) (x : Pipe) : (s.setPipe k x).flash = s.flash := rfl
@[simp] theorem State.setPipe_way (s : State) (k : Nat) (x : Pipe) : (s.setPipe k x).way = s.way := rfl
@[simp] theorem State.setPipe_flt (s : State) (k : Nat) (x : Pipe) : (s.setPipe k x).flt = s.flt := rfl
@[simp] theorem State.setPipe_evc (s : State) (k : Nat) (x : Pipe) : (s.setPipe k x).evc = s.evc := rfl
@[simp] theorem State.setPipe_cpus (s : State) (k : Nat) (x : Pipe) : (s.setPipe k x).cpus = s.cpus := rfl
@[simp] theorem State.setPipe_dma (s : State) (k : Nat) (x : Pipe) : (s.setPipe k x).dma = s.dma := rfl
@[simp] theorem State.setPipe_hqe (s : State) (k : Nat) (x : Pipe) : (s.setPipe k x).hqe = s.hqe := rfl
@[simp] theorem State.setPipe_bpm (s : State) (k : Nat) (x : Pipe) : (s.setPipe k x).bpm = s.bpm := rfl
@[simp] theorem State.setPipe_mem (s : State) (k : Nat) (x : Pipe) : (s.setPipe k x).mem = s.mem := rfl
@[simp] theorem State.setPipe_swc (s : State) (k : Nat) (x : Pipe) : (s.setPipe k x).swc = s.swc := rfl
@[simp] theorem State.setPipe_tmg (s : State) (k : Nat) (x : Pipe) : (s.setPipe k x).tmg = s.tmg := rfl
@[simp] theorem State.setPipe_asm (s : State) (k : Nat) (x : Pipe) : (s.setPipe k x).asm = s.asm := rfl
@[simp] theorem State.setPipe_erelm (s : State) (k : Nat) (x : Pipe) : (s.setPipe k x).erelm = s.erelm := rfl
@[simp] theorem State.setPipe_prt (s : State) (k : Nat) (x : Pipe) : (s.setPipe k x).prt = s.prt := rfl
@[simp] theorem State.setPipe_cas (s : State) (k : Nat) (x : Pipe) : (s.setPipe k x).cas = s.cas := rfl
@[simp] theorem State.setPipe_sec (s : State) (k : Nat) (x : Pipe) : (s.setPipe k x).sec = s.sec := rfl
@[simp] theorem State.setPipe_plt (s : State) (k : Nat) (x : Pipe) : (s.setPipe k x).plt = s.plt := rfl
@[simp] theorem State.setPipe_lanes (s : State) (k : Nat) (x : Pipe) : (s.setPipe k x).lanes = s.lanes := rfl
@[simp] theorem State.setPipe_golden (s : State) (k : Nat) (x : Pipe) : (s.setPipe k x).golden = s.golden := rfl
@[simp] theorem State.setPipe_msc (s : State) (k : Nat) (x : Pipe) : (s.setPipe k x).msc = s.msc := rfl
@[simp] theorem State.setPipe_ctx (s : State) (k : Nat) (x : Pipe) : (s.setPipe k x).ctx = s.ctx := rfl
@[simp] theorem State.setPipe_opens (s : State) (k : Nat) (x : Pipe) : (s.setPipe k x).opens = s.opens := rfl
@[simp] theorem State.setPipe_flowQ (s : State) (k : Nat) (x : Pipe) : (s.setPipe k x).flowQ = s.flowQ := rfl
@[simp] theorem State.setPipe_sessQ (s : State) (k : Nat) (x : Pipe) : (s.setPipe k x).sessQ = s.sessQ := rfl
@[simp] theorem State.setPipe_same (s : State) (k : Nat) (x : Pipe) : (s.setPipe k x).pipe k = x := Tbl.get_put_same _ _ k x
theorem State.setPipe_other (s : State) (k : Nat) (x : Pipe) (j : Nat) (h : j ≠ k) : (s.setPipe k x).pipe j = s.pipe j := Tbl.get_put_other _ _ x h

/-! ### setLane -/

@[simp] theorem State.setLane_pending (s : State) (k : Nat) (x : Lane) : (s.setLane k x).pending = s.pending := rfl
@[simp] theorem State.setLane_time (s : State) (k : Nat) (x : Lane) : (s.setLane k x).time = s.time := rfl
@[simp] theorem State.setLane_free (s : State) (k : Nat) (x : Lane) : (s.setLane k x).free = s.free := rfl
@[simp] theorem State.setLane_out (s : State) (k : Nat) (x : Lane) : (s.setLane k x).out = s.out := rfl
@[simp] theorem State.setLane_clk (s : State) (k : Nat) (x : Lane) : (s.setLane k x).clk = s.clk := rfl
@[simp] theorem State.setLane_units (s : State) (k : Nat) (x : Lane) : (s.setLane k x).units = s.units := rfl
@[simp] theorem State.setLane_regs (s : State) (k : Nat) (x : Lane) : (s.setLane k x).regs = s.regs := rfl
@[simp] theorem State.setLane_ind (s : State) (k : Nat) (x : Lane) : (s.setLane k x).ind = s.ind := rfl
@[simp] theorem State.setLane_cnt (s : State) (k : Nat) (x : Lane) : (s.setLane k x).cnt = s.cnt := rfl
@[simp] theorem State.setLane_held (s : State) (k : Nat) (x : Lane) : (s.setLane k x).held = s.held := rfl
@[simp] theorem State.setLane_glb (s : State) (k : Nat) (x : Lane) : (s.setLane k x).glb = s.glb := rfl
@[simp] theorem State.setLane_flash (s : State) (k : Nat) (x : Lane) : (s.setLane k x).flash = s.flash := rfl
@[simp] theorem State.setLane_way (s : State) (k : Nat) (x : Lane) : (s.setLane k x).way = s.way := rfl
@[simp] theorem State.setLane_flt (s : State) (k : Nat) (x : Lane) : (s.setLane k x).flt = s.flt := rfl
@[simp] theorem State.setLane_evc (s : State) (k : Nat) (x : Lane) : (s.setLane k x).evc = s.evc := rfl
@[simp] theorem State.setLane_cpus (s : State) (k : Nat) (x : Lane) : (s.setLane k x).cpus = s.cpus := rfl
@[simp] theorem State.setLane_dma (s : State) (k : Nat) (x : Lane) : (s.setLane k x).dma = s.dma := rfl
@[simp] theorem State.setLane_hqe (s : State) (k : Nat) (x : Lane) : (s.setLane k x).hqe = s.hqe := rfl
@[simp] theorem State.setLane_bpm (s : State) (k : Nat) (x : Lane) : (s.setLane k x).bpm = s.bpm := rfl
@[simp] theorem State.setLane_mem (s : State) (k : Nat) (x : Lane) : (s.setLane k x).mem = s.mem := rfl
@[simp] theorem State.setLane_swc (s : State) (k : Nat) (x : Lane) : (s.setLane k x).swc = s.swc := rfl
@[simp] theorem State.setLane_tmg (s : State) (k : Nat) (x : Lane) : (s.setLane k x).tmg = s.tmg := rfl
@[simp] theorem State.setLane_asm (s : State) (k : Nat) (x : Lane) : (s.setLane k x).asm = s.asm := rfl
@[simp] theorem State.setLane_erelm (s : State) (k : Nat) (x : Lane) : (s.setLane k x).erelm = s.erelm := rfl
@[simp] theorem State.setLane_prt (s : State) (k : Nat) (x : Lane) : (s.setLane k x).prt = s.prt := rfl
@[simp] theorem State.setLane_cas (s : State) (k : Nat) (x : Lane) : (s.setLane k x).cas = s.cas := rfl
@[simp] theorem State.setLane_sec (s : State) (k : Nat) (x : Lane) : (s.setLane k x).sec = s.sec := rfl
@[simp] theorem State.setLane_plt (s : State) (k : Nat) (x : Lane) : (s.setLane k x).plt = s.plt := rfl
@[simp] theorem State.setLane_golden (s : State) (k : Nat) (x : Lane) : (s.setLane k x).golden = s.golden := rfl
@[simp] theorem State.setLane_msc (s : State) (k : Nat) (x : Lane) : (s.setLane k x).msc = s.msc := rfl
@[simp] theorem State.setLane_cmp (s : State) (k : Nat) (x : Lane) : (s.setLane k x).cmp = s.cmp := rfl
@[simp] theorem State.setLane_ctx (s : State) (k : Nat) (x : Lane) : (s.setLane k x).ctx = s.ctx := rfl
@[simp] theorem State.setLane_opens (s : State) (k : Nat) (x : Lane) : (s.setLane k x).opens = s.opens := rfl
@[simp] theorem State.setLane_flowQ (s : State) (k : Nat) (x : Lane) : (s.setLane k x).flowQ = s.flowQ := rfl
@[simp] theorem State.setLane_sessQ (s : State) (k : Nat) (x : Lane) : (s.setLane k x).sessQ = s.sessQ := rfl
@[simp] theorem State.setLane_same (s : State) (k : Nat) (x : Lane) : (s.setLane k x).lane k = x := Tbl.get_put_same _ _ k x
theorem State.setLane_other (s : State) (k : Nat) (x : Lane) (j : Nat) (h : j ≠ k) : (s.setLane k x).lane j = s.lane j := Tbl.get_put_other _ _ x h

/-! ### setCmpCtx -/

@[simp] theorem State.setCmpCtx_pending (s : State) (k : Nat) (x : CmpCtx) : (s.setCmpCtx k x).pending = s.pending := rfl
@[simp] theorem State.setCmpCtx_time (s : State) (k : Nat) (x : CmpCtx) : (s.setCmpCtx k x).time = s.time := rfl
@[simp] theorem State.setCmpCtx_free (s : State) (k : Nat) (x : CmpCtx) : (s.setCmpCtx k x).free = s.free := rfl
@[simp] theorem State.setCmpCtx_out (s : State) (k : Nat) (x : CmpCtx) : (s.setCmpCtx k x).out = s.out := rfl
@[simp] theorem State.setCmpCtx_clk (s : State) (k : Nat) (x : CmpCtx) : (s.setCmpCtx k x).clk = s.clk := rfl
@[simp] theorem State.setCmpCtx_units (s : State) (k : Nat) (x : CmpCtx) : (s.setCmpCtx k x).units = s.units := rfl
@[simp] theorem State.setCmpCtx_regs (s : State) (k : Nat) (x : CmpCtx) : (s.setCmpCtx k x).regs = s.regs := rfl
@[simp] theorem State.setCmpCtx_ind (s : State) (k : Nat) (x : CmpCtx) : (s.setCmpCtx k x).ind = s.ind := rfl
@[simp] theorem State.setCmpCtx_cnt (s : State) (k : Nat) (x : CmpCtx) : (s.setCmpCtx k x).cnt = s.cnt := rfl
@[simp] theorem State.setCmpCtx_held (s : State) (k : Nat) (x : CmpCtx) : (s.setCmpCtx k x).held = s.held := rfl
@[simp] theorem State.setCmpCtx_glb (s : State) (k : Nat) (x : CmpCtx) : (s.setCmpCtx k x).glb = s.glb := rfl
@[simp] theorem State.setCmpCtx_flash (s : State) (k : Nat) (x : CmpCtx) : (s.setCmpCtx k x).flash = s.flash := rfl
@[simp] theorem State.setCmpCtx_way (s : State) (k : Nat) (x : CmpCtx) : (s.setCmpCtx k x).way = s.way := rfl
@[simp] theorem State.setCmpCtx_flt (s : State) (k : Nat) (x : CmpCtx) : (s.setCmpCtx k x).flt = s.flt := rfl
@[simp] theorem State.setCmpCtx_evc (s : State) (k : Nat) (x : CmpCtx) : (s.setCmpCtx k x).evc = s.evc := rfl
@[simp] theorem State.setCmpCtx_cpus (s : State) (k : Nat) (x : CmpCtx) : (s.setCmpCtx k x).cpus = s.cpus := rfl
@[simp] theorem State.setCmpCtx_dma (s : State) (k : Nat) (x : CmpCtx) : (s.setCmpCtx k x).dma = s.dma := rfl
@[simp] theorem State.setCmpCtx_hqe (s : State) (k : Nat) (x : CmpCtx) : (s.setCmpCtx k x).hqe = s.hqe := rfl
@[simp] theorem State.setCmpCtx_bpm (s : State) (k : Nat) (x : CmpCtx) : (s.setCmpCtx k x).bpm = s.bpm := rfl
@[simp] theorem State.setCmpCtx_mem (s : State) (k : Nat) (x : CmpCtx) : (s.setCmpCtx k x).mem = s.mem := rfl
@[simp] theorem State.setCmpCtx_swc (s : State) (k : Nat) (x : CmpCtx) : (s.setCmpCtx k x).swc = s.swc := rfl
@[simp] theorem State.setCmpCtx_tmg (s : State) (k : Nat) (x : CmpCtx) : (s.setCmpCtx k x).tmg = s.tmg := rfl
@[simp] theorem State.setCmpCtx_asm (s : State) (k : Nat) (x : CmpCtx) : (s.setCmpCtx k x).asm = s.asm := rfl
@[simp] theorem State.setCmpCtx_erelm (s : State) (k : Nat) (x : CmpCtx) : (s.setCmpCtx k x).erelm = s.erelm := rfl
@[simp] theorem State.setCmpCtx_prt (s : State) (k : Nat) (x : CmpCtx) : (s.setCmpCtx k x).prt = s.prt := rfl
@[simp] theorem State.setCmpCtx_cas (s : State) (k : Nat) (x : CmpCtx) : (s.setCmpCtx k x).cas = s.cas := rfl
@[simp] theorem State.setCmpCtx_sec (s : State) (k : Nat) (x : CmpCtx) : (s.setCmpCtx k x).sec = s.sec := rfl
@[simp] theorem State.setCmpCtx_plt (s : State) (k : Nat) (x : CmpCtx) : (s.setCmpCtx k x).plt = s.plt := rfl
@[simp] theorem State.setCmpCtx_lanes (s : State) (k : Nat) (x : CmpCtx) : (s.setCmpCtx k x).lanes = s.lanes := rfl
@[simp] theorem State.setCmpCtx_golden (s : State) (k : Nat) (x : CmpCtx) : (s.setCmpCtx k x).golden = s.golden := rfl
@[simp] theorem State.setCmpCtx_msc (s : State) (k : Nat) (x : CmpCtx) : (s.setCmpCtx k x).msc = s.msc := rfl
@[simp] theorem State.setCmpCtx_ctx (s : State) (k : Nat) (x : CmpCtx) : (s.setCmpCtx k x).ctx = s.ctx := rfl
@[simp] theorem State.setCmpCtx_opens (s : State) (k : Nat) (x : CmpCtx) : (s.setCmpCtx k x).opens = s.opens := rfl
@[simp] theorem State.setCmpCtx_flowQ (s : State) (k : Nat) (x : CmpCtx) : (s.setCmpCtx k x).flowQ = s.flowQ := rfl
@[simp] theorem State.setCmpCtx_sessQ (s : State) (k : Nat) (x : CmpCtx) : (s.setCmpCtx k x).sessQ = s.sessQ := rfl
@[simp] theorem State.setCmpCtx_same (s : State) (k : Nat) (x : CmpCtx) : (s.setCmpCtx k x).cmpCtx k = x := Tbl.get_put_same _ _ k x
theorem State.setCmpCtx_other (s : State) (k : Nat) (x : CmpCtx) (j : Nat) (h : j ≠ k) : (s.setCmpCtx k x).cmpCtx j = s.cmpCtx j := Tbl.get_put_other _ _ x h

/-! ### setSurface -/

@[simp] theorem State.setSurface_pending (s : State) (k : Nat) (x : Surface) : (s.setSurface k x).pending = s.pending := rfl
@[simp] theorem State.setSurface_time (s : State) (k : Nat) (x : Surface) : (s.setSurface k x).time = s.time := rfl
@[simp] theorem State.setSurface_free (s : State) (k : Nat) (x : Surface) : (s.setSurface k x).free = s.free := rfl
@[simp] theorem State.setSurface_out (s : State) (k : Nat) (x : Surface) : (s.setSurface k x).out = s.out := rfl
@[simp] theorem State.setSurface_clk (s : State) (k : Nat) (x : Surface) : (s.setSurface k x).clk = s.clk := rfl
@[simp] theorem State.setSurface_units (s : State) (k : Nat) (x : Surface) : (s.setSurface k x).units = s.units := rfl
@[simp] theorem State.setSurface_regs (s : State) (k : Nat) (x : Surface) : (s.setSurface k x).regs = s.regs := rfl
@[simp] theorem State.setSurface_ind (s : State) (k : Nat) (x : Surface) : (s.setSurface k x).ind = s.ind := rfl
@[simp] theorem State.setSurface_cnt (s : State) (k : Nat) (x : Surface) : (s.setSurface k x).cnt = s.cnt := rfl
@[simp] theorem State.setSurface_held (s : State) (k : Nat) (x : Surface) : (s.setSurface k x).held = s.held := rfl
@[simp] theorem State.setSurface_glb (s : State) (k : Nat) (x : Surface) : (s.setSurface k x).glb = s.glb := rfl
@[simp] theorem State.setSurface_flash (s : State) (k : Nat) (x : Surface) : (s.setSurface k x).flash = s.flash := rfl
@[simp] theorem State.setSurface_way (s : State) (k : Nat) (x : Surface) : (s.setSurface k x).way = s.way := rfl
@[simp] theorem State.setSurface_flt (s : State) (k : Nat) (x : Surface) : (s.setSurface k x).flt = s.flt := rfl
@[simp] theorem State.setSurface_evc (s : State) (k : Nat) (x : Surface) : (s.setSurface k x).evc = s.evc := rfl
@[simp] theorem State.setSurface_cpus (s : State) (k : Nat) (x : Surface) : (s.setSurface k x).cpus = s.cpus := rfl
@[simp] theorem State.setSurface_dma (s : State) (k : Nat) (x : Surface) : (s.setSurface k x).dma = s.dma := rfl
@[simp] theorem State.setSurface_hqe (s : State) (k : Nat) (x : Surface) : (s.setSurface k x).hqe = s.hqe := rfl
@[simp] theorem State.setSurface_bpm (s : State) (k : Nat) (x : Surface) : (s.setSurface k x).bpm = s.bpm := rfl
@[simp] theorem State.setSurface_mem (s : State) (k : Nat) (x : Surface) : (s.setSurface k x).mem = s.mem := rfl
@[simp] theorem State.setSurface_swc (s : State) (k : Nat) (x : Surface) : (s.setSurface k x).swc = s.swc := rfl
@[simp] theorem State.setSurface_tmg (s : State) (k : Nat) (x : Surface) : (s.setSurface k x).tmg = s.tmg := rfl
@[simp] theorem State.setSurface_asm (s : State) (k : Nat) (x : Surface) : (s.setSurface k x).asm = s.asm := rfl
@[simp] theorem State.setSurface_erelm (s : State) (k : Nat) (x : Surface) : (s.setSurface k x).erelm = s.erelm := rfl
@[simp] theorem State.setSurface_prt (s : State) (k : Nat) (x : Surface) : (s.setSurface k x).prt = s.prt := rfl
@[simp] theorem State.setSurface_cas (s : State) (k : Nat) (x : Surface) : (s.setSurface k x).cas = s.cas := rfl
@[simp] theorem State.setSurface_sec (s : State) (k : Nat) (x : Surface) : (s.setSurface k x).sec = s.sec := rfl
@[simp] theorem State.setSurface_plt (s : State) (k : Nat) (x : Surface) : (s.setSurface k x).plt = s.plt := rfl
@[simp] theorem State.setSurface_lanes (s : State) (k : Nat) (x : Surface) : (s.setSurface k x).lanes = s.lanes := rfl
@[simp] theorem State.setSurface_golden (s : State) (k : Nat) (x : Surface) : (s.setSurface k x).golden = s.golden := rfl
@[simp] theorem State.setSurface_msc (s : State) (k : Nat) (x : Surface) : (s.setSurface k x).msc = s.msc := rfl
@[simp] theorem State.setSurface_ctx (s : State) (k : Nat) (x : Surface) : (s.setSurface k x).ctx = s.ctx := rfl
@[simp] theorem State.setSurface_opens (s : State) (k : Nat) (x : Surface) : (s.setSurface k x).opens = s.opens := rfl
@[simp] theorem State.setSurface_flowQ (s : State) (k : Nat) (x : Surface) : (s.setSurface k x).flowQ = s.flowQ := rfl
@[simp] theorem State.setSurface_sessQ (s : State) (k : Nat) (x : Surface) : (s.setSurface k x).sessQ = s.sessQ := rfl
@[simp] theorem State.setSurface_same (s : State) (k : Nat) (x : Surface) : (s.setSurface k x).surface k = x := Tbl.get_put_same _ _ k x
theorem State.setSurface_other (s : State) (k : Nat) (x : Surface) (j : Nat) (h : j ≠ k) : (s.setSurface k x).surface j = s.surface j := Tbl.get_put_other _ _ x h

/-! ### setDj -/

@[simp] theorem State.setDj_pending (s : State) (k : Nat) (x : DjQ) : (s.setDj k x).pending = s.pending := rfl
@[simp] theorem State.setDj_time (s : State) (k : Nat) (x : DjQ) : (s.setDj k x).time = s.time := rfl
@[simp] theorem State.setDj_free (s : State) (k : Nat) (x : DjQ) : (s.setDj k x).free = s.free := rfl
@[simp] theorem State.setDj_out (s : State) (k : Nat) (x : DjQ) : (s.setDj k x).out = s.out := rfl
@[simp] theorem State.setDj_clk (s : State) (k : Nat) (x : DjQ) : (s.setDj k x).clk = s.clk := rfl
@[simp] theorem State.setDj_units (s : State) (k : Nat) (x : DjQ) : (s.setDj k x).units = s.units := rfl
@[simp] theorem State.setDj_regs (s : State) (k : Nat) (x : DjQ) : (s.setDj k x).regs = s.regs := rfl
@[simp] theorem State.setDj_ind (s : State) (k : Nat) (x : DjQ) : (s.setDj k x).ind = s.ind := rfl
@[simp] theorem State.setDj_cnt (s : State) (k : Nat) (x : DjQ) : (s.setDj k x).cnt = s.cnt := rfl
@[simp] theorem State.setDj_held (s : State) (k : Nat) (x : DjQ) : (s.setDj k x).held = s.held := rfl
@[simp] theorem State.setDj_glb (s : State) (k : Nat) (x : DjQ) : (s.setDj k x).glb = s.glb := rfl
@[simp] theorem State.setDj_flash (s : State) (k : Nat) (x : DjQ) : (s.setDj k x).flash = s.flash := rfl
@[simp] theorem State.setDj_way (s : State) (k : Nat) (x : DjQ) : (s.setDj k x).way = s.way := rfl
@[simp] theorem State.setDj_flt (s : State) (k : Nat) (x : DjQ) : (s.setDj k x).flt = s.flt := rfl
@[simp] theorem State.setDj_evc (s : State) (k : Nat) (x : DjQ) : (s.setDj k x).evc = s.evc := rfl
@[simp] theorem State.setDj_cpus (s : State) (k : Nat) (x : DjQ) : (s.setDj k x).cpus = s.cpus := rfl
@[simp] theorem State.setDj_dma (s : State) (k : Nat) (x : DjQ) : (s.setDj k x).dma = s.dma := rfl
@[simp] theorem State.setDj_hqe (s : State) (k : Nat) (x : DjQ) : (s.setDj k x).hqe = s.hqe := rfl
@[simp] theorem State.setDj_bpm (s : State) (k : Nat) (x : DjQ) : (s.setDj k x).bpm = s.bpm := rfl
@[simp] theorem State.setDj_mem (s : State) (k : Nat) (x : DjQ) : (s.setDj k x).mem = s.mem := rfl
@[simp] theorem State.setDj_swc (s : State) (k : Nat) (x : DjQ) : (s.setDj k x).swc = s.swc := rfl
@[simp] theorem State.setDj_tmg (s : State) (k : Nat) (x : DjQ) : (s.setDj k x).tmg = s.tmg := rfl
@[simp] theorem State.setDj_erelm (s : State) (k : Nat) (x : DjQ) : (s.setDj k x).erelm = s.erelm := rfl
@[simp] theorem State.setDj_prt (s : State) (k : Nat) (x : DjQ) : (s.setDj k x).prt = s.prt := rfl
@[simp] theorem State.setDj_cas (s : State) (k : Nat) (x : DjQ) : (s.setDj k x).cas = s.cas := rfl
@[simp] theorem State.setDj_sec (s : State) (k : Nat) (x : DjQ) : (s.setDj k x).sec = s.sec := rfl
@[simp] theorem State.setDj_plt (s : State) (k : Nat) (x : DjQ) : (s.setDj k x).plt = s.plt := rfl
@[simp] theorem State.setDj_lanes (s : State) (k : Nat) (x : DjQ) : (s.setDj k x).lanes = s.lanes := rfl
@[simp] theorem State.setDj_golden (s : State) (k : Nat) (x : DjQ) : (s.setDj k x).golden = s.golden := rfl
@[simp] theorem State.setDj_msc (s : State) (k : Nat) (x : DjQ) : (s.setDj k x).msc = s.msc := rfl
@[simp] theorem State.setDj_cmp (s : State) (k : Nat) (x : DjQ) : (s.setDj k x).cmp = s.cmp := rfl
@[simp] theorem State.setDj_ctx (s : State) (k : Nat) (x : DjQ) : (s.setDj k x).ctx = s.ctx := rfl
@[simp] theorem State.setDj_opens (s : State) (k : Nat) (x : DjQ) : (s.setDj k x).opens = s.opens := rfl
@[simp] theorem State.setDj_flowQ (s : State) (k : Nat) (x : DjQ) : (s.setDj k x).flowQ = s.flowQ := rfl
@[simp] theorem State.setDj_sessQ (s : State) (k : Nat) (x : DjQ) : (s.setDj k x).sessQ = s.sessQ := rfl
@[simp] theorem State.setDj_same (s : State) (k : Nat) (x : DjQ) : (s.setDj k x).djq k = x := Tbl.get_put_same _ _ k x
theorem State.setDj_other (s : State) (k : Nat) (x : DjQ) (j : Nat) (h : j ≠ k) : (s.setDj k x).djq j = s.djq j := Tbl.get_put_other _ _ x h

/-! ### setEs -/

@[simp] theorem State.setEs_pending (s : State) (k : Nat) (x : ESess) : (s.setEs k x).pending = s.pending := rfl
@[simp] theorem State.setEs_time (s : State) (k : Nat) (x : ESess) : (s.setEs k x).time = s.time := rfl
@[simp] theorem State.setEs_free (s : State) (k : Nat) (x : ESess) : (s.setEs k x).free = s.free := rfl
@[simp] theorem State.setEs_out (s : State) (k : Nat) (x : ESess) : (s.setEs k x).out = s.out := rfl
@[simp] theorem State.setEs_clk (s : State) (k : Nat) (x : ESess) : (s.setEs k x).clk = s.clk := rfl
@[simp] theorem State.setEs_units (s : State) (k : Nat) (x : ESess) : (s.setEs k x).units = s.units := rfl
@[simp] theorem State.setEs_regs (s : State) (k : Nat) (x : ESess) : (s.setEs k x).regs = s.regs := rfl
@[simp] theorem State.setEs_ind (s : State) (k : Nat) (x : ESess) : (s.setEs k x).ind = s.ind := rfl
@[simp] theorem State.setEs_cnt (s : State) (k : Nat) (x : ESess) : (s.setEs k x).cnt = s.cnt := rfl
@[simp] theorem State.setEs_held (s : State) (k : Nat) (x : ESess) : (s.setEs k x).held = s.held := rfl
@[simp] theorem State.setEs_glb (s : State) (k : Nat) (x : ESess) : (s.setEs k x).glb = s.glb := rfl
@[simp] theorem State.setEs_flash (s : State) (k : Nat) (x : ESess) : (s.setEs k x).flash = s.flash := rfl
@[simp] theorem State.setEs_way (s : State) (k : Nat) (x : ESess) : (s.setEs k x).way = s.way := rfl
@[simp] theorem State.setEs_flt (s : State) (k : Nat) (x : ESess) : (s.setEs k x).flt = s.flt := rfl
@[simp] theorem State.setEs_evc (s : State) (k : Nat) (x : ESess) : (s.setEs k x).evc = s.evc := rfl
@[simp] theorem State.setEs_cpus (s : State) (k : Nat) (x : ESess) : (s.setEs k x).cpus = s.cpus := rfl
@[simp] theorem State.setEs_dma (s : State) (k : Nat) (x : ESess) : (s.setEs k x).dma = s.dma := rfl
@[simp] theorem State.setEs_hqe (s : State) (k : Nat) (x : ESess) : (s.setEs k x).hqe = s.hqe := rfl
@[simp] theorem State.setEs_bpm (s : State) (k : Nat) (x : ESess) : (s.setEs k x).bpm = s.bpm := rfl
@[simp] theorem State.setEs_mem (s : State) (k : Nat) (x : ESess) : (s.setEs k x).mem = s.mem := rfl
@[simp] theorem State.setEs_swc (s : State) (k : Nat) (x : ESess) : (s.setEs k x).swc = s.swc := rfl
@[simp] theorem State.setEs_tmg (s : State) (k : Nat) (x : ESess) : (s.setEs k x).tmg = s.tmg := rfl
@[simp] theorem State.setEs_asm (s : State) (k : Nat) (x : ESess) : (s.setEs k x).asm = s.asm := rfl
@[simp] theorem State.setEs_prt (s : State) (k : Nat) (x : ESess) : (s.setEs k x).prt = s.prt := rfl
@[simp] theorem State.setEs_cas (s : State) (k : Nat) (x : ESess) : (s.setEs k x).cas = s.cas := rfl
@[simp] theorem State.setEs_sec (s : State) (k : Nat) (x : ESess) : (s.setEs k x).sec = s.sec := rfl
@[simp] theorem State.setEs_plt (s : State) (k : Nat) (x : ESess) : (s.setEs k x).plt = s.plt := rfl
@[simp] theorem State.setEs_lanes (s : State) (k : Nat) (x : ESess) : (s.setEs k x).lanes = s.lanes := rfl
@[simp] theorem State.setEs_golden (s : State) (k : Nat) (x : ESess) : (s.setEs k x).golden = s.golden := rfl
@[simp] theorem State.setEs_msc (s : State) (k : Nat) (x : ESess) : (s.setEs k x).msc = s.msc := rfl
@[simp] theorem State.setEs_cmp (s : State) (k : Nat) (x : ESess) : (s.setEs k x).cmp = s.cmp := rfl
@[simp] theorem State.setEs_ctx (s : State) (k : Nat) (x : ESess) : (s.setEs k x).ctx = s.ctx := rfl
@[simp] theorem State.setEs_opens (s : State) (k : Nat) (x : ESess) : (s.setEs k x).opens = s.opens := rfl
@[simp] theorem State.setEs_flowQ (s : State) (k : Nat) (x : ESess) : (s.setEs k x).flowQ = s.flowQ := rfl
@[simp] theorem State.setEs_sessQ (s : State) (k : Nat) (x : ESess) : (s.setEs k x).sessQ = s.sessQ := rfl
@[simp] theorem State.setEs_same (s : State) (k : Nat) (x : ESess) : (s.setEs k x).es k = x := Tbl.get_put_same _ _ k x
theorem State.setEs_other (s : State) (k : Nat) (x : ESess) (j : Nat) (h : j ≠ k) : (s.setEs k x).es j = s.es j := Tbl.get_put_other _ _ x h

/-! ### setCpu -/

@[simp] theorem State.setCpu_pending (s : State) (k : Nat) (x : Cpu) : (s.setCpu k x).pending = s.pending := rfl
@[simp] theorem State.setCpu_time (s : State) (k : Nat) (x : Cpu) : (s.setCpu k x).time = s.time := rfl
@[simp] theorem State.setCpu_free (s : State) (k : Nat) (x : Cpu) : (s.setCpu k x).free = s.free := rfl
@[simp] theorem State.setCpu_out (s : State) (k : Nat) (x : Cpu) : (s.setCpu k x).out = s.out := rfl
@[simp] theorem State.setCpu_clk (s : State) (k : Nat) (x : Cpu) : (s.setCpu k x).clk = s.clk := rfl
@[simp] theorem State.setCpu_units (s : State) (k : Nat) (x : Cpu) : (s.setCpu k x).units = s.units := rfl
@[simp] theorem State.setCpu_regs (s : State) (k : Nat) (x : Cpu) : (s.setCpu k x).regs = s.regs := rfl
@[simp] theorem State.setCpu_ind (s : State) (k : Nat) (x : Cpu) : (s.setCpu k x).ind = s.ind := rfl
@[simp] theorem State.setCpu_cnt (s : State) (k : Nat) (x : Cpu) : (s.setCpu k x).cnt = s.cnt := rfl
@[simp] theorem State.setCpu_held (s : State) (k : Nat) (x : Cpu) : (s.setCpu k x).held = s.held := rfl
@[simp] theorem State.setCpu_glb (s : State) (k : Nat) (x : Cpu) : (s.setCpu k x).glb = s.glb := rfl
@[simp] theorem State.setCpu_flash (s : State) (k : Nat) (x : Cpu) : (s.setCpu k x).flash = s.flash := rfl
@[simp] theorem State.setCpu_way (s : State) (k : Nat) (x : Cpu) : (s.setCpu k x).way = s.way := rfl
@[simp] theorem State.setCpu_flt (s : State) (k : Nat) (x : Cpu) : (s.setCpu k x).flt = s.flt := rfl
@[simp] theorem State.setCpu_evc (s : State) (k : Nat) (x : Cpu) : (s.setCpu k x).evc = s.evc := rfl
@[simp] theorem State.setCpu_dma (s : State) (k : Nat) (x : Cpu) : (s.setCpu k x).dma = s.dma := rfl
@[simp] theorem State.setCpu_hqe (s : State) (k : Nat) (x : Cpu) : (s.setCpu k x).hqe = s.hqe := rfl
@[simp] theorem State.setCpu_bpm (s : State) (k : Nat) (x : Cpu) : (s.setCpu k x).bpm = s.bpm := rfl
@[simp] theorem State.setCpu_mem (s : State) (k : Nat) (x : Cpu) : (s.setCpu k x).mem = s.mem := rfl
@[simp] theorem State.setCpu_swc (s : State) (k : Nat) (x : Cpu) : (s.setCpu k x).swc = s.swc := rfl
@[simp] theorem State.setCpu_tmg (s : State) (k : Nat) (x : Cpu) : (s.setCpu k x).tmg = s.tmg := rfl
@[simp] theorem State.setCpu_asm (s : State) (k : Nat) (x : Cpu) : (s.setCpu k x).asm = s.asm := rfl
@[simp] theorem State.setCpu_erelm (s : State) (k : Nat) (x : Cpu) : (s.setCpu k x).erelm = s.erelm := rfl
@[simp] theorem State.setCpu_prt (s : State) (k : Nat) (x : Cpu) : (s.setCpu k x).prt = s.prt := rfl
@[simp] theorem State.setCpu_cas (s : State) (k : Nat) (x : Cpu) : (s.setCpu k x).cas = s.cas := rfl
@[simp] theorem State.setCpu_sec (s : State) (k : Nat) (x : Cpu) : (s.setCpu k x).sec = s.sec := rfl
@[simp] theorem State.setCpu_plt (s : State) (k : Nat) (x : Cpu) : (s.setCpu k x).plt = s.plt := rfl
@[simp] theorem State.setCpu_lanes (s : State) (k : Nat) (x : Cpu) : (s.setCpu k x).lanes = s.lanes := rfl
@[simp] theorem State.setCpu_golden (s : State) (k : Nat) (x : Cpu) : (s.setCpu k x).golden = s.golden := rfl
@[simp] theorem State.setCpu_msc (s : State) (k : Nat) (x : Cpu) : (s.setCpu k x).msc = s.msc := rfl
@[simp] theorem State.setCpu_cmp (s : State) (k : Nat) (x : Cpu) : (s.setCpu k x).cmp = s.cmp := rfl
@[simp] theorem State.setCpu_ctx (s : State) (k : Nat) (x : Cpu) : (s.setCpu k x).ctx = s.ctx := rfl
@[simp] theorem State.setCpu_opens (s : State) (k : Nat) (x : Cpu) : (s.setCpu k x).opens = s.opens := rfl
@[simp] theorem State.setCpu_flowQ (s : State) (k : Nat) (x : Cpu) : (s.setCpu k x).flowQ = s.flowQ := rfl
@[simp] theorem State.setCpu_sessQ (s : State) (k : Nat) (x : Cpu) : (s.setCpu k x).sessQ = s.sessQ := rfl
@[simp] theorem State.setCpu_same (s : State) (k : Nat) (x : Cpu) : (s.setCpu k x).cpu k = x := Tbl.get_put_same _ _ k x
theorem State.setCpu_other (s : State) (k : Nat) (x : Cpu) (j : Nat) (h : j ≠ k) : (s.setCpu k x).cpu j = s.cpu j := Tbl.get_put_other _ _ x h

/-! ### setDmaCh -/

@[simp] theorem State.setDmaCh_pending (s : State) (k : Nat) (x : DmaCh) : (s.setDmaCh k x).pending = s.pending := rfl
@[simp] theorem State.setDmaCh_time (s : State) (k : Nat) (x : DmaCh) : (s.setDmaCh k x).time = s.time := rfl
@[simp] theorem State.setDmaCh_free (s : State) (k : Nat) (x : DmaCh) : (s.setDmaCh k x).free = s.free := rfl
@[simp] theorem State.setDmaCh_out (s : State) (k : Nat) (x : DmaCh) : (s.setDmaCh k x).out = s.out := rfl
@[simp] theorem State.setDmaCh_clk (s : State) (k : Nat) (x : DmaCh) : (s.setDmaCh k x).clk = s.clk := rfl
@[simp] theorem State.setDmaCh_units (s : State) (k : Nat) (x : DmaCh) : (s.setDmaCh k x).units = s.units := rfl
@[simp] theorem State.setDmaCh_regs (s : State) (k : Nat) (x : DmaCh) : (s.setDmaCh k x).regs = s.regs := rfl
@[simp] theorem State.setDmaCh_ind (s : State) (k : Nat) (x : DmaCh) : (s.setDmaCh k x).ind = s.ind := rfl
@[simp] theorem State.setDmaCh_cnt (s : State) (k : Nat) (x : DmaCh) : (s.setDmaCh k x).cnt = s.cnt := rfl
@[simp] theorem State.setDmaCh_held (s : State) (k : Nat) (x : DmaCh) : (s.setDmaCh k x).held = s.held := rfl
@[simp] theorem State.setDmaCh_glb (s : State) (k : Nat) (x : DmaCh) : (s.setDmaCh k x).glb = s.glb := rfl
@[simp] theorem State.setDmaCh_flash (s : State) (k : Nat) (x : DmaCh) : (s.setDmaCh k x).flash = s.flash := rfl
@[simp] theorem State.setDmaCh_way (s : State) (k : Nat) (x : DmaCh) : (s.setDmaCh k x).way = s.way := rfl
@[simp] theorem State.setDmaCh_flt (s : State) (k : Nat) (x : DmaCh) : (s.setDmaCh k x).flt = s.flt := rfl
@[simp] theorem State.setDmaCh_evc (s : State) (k : Nat) (x : DmaCh) : (s.setDmaCh k x).evc = s.evc := rfl
@[simp] theorem State.setDmaCh_cpus (s : State) (k : Nat) (x : DmaCh) : (s.setDmaCh k x).cpus = s.cpus := rfl
@[simp] theorem State.setDmaCh_hqe (s : State) (k : Nat) (x : DmaCh) : (s.setDmaCh k x).hqe = s.hqe := rfl
@[simp] theorem State.setDmaCh_bpm (s : State) (k : Nat) (x : DmaCh) : (s.setDmaCh k x).bpm = s.bpm := rfl
@[simp] theorem State.setDmaCh_mem (s : State) (k : Nat) (x : DmaCh) : (s.setDmaCh k x).mem = s.mem := rfl
@[simp] theorem State.setDmaCh_swc (s : State) (k : Nat) (x : DmaCh) : (s.setDmaCh k x).swc = s.swc := rfl
@[simp] theorem State.setDmaCh_tmg (s : State) (k : Nat) (x : DmaCh) : (s.setDmaCh k x).tmg = s.tmg := rfl
@[simp] theorem State.setDmaCh_asm (s : State) (k : Nat) (x : DmaCh) : (s.setDmaCh k x).asm = s.asm := rfl
@[simp] theorem State.setDmaCh_erelm (s : State) (k : Nat) (x : DmaCh) : (s.setDmaCh k x).erelm = s.erelm := rfl
@[simp] theorem State.setDmaCh_prt (s : State) (k : Nat) (x : DmaCh) : (s.setDmaCh k x).prt = s.prt := rfl
@[simp] theorem State.setDmaCh_cas (s : State) (k : Nat) (x : DmaCh) : (s.setDmaCh k x).cas = s.cas := rfl
@[simp] theorem State.setDmaCh_sec (s : State) (k : Nat) (x : DmaCh) : (s.setDmaCh k x).sec = s.sec := rfl
@[simp] theorem State.setDmaCh_plt (s : State) (k : Nat) (x : DmaCh) : (s.setDmaCh k x).plt = s.plt := rfl
@[simp] theorem State.setDmaCh_lanes (s : State) (k : Nat) (x : DmaCh) : (s.setDmaCh k x).lanes = s.lanes := rfl
@[simp] theorem State.setDmaCh_golden (s : State) (k : Nat) (x : DmaCh) : (s.setDmaCh k x).golden = s.golden := rfl
@[simp] theorem State.setDmaCh_msc (s : State) (k : Nat) (x : DmaCh) : (s.setDmaCh k x).msc = s.msc := rfl
@[simp] theorem State.setDmaCh_cmp (s : State) (k : Nat) (x : DmaCh) : (s.setDmaCh k x).cmp = s.cmp := rfl
@[simp] theorem State.setDmaCh_ctx (s : State) (k : Nat) (x : DmaCh) : (s.setDmaCh k x).ctx = s.ctx := rfl
@[simp] theorem State.setDmaCh_opens (s : State) (k : Nat) (x : DmaCh) : (s.setDmaCh k x).opens = s.opens := rfl
@[simp] theorem State.setDmaCh_flowQ (s : State) (k : Nat) (x : DmaCh) : (s.setDmaCh k x).flowQ = s.flowQ := rfl
@[simp] theorem State.setDmaCh_sessQ (s : State) (k : Nat) (x : DmaCh) : (s.setDmaCh k x).sessQ = s.sessQ := rfl
@[simp] theorem State.setDmaCh_same (s : State) (k : Nat) (x : DmaCh) : (s.setDmaCh k x).dmaCh k = x := Tbl.get_put_same _ _ k x
theorem State.setDmaCh_other (s : State) (k : Nat) (x : DmaCh) (j : Nat) (h : j ≠ k) : (s.setDmaCh k x).dmaCh j = s.dmaCh j := Tbl.get_put_other _ _ x h

/-! ### setInd -/

@[simp] theorem State.setInd_pending (s : State) (k : Nat) (x : IndSt) : (s.setInd k x).pending = s.pending := rfl
@[simp] theorem State.setInd_time (s : State) (k : Nat) (x : IndSt) : (s.setInd k x).time = s.time := rfl
@[simp] theorem State.setInd_free (s : State) (k : Nat) (x : IndSt) : (s.setInd k x).free = s.free := rfl
@[simp] theorem State.setInd_out (s : State) (k : Nat) (x : IndSt) : (s.setInd k x).out = s.out := rfl
@[simp] theorem State.setInd_clk (s : State) (k : Nat) (x : IndSt) : (s.setInd k x).clk = s.clk := rfl
@[simp] theorem State.setInd_units (s : State) (k : Nat) (x : IndSt) : (s.setInd k x).units = s.units := rfl
@[simp] theorem State.setInd_regs (s : State) (k : Nat) (x : IndSt) : (s.setInd k x).regs = s.regs := rfl
@[simp] theorem State.setInd_cnt (s : State) (k : Nat) (x : IndSt) : (s.setInd k x).cnt = s.cnt := rfl
@[simp] theorem State.setInd_held (s : State) (k : Nat) (x : IndSt) : (s.setInd k x).held = s.held := rfl
@[simp] theorem State.setInd_glb (s : State) (k : Nat) (x : IndSt) : (s.setInd k x).glb = s.glb := rfl
@[simp] theorem State.setInd_flash (s : State) (k : Nat) (x : IndSt) : (s.setInd k x).flash = s.flash := rfl
@[simp] theorem State.setInd_way (s : State) (k : Nat) (x : IndSt) : (s.setInd k x).way = s.way := rfl
@[simp] theorem State.setInd_flt (s : State) (k : Nat) (x : IndSt) : (s.setInd k x).flt = s.flt := rfl
@[simp] theorem State.setInd_evc (s : State) (k : Nat) (x : IndSt) : (s.setInd k x).evc = s.evc := rfl
@[simp] theorem State.setInd_cpus (s : State) (k : Nat) (x : IndSt) : (s.setInd k x).cpus = s.cpus := rfl
@[simp] theorem State.setInd_dma (s : State) (k : Nat) (x : IndSt) : (s.setInd k x).dma = s.dma := rfl
@[simp] theorem State.setInd_hqe (s : State) (k : Nat) (x : IndSt) : (s.setInd k x).hqe = s.hqe := rfl
@[simp] theorem State.setInd_bpm (s : State) (k : Nat) (x : IndSt) : (s.setInd k x).bpm = s.bpm := rfl
@[simp] theorem State.setInd_mem (s : State) (k : Nat) (x : IndSt) : (s.setInd k x).mem = s.mem := rfl
@[simp] theorem State.setInd_swc (s : State) (k : Nat) (x : IndSt) : (s.setInd k x).swc = s.swc := rfl
@[simp] theorem State.setInd_tmg (s : State) (k : Nat) (x : IndSt) : (s.setInd k x).tmg = s.tmg := rfl
@[simp] theorem State.setInd_asm (s : State) (k : Nat) (x : IndSt) : (s.setInd k x).asm = s.asm := rfl
@[simp] theorem State.setInd_erelm (s : State) (k : Nat) (x : IndSt) : (s.setInd k x).erelm = s.erelm := rfl
@[simp] theorem State.setInd_prt (s : State) (k : Nat) (x : IndSt) : (s.setInd k x).prt = s.prt := rfl
@[simp] theorem State.setInd_cas (s : State) (k : Nat) (x : IndSt) : (s.setInd k x).cas = s.cas := rfl
@[simp] theorem State.setInd_sec (s : State) (k : Nat) (x : IndSt) : (s.setInd k x).sec = s.sec := rfl
@[simp] theorem State.setInd_plt (s : State) (k : Nat) (x : IndSt) : (s.setInd k x).plt = s.plt := rfl
@[simp] theorem State.setInd_lanes (s : State) (k : Nat) (x : IndSt) : (s.setInd k x).lanes = s.lanes := rfl
@[simp] theorem State.setInd_golden (s : State) (k : Nat) (x : IndSt) : (s.setInd k x).golden = s.golden := rfl
@[simp] theorem State.setInd_msc (s : State) (k : Nat) (x : IndSt) : (s.setInd k x).msc = s.msc := rfl
@[simp] theorem State.setInd_cmp (s : State) (k : Nat) (x : IndSt) : (s.setInd k x).cmp = s.cmp := rfl
@[simp] theorem State.setInd_ctx (s : State) (k : Nat) (x : IndSt) : (s.setInd k x).ctx = s.ctx := rfl
@[simp] theorem State.setInd_opens (s : State) (k : Nat) (x : IndSt) : (s.setInd k x).opens = s.opens := rfl
@[simp] theorem State.setInd_flowQ (s : State) (k : Nat) (x : IndSt) : (s.setInd k x).flowQ = s.flowQ := rfl
@[simp] theorem State.setInd_sessQ (s : State) (k : Nat) (x : IndSt) : (s.setInd k x).sessQ = s.sessQ := rfl
@[simp] theorem State.setInd_same (s : State) (k : Nat) (x : IndSt) : (s.setInd k x).indSt k = x := Tbl.get_put_same _ _ k x
theorem State.setInd_other (s : State) (k : Nat) (x : IndSt) (j : Nat) (h : j ≠ k) : (s.setInd k x).indSt j = s.indSt j := Tbl.get_put_other _ _ x h

/-! ### setCtx -/

@[simp] theorem State.setCtx_pending (s : State) (k o : Nat) (x : Bytes) : (s.setCtx k o x).pending = s.pending := rfl
@[simp] theorem State.setCtx_time (s : State) (k o : Nat) (x : Bytes) : (s.setCtx k o x).time = s.time := rfl
@[simp] theorem State.setCtx_free (s : State) (k o : Nat) (x : Bytes) : (s.setCtx k o x).free = s.free := rfl
@[simp] theorem State.setCtx_out (s : State) (k o : Nat) (x : Bytes) : (s.setCtx k o x).out = s.out := rfl
@[simp] theorem State.setCtx_clk (s : State) (k o : Nat) (x : Bytes) : (s.setCtx k o x).clk = s.clk := rfl
@[simp] theorem State.setCtx_units (s : State) (k o : Nat) (x : Bytes) : (s.setCtx k o x).units = s.units := rfl
@[simp] theorem State.setCtx_regs (s : State) (k o : Nat) (x : Bytes) : (s.setCtx k o x).regs = s.regs := rfl
@[simp] theorem State.setCtx_ind (s : State) (k o : Nat) (x : Bytes) : (s.setCtx k o x).ind = s.ind := rfl
@[simp] theorem State.setCtx_cnt (s : State) (k o : Nat) (x : Bytes) : (s.setCtx k o x).cnt = s.cnt := rfl
@[simp] theorem State.setCtx_held (s : State) (k o : Nat) (x : Bytes) : (s.setCtx k o x).held = s.held := rfl
@[simp] theorem State.setCtx_glb (s : State) (k o : Nat) (x : Bytes) : (s.setCtx k o x).glb = s.glb := rfl
@[simp] theorem State.setCtx_flash (s : State) (k o : Nat) (x : Bytes) : (s.setCtx k o x).flash = s.flash := rfl
@[simp] theorem State.setCtx_way (s : State) (k o : Nat) (x : Bytes) : (s.setCtx k o x).way = s.way := rfl
@[simp] theorem State.setCtx_flt (s : State) (k o : Nat) (x : Bytes) : (s.setCtx k o x).flt = s.flt := rfl
@[simp] theorem State.setCtx_evc (s : State) (k o : Nat) (x : Bytes) : (s.setCtx k o x).evc = s.evc := rfl
@[simp] theorem State.setCtx_cpus (s : State) (k o : Nat) (x : Bytes) : (s.setCtx k o x).cpus = s.cpus := rfl
@[simp] theorem State.setCtx_dma (s : State) (k o : Nat) (x : Bytes) : (s.setCtx k o x).dma = s.dma := rfl
@[simp] theorem State.setCtx_hqe (s : State) (k o : Nat) (x : Bytes) : (s.setCtx k o x).hqe = s.hqe := rfl
@[simp] theorem State.setCtx_bpm (s : State) (k o : Nat) (x : Bytes) : (s.setCtx k o x).bpm = s.bpm := rfl
@[simp] theorem State.setCtx_mem (s : State) (k o : Nat) (x : Bytes) : (s.setCtx k o x).mem = s.mem := rfl
@[simp] theorem State.setCtx_swc (s : State) (k o : Nat) (x : Bytes) : (s.setCtx k o x).swc = s.swc := rfl
@[simp] theorem State.setCtx_tmg (s : State) (k o : Nat) (x : Bytes) : (s.setCtx k o x).tmg = s.tmg := rfl
@[simp] theorem State.setCtx_asm (s : State) (k o : Nat) (x : Bytes) : (s.setCtx k o x).asm = s.asm := rfl
@[simp] theorem State.setCtx_erelm (s : State) (k o : Nat) (x : Bytes) : (s.setCtx k o x).erelm = s.erelm := rfl
@[simp] theorem State.setCtx_prt (s : State) (k o : Nat) (x : Bytes) : (s.setCtx k o x).prt = s.prt := rfl
@[simp] theorem State.setCtx_cas (s : State) (k o : Nat) (x : Bytes) : (s.setCtx k o x).cas = s.cas := rfl
@[simp] theorem State.setCtx_sec (s : State) (k o : Nat) (x : Bytes) : (s.setCtx k o x).sec = s.sec := rfl
@[simp] theorem State.setCtx_plt (s : State) (k o : Nat) (x : Bytes) : (s.setCtx k o x).plt = s.plt := rfl
@[simp] theorem State.setCtx_lanes (s : State) (k o : Nat) (x : Bytes) : (s.setCtx k o x).lanes = s.lanes := rfl
@[simp] theorem State.setCtx_golden (s : State) (k o : Nat) (x : Bytes) : (s.setCtx k o x).golden = s.golden := rfl
@[simp] theorem State.setCtx_msc (s : State) (k o : Nat) (x : Bytes) : (s.setCtx k o x).msc = s.msc := rfl
@[simp] theorem State.setCtx_cmp (s : State) (k o : Nat) (x : Bytes) : (s.setCtx k o x).cmp = s.cmp := rfl
@[simp] theorem State.setCtx_opens (s : State) (k o : Nat) (x : Bytes) : (s.setCtx k o x).opens = s.opens := rfl
@[simp] theorem State.setCtx_flowQ (s : State) (k o : Nat) (x : Bytes) : (s.setCtx k o x).flowQ = s.flowQ := rfl
@[simp] theorem State.setCtx_sessQ (s : State) (k o : Nat) (x : Bytes) : (s.setCtx k o x).sessQ = s.sessQ := rfl

/-! ### setCf -/

@[simp] theorem State.setCf_pending (s : State) (k o n v : Nat) : (s.setCf k o n v).pending = s.pending := rfl
@[simp] theorem State.setCf_time (s : State) (k o n v : Nat) : (s.setCf k o n v).time = s.time := rfl
@[simp] theorem State.setCf_free (s : State) (k o n v : Nat) : (s.setCf k o n v).free = s.free := rfl
@[simp] theorem State.setCf_out (s : State) (k o n v : Nat) : (s.setCf k o n v).out = s.out := rfl
@[simp] theorem State.setCf_clk (s : State) (k o n v : Nat) : (s.setCf k o n v).clk = s.clk := rfl
@[simp] theorem State.setCf_units (s : State) (k o n v : Nat) : (s.setCf k o n v).units = s.units := rfl
@[simp] theorem State.setCf_regs (s : State) (k o n v : Nat) : (s.setCf k o n v).regs = s.regs := rfl
@[simp] theorem State.setCf_ind (s : State) (k o n v : Nat) : (s.setCf k o n v).ind = s.ind := rfl
@[simp] theorem State.setCf_cnt (s : State) (k o n v : Nat) : (s.setCf k o n v).cnt = s.cnt := rfl
@[simp] theorem State.setCf_held (s : State) (k o n v : Nat) : (s.setCf k o n v).held = s.held := rfl
@[simp] theorem State.setCf_glb (s : State) (k o n v : Nat) : (s.setCf k o n v).glb = s.glb := rfl
@[simp] theorem State.setCf_flash (s : State) (k o n v : Nat) : (s.setCf k o n v).flash = s.flash := rfl
@[simp] theorem State.setCf_way (s : State) (k o n v : Nat) : (s.setCf k o n v).way = s.way := rfl
@[simp] theorem State.setCf_flt (s : State) (k o n v : Nat) : (s.setCf k o n v).flt = s.flt := rfl
@[simp] theorem State.setCf_evc (s : State) (k o n v : Nat) : (s.setCf k o n v).evc = s.evc := rfl
@[simp] theorem State.setCf_cpus (s : State) (k o n v : Nat) : (s.setCf k o n v).cpus = s.cpus := rfl
@[simp] theorem State.setCf_dma (s : State) (k o n v : Nat) : (s.setCf k o n v).dma = s.dma := rfl
@[simp] theorem State.setCf_hqe (s : State) (k o n v : Nat) : (s.setCf k o n v).hqe = s.hqe := rfl
@[simp] theorem State.setCf_bpm (s : State) (k o n v : Nat) : (s.setCf k o n v).bpm = s.bpm := rfl
@[simp] theorem State.setCf_mem (s : State) (k o n v : Nat) : (s.setCf k o n v).mem = s.mem := rfl
@[simp] theorem State.setCf_swc (s : State) (k o n v : Nat) : (s.setCf k o n v).swc = s.swc := rfl
@[simp] theorem State.setCf_tmg (s : State) (k o n v : Nat) : (s.setCf k o n v).tmg = s.tmg := rfl
@[simp] theorem State.setCf_asm (s : State) (k o n v : Nat) : (s.setCf k o n v).asm = s.asm := rfl
@[simp] theorem State.setCf_erelm (s : State) (k o n v : Nat) : (s.setCf k o n v).erelm = s.erelm := rfl
@[simp] theorem State.setCf_prt (s : State) (k o n v : Nat) : (s.setCf k o n v).prt = s.prt := rfl
@[simp] theorem State.setCf_cas (s : State) (k o n v : Nat) : (s.setCf k o n v).cas = s.cas := rfl
@[simp] theorem State.setCf_sec (s : State) (k o n v : Nat) : (s.setCf k o n v).sec = s.sec := rfl
@[simp] theorem State.setCf_plt (s : State) (k o n v : Nat) : (s.setCf k o n v).plt = s.plt := rfl
@[simp] theorem State.setCf_lanes (s : State) (k o n v : Nat) : (s.setCf k o n v).lanes = s.lanes := rfl
@[simp] theorem State.setCf_golden (s : State) (k o n v : Nat) : (s.setCf k o n v).golden = s.golden := rfl
@[simp] theorem State.setCf_msc (s : State) (k o n v : Nat) : (s.setCf k o n v).msc = s.msc := rfl
@[simp] theorem State.setCf_cmp (s : State) (k o n v : Nat) : (s.setCf k o n v).cmp = s.cmp := rfl
@[simp] theorem State.setCf_opens (s : State) (k o n v : Nat) : (s.setCf k o n v).opens = s.opens := rfl
@[simp] theorem State.setCf_flowQ (s : State) (k o n v : Nat) : (s.setCf k o n v).flowQ = s.flowQ := rfl
@[simp] theorem State.setCf_sessQ (s : State) (k o n v : Nat) : (s.setCf k o n v).sessQ = s.sessQ := rfl

/-! ### setHealth -/

@[simp] theorem State.setHealth_pending (s : State) (k : Nat) : (s.setHealth k).pending = s.pending := rfl
@[simp] theorem State.setHealth_time (s : State) (k : Nat) : (s.setHealth k).time = s.time := rfl
@[simp] theorem State.setHealth_free (s : State) (k : Nat) : (s.setHealth k).free = s.free := rfl
@[simp] theorem State.setHealth_out (s : State) (k : Nat) : (s.setHealth k).out = s.out := rfl
@[simp] theorem State.setHealth_clk (s : State) (k : Nat) : (s.setHealth k).clk = s.clk := rfl
@[simp] theorem State.setHealth_units (s : State) (k : Nat) : (s.setHealth k).units = s.units := rfl
@[simp] theorem State.setHealth_regs (s : State) (k : Nat) : (s.setHealth k).regs = s.regs := rfl
@[simp] theorem State.setHealth_ind (s : State) (k : Nat) : (s.setHealth k).ind = s.ind := rfl
@[simp] theorem State.setHealth_cnt (s : State) (k : Nat) : (s.setHealth k).cnt = s.cnt := rfl
@[simp] theorem State.setHealth_held (s : State) (k : Nat) : (s.setHealth k).held = s.held := rfl
@[simp] theorem State.setHealth_flash (s : State) (k : Nat) : (s.setHealth k).flash = s.flash := rfl
@[simp] theorem State.setHealth_way (s : State) (k : Nat) : (s.setHealth k).way = s.way := rfl
@[simp] theorem State.setHealth_flt (s : State) (k : Nat) : (s.setHealth k).flt = s.flt := rfl
@[simp] theorem State.setHealth_evc (s : State) (k : Nat) : (s.setHealth k).evc = s.evc := rfl
@[simp] theorem State.setHealth_cpus (s : State) (k : Nat) : (s.setHealth k).cpus = s.cpus := rfl
@[simp] theorem State.setHealth_dma (s : State) (k : Nat) : (s.setHealth k).dma = s.dma := rfl
@[simp] theorem State.setHealth_hqe (s : State) (k : Nat) : (s.setHealth k).hqe = s.hqe := rfl
@[simp] theorem State.setHealth_bpm (s : State) (k : Nat) : (s.setHealth k).bpm = s.bpm := rfl
@[simp] theorem State.setHealth_mem (s : State) (k : Nat) : (s.setHealth k).mem = s.mem := rfl
@[simp] theorem State.setHealth_swc (s : State) (k : Nat) : (s.setHealth k).swc = s.swc := rfl
@[simp] theorem State.setHealth_tmg (s : State) (k : Nat) : (s.setHealth k).tmg = s.tmg := rfl
@[simp] theorem State.setHealth_asm (s : State) (k : Nat) : (s.setHealth k).asm = s.asm := rfl
@[simp] theorem State.setHealth_erelm (s : State) (k : Nat) : (s.setHealth k).erelm = s.erelm := rfl
@[simp] theorem State.setHealth_prt (s : State) (k : Nat) : (s.setHealth k).prt = s.prt := rfl
@[simp] theorem State.setHealth_cas (s : State) (k : Nat) : (s.setHealth k).cas = s.cas := rfl
@[simp] theorem State.setHealth_sec (s : State) (k : Nat) : (s.setHealth k).sec = s.sec := rfl
@[simp] theorem State.setHealth_plt (s : State) (k : Nat) : (s.setHealth k).plt = s.plt := rfl
@[simp] theorem State.setHealth_lanes (s : State) (k : Nat) : (s.setHealth k).lanes = s.lanes := rfl
@[simp] theorem State.setHealth_golden (s : State) (k : Nat) : (s.setHealth k).golden = s.golden := rfl
@[simp] theorem State.setHealth_msc (s : State) (k : Nat) : (s.setHealth k).msc = s.msc := rfl
@[simp] theorem State.setHealth_cmp (s : State) (k : Nat) : (s.setHealth k).cmp = s.cmp := rfl
@[simp] theorem State.setHealth_ctx (s : State) (k : Nat) : (s.setHealth k).ctx = s.ctx := rfl
@[simp] theorem State.setHealth_opens (s : State) (k : Nat) : (s.setHealth k).opens = s.opens := rfl
@[simp] theorem State.setHealth_flowQ (s : State) (k : Nat) : (s.setHealth k).flowQ = s.flowQ := rfl
@[simp] theorem State.setHealth_sessQ (s : State) (k : Nat) : (s.setHealth k).sessQ = s.sessQ := rfl

/-! ### emit -/

@[simp] theorem State.emit_pending (s : State) (o : Output) : (s.emit o).pending = s.pending := rfl
@[simp] theorem State.emit_time (s : State) (o : Output) : (s.emit o).time = s.time := rfl
@[simp] theorem State.emit_free (s : State) (o : Output) : (s.emit o).free = s.free := rfl
@[simp] theorem State.emit_clk (s : State) (o : Output) : (s.emit o).clk = s.clk := rfl
@[simp] theorem State.emit_units (s : State) (o : Output) : (s.emit o).units = s.units := rfl
@[simp] theorem State.emit_regs (s : State) (o : Output) : (s.emit o).regs = s.regs := rfl
@[simp] theorem State.emit_ind (s : State) (o : Output) : (s.emit o).ind = s.ind := rfl
@[simp] theorem State.emit_cnt (s : State) (o : Output) : (s.emit o).cnt = s.cnt := rfl
@[simp] theorem State.emit_held (s : State) (o : Output) : (s.emit o).held = s.held := rfl
@[simp] theorem State.emit_glb (s : State) (o : Output) : (s.emit o).glb = s.glb := rfl
@[simp] theorem State.emit_flash (s : State) (o : Output) : (s.emit o).flash = s.flash := rfl
@[simp] theorem State.emit_way (s : State) (o : Output) : (s.emit o).way = s.way := rfl
@[simp] theorem State.emit_flt (s : State) (o : Output) : (s.emit o).flt = s.flt := rfl
@[simp] theorem State.emit_evc (s : State) (o : Output) : (s.emit o).evc = s.evc := rfl
@[simp] theorem State.emit_cpus (s : State) (o : Output) : (s.emit o).cpus = s.cpus := rfl
@[simp] theorem State.emit_dma (s : State) (o : Output) : (s.emit o).dma = s.dma := rfl
@[simp] theorem State.emit_hqe (s : State) (o : Output) : (s.emit o).hqe = s.hqe := rfl
@[simp] theorem State.emit_bpm (s : State) (o : Output) : (s.emit o).bpm = s.bpm := rfl
@[simp] theorem State.emit_mem (s : State) (o : Output) : (s.emit o).mem = s.mem := rfl
@[simp] theorem State.emit_swc (s : State) (o : Output) : (s.emit o).swc = s.swc := rfl
@[simp] theorem State.emit_tmg (s : State) (o : Output) : (s.emit o).tmg = s.tmg := rfl
@[simp] theorem State.emit_asm (s : State) (o : Output) : (s.emit o).asm = s.asm := rfl
@[simp] theorem State.emit_erelm (s : State) (o : Output) : (s.emit o).erelm = s.erelm := rfl
@[simp] theorem State.emit_prt (s : State) (o : Output) : (s.emit o).prt = s.prt := rfl
@[simp] theorem State.emit_cas (s : State) (o : Output) : (s.emit o).cas = s.cas := rfl
@[simp] theorem State.emit_sec (s : State) (o : Output) : (s.emit o).sec = s.sec := rfl
@[simp] theorem State.emit_plt (s : State) (o : Output) : (s.emit o).plt = s.plt := rfl
@[simp] theorem State.emit_lanes (s : State) (o : Output) : (s.emit o).lanes = s.lanes := rfl
@[simp] theorem State.emit_golden (s : State) (o : Output) : (s.emit o).golden = s.golden := rfl
@[simp] theorem State.emit_msc (s : State) (o : Output) : (s.emit o).msc = s.msc := rfl
@[simp] theorem State.emit_cmp (s : State) (o : Output) : (s.emit o).cmp = s.cmp := rfl
@[simp] theorem State.emit_ctx (s : State) (o : Output) : (s.emit o).ctx = s.ctx := rfl
@[simp] theorem State.emit_opens (s : State) (o : Output) : (s.emit o).opens = s.opens := rfl
@[simp] theorem State.emit_flowQ (s : State) (o : Output) : (s.emit o).flowQ = s.flowQ := rfl
@[simp] theorem State.emit_sessQ (s : State) (o : Output) : (s.emit o).sessQ = s.sessQ := rfl

/-! ### draw -/

@[simp] theorem State.draw_pending (s : State) : (s.draw).pending = s.pending := rfl
@[simp] theorem State.draw_time (s : State) : (s.draw).time = s.time := rfl
@[simp] theorem State.draw_out (s : State) : (s.draw).out = s.out := rfl
@[simp] theorem State.draw_clk (s : State) : (s.draw).clk = s.clk := rfl
@[simp] theorem State.draw_units (s : State) : (s.draw).units = s.units := rfl
@[simp] theorem State.draw_regs (s : State) : (s.draw).regs = s.regs := rfl
@[simp] theorem State.draw_ind (s : State) : (s.draw).ind = s.ind := rfl
@[simp] theorem State.draw_cnt (s : State) : (s.draw).cnt = s.cnt := rfl
@[simp] theorem State.draw_held (s : State) : (s.draw).held = s.held := rfl
@[simp] theorem State.draw_glb (s : State) : (s.draw).glb = s.glb := rfl
@[simp] theorem State.draw_flash (s : State) : (s.draw).flash = s.flash := rfl
@[simp] theorem State.draw_way (s : State) : (s.draw).way = s.way := rfl
@[simp] theorem State.draw_flt (s : State) : (s.draw).flt = s.flt := rfl
@[simp] theorem State.draw_evc (s : State) : (s.draw).evc = s.evc := rfl
@[simp] theorem State.draw_cpus (s : State) : (s.draw).cpus = s.cpus := rfl
@[simp] theorem State.draw_dma (s : State) : (s.draw).dma = s.dma := rfl
@[simp] theorem State.draw_hqe (s : State) : (s.draw).hqe = s.hqe := rfl
@[simp] theorem State.draw_bpm (s : State) : (s.draw).bpm = s.bpm := rfl
@[simp] theorem State.draw_mem (s : State) : (s.draw).mem = s.mem := rfl
@[simp] theorem State.draw_swc (s : State) : (s.draw).swc = s.swc := rfl
@[simp] theorem State.draw_tmg (s : State) : (s.draw).tmg = s.tmg := rfl
@[simp] theorem State.draw_asm (s : State) : (s.draw).asm = s.asm := rfl
@[simp] theorem State.draw_erelm (s : State) : (s.draw).erelm = s.erelm := rfl
@[simp] theorem State.draw_prt (s : State) : (s.draw).prt = s.prt := rfl
@[simp] theorem State.draw_cas (s : State) : (s.draw).cas = s.cas := rfl
@[simp] theorem State.draw_sec (s : State) : (s.draw).sec = s.sec := rfl
@[simp] theorem State.draw_plt (s : State) : (s.draw).plt = s.plt := rfl
@[simp] theorem State.draw_lanes (s : State) : (s.draw).lanes = s.lanes := rfl
@[simp] theorem State.draw_golden (s : State) : (s.draw).golden = s.golden := rfl
@[simp] theorem State.draw_msc (s : State) : (s.draw).msc = s.msc := rfl
@[simp] theorem State.draw_cmp (s : State) : (s.draw).cmp = s.cmp := rfl
@[simp] theorem State.draw_ctx (s : State) : (s.draw).ctx = s.ctx := rfl
@[simp] theorem State.draw_opens (s : State) : (s.draw).opens = s.opens := rfl
@[simp] theorem State.draw_flowQ (s : State) : (s.draw).flowQ = s.flowQ := rfl
@[simp] theorem State.draw_sessQ (s : State) : (s.draw).sessQ = s.sessQ := rfl

/-! ### bumpU -/

@[simp] theorem State.bumpU_pending (s : State) (b u n k : Nat) : (s.bumpU b u n k).pending = s.pending := rfl
@[simp] theorem State.bumpU_time (s : State) (b u n k : Nat) : (s.bumpU b u n k).time = s.time := rfl
@[simp] theorem State.bumpU_free (s : State) (b u n k : Nat) : (s.bumpU b u n k).free = s.free := rfl
@[simp] theorem State.bumpU_out (s : State) (b u n k : Nat) : (s.bumpU b u n k).out = s.out := rfl
@[simp] theorem State.bumpU_clk (s : State) (b u n k : Nat) : (s.bumpU b u n k).clk = s.clk := rfl
@[simp] theorem State.bumpU_units (s : State) (b u n k : Nat) : (s.bumpU b u n k).units = s.units := rfl
@[simp] theorem State.bumpU_regs (s : State) (b u n k : Nat) : (s.bumpU b u n k).regs = s.regs := rfl
@[simp] theorem State.bumpU_ind (s : State) (b u n k : Nat) : (s.bumpU b u n k).ind = s.ind := rfl
@[simp] theorem State.bumpU_held (s : State) (b u n k : Nat) : (s.bumpU b u n k).held = s.held := rfl
@[simp] theorem State.bumpU_glb (s : State) (b u n k : Nat) : (s.bumpU b u n k).glb = s.glb := rfl
@[simp] theorem State.bumpU_flash (s : State) (b u n k : Nat) : (s.bumpU b u n k).flash = s.flash := rfl
@[simp] theorem State.bumpU_way (s : State) (b u n k : Nat) : (s.bumpU b u n k).way = s.way := rfl
@[simp] theorem State.bumpU_flt (s : State) (b u n k : Nat) : (s.bumpU b u n k).flt = s.flt := rfl
@[simp] theorem State.bumpU_evc (s : State) (b u n k : Nat) : (s.bumpU b u n k).evc = s.evc := rfl
@[simp] theorem State.bumpU_cpus (s : State) (b u n k : Nat) : (s.bumpU b u n k).cpus = s.cpus := rfl
@[simp] theorem State.bumpU_dma (s : State) (b u n k : Nat) : (s.bumpU b u n k).dma = s.dma := rfl
@[simp] theorem State.bumpU_hqe (s : State) (b u n k : Nat) : (s.bumpU b u n k).hqe = s.hqe := rfl
@[simp] theorem State.bumpU_bpm (s : State) (b u n k : Nat) : (s.bumpU b u n k).bpm = s.bpm := rfl
@[simp] theorem State.bumpU_mem (s : State) (b u n k : Nat) : (s.bumpU b u n k).mem = s.mem := rfl
@[simp] theorem State.bumpU_swc (s : State) (b u n k : Nat) : (s.bumpU b u n k).swc = s.swc := rfl
@[simp] theorem State.bumpU_tmg (s : State) (b u n k : Nat) : (s.bumpU b u n k).tmg = s.tmg := rfl
@[simp] theorem State.bumpU_asm (s : State) (b u n k : Nat) : (s.bumpU b u n k).asm = s.asm := rfl
@[simp] theorem State.bumpU_erelm (s : State) (b u n k : Nat) : (s.bumpU b u n k).erelm = s.erelm := rfl
@[simp] theorem State.bumpU_prt (s : State) (b u n k : Nat) : (s.bumpU b u n k).prt = s.prt := rfl
@[simp] theorem State.bumpU_cas (s : State) (b u n k : Nat) : (s.bumpU b u n k).cas = s.cas := rfl
@[simp] theorem State.bumpU_sec (s : State) (b u n k : Nat) : (s.bumpU b u n k).sec = s.sec := rfl
@[simp] theorem State.bumpU_plt (s : State) (b u n k : Nat) : (s.bumpU b u n k).plt = s.plt := rfl
@[simp] theorem State.bumpU_lanes (s : State) (b u n k : Nat) : (s.bumpU b u n k).lanes = s.lanes := rfl
@[simp] theorem State.bumpU_golden (s : State) (b u n k : Nat) : (s.bumpU b u n k).golden = s.golden := rfl
@[simp] theorem State.bumpU_msc (s : State) (b u n k : Nat) : (s.bumpU b u n k).msc = s.msc := rfl
@[simp] theorem State.bumpU_cmp (s : State) (b u n k : Nat) : (s.bumpU b u n k).cmp = s.cmp := rfl
@[simp] theorem State.bumpU_ctx (s : State) (b u n k : Nat) : (s.bumpU b u n k).ctx = s.ctx := rfl
@[simp] theorem State.bumpU_opens (s : State) (b u n k : Nat) : (s.bumpU b u n k).opens = s.opens := rfl
@[simp] theorem State.bumpU_flowQ (s : State) (b u n k : Nat) : (s.bumpU b u n k).flowQ = s.flowQ := rfl
@[simp] theorem State.bumpU_sessQ (s : State) (b u n k : Nat) : (s.bumpU b u n k).sessQ = s.sessQ := rfl

/-! ### bump -/

@[simp] theorem State.bump_pending (s : State) (b n : Nat) : (s.bump b n).pending = s.pending := rfl
@[simp] theorem State.bump_time (s : State) (b n : Nat) : (s.bump b n).time = s.time := rfl
@[simp] theorem State.bump_free (s : State) (b n : Nat) : (s.bump b n).free = s.free := rfl
@[simp] theorem State.bump_out (s : State) (b n : Nat) : (s.bump b n).out = s.out := rfl
@[simp] theorem State.bump_clk (s : State) (b n : Nat) : (s.bump b n).clk = s.clk := rfl
@[simp] theorem State.bump_units (s : State) (b n : Nat) : (s.bump b n).units = s.units := rfl
@[simp] theorem State.bump_regs (s : State) (b n : Nat) : (s.bump b n).regs = s.regs := rfl
@[simp] theorem State.bump_ind (s : State) (b n : Nat) : (s.bump b n).ind = s.ind := rfl
@[simp] theorem State.bump_held (s : State) (b n : Nat) : (s.bump b n).held = s.held := rfl
@[simp] theorem State.bump_glb (s : State) (b n : Nat) : (s.bump b n).glb = s.glb := rfl
@[simp] theorem State.bump_flash (s : State) (b n : Nat) : (s.bump b n).flash = s.flash := rfl
@[simp] theorem State.bump_way (s : State) (b n : Nat) : (s.bump b n).way = s.way := rfl
@[simp] theorem State.bump_flt (s : State) (b n : Nat) : (s.bump b n).flt = s.flt := rfl
@[simp] theorem State.bump_evc (s : State) (b n : Nat) : (s.bump b n).evc = s.evc := rfl
@[simp] theorem State.bump_cpus (s : State) (b n : Nat) : (s.bump b n).cpus = s.cpus := rfl
@[simp] theorem State.bump_dma (s : State) (b n : Nat) : (s.bump b n).dma = s.dma := rfl
@[simp] theorem State.bump_hqe (s : State) (b n : Nat) : (s.bump b n).hqe = s.hqe := rfl
@[simp] theorem State.bump_bpm (s : State) (b n : Nat) : (s.bump b n).bpm = s.bpm := rfl
@[simp] theorem State.bump_mem (s : State) (b n : Nat) : (s.bump b n).mem = s.mem := rfl
@[simp] theorem State.bump_swc (s : State) (b n : Nat) : (s.bump b n).swc = s.swc := rfl
@[simp] theorem State.bump_tmg (s : State) (b n : Nat) : (s.bump b n).tmg = s.tmg := rfl
@[simp] theorem State.bump_asm (s : State) (b n : Nat) : (s.bump b n).asm = s.asm := rfl
@[simp] theorem State.bump_erelm (s : State) (b n : Nat) : (s.bump b n).erelm = s.erelm := rfl
@[simp] theorem State.bump_prt (s : State) (b n : Nat) : (s.bump b n).prt = s.prt := rfl
@[simp] theorem State.bump_cas (s : State) (b n : Nat) : (s.bump b n).cas = s.cas := rfl
@[simp] theorem State.bump_sec (s : State) (b n : Nat) : (s.bump b n).sec = s.sec := rfl
@[simp] theorem State.bump_plt (s : State) (b n : Nat) : (s.bump b n).plt = s.plt := rfl
@[simp] theorem State.bump_lanes (s : State) (b n : Nat) : (s.bump b n).lanes = s.lanes := rfl
@[simp] theorem State.bump_golden (s : State) (b n : Nat) : (s.bump b n).golden = s.golden := rfl
@[simp] theorem State.bump_msc (s : State) (b n : Nat) : (s.bump b n).msc = s.msc := rfl
@[simp] theorem State.bump_cmp (s : State) (b n : Nat) : (s.bump b n).cmp = s.cmp := rfl
@[simp] theorem State.bump_ctx (s : State) (b n : Nat) : (s.bump b n).ctx = s.ctx := rfl
@[simp] theorem State.bump_opens (s : State) (b n : Nat) : (s.bump b n).opens = s.opens := rfl
@[simp] theorem State.bump_flowQ (s : State) (b n : Nat) : (s.bump b n).flowQ = s.flowQ := rfl
@[simp] theorem State.bump_sessQ (s : State) (b n : Nat) : (s.bump b n).sessQ = s.sessQ := rfl

end Sys2Proof.Machine
end

