-- ==== Sys2Proof/Laws/Events.lean ====
section
/-! SUPPORT. What raising an event and raising a fault can change: an event, the event concentrator, the host interface, the counters, what
is sent out and the count of free values drawn; a fault, the fault collector and module health beside them. -/

namespace Sys2Proof.Machine

open Sys2Proof

/-- `t` is `s` but for the event concentrator, the host interface, counters, output and drawn values. -/
def State.evOnly (s t : State) : Prop :=
  t = { s with evc := t.evc, hqe := t.hqe, cnt := t.cnt, out := t.out, free := t.free }

theorem State.evOnly_refl (s : State) : s.evOnly s := rfl

theorem State.evOnly_trans {s t u : State} (h : s.evOnly t) (k : t.evOnly u) : s.evOnly u := by
  unfold State.evOnly at *
  rw [k, h]

theorem State.evOnly_symm {s t : State} (h : s.evOnly t) : t.evOnly s := by
  unfold State.evOnly at *
  rw [h]

/-- What differs from `t` only so far differs from `s` as `t` does. -/
theorem State.evOnly_iff {s t u : State} (h : t.evOnly u) : s.evOnly u ↔ s.evOnly t :=
  ⟨fun k => State.evOnly_trans k (State.evOnly_symm h), fun k => State.evOnly_trans k h⟩

@[simp] theorem State.evOnly_self (s : State) : s.evOnly s ↔ True := ⟨fun _ => trivial, fun _ => rfl⟩
@[simp] theorem State.evOnly_ite (s a b : State) (c : Prop) [Decidable c] :
    s.evOnly (if c then a else b) ↔ if c then s.evOnly a else s.evOnly b := by split <;> rfl
@[simp] theorem State.evOnly_bumpU (s t : State) (b u n k : Nat) : s.evOnly (t.bumpU b u n k) ↔ s.evOnly t := State.evOnly_iff rfl
@[simp] theorem State.evOnly_bump (s t : State) (b n : Nat) : s.evOnly (t.bump b n) ↔ s.evOnly t := State.evOnly_iff rfl
@[simp] theorem State.evOnly_emit (s t : State) (o : Output) : s.evOnly (t.emit o) ↔ s.evOnly t := State.evOnly_iff rfl
@[simp] theorem State.evOnly_draw (s t : State)  : s.evOnly (t.draw) ↔ s.evOnly t := State.evOnly_iff rfl
@[simp] theorem State.evOnly_setSrc (s t : State) (n : Nat) (e : EvSrc) : s.evOnly (t.setSrc n e) ↔ s.evOnly t := State.evOnly_iff rfl
@[simp] theorem State.evOnly_setTgt (s t : State) (n : Nat) (e : EvTgt) : s.evOnly (t.setTgt n e) ↔ s.evOnly t := State.evOnly_iff rfl
@[simp] theorem State.evOnly_setEq (s t : State) (n : Nat) (e : EvQ) : s.evOnly (t.setEq n e) ↔ s.evOnly t := State.evOnly_iff rfl
@[simp] theorem State.evOnly_hqe (s t : State) (x : HqeSt) : s.evOnly { t with hqe := x } ↔ s.evOnly t := State.evOnly_iff rfl

@[simp] theorem State.evOnly_toHost (s t : State) (a : Nat) (b : Bytes) : s.evOnly (t.toHost a b) ↔ s.evOnly t := by
  refine State.evOnly_iff ?_
  unfold State.toHost
  repeat' split
  all_goals simp

@[simp] theorem State.evOnly_msix (s t : State) (v : Nat) : s.evOnly (t.msix v) ↔ s.evOnly t := by
  refine State.evOnly_iff ?_
  unfold State.msix
  repeat' split
  all_goals simp

@[simp] theorem State.evOnly_eqStat (s t : State) (q : Nat) : s.evOnly (t.eqStat q) ↔ s.evOnly t := by
  refine State.evOnly_iff ?_
  unfold State.eqStat
  dsimp only
  repeat' split
  all_goals simp

@[simp] theorem State.evOnly_eqSignal (s t : State) (q : Nat) : s.evOnly (t.eqSignal q) ↔ s.evOnly t := by
  refine State.evOnly_iff ?_
  unfold State.eqSignal
  dsimp only
  repeat' split
  all_goals simp

@[simp] theorem State.evOnly_eqLose (s t : State) (q : Nat) : s.evOnly (t.eqLose q) ↔ s.evOnly t := by
  refine State.evOnly_iff ?_
  unfold State.eqLose
  dsimp only
  repeat' split
  all_goals first | (simp; done) | simp only [State.evOnly_self, State.evOnly_hqe, State.evOnly_bump, State.evOnly_setEq, State.evOnly_eqStat]

@[simp] theorem State.evOnly_eqWrite (s t : State) (q src code context time detail : Nat) : s.evOnly (t.eqWrite q src code context time detail) ↔ s.evOnly t := by
  refine State.evOnly_iff ?_
  unfold State.eqWrite
  dsimp only
  repeat' split
  all_goals simp

@[simp] theorem State.evOnly_eqOverflowRec (s t : State) (q : Nat) : s.evOnly (t.eqOverflowRec q) ↔ s.evOnly t := by
  refine State.evOnly_iff ?_
  unfold State.eqOverflowRec
  dsimp only
  repeat' split
  all_goals simp

@[simp] theorem State.evOnly_eqPost (s t : State) (q src code context time detail : Nat) : s.evOnly (t.eqPost q src code context time detail) ↔ s.evOnly t := by
  refine State.evOnly_iff ?_
  unfold State.eqPost
  dsimp only
  repeat' split
  all_goals first | (simp; done) | simp only [State.evOnly_self, State.evOnly_hqe, State.evOnly_bump]

@[simp] theorem State.evOnly_signalNew (s t : State) (k n : Nat) : s.evOnly (t.signalNew k n) ↔ s.evOnly t := by
  refine State.evOnly_iff ?_
  unfold State.signalNew
  repeat' split
  all_goals simp

@[simp] theorem State.evOnly_signalLeft (s t : State) (k : Nat) : s.evOnly (t.signalLeft k) ↔ s.evOnly t := by
  refine State.evOnly_iff ?_
  unfold State.signalLeft
  repeat' split
  all_goals simp

@[simp] theorem State.evOnly_deliver (s t : State) (k n : Nat) : s.evOnly (t.deliver k n) ↔ s.evOnly t := by
  refine State.evOnly_iff ?_
  unfold State.deliver
  dsimp only
  repeat' split
  all_goals simp

@[simp] theorem State.evOnly_assign (s t : State) (n : Nat) : s.evOnly (t.assign n) ↔ s.evOnly t := by
  refine State.evOnly_iff ?_
  unfold State.assign
  repeat' split
  all_goals simp

@[simp] theorem State.evOnly_makePending (s t : State) (n code context detail : Nat) : s.evOnly (t.makePending n code context detail) ↔ s.evOnly t := by
  refine State.evOnly_iff ?_
  unfold State.makePending
  dsimp only
  repeat' split
  all_goals simp

@[simp] theorem State.evOnly_mergeEdge (s t : State) (n code context detail : Nat) : s.evOnly (t.mergeEdge n code context detail) ↔ s.evOnly t := by
  refine State.evOnly_iff ?_
  unfold State.mergeEdge
  dsimp only
  repeat' split
  all_goals simp

@[simp] theorem State.evOnly_assertSrc (s t : State) (n code context detail : Nat) : s.evOnly (t.assertSrc n code context detail) ↔ s.evOnly t := by
  refine State.evOnly_iff ?_
  unfold State.assertSrc
  dsimp only
  repeat' split
  all_goals simp

@[simp] theorem State.evOnly_event (s t : State) (e : Ev) (context detail : Nat) : s.evOnly (t.event e context detail) ↔ s.evOnly t := by
  refine State.evOnly_iff ?_
  unfold State.event
  repeat' split
  all_goals simp

@[simp] theorem State.evOnly_deassertSrc (s t : State) (n : Nat) : s.evOnly (t.deassertSrc n) ↔ s.evOnly t := by
  refine State.evOnly_iff ?_
  unfold State.deassertSrc
  dsimp only
  repeat' split
  all_goals simp

@[simp] theorem State.evOnly_release (s t : State) (n : Nat) : s.evOnly (t.release n) ↔ s.evOnly t := by
  refine State.evOnly_iff ?_
  unfold State.release
  dsimp only
  repeat' split
  all_goals simp

/-! ### What an event leaves as it was -/

@[simp] theorem State.event_pending (s : State) (e : Ev) (c d : Nat) : (s.event e c d).pending = s.pending := by
  have h : s.evOnly (s.event e c d) := by simp
  rw [h]
@[simp] theorem State.event_time (s : State) (e : Ev) (c d : Nat) : (s.event e c d).time = s.time := by
  have h : s.evOnly (s.event e c d) := by simp
  rw [h]
@[simp] theorem State.event_clk (s : State) (e : Ev) (c d : Nat) : (s.event e c d).clk = s.clk := by
  have h : s.evOnly (s.event e c d) := by simp
  rw [h]
@[simp] theorem State.event_units (s : State) (e : Ev) (c d : Nat) : (s.event e c d).units = s.units := by
  have h : s.evOnly (s.event e c d) := by simp
  rw [h]
@[simp] theorem State.event_regs (s : State) (e : Ev) (c d : Nat) : (s.event e c d).regs = s.regs := by
  have h : s.evOnly (s.event e c d) := by simp
  rw [h]
@[simp] theorem State.event_ind (s : State) (e : Ev) (c d : Nat) : (s.event e c d).ind = s.ind := by
  have h : s.evOnly (s.event e c d) := by simp
  rw [h]
@[simp] theorem State.event_held (s : State) (e : Ev) (c d : Nat) : (s.event e c d).held = s.held := by
  have h : s.evOnly (s.event e c d) := by simp
  rw [h]
@[simp] theorem State.event_glb (s : State) (e : Ev) (c d : Nat) : (s.event e c d).glb = s.glb := by
  have h : s.evOnly (s.event e c d) := by simp
  rw [h]
@[simp] theorem State.event_flash (s : State) (e : Ev) (c d : Nat) : (s.event e c d).flash = s.flash := by
  have h : s.evOnly (s.event e c d) := by simp
  rw [h]
@[simp] theorem State.event_way (s : State) (e : Ev) (c d : Nat) : (s.event e c d).way = s.way := by
  have h : s.evOnly (s.event e c d) := by simp
  rw [h]
@[simp] theorem State.event_flt (s : State) (e : Ev) (c d : Nat) : (s.event e c d).flt = s.flt := by
  have h : s.evOnly (s.event e c d) := by simp
  rw [h]
@[simp] theorem State.event_cpus (s : State) (e : Ev) (c d : Nat) : (s.event e c d).cpus = s.cpus := by
  have h : s.evOnly (s.event e c d) := by simp
  rw [h]
@[simp] theorem State.event_dma (s : State) (e : Ev) (c d : Nat) : (s.event e c d).dma = s.dma := by
  have h : s.evOnly (s.event e c d) := by simp
  rw [h]
@[simp] theorem State.event_bpm (s : State) (e : Ev) (c d : Nat) : (s.event e c d).bpm = s.bpm := by
  have h : s.evOnly (s.event e c d) := by simp
  rw [h]
@[simp] theorem State.event_mem (s : State) (e : Ev) (c d : Nat) : (s.event e c d).mem = s.mem := by
  have h : s.evOnly (s.event e c d) := by simp
  rw [h]
@[simp] theorem State.event_swc (s : State) (e : Ev) (c d : Nat) : (s.event e c d).swc = s.swc := by
  have h : s.evOnly (s.event e c d) := by simp
  rw [h]
@[simp] theorem State.event_tmg (s : State) (e : Ev) (c d : Nat) : (s.event e c d).tmg = s.tmg := by
  have h : s.evOnly (s.event e c d) := by simp
  rw [h]
@[simp] theorem State.event_asm (s : State) (e : Ev) (c d : Nat) : (s.event e c d).asm = s.asm := by
  have h : s.evOnly (s.event e c d) := by simp
  rw [h]
@[simp] theorem State.event_erelm (s : State) (e : Ev) (c d : Nat) : (s.event e c d).erelm = s.erelm := by
  have h : s.evOnly (s.event e c d) := by simp
  rw [h]
@[simp] theorem State.event_prt (s : State) (e : Ev) (c d : Nat) : (s.event e c d).prt = s.prt := by
  have h : s.evOnly (s.event e c d) := by simp
  rw [h]
@[simp] theorem State.event_cas (s : State) (e : Ev) (c d : Nat) : (s.event e c d).cas = s.cas := by
  have h : s.evOnly (s.event e c d) := by simp
  rw [h]
@[simp] theorem State.event_sec (s : State) (e : Ev) (c d : Nat) : (s.event e c d).sec = s.sec := by
  have h : s.evOnly (s.event e c d) := by simp
  rw [h]
@[simp] theorem State.event_plt (s : State) (e : Ev) (c d : Nat) : (s.event e c d).plt = s.plt := by
  have h : s.evOnly (s.event e c d) := by simp
  rw [h]
@[simp] theorem State.event_lanes (s : State) (e : Ev) (c d : Nat) : (s.event e c d).lanes = s.lanes := by
  have h : s.evOnly (s.event e c d) := by simp
  rw [h]
@[simp] theorem State.event_golden (s : State) (e : Ev) (c d : Nat) : (s.event e c d).golden = s.golden := by
  have h : s.evOnly (s.event e c d) := by simp
  rw [h]
@[simp] theorem State.event_msc (s : State) (e : Ev) (c d : Nat) : (s.event e c d).msc = s.msc := by
  have h : s.evOnly (s.event e c d) := by simp
  rw [h]
@[simp] theorem State.event_cmp (s : State) (e : Ev) (c d : Nat) : (s.event e c d).cmp = s.cmp := by
  have h : s.evOnly (s.event e c d) := by simp
  rw [h]
@[simp] theorem State.event_ctx (s : State) (e : Ev) (c d : Nat) : (s.event e c d).ctx = s.ctx := by
  have h : s.evOnly (s.event e c d) := by simp
  rw [h]
@[simp] theorem State.event_opens (s : State) (e : Ev) (c d : Nat) : (s.event e c d).opens = s.opens := by
  have h : s.evOnly (s.event e c d) := by simp
  rw [h]
@[simp] theorem State.event_flowQ (s : State) (e : Ev) (c d : Nat) : (s.event e c d).flowQ = s.flowQ := by
  have h : s.evOnly (s.event e c d) := by simp
  rw [h]
@[simp] theorem State.event_sessQ (s : State) (e : Ev) (c d : Nat) : (s.event e c d).sessQ = s.sessQ := by
  have h : s.evOnly (s.event e c d) := by simp
  rw [h]

/-! ### Faults -/

/-- `t` is `s` but for what an event changes, the fault collector and module health. -/
def State.fltOnly (s t : State) : Prop :=
  t = { s with evc := t.evc, hqe := t.hqe, cnt := t.cnt, out := t.out, free := t.free, flt := t.flt, glb := t.glb }

theorem State.fltOnly_trans {s t u : State} (h : s.fltOnly t) (k : t.fltOnly u) : s.fltOnly u := by
  unfold State.fltOnly at *
  rw [k, h]

theorem State.fltOnly_symm {s t : State} (h : s.fltOnly t) : t.fltOnly s := by
  unfold State.fltOnly at *
  rw [h]

theorem State.fltOnly_iff {s t u : State} (h : t.fltOnly u) : s.fltOnly u ↔ s.fltOnly t :=
  ⟨fun k => State.fltOnly_trans k (State.fltOnly_symm h), fun k => State.fltOnly_trans k h⟩

theorem State.fltOnly_of_evOnly {s t : State} (h : s.evOnly t) : s.fltOnly t := by
  unfold State.evOnly at h
  unfold State.fltOnly
  rw [h]

@[simp] theorem State.fltOnly_self (s : State) : s.fltOnly s ↔ True := ⟨fun _ => trivial, fun _ => rfl⟩
@[simp] theorem State.fltOnly_ite (s a b : State) (c : Prop) [Decidable c] :
    s.fltOnly (if c then a else b) ↔ if c then s.fltOnly a else s.fltOnly b := by split <;> rfl
@[simp] theorem State.fltOnly_event (s t : State) (e : Ev) (c d : Nat) : s.fltOnly (t.event e c d) ↔ s.fltOnly t :=
  State.fltOnly_iff (State.fltOnly_of_evOnly (by simp))
@[simp] theorem State.fltOnly_flt (s t : State) (x : FltSt) : s.fltOnly { t with flt := x } ↔ s.fltOnly t := State.fltOnly_iff rfl
@[simp] theorem State.fltOnly_emit (s t : State) (o : Output) : s.fltOnly (t.emit o) ↔ s.fltOnly t := State.fltOnly_iff rfl
@[simp] theorem State.fltOnly_bump (s t : State) (b n : Nat) : s.fltOnly (t.bump b n) ↔ s.fltOnly t := State.fltOnly_iff rfl
@[simp] theorem State.fltOnly_setFltSrc (s t : State) (n : Nat) (f : FltSrc) : s.fltOnly (t.setFltSrc n f) ↔ s.fltOnly t := State.fltOnly_iff rfl
@[simp] theorem State.fltOnly_setHealth (s t : State) (b : Nat) : s.fltOnly (t.setHealth b) ↔ s.fltOnly t := State.fltOnly_iff rfl
@[simp] theorem State.fltOnly_logFault (s t : State) (a b c d e : Nat) : s.fltOnly (t.logFault a b c d e) ↔ s.fltOnly t := State.fltOnly_iff rfl
@[simp] theorem State.fltOnly_assertReplace (s t : State)  : s.fltOnly (t.assertReplace) ↔ s.fltOnly t := State.fltOnly_iff rfl

@[simp] theorem State.fltOnly_react (s t : State) (src unit cfg : Nat) : s.fltOnly (t.react src unit cfg) ↔ s.fltOnly t := by
  refine State.fltOnly_iff ?_
  unfold State.react
  dsimp only
  repeat' split
  all_goals simp

@[simp] theorem State.fltOnly_raiseWith (s t : State) (src unit part : Nat) (forced : Bool) : s.fltOnly (t.raiseWith src unit part forced) ↔ s.fltOnly t := by
  refine State.fltOnly_iff ?_
  unfold State.raiseWith
  dsimp only
  repeat' split
  all_goals simp

@[simp] theorem State.fltOnly_raise (s t : State) (src unit part : Nat) : s.fltOnly (t.raise src unit part) ↔ s.fltOnly t := by
  refine State.fltOnly_iff ?_
  unfold State.raise
  repeat' split
  all_goals simp

@[simp] theorem State.fltOnly_decideFault (s t : State) (src unit : Nat) (lasting : Bool) : s.fltOnly (t.decideFault src unit lasting) ↔ s.fltOnly t := by
  refine State.fltOnly_iff ?_
  unfold State.decideFault
  dsimp only
  repeat' split
  all_goals simp

/-! ### What a raise leaves as it was -/

@[simp] theorem State.raiseWith_pending (s : State) (a b c : Nat) (k : Bool) : (s.raiseWith a b c k).pending = s.pending := by
  have h : s.fltOnly (s.raiseWith a b c k) := by simp
  rw [h]
@[simp] theorem State.raise_pending (s : State) (a b c : Nat) : (s.raise a b c).pending = s.pending := State.raiseWith_pending s a b c false
@[simp] theorem State.raiseWith_time (s : State) (a b c : Nat) (k : Bool) : (s.raiseWith a b c k).time = s.time := by
  have h : s.fltOnly (s.raiseWith a b c k) := by simp
  rw [h]
@[simp] theorem State.raise_time (s : State) (a b c : Nat) : (s.raise a b c).time = s.time := State.raiseWith_time s a b c false
@[simp] theorem State.raiseWith_clk (s : State) (a b c : Nat) (k : Bool) : (s.raiseWith a b c k).clk = s.clk := by
  have h : s.fltOnly (s.raiseWith a b c k) := by simp
  rw [h]
@[simp] theorem State.raise_clk (s : State) (a b c : Nat) : (s.raise a b c).clk = s.clk := State.raiseWith_clk s a b c false
@[simp] theorem State.raiseWith_units (s : State) (a b c : Nat) (k : Bool) : (s.raiseWith a b c k).units = s.units := by
  have h : s.fltOnly (s.raiseWith a b c k) := by simp
  rw [h]
@[simp] theorem State.raise_units (s : State) (a b c : Nat) : (s.raise a b c).units = s.units := State.raiseWith_units s a b c false
@[simp] theorem State.raiseWith_regs (s : State) (a b c : Nat) (k : Bool) : (s.raiseWith a b c k).regs = s.regs := by
  have h : s.fltOnly (s.raiseWith a b c k) := by simp
  rw [h]
@[simp] theorem State.raise_regs (s : State) (a b c : Nat) : (s.raise a b c).regs = s.regs := State.raiseWith_regs s a b c false
@[simp] theorem State.raiseWith_ind (s : State) (a b c : Nat) (k : Bool) : (s.raiseWith a b c k).ind = s.ind := by
  have h : s.fltOnly (s.raiseWith a b c k) := by simp
  rw [h]
@[simp] theorem State.raise_ind (s : State) (a b c : Nat) : (s.raise a b c).ind = s.ind := State.raiseWith_ind s a b c false
@[simp] theorem State.raiseWith_held (s : State) (a b c : Nat) (k : Bool) : (s.raiseWith a b c k).held = s.held := by
  have h : s.fltOnly (s.raiseWith a b c k) := by simp
  rw [h]
@[simp] theorem State.raise_held (s : State) (a b c : Nat) : (s.raise a b c).held = s.held := State.raiseWith_held s a b c false
@[simp] theorem State.raiseWith_flash (s : State) (a b c : Nat) (k : Bool) : (s.raiseWith a b c k).flash = s.flash := by
  have h : s.fltOnly (s.raiseWith a b c k) := by simp
  rw [h]
@[simp] theorem State.raise_flash (s : State) (a b c : Nat) : (s.raise a b c).flash = s.flash := State.raiseWith_flash s a b c false
@[simp] theorem State.raiseWith_way (s : State) (a b c : Nat) (k : Bool) : (s.raiseWith a b c k).way = s.way := by
  have h : s.fltOnly (s.raiseWith a b c k) := by simp
  rw [h]
@[simp] theorem State.raise_way (s : State) (a b c : Nat) : (s.raise a b c).way = s.way := State.raiseWith_way s a b c false
@[simp] theorem State.raiseWith_cpus (s : State) (a b c : Nat) (k : Bool) : (s.raiseWith a b c k).cpus = s.cpus := by
  have h : s.fltOnly (s.raiseWith a b c k) := by simp
  rw [h]
@[simp] theorem State.raise_cpus (s : State) (a b c : Nat) : (s.raise a b c).cpus = s.cpus := State.raiseWith_cpus s a b c false
@[simp] theorem State.raiseWith_dma (s : State) (a b c : Nat) (k : Bool) : (s.raiseWith a b c k).dma = s.dma := by
  have h : s.fltOnly (s.raiseWith a b c k) := by simp
  rw [h]
@[simp] theorem State.raise_dma (s : State) (a b c : Nat) : (s.raise a b c).dma = s.dma := State.raiseWith_dma s a b c false
@[simp] theorem State.raiseWith_bpm (s : State) (a b c : Nat) (k : Bool) : (s.raiseWith a b c k).bpm = s.bpm := by
  have h : s.fltOnly (s.raiseWith a b c k) := by simp
  rw [h]
@[simp] theorem State.raise_bpm (s : State) (a b c : Nat) : (s.raise a b c).bpm = s.bpm := State.raiseWith_bpm s a b c false
@[simp] theorem State.raiseWith_mem (s : State) (a b c : Nat) (k : Bool) : (s.raiseWith a b c k).mem = s.mem := by
  have h : s.fltOnly (s.raiseWith a b c k) := by simp
  rw [h]
@[simp] theorem State.raise_mem (s : State) (a b c : Nat) : (s.raise a b c).mem = s.mem := State.raiseWith_mem s a b c false
@[simp] theorem State.raiseWith_swc (s : State) (a b c : Nat) (k : Bool) : (s.raiseWith a b c k).swc = s.swc := by
  have h : s.fltOnly (s.raiseWith a b c k) := by simp
  rw [h]
@[simp] theorem State.raise_swc (s : State) (a b c : Nat) : (s.raise a b c).swc = s.swc := State.raiseWith_swc s a b c false
@[simp] theorem State.raiseWith_tmg (s : State) (a b c : Nat) (k : Bool) : (s.raiseWith a b c k).tmg = s.tmg := by
  have h : s.fltOnly (s.raiseWith a b c k) := by simp
  rw [h]
@[simp] theorem State.raise_tmg (s : State) (a b c : Nat) : (s.raise a b c).tmg = s.tmg := State.raiseWith_tmg s a b c false
@[simp] theorem State.raiseWith_asm (s : State) (a b c : Nat) (k : Bool) : (s.raiseWith a b c k).asm = s.asm := by
  have h : s.fltOnly (s.raiseWith a b c k) := by simp
  rw [h]
@[simp] theorem State.raise_asm (s : State) (a b c : Nat) : (s.raise a b c).asm = s.asm := State.raiseWith_asm s a b c false
@[simp] theorem State.raiseWith_erelm (s : State) (a b c : Nat) (k : Bool) : (s.raiseWith a b c k).erelm = s.erelm := by
  have h : s.fltOnly (s.raiseWith a b c k) := by simp
  rw [h]
@[simp] theorem State.raise_erelm (s : State) (a b c : Nat) : (s.raise a b c).erelm = s.erelm := State.raiseWith_erelm s a b c false
@[simp] theorem State.raiseWith_prt (s : State) (a b c : Nat) (k : Bool) : (s.raiseWith a b c k).prt = s.prt := by
  have h : s.fltOnly (s.raiseWith a b c k) := by simp
  rw [h]
@[simp] theorem State.raise_prt (s : State) (a b c : Nat) : (s.raise a b c).prt = s.prt := State.raiseWith_prt s a b c false
@[simp] theorem State.raiseWith_cas (s : State) (a b c : Nat) (k : Bool) : (s.raiseWith a b c k).cas = s.cas := by
  have h : s.fltOnly (s.raiseWith a b c k) := by simp
  rw [h]
@[simp] theorem State.raise_cas (s : State) (a b c : Nat) : (s.raise a b c).cas = s.cas := State.raiseWith_cas s a b c false
@[simp] theorem State.raiseWith_sec (s : State) (a b c : Nat) (k : Bool) : (s.raiseWith a b c k).sec = s.sec := by
  have h : s.fltOnly (s.raiseWith a b c k) := by simp
  rw [h]
@[simp] theorem State.raise_sec (s : State) (a b c : Nat) : (s.raise a b c).sec = s.sec := State.raiseWith_sec s a b c false
@[simp] theorem State.raiseWith_plt (s : State) (a b c : Nat) (k : Bool) : (s.raiseWith a b c k).plt = s.plt := by
  have h : s.fltOnly (s.raiseWith a b c k) := by simp
  rw [h]
@[simp] theorem State.raise_plt (s : State) (a b c : Nat) : (s.raise a b c).plt = s.plt := State.raiseWith_plt s a b c false
@[simp] theorem State.raiseWith_lanes (s : State) (a b c : Nat) (k : Bool) : (s.raiseWith a b c k).lanes = s.lanes := by
  have h : s.fltOnly (s.raiseWith a b c k) := by simp
  rw [h]
@[simp] theorem State.raise_lanes (s : State) (a b c : Nat) : (s.raise a b c).lanes = s.lanes := State.raiseWith_lanes s a b c false
@[simp] theorem State.raiseWith_golden (s : State) (a b c : Nat) (k : Bool) : (s.raiseWith a b c k).golden = s.golden := by
  have h : s.fltOnly (s.raiseWith a b c k) := by simp
  rw [h]
@[simp] theorem State.raise_golden (s : State) (a b c : Nat) : (s.raise a b c).golden = s.golden := State.raiseWith_golden s a b c false
@[simp] theorem State.raiseWith_msc (s : State) (a b c : Nat) (k : Bool) : (s.raiseWith a b c k).msc = s.msc := by
  have h : s.fltOnly (s.raiseWith a b c k) := by simp
  rw [h]
@[simp] theorem State.raise_msc (s : State) (a b c : Nat) : (s.raise a b c).msc = s.msc := State.raiseWith_msc s a b c false
@[simp] theorem State.raiseWith_cmp (s : State) (a b c : Nat) (k : Bool) : (s.raiseWith a b c k).cmp = s.cmp := by
  have h : s.fltOnly (s.raiseWith a b c k) := by simp
  rw [h]
@[simp] theorem State.raise_cmp (s : State) (a b c : Nat) : (s.raise a b c).cmp = s.cmp := State.raiseWith_cmp s a b c false
@[simp] theorem State.raiseWith_ctx (s : State) (a b c : Nat) (k : Bool) : (s.raiseWith a b c k).ctx = s.ctx := by
  have h : s.fltOnly (s.raiseWith a b c k) := by simp
  rw [h]
@[simp] theorem State.raise_ctx (s : State) (a b c : Nat) : (s.raise a b c).ctx = s.ctx := State.raiseWith_ctx s a b c false
@[simp] theorem State.raiseWith_opens (s : State) (a b c : Nat) (k : Bool) : (s.raiseWith a b c k).opens = s.opens := by
  have h : s.fltOnly (s.raiseWith a b c k) := by simp
  rw [h]
@[simp] theorem State.raise_opens (s : State) (a b c : Nat) : (s.raise a b c).opens = s.opens := State.raiseWith_opens s a b c false
@[simp] theorem State.raiseWith_flowQ (s : State) (a b c : Nat) (k : Bool) : (s.raiseWith a b c k).flowQ = s.flowQ := by
  have h : s.fltOnly (s.raiseWith a b c k) := by simp
  rw [h]
@[simp] theorem State.raise_flowQ (s : State) (a b c : Nat) : (s.raise a b c).flowQ = s.flowQ := State.raiseWith_flowQ s a b c false
@[simp] theorem State.raiseWith_sessQ (s : State) (a b c : Nat) (k : Bool) : (s.raiseWith a b c k).sessQ = s.sessQ := by
  have h : s.fltOnly (s.raiseWith a b c k) := by simp
  rw [h]
@[simp] theorem State.raise_sessQ (s : State) (a b c : Nat) : (s.raise a b c).sessQ = s.sessQ := State.raiseWith_sessQ s a b c false

/-! ### Counters: an event counts in EVC and HQE only -/

/-- The counters of every block but HQE and EVC read in `t` as in `s`. -/
def State.cntKept (s t : State) : Prop :=
  ∀ k : Nat, (k < 131072 ∨ 196608 ≤ k) → Tbl.get 0 t.cnt k = Tbl.get 0 s.cnt k

theorem State.cntKept_iff {s t u : State} (h : t.cntKept u) : s.cntKept u ↔ s.cntKept t :=
  ⟨fun k i hi => by rw [← h i hi, k i hi], fun k i hi => by rw [h i hi, k i hi]⟩

@[simp] theorem State.cntKept_self (s : State) : s.cntKept s ↔ True := ⟨fun _ => trivial, fun _ _ _ => rfl⟩
@[simp] theorem State.cntKept_ite (s a b : State) (c : Prop) [Decidable c] :
    s.cntKept (if c then a else b) ↔ if c then s.cntKept a else s.cntKept b := by split <;> rfl

theorem State.cntKept_bumpU {s t : State} {b u n k : Nat} (h : 131072 ≤ cntKey b u n) (h2 : cntKey b u n < 196608) :
    s.cntKept (t.bumpU b u n k) ↔ s.cntKept t := by
  refine State.cntKept_iff (fun i hi => ?_)
  show Tbl.get 0 (Tbl.put _ _ _) i = _
  rw [Tbl.get_put_other]
  omega

@[simp] theorem State.cntKept_bumpHqe (s t : State) (n : Nat) (h : n < 64) : s.cntKept (t.bump bHQE n) ↔ s.cntKept t :=
  State.cntKept_bumpU (by unfold cntKey bHQE; omega) (by unfold cntKey bHQE; omega)
@[simp] theorem State.cntKept_bumpEvc (s t : State) (n : Nat) (h : n < 64) : s.cntKept (t.bump bEVC n) ↔ s.cntKept t :=
  State.cntKept_bumpU (by unfold cntKey bEVC; omega) (by unfold cntKey bEVC; omega)
@[simp] theorem State.cntKept_emit (s t : State) (o : Output) : s.cntKept (t.emit o) ↔ s.cntKept t := State.cntKept_iff (fun _ _ => rfl)
@[simp] theorem State.cntKept_draw (s t : State)  : s.cntKept (t.draw) ↔ s.cntKept t := State.cntKept_iff (fun _ _ => rfl)
@[simp] theorem State.cntKept_setSrc (s t : State) (n : Nat) (e : EvSrc) : s.cntKept (t.setSrc n e) ↔ s.cntKept t := State.cntKept_iff (fun _ _ => rfl)
@[simp] theorem State.cntKept_setTgt (s t : State) (n : Nat) (e : EvTgt) : s.cntKept (t.setTgt n e) ↔ s.cntKept t := State.cntKept_iff (fun _ _ => rfl)
@[simp] theorem State.cntKept_setEq (s t : State) (n : Nat) (e : EvQ) : s.cntKept (t.setEq n e) ↔ s.cntKept t := State.cntKept_iff (fun _ _ => rfl)
@[simp] theorem State.cntKept_setFltSrc (s t : State) (n : Nat) (f : FltSrc) : s.cntKept (t.setFltSrc n f) ↔ s.cntKept t := State.cntKept_iff (fun _ _ => rfl)
@[simp] theorem State.cntKept_setHealth (s t : State) (b : Nat) : s.cntKept (t.setHealth b) ↔ s.cntKept t := State.cntKept_iff (fun _ _ => rfl)
@[simp] theorem State.cntKept_logFault (s t : State) (a b c d e : Nat) : s.cntKept (t.logFault a b c d e) ↔ s.cntKept t := State.cntKept_iff (fun _ _ => rfl)
@[simp] theorem State.cntKept_assertReplace (s t : State)  : s.cntKept (t.assertReplace) ↔ s.cntKept t := State.cntKept_iff (fun _ _ => rfl)
@[simp] theorem State.cntKept_hqe (s t : State) (x : HqeSt) : s.cntKept { t with hqe := x } ↔ s.cntKept t := State.cntKept_iff (fun _ _ => rfl)
@[simp] theorem State.cntKept_flt (s t : State) (x : FltSt) : s.cntKept { t with flt := x } ↔ s.cntKept t := State.cntKept_iff (fun _ _ => rfl)

@[simp] theorem State.cntKept_toHost (s t : State) (a : Nat) (b : Bytes) : s.cntKept (t.toHost a b) ↔ s.cntKept t := by
  refine State.cntKept_iff ?_
  unfold State.toHost
  repeat' split
  all_goals simp

@[simp] theorem State.cntKept_msix (s t : State) (v : Nat) : s.cntKept (t.msix v) ↔ s.cntKept t := by
  refine State.cntKept_iff ?_
  unfold State.msix
  repeat' split
  all_goals simp

@[simp] theorem State.cntKept_eqStat (s t : State) (q : Nat) : s.cntKept (t.eqStat q) ↔ s.cntKept t := by
  refine State.cntKept_iff ?_
  unfold State.eqStat
  dsimp only
  repeat' split
  all_goals simp

@[simp] theorem State.cntKept_eqSignal (s t : State) (q : Nat) : s.cntKept (t.eqSignal q) ↔ s.cntKept t := by
  refine State.cntKept_iff ?_
  unfold State.eqSignal
  dsimp only
  repeat' split
  all_goals simp

@[simp] theorem State.cntKept_eqLose (s t : State) (q : Nat) : s.cntKept (t.eqLose q) ↔ s.cntKept t := by
  refine State.cntKept_iff ?_
  unfold State.eqLose
  dsimp only
  repeat' split
  all_goals first | (simp; done) | (simp only [State.cntKept_self, State.cntKept_hqe, State.cntKept_eqStat, State.cntKept_setEq, State.cntKept_bumpHqe _ _ 3 (by omega)]; done)

@[simp] theorem State.cntKept_eqWrite (s t : State) (q src code context time detail : Nat) : s.cntKept (t.eqWrite q src code context time detail) ↔ s.cntKept t := by
  refine State.cntKept_iff ?_
  unfold State.eqWrite
  dsimp only
  repeat' split
  all_goals simp

@[simp] theorem State.cntKept_eqOverflowRec (s t : State) (q : Nat) : s.cntKept (t.eqOverflowRec q) ↔ s.cntKept t := by
  refine State.cntKept_iff ?_
  unfold State.eqOverflowRec
  dsimp only
  repeat' split
  all_goals simp

@[simp] theorem State.cntKept_eqPost (s t : State) (q src code context time detail : Nat) : s.cntKept (t.eqPost q src code context time detail) ↔ s.cntKept t := by
  refine State.cntKept_iff ?_
  unfold State.eqPost
  dsimp only
  repeat' split
  all_goals first | (simp; done) | (simp only [State.cntKept_self, State.cntKept_hqe, State.cntKept_bumpHqe _ _ 3 (by omega)]; done)

@[simp] theorem State.cntKept_signalNew (s t : State) (k n : Nat) : s.cntKept (t.signalNew k n) ↔ s.cntKept t := by
  refine State.cntKept_iff ?_
  unfold State.signalNew
  repeat' split
  all_goals simp

@[simp] theorem State.cntKept_signalLeft (s t : State) (k : Nat) : s.cntKept (t.signalLeft k) ↔ s.cntKept t := by
  refine State.cntKept_iff ?_
  unfold State.signalLeft
  repeat' split
  all_goals simp

@[simp] theorem State.cntKept_deliver (s t : State) (k n : Nat) : s.cntKept (t.deliver k n) ↔ s.cntKept t := by
  refine State.cntKept_iff ?_
  unfold State.deliver
  dsimp only
  repeat' split
  all_goals simp

@[simp] theorem State.cntKept_assign (s t : State) (n : Nat) : s.cntKept (t.assign n) ↔ s.cntKept t := by
  refine State.cntKept_iff ?_
  unfold State.assign
  repeat' split
  all_goals simp

@[simp] theorem State.cntKept_makePending (s t : State) (n code context detail : Nat) : s.cntKept (t.makePending n code context detail) ↔ s.cntKept t := by
  refine State.cntKept_iff ?_
  unfold State.makePending
  dsimp only
  repeat' split
  all_goals simp

@[simp] theorem State.cntKept_mergeEdge (s t : State) (n code context detail : Nat) : s.cntKept (t.mergeEdge n code context detail) ↔ s.cntKept t := by
  refine State.cntKept_iff ?_
  unfold State.mergeEdge
  dsimp only
  repeat' split
  all_goals simp

@[simp] theorem State.cntKept_assertSrc (s t : State) (n code context detail : Nat) : s.cntKept (t.assertSrc n code context detail) ↔ s.cntKept t := by
  refine State.cntKept_iff ?_
  unfold State.assertSrc
  dsimp only
  repeat' split
  all_goals simp

@[simp] theorem State.cntKept_event (s t : State) (e : Ev) (context detail : Nat) : s.cntKept (t.event e context detail) ↔ s.cntKept t := by
  refine State.cntKept_iff ?_
  unfold State.event
  repeat' split
  all_goals simp

@[simp] theorem State.cntKept_deassertSrc (s t : State) (n : Nat) : s.cntKept (t.deassertSrc n) ↔ s.cntKept t := by
  refine State.cntKept_iff ?_
  unfold State.deassertSrc
  dsimp only
  repeat' split
  all_goals simp

@[simp] theorem State.cntKept_release (s t : State) (n : Nat) : s.cntKept (t.release n) ↔ s.cntKept t := by
  refine State.cntKept_iff ?_
  unfold State.release
  dsimp only
  repeat' split
  all_goals simp

@[simp] theorem State.cntKept_react (s t : State) (src unit cfg : Nat) : s.cntKept (t.react src unit cfg) ↔ s.cntKept t := by
  refine State.cntKept_iff ?_
  unfold State.react
  dsimp only
  repeat' split
  all_goals simp

@[simp] theorem State.cntKept_raiseWith (s t : State) (src unit part : Nat) (forced : Bool) : s.cntKept (t.raiseWith src unit part forced) ↔ s.cntKept t := by
  refine State.cntKept_iff ?_
  unfold State.raiseWith
  dsimp only
  repeat' split
  all_goals simp

@[simp] theorem State.cntKept_raise (s t : State) (src unit part : Nat) : s.cntKept (t.raise src unit part) ↔ s.cntKept t := by
  refine State.cntKept_iff ?_
  unfold State.raise
  repeat' split
  all_goals simp

@[simp] theorem State.cntKept_decideFault (s t : State) (src unit : Nat) (lasting : Bool) : s.cntKept (t.decideFault src unit lasting) ↔ s.cntKept t := by
  refine State.cntKept_iff ?_
  unfold State.decideFault
  dsimp only
  repeat' split
  all_goals simp

/-- A counter of another block reads after an event as before. -/
theorem State.cntOf_event (s : State) (e : Ev) (c d b u n : Nat) (h : cntKey b u n < 131072 ∨ 196608 ≤ cntKey b u n) :
    (s.event e c d).cntOf b u n = s.cntOf b u n := by
  have k : s.cntKept (s.event e c d) := by simp
  exact k _ h

/-- A counter of another block reads after a raise as before. -/
theorem State.cntOf_raise (s : State) (x y z b u n : Nat) (h : cntKey b u n < 131072 ∨ 196608 ≤ cntKey b u n) :
    (s.raise x y z).cntOf b u n = s.cntOf b u n := by
  have k : s.cntKept (s.raise x y z) := by simp
  exact k _ h

end Sys2Proof.Machine
end

