-- ==== Sys2Proof/Laws/Memory.lean ====
section
/-! SUPPORT. The byte memories (context records, module memory, flash): each write keeps the canonical form, what was written reads back, and
every other byte reads as before. -/

namespace Sys2Proof.Machine

open Sys2Proof

/-! ### The canonical form -/

theorem ctxWrite_wf (b : Bytes) : ∀ (t : Tbl Byte) (k : Nat), Tbl.wfSet 0 t = true → Tbl.wfSet 0 (ctxWrite t k b) = true := by
  induction b with
  | nil => intro t k h; exact h
  | cons x r ih => intro t k h; exact ih _ _ (Tbl.wfSet_set k x h)

theorem memPut_wf (b : Bytes) : ∀ (t : Tbl Byte) (k : Nat), Tbl.wfSet 0 t = true → Tbl.wfSet 0 (memPut t k b) = true := by
  induction b with
  | nil => intro t k h; exact h
  | cons x r ih => intro t k h; exact ih _ _ (Tbl.wfSet_set k x h)

theorem flashPut_wf (b : Bytes) : ∀ (t : Tbl Byte) (k : Nat), Tbl.wfSet 0xFF t = true → Tbl.wfSet 0xFF (flashPut t k b) = true := by
  induction b with
  | nil => intro t k h; exact h
  | cons x r ih => intro t k h; exact ih _ _ (Tbl.wfSet_set k x h)

theorem State.memoryWf_iff (s : State) :
    s.memoryWf = true ↔ Tbl.wfSet 0 s.mem.dram = true ∧ Tbl.wfSet 0 s.ctx = true ∧ Tbl.wfSet 0xFF s.flash.data = true := by
  simp [State.memoryWf, and_assoc]

theorem State.setCtx_wf {s : State} (r off : Nat) (b : Bytes) (h : s.memoryWf = true) : (s.setCtx r off b).memoryWf = true := by
  rw [State.memoryWf_iff] at h ⊢
  exact ⟨h.1, ctxWrite_wf b _ _ h.2.1, h.2.2⟩

theorem State.setCf_wf {s : State} (r off n v : Nat) (h : s.memoryWf = true) : (s.setCf r off n v).memoryWf = true :=
  State.setCtx_wf _ _ _ h

theorem poisonWrite_wf (m : MemSt) (a n : Nat) (h : Tbl.wfSet 0 m.dram = true) : Tbl.wfSet 0 (poisonWrite m a n).dram = true := by
  unfold poisonWrite
  generalize blocksOf a n = l
  generalize zeros 32 = z
  induction l generalizing m with
  | nil => exact h
  | cons k r ih =>
    rw [List.foldl_cons]
    by_cases p : (Tbl.find m.poison k).isSome = true
    · by_cases q : a ≤ 32 * k ∧ 32 * k + 32 ≤ a + n
      · simp only [p, q, and_self, if_true]
        exact ih _ h
      · simp only [p, q, if_true, if_false]
        exact ih _ (memPut_wf z m.dram (32 * k) h)
    · simp only [p]
      exact ih _ h

theorem State.store_wf {s : State} (a : Nat) (b : Bytes) (h : s.memoryWf = true) : (s.store a b).memoryWf = true := by
  rw [State.memoryWf_iff] at h ⊢
  have k := memPut_wf b (poisonWrite s.mem a b.length).dram a (poisonWrite_wf s.mem a b.length h.1)
  exact ⟨k, h.2⟩

theorem State.writeFlash_wf {s : State} (a n : Nat) (b : Bytes) (h : s.memoryWf = true) : (s.writeFlash a n b).memoryWf = true := by
  rw [State.memoryWf_iff] at h ⊢
  exact ⟨h.1, h.2.1, flashPut_wf b _ _ (Tbl.wfSet_filter _ h.2.2)⟩

/-! ### Reading after writing -/

theorem ctxWrite_other (b : Bytes) : ∀ (t : Tbl Byte) (k i : Nat), (i < k ∨ k + b.length ≤ i) →
    Tbl.get 0 (ctxWrite t k b) i = Tbl.get 0 t i := by
  induction b with
  | nil => intro t k i _; rfl
  | cons x r ih =>
    intro t k i h
    simp only [List.length_cons] at h
    rw [ctxWrite, ih _ _ _ (by omega), Tbl.get_set_other 0 t x (by omega)]

theorem ctxWrite_at (b : Bytes) : ∀ (t : Tbl Byte) (k i : Nat) (h : i < b.length), Tbl.get 0 (ctxWrite t k b) (k + i) = b[i] := by
  induction b with
  | nil => intro t k i h; simp at h
  | cons x r ih =>
    intro t k i h
    cases i with
    | zero => rw [ctxWrite, ctxWrite_other _ _ _ _ (by omega), Nat.add_zero, Tbl.get_set_same]; rfl
    | succ j =>
      have := ih (Tbl.set 0 t k x) (k + 1) j (by simpa using h)
      rw [ctxWrite, show k + (j + 1) = k + 1 + j by omega, this]; rfl

theorem memPut_other (b : Bytes) : ∀ (t : Tbl Byte) (k i : Nat), (i < k ∨ k + b.length ≤ i) →
    Tbl.get 0 (memPut t k b) i = Tbl.get 0 t i := by
  induction b with
  | nil => intro t k i _; rfl
  | cons x r ih =>
    intro t k i h
    simp only [List.length_cons] at h
    rw [memPut, ih _ _ _ (by omega), Tbl.get_set_other 0 t x (by omega)]

/-- The bytes stored read back. -/
theorem memGet_memPut (b : Bytes) : ∀ (t : Tbl Byte) (a : Nat), memGet (memPut t a b) a b.length = b := by
  induction b with
  | nil => intro t a; rfl
  | cons x r ih =>
    intro t a
    simp only [List.length_cons, memGet, memPut]
    rw [ih, memPut_other _ _ _ _ (by omega), Tbl.get_set_same]

/-- A field of a record outside the bytes written reads as before. -/
theorem State.cf_setCtx_other (s : State) (r off r2 : Nat) (b : Bytes) (n : Nat) : ∀ off2 : Nat,
    (r2 * 256 + off2 + n ≤ r * 256 + off ∨ r * 256 + off + b.length ≤ r2 * 256 + off2) →
    (s.setCtx r off b).cf r2 off2 n = s.cf r2 off2 n := by
  induction n with
  | zero => intro off2 _; rfl
  | succ n ih =>
    intro off2 h
    simp only [State.cf]
    rw [ih (off2 + 1) (by omega)]
    congr 2
    exact ctxWrite_other b s.ctx _ _ (by omega)

end Sys2Proof.Machine
end

