-- ==== Sys2Proof/Laws/Run.lean ====
section
/-! SUPPORT. How a command runs: what `act` answers, and that a quiet state has nothing to settle. -/

namespace Sys2Proof.Machine

open Sys2Proof

/-- A command whose part does not work changes nothing. -/
theorem act_false (f : State → State) (s : State) : act false f s = .next s := rfl

/-- A command whose part works has its effect, and what that leaves to be settled. -/
theorem act_true (f : State → State) (s : State) : act true f s = .next (s.after (f s)) := rfl

/-- Whatever the command: nothing changes, or its effect is settled and the queue is as it was. -/
theorem act_form (ok : Bool) (f : State → State) (s : State) :
    act ok f s = .next s ∨ ∃ u : State, act ok f s = .next (s.after u) := by
  cases ok
  · exact Or.inl rfl
  · exact Or.inr ⟨_, rfl⟩

theorem exec_form (c : Instr) (s : State) : exec c s = .next s ∨ ∃ u : State, exec c s = .next (s.after u) := by
  cases c <;> (simp only [exec]; exact act_form _ _ _)

theorem act_goesOn (ok : Bool) (f : State → State) (s : State) : goesOn (act ok f s) = true := rfl

/-- A fold that leaves the state as it is at every member leaves it as it is. -/
theorem foldl_fix {α : Type} (f : State → α → State) (s : State) (l : List α) (h : ∀ e ∈ l, f s e = s) : l.foldl f s = s := by
  induction l with
  | nil => rfl
  | cons a r ih =>
    rw [List.foldl_cons, h a (by simp)]
    exact ih (fun e he => h e (by simp [he]))

theorem idleLane_fix {s : State} {l : Nat} (h : s.laneIsIdle l = (s.lane l).idleAt.isSome) : s.idleLane l = s := by
  unfold State.idleLane
  cases hi : (s.lane l).idleAt <;> simp_all

theorem idlePipe_fix {s : State} {p : Nat} (h : s.pipeIsIdle p = (s.pipe p).idleAt.isSome) : s.idlePipe p = s := by
  unfold State.idlePipe
  cases hi : (s.pipe p).idleAt <;> simp_all

/-- A quiet state is settled: the end of a command changes nothing in it. -/
theorem quiet_ended {s : State} (h : s.quiet = true) : s.ended = s := by
  unfold State.quiet at h
  simp only [Bool.and_eq_true, Bool.not_eq_true', List.isEmpty_iff, Option.isNone_iff_eq_none, List.all_eq_true,
    Bool.or_eq_true, beq_iff_eq] at h
  obtain ⟨⟨⟨⟨⟨⟨⟨⟨⟨⟨⟨⟨⟨⟨⟨⟨hr, hq⟩, hc⟩, hp⟩, hb⟩, hd⟩, hl⟩, ht⟩, hdr⟩, hla⟩, hli⟩, hpi⟩, hqu⟩, hpe⟩, hin⟩, hrx⟩, hld⟩ := h
  have e1 : s.settle = s := by
    unfold State.settle
    have a : s.resetUnits = s := by simp [State.resetUnits, hr]
    have b : s.rtxPressure = s := by simp [State.rtxPressure, hb, hp]
    have c : s.dmaPace = s := by
      unfold State.dmaPace
      refine foldl_fix _ s _ ?_
      intro e he
      have := hd e he
      rcases this with h | h <;> simp [h]
    have d : s.dueLayouts = s := by simp [State.dueLayouts, hl]
    simp [a, b, c, d, State.replaceDue, State.resetDue, hc, hq]
  have e2 : s.detourWatch = s := by simp [State.detourWatch, ht]
  have e3 : s.drainStep = s := by
    unfold State.drainStep
    refine foldl_fix _ s _ ?_
    intro e he
    rcases hla e he with h | h
    · simp [h]
    · cases hx : s.heldIn (s.leadFor e.1) <;> simp [h, hx]
  have e4 : s.drainsDone = s := by simp [State.drainsDone, hdr]
  have e5 : s.closeEmpty = s := by
    unfold State.closeEmpty
    have : s.tmg.queues.filter (fun e => e.2.draining && e.2.copies.isEmpty) = [] := by
      rw [List.filter_eq_nil_iff]
      intro e he
      simpa using hqu e he
    rw [this]; rfl
  have e6 : s.idleTimers = s := by
    unfold State.idleTimers
    have a : s.lanes.foldl (fun (s : State) (e : Nat × Lane) => s.idleLane e.1) s = s :=
      foldl_fix _ s _ (fun e he => idleLane_fix (hli e he))
    have b : s.cmp.pipes.foldl (fun (s : State) (e : Nat × Pipe) => s.idlePipe e.1) s = s :=
      foldl_fix _ s _ (fun e he => idlePipe_fix (hpi e he))
    simp only [a, b]
  have e7 : s.evalPend = s := by
    unfold State.evalPend
    rw [hpe]; simp
  have e8 : s.casServe = s := by
    have h0 : ({ s with cas := { s.cas with inbox := [] } } : State) = s := by
      rw [← hin]
    unfold State.casServe
    simp only [hin, List.foldl_nil, h0]
    refine foldl_fix _ s _ ?_
    intro e he
    obtain ⟨⟨h1, h2⟩, h3⟩ := hrx e he
    simp [h1, h2, h3, State.mediaTake, State.linkReturn]
  have e9 : s.detourAnswer = s := by simp [State.detourAnswer, hld]
  simp [State.ended, e1, e2, e3, e4, e5, e6, e7, e8, e9]

end Sys2Proof.Machine
end

