-- ==== Sys2Proof/Tests/Slice0.lean ====
section
/-! SUPPORT. Tests: ill-formed commands that WellFormed refuses; a few commands against values the manual states; and for every
statement with hypotheses a witness, a concrete state and operands that meet them together (each clause's own in turn, at a
boundary of its range where it has one). Where an image must verify under an opaque signature the witness is relative to it. -/

namespace Sys2Proof.Tests

open Sys2Proof Sys2Proof.Machine

/-! ### WellFormed -/

def hdr0 : ErelmHdr :=
  { port := 0, srcAddr := [10, 0, 0, 2], srcUdp := 5000, version := 1, session := 0, seq := 1, ack := 0, unrel := false,
    tag := none, lengthOk := true, payload := [] }

def badHdr : ErelmHdr := { hdr0 with srcAddr := [10, 0, 0] }

def badTag : ErelmHdr := { hdr0 with tag := some [0] }

def hello0 : HelloBody :=
  { endpointId := 7, nonceE := 1, width := 1920, height := 1080, totalLines := 1125, rateNum := 60, rateDen := 1, caps := 0,
    hevcLevel := 0, h264Level := 0, bufRows := 4, decodeUs := 100, bsBytes := 0 }

def status0 : StatusBody := { lateTotal := 0, decodeErrors := 0, bsOverruns := 0, temperature := 0, panel := 0, uptime := 0 }

def twice : BoardInputs := { bootSel := 0, cascId := 0, chanFail := [3, 3], laneFail := [] }

def twiceLane : BoardInputs := { bootSel := 0, cascId := 0, chanFail := [], laneFail := [5, 5] }

def board0 : BoardInputs := { bootSel := 0, cascId := 0, chanFail := [], laneFail := [] }

def rx0 : RxFrame :=
  { length := 0, fcsOk := true, vlan := none, pcp := 0, dstAddr := [], srcAddr := [], dstUdp := 0, ssrc := 0, erelm := false,
    bytes := [] }

def entry0 : SubEntry :=
  { sseq := 1, opcode := 1, flags := 0, tag := 0, target := 0, addr := 0, len := 0, params := List.replicate 28 0 }

def train0 : TrainResult :=
  { ok := true, lanesBad := 0, peerId := 1, peerLink := 0, peerCasc := 1, peerDigest := [], peerDetourOf := false }

def lf0 : LinkFrame :=
  { crcOk := true, vc := 0, nak := false, seq := 0, ack := 4095, crVc := 0, crCount := 0, payload := [] }

def cmd1 : CmdRef := { ring := 0, sseq := 1 }

theorem illFormed_starts : WellFormed (.vinRise twice) = false ∧ WellFormed (.resetN 10 twiceLane) = false ∧
    WellFormed (.thermalRestart twice) = false ∧ WellFormed (.wakeN 50 twiceLane) = false ∧
    WellFormed (.mcPatch cmd1 none [1, 1]) = false := by decide

theorem illFormed_erelm : WellFormed (.hello badHdr hello0) = false ∧ WellFormed (.openAck badTag 0) = false ∧
    WellFormed (.marker badHdr 0 0 0 0) = false ∧ WellFormed (.rowAck badHdr 0 0 0 false 0) = false ∧
    WellFormed (.loss badTag []) = false ∧ WellFormed (.refreshReq badHdr 0) = false ∧
    WellFormed (.keepalive badHdr none) = false ∧ WellFormed (.status badTag status0) = false ∧
    WellFormed (.close badHdr 0) = false := by decide

theorem illFormed_words : WellFormed (.steerDisable 0x80000000) = false ∧ WellFormed (.bpmLogClr 0) = false ∧
    WellFormed (.thaw 5 0) = false ∧ WellFormed (.dmaGo 16 0xC0000000) = false ∧ WellFormed (.dmaResume 16 0x80000000) = false ∧
    WellFormed (.dmaBuserrClear 0) = false ∧ WellFormed (.recoveryProgram 0xA0000000) = false ∧
    WellFormed (.recoveryVerify 0x80000000) = false ∧ WellFormed (.stateReq 5) = false ∧ WellFormed (.fltSrcForce 0 0) = false ∧
    WellFormed (.fltStickyClear 0 1) = false ∧ WellFormed (.selfchkInject 1) = false := by decide

theorem illFormed_registers : WellFormed (.ignwClear (.block 0) 1) = false ∧ WellFormed (.oobClear (.block 0) 1) = false ∧
    WellFormed (.rwsWrite 2 0) = false ∧ WellFormed (.registerWrite 0x4000000 0) = false ∧ WellFormed (.badaccClear 1) = false ∧
    WellFormed (.indErrClear .msc 1) = false ∧ WellFormed (.snapshot 1) = false := by decide

theorem illFormed_mdio : WellFormed (.mdioC22Write 0 0x8C000000) = false ∧ WellFormed (.mdioC22Read 0 0x84000000) = false ∧
    WellFormed (.mdioC45Address 0 0x80000000) = false ∧ WellFormed (.mdioC45Write 0 0x84000000) = false ∧
    WellFormed (.mdioC45ReadInc 0 0x94000000) = false ∧ WellFormed (.mdioC45Read 0 0x1C000000) = false := by decide

theorem illFormed_shapes : WellFormed (.frameReceived 0 { rx0 with length := 1 }) = false ∧
    WellFormed (.casTrainStepComplete 0 train0) = false ∧
    WellFormed (.linkFrameReceived 0 { lf0 with payload := List.replicate 257 0 }) = false ∧
    WellFormed (.pauseFrameReceived 0 { pfc := true, classes := 1, quanta := [5] }) = false ∧
    WellFormed (.oscReadout []) = false ∧ WellFormed (.perstDeassert true 5 4) = false ∧
    WellFormed (.perstDeassert true 1 3) = false ∧ WellFormed (.sqTail 0 1 [{ entry0 with params := [] }]) = false := by decide +kernel

theorem wellFormed_some : WellFormed (.vinRise board0) = true ∧ WellFormed (.hello hdr0 hello0) = true ∧
    WellFormed (.mdioC45ReadInc 0 0x98000000) = true ∧ WellFormed (.registerWrite 0x50 7) = true ∧
    WellFormed (.sqTail 0 1 [entry0]) = true := by decide

/-! ### States -/

/-- A supplied module with firmware running: the blocks, lanes 0 and 1, ports 0 and 1, DMA channels 0 and 16 and links 0 and 1 run;
SVP, and the session processors 0 and 1. -/
def up : State :=
  { units := ((List.range 17) ++ [32, 33, 128, 129, 384, 400, 480, 481]).map (fun k => (k, { en := true, running := true })),
    plt := { up := true, firmware := true, blockOn := [(0, true)] },
    cpus := [(0, { ph := .run, services := 32 }), (1, { ph := .run, services := 1 }), (2, { ph := .run, services := 2 })] }

/-- The same at a module time in ns. -/
def upAt (ns : Nat) : State := { up with time := ns * 2 ^ 16 }

/-- With a command consumed on ring 0. -/
def withCmd (e : SubEntry) (s : State) : State :=
  { s with hqe := { s.hqe with bme := true, attached := true,
                                rings := [(0, { ph := .run, kind := 0, size := 16, consumed := 1, flight := [{ ord := 0, e := e }] })] } }

/-- What the command leaves. -/
def run (c : Instr) (s : State) : State :=
  match exec c s with
  | .next t => t
  | _ => s

theorem up_lives : up.live = true ∧ up.cmdsRun = true ∧ up.serves 0 = true ∧ up.barTakes 0x50 = true ∧ up.barServes 0x40 = true ∧
    (∀ b : Fin 17, up.works b.val = true) ∧ up.mscWorks = true ∧ up.memAwake = true ∧ up.spWorks 0 = true ∧ up.pcie = true ∧
    up.quiet = true := by decide

/-! ### The step, and the register interface -/

/-- The front command; the two idle clauses; and where each part works: the module in RUN with every block running, in recovery, without
supply, and after a thermal shutdown. -/
theorem wit_StepRunsTheFrontCommand : ({ up with pending := [.bpmLogPop] } : State).pending = [.bpmLogPop] ∧
    State.reset.pending = [] ∧ State.reset.plt.up = false ∧
    (let s := up.setUnit bSWC {}; (s.pending = [] ∧ s.plt.up = true ∧ s.sec.detour = none ∧ s.golden.patching = false ∧
        s.running bSWC = false ∧ s.mem.chans = [] ∧ s.opens = []) ∧
      (∀ l : Nat, (s.lane l).power ≠ 2 ∧ (s.lane l).sig = 0)) ∧
    (up.live = true ∧ up.cmdsRun = true ∧ up.pcie = true ∧ up.mscWorks = true ∧ up.works bSWC = true ∧ up.works bTMG = true ∧
      up.works bMSC = true ∧ up.works bASM = true ∧ up.spWorks 0 = true ∧ up.memAwake = true ∧
      (up.live && Tbl.get false up.plt.blockOn ((0 : PortId).val / 8)) = true ∧ (up.plt.up && !up.flt.safe) = true ∧
      (up.live && decide (((up.setEq 0 { ph := .run }).eq 0).ph ≠ .free)) = true) ∧
    ((∀ a ∈ [0xB00040, 0x1000000, 0x200000, 0xD00048, 0x900058, 0x800064, 0x800040, 0x68, 0x600040, 0x400048, 0x30, 0x200048, 0x501000],
        up.barTakes a = true) ∧
      (∀ a ∈ [0x1000000, 0x800000, 0x40, 0x501000], up.barServes a = true) ∧ up.hdrTakes (.block 13) = true ∧
      (∀ w ∈ [IndId.msc, .tmg, .port 0, .cas, .lane 0, .mem, .hqe, .evc],
        up.barTakes (indBase (indKey w)) = true ∧ up.barServes (indBase (indKey w)) = true) ∧
      (up.barTakes 0xA02000 && (pairDesc 0xA02000).isSome) = true ∧ up.dmaMay 16 = true) ∧
    (let r : State := { up with plt := { up := true, recovery := true } };
      (r.plt.up && r.plt.recovery) = true ∧ (r.barTakes 0x300080 && r.plt.recovery && tb 0xA0000000 31 && decide (fld 0xA0000000 29 2 = 1)) = true ∧
      (r.barTakes 0x300080 && r.plt.recovery && tb 0x80000000 31 && decide (fld 0x80000000 29 2 = 0)) = true) ∧
    ((!State.reset.plt.up && !State.reset.plt.thermal) = true ∧ ({ up with plt := { thermal := true } } : State).plt.thermal = true ∧
      (up.plt.up || decide (up.plt.cur = 4)) = true) :=
  ⟨by decide, by decide, by decide, ⟨by decide, fun _ => ⟨(by decide : (0 : Nat) ≠ 2), rfl⟩⟩, by decide, by decide, by decide, by decide⟩

theorem wit_SettledStateStands : (∃ t : State, exec (.registerWrite 0x50 7) up = .next (up.after t) ∧ t.quiet = true) :=
  ⟨{ up with regs := [(0x50, 7)] }, rfl, by decide⟩

/-- The header's clauses, at MSC's header: enabled; stopping; stopped; with a deferred start. -/
theorem wit_HeaderCommandsAnswer :
    let u : UnitId := .block 13
    let st := fun h : UnitHdr => up.setUnit 13 h
    let ok := fun s : State => s.hdrTakes u && !isFwDma (unitKey u) && !isPortKey (unitKey u)
    ok up = true ∧ tb (0x80000000 : W32).toNat 31 = true ∧
    (ok up = true ∧ ((up.ctlWakes 13).unit 13).en = true) ∧
    (let w := (st { running := true }).ctlWakes 13; ok (st { running := true }) = true ∧ (w.unit 13).en = false ∧
      (w.unit 13).running = true) ∧
    (let w := (st {}).ctlWakes 13; ok (st {}) = true ∧ (w.unit 13).en = false ∧ (w.unit 13).running = false ∧ w.pltHolds 13 = false ∧
      w.portHeld 13 = false) ∧
    (ok (st { enPending := true, running := true }) = true ∧
      (((st { enPending := true, running := true }).ctlWakes 13).unit 13).enPending = true) ∧
    (let s := st { running := true }; s.plt.up = true ∧ (s.unit 13).running = true ∧ (s.unit 13).en = false ∧
      s.mayStop 13 = true) ∧
    (up.hdrTakes (.port 0) = true ∧ (up.port 0).mapped = false ∧ up.noPorts = false) ∧ 13 ∉ [bHQE, bDMA, bMEM, bTMG, bCAS] := by
  decide

theorem wit_StaticFieldsKeepTheirValues : ∃ d f, (0 : Nat) < 2 ^ 32 ∧ regDesc 0x900040 = some d ∧ f ∈ d.fields ∧ f.static = true :=
  ⟨_, _, by decide, rfl, List.mem_cons_self, rfl⟩

/-- An aligned and an unaligned address; event queue 0's coalescing within its bounds, at the bound, while HQE runs and while it does
not, and one past the bound. -/
theorem wit_RegisterWritesAnswer :
    let s : State := { up with way := { up.way with bounds := [(0x0501, (1, 64)), (0x0502, (0, 1000))] } }
    let d : PairDesc := { ids := [(0x0501, 0, 8), (0x0502, 8, 16)], width := 24, reset := 1, key := bHQE }
    let ok := fun (s : State) (v : Nat) => d.ids.all (fun e => s.inBounds e.1 (fld v e.2.1 e.2.2))
    up.barTakes 0x50 = true ∧ (up.barTakes 2 = true ∧ 2 % 4 ≠ 0) ∧ pairDesc 0x408000 = some d ∧ s.barTakes 0x408000 = true ∧
    (ok s 64 = true ∧ s.pairRuns 0x408000 bHQE = true) ∧
    (ok (s.setUnit bHQE {}) 64 = true ∧ (s.setUnit bHQE {}).pairRuns 0x408000 bHQE = false) ∧ ok s 65 = false := by decide

/-- A busy window; an idle one at the first and past the last word of a writable space, in a locked record, and in a read-only
space; and a prefetch that ends. -/
theorem wit_IndirectPairsAnswer :
    let k := indKey .msc
    let at_ := fun (k : Nat) (x : IndSt) => up.setInd k x
    up.barTakes (indBase k) = true ∧ ((at_ k { busy := true }).indSt k).busy = true ∧ (up.indSt k).busy = false ∧
    (up.spaceOf k 0 = some (2621440, true) ∧ (0 : Nat) < 2621440 ∧ up.indLocked k 0 = false) ∧
    (((at_ k { waddr := 2621440 }).indSt k).waddr = 2621440 ∧ (2621440 : Nat) ≤ 2621440) ∧
    (({ up with opens := [(0, 1)] } : State).indLocked k 0 = true) ∧
    (up.spaceOf (indKey (.lane 0)) 1 = some (8192, false) ∧ (at_ (indKey (.lane 0)) { space := 1 }).barTakes
      (indBase (indKey (.lane 0))) = true) ∧
    ((at_ k { busy := true }).plt.up = true ∧ ((at_ k { busy := true }).indSt k).post = none ∧
      ((at_ k { busy := true }).indSt k).held = []) ∧ tb (0x40000000 : W32).toNat 30 = true := by decide

theorem wit_PostedRecordWordReadsBack : (0xFFFFFFFF : Nat) < 2 ^ 32 ∧
    ((255 : Nat) < 256 ∧ (256 * 0 + 255 < 4 * 64 ∨ 4 * 64 + 4 ≤ 256 * 0 + 255)) ∧
    ((4 : Nat) < 256 ∧ (256 * 1 + 4 < 4 * 64 ∨ 4 * 64 + 4 ≤ 256 * 1 + 4)) := by decide

/-- Snapshots of the last block, of all, and one refused. -/
theorem wit_GlbCommandsAnswer : up.pcie = true ∧ up.barTakes 0x68 = true ∧ up.barTakes 0x30 = true ∧ up.barServes 0x40 = true ∧
    up.barServes 0 = true ∧ (up.barServes (0xD00100 + 8 * 7) = true ∧ up.barServes (0xD00104 + 8 * 7) = true) ∧
    (tb (0x80000010 : W32).toNat 31 = true ∧ up.glb.snapBusy = false ∧ fld (0x80000010 : W32).toNat 0 8 ≤ 16) ∧
    fld (0x800000FF : W32).toNat 0 8 = 255 ∧
    (16 < fld (0x80000011 : W32).toNat 0 8 ∧ fld (0x80000011 : W32).toNat 0 8 ≠ 255) ∧
    (let s : State := { up with glb := { snapBusy := true }, cnt := [(3, 5)] };
      s.plt.up = true ∧ s.glb.snapBusy = true ∧ s.cnt.wf = true ∧ Tbl.find s.cnt 3 ≠ none ∧ s.glb.snapFor = 255) := by decide

/-- A word written to GLB_SCRATCH reads back (R72); an unaligned write only counts (R56); MSC's space has 2,621,440 words (R68). -/
theorem test_scratch : Tbl.get 0 (run (.registerWrite 0x50 0xCAFE) up).regs 0x50 = 0xCAFE ∧
    (run (.registerWrite 0x52 1) up).glb.badCount = 1 ∧ Tbl.get 0 (run (.registerWrite 0x52 1) up).regs 0x50 = 0 := by decide

/-- EN written 0 stops the unit but RUNNING stays until the stop completes; EN written 1 meanwhile is deferred (R61). -/
theorem test_enable :
    let s := run (.ctlEnWrite (.block 13) 0) up
    (s.unit 13).en = false ∧ (s.unit 13).running = true ∧
    ((run (.ctlEnWrite (.block 13) 1) s).unit 13).enPending = true ∧ ((run (.ctlEnWrite (.block 13) 1) s).unit 13).en = false := by
  decide

/-- GLB_TIME_LO's read latches the high word: at 2^32 + 5 ns it returns 5, and the latch holds 1 (R72). -/
theorem test_time : (run .timeRead (upAt (2 ^ 32 + 5))).out = [.regRead 0x40 5] ∧
    (run .timeRead (upAt (2 ^ 32 + 5))).glb.timeHi = 1 := by decide

/-- Reset values as the tables of R58, R72, R100, R145, R182, R307, R336, R351, R370 and R391 give them; a reserved address reads zero
(R6); and a read with an effect is a command. -/
theorem test_reads :
    let s : State := { plt := { up := true } }
    s.readBar 0x0 = some 0x9256B100 ∧ s.readBar 0x30 = some 0xFF ∧ s.readBar 0x400044 = some 2000 ∧ s.readBar 0x700040 = some 0x18C00040 ∧
    s.readBar 0x700048 = some 0xF40000 ∧ s.readBar 0x800040 = some 0xFFFFFFFF ∧ s.readBar 0xA02004 = some 1250000 ∧
    s.readBar 0xB00030 = some 0xFFFF ∧ s.readBar 0xD00048 = some 0x80641014 ∧ s.readBar 0xD00400 = some 0x60640064 ∧
    s.readBar 0xD00404 = some 4 ∧ s.readBar 0x1000024 = some 0xFFFF0002 ∧ s.readBar 0x1000280 = some 10 ∧ s.readBar 0x1400000 = some 0 ∧
    s.readBar 0x40 = none := by decide +kernel

/-- MSC's header reads EN and RUNNING; a wider copy of a counter reads in two words (R58, R69). -/
theorem test_holding : up.readBar 0xD00000 = some 5 ∧
    ({ up with held := [(cntKey bMSC 0 2, 2 ^ 40 + 3)] } : State).readBar 0xD00110 = some 3 ∧
    ({ up with held := [(cntKey bMSC 0 2, 2 ^ 40 + 3)] } : State).readBar 0xD00114 = some 256 := by decide +kernel

/-! ### Coding lanes -/

/-- Lane 0 powered, with context 5 open as the kind given. -/
def lane0 (kind : Nat) (x : Lane) : State := ({ up with opens := [(5, kind)] } : State).setLane 0 { x with power := 2 }

def queued (kind : Nat) (op : JobOp) : State := lane0 kind { queue := [{ op := op, ctx := 5 }] }

/-- A microword with odd parity in each of its three groups (R102). -/
def mword0 (w : Nat) : Nat :=
  (List.range 3).foldl (fun v i => if ones (fld w (8 * i) 8) 8 % 2 = 0 then v + 2 ^ (24 + i) else v) w

/-- Lane 0 running, with the microword at its micro-PC. -/
def micro0 (w : Nat) (x : Lane) : State := lane0 3 { x with ms := .run, upc := 5, micro := [(5, mword0 w)] }

/-- A nanoword with odd parity in each of its eight groups. -/
def nword0 (w : Nat) : Nat :=
  (List.range 8).foldl (fun v i => if ones (fld w (24 * i) 24) 24 % 2 = 0 then v + 2 ^ (192 + i) else v) w

/-- Decode context 5 fed by input flow 2, whose guard alone has released row 0. -/
def guarded : State :=
  let s : State := { queued 4 .decode with opens := [(2, 2), (5, 4)] }
  ((s.setCf 5 0x02 2 4).setCf 5 0x0C 2 2).setDj 2 { full := 0, rel := 1 }

/-- Each operation at the head of the queue, with the context open as the kind it needs, and as the other; no lane that a fence gates;
a row whose flow's guard released it, and one without a flow. -/
theorem wit_LaneInstructionsAnswer :
    (∀ op ∈ [JobOp.nop, .fence, .load, .save, .reserved 7, .encode, .decode], (queued 3 op).live = true ∧
      (queued 3 op).headJob 0 = some { op := op, ctx := 5 }) ∧
    (∀ m ∈ ((queued 3 .fence).popJob 0).members 0, (((queued 3 .fence).popJob 0).lane m).gate = false) ∧
    Tbl.find (queued 3 .encode).opens 5 = some 3 ∧ Tbl.find (queued 4 .encode).opens 5 ≠ some 3 ∧
    Tbl.find (queued 4 .decode).opens 5 = some 4 ∧ Tbl.find (queued 3 .decode).opens 5 ≠ some 4 ∧
    (guarded.live = true ∧ guarded.headJob 0 = some { op := .decode, ctx := 5 } ∧ (guarded.shortRow 0).isSome = true) ∧
    ((queued 4 .decode).shortRow 0).isNone = true ∧ ((queued 3 .decode).shortRow 0).isNone = true := by decide +kernel

/-- A row that runs on lane 0, with its job in the table under the generation given. -/
def running (kind gen : Nat) (op : JobOp) (x : Lane) : State :=
  let s := lane0 kind { x with ms := .run, run := some { job := { op := op, ctx := 5 } } }
  { s with msc := { s.msc with jobs := [(0, { op := op, ctx := 5, gen := gen })] } }

/-- A decoded row with 511 records waiting; an encoded row of no bits, and one of a byte without SLICE buffers; a job that has gone and one
of another generation; the flushes; and a stall at 10 ms and 1 ns before. -/
theorem wit_RowsBecomeVisibleTogether :
    let rec_ : List W32 := [0, 0, 0, 0]
    let s := running 4 0 .decode { lsf := List.replicate 511 rec_ }
    let e := running 3 0 .encode {}
    let f := fun k : Nat => lane0 k { queue := [{ op := .flush, ctx := 5 }] }
    (s.live = true ∧ ((s.lane 0).run.map (·.visible)) = some false ∧ (s.lane 0).ms ≠ .halted ∧ (s.lane 0).power = 2 ∧
      (s.lane 0).lsf.length < 512 ∧ (s.job 0).gen = 0 ∧ Tbl.find s.msc.jobs 0 ≠ none ∧
      s.rasterTurn 0 { op := .decode, ctx := 5 } = true) ∧
    ((running 4 1 .decode {}).job 0).gen ≠ 0 ∧ Tbl.find (lane0 4 {}).msc.jobs 0 = none ∧
    (e.live = true ∧ (e.job 0).gen = 0 ∧ e.rasterTurn 0 { op := .encode, ctx := 5 } = true ∧
      ((e.takeSlices 0 5 (ceilDiv 0 8)).2 ≠ none) ∧ ((e.takeSlices 0 5 (ceilDiv 1 8)).2 = none)) ∧
    ((f 4).headJob 0 = some { op := .flush, ctx := 5 } ∧ Tbl.find (f 4).opens 5 = some 4 ∧
      (((f 4).popJob 0).lane 0).lsf.length < 512) ∧
    ((f 3).headJob 0 = some { op := .flush, ctx := 5 } ∧ Tbl.find (f 3).opens 5 = some 3 ∧
      (((f 3).popJob 0).enc 5).cur.open_ = false ∧ (((f 3).popJob 0).lane 0).lsf.length < 512) ∧
    (let s := (({ up with time := 10 * ms * 2 ^ 16 } : State).setLane 0 { stallAt := some 0 }).setFltSrc fLaneSliceStall
        { outcome := .pending };
      s.live = true ∧ (s.lane 0).stallAt = some 0 ∧ (s.fltSrc fLaneSliceStall).outcome = .pending ∧ 0 + 10 * ms ≤ s.ns) ∧
    (upAt (10 * ms - 1)).ns < 0 + 10 * ms := by decide +kernel

/-- A word of each kind at the micro-PC: ISSUE of a nanoword with and without the wait bit, and on a lane that waits; BRANCH, CALL,
RETURN; and the specials, on a lane whose row runs and on one that has ended. -/
theorem wit_MicrowordsAnswer :
    let run0 : LaneRun := { job := { op := .encode, ctx := 5 } }
    let sp := fun (op w : Nat) => 3 * 2 ^ 22 + op * 2 ^ 16 + w
    ((micro0 0x3000 { nano := [(3, nword0 (2 ^ 190))] }).mword 0 0 = some 0x3000 ∧
      (let n := Tbl.get 0 ((micro0 0x3000 { nano := [(3, nword0 (2 ^ 190))] }).lane 0).nano (fld 0x3000 12 10);
        nanoSyndrome n = 0 ∧ tb n 190 = true)) ∧
    (((micro0 0x3000 {}).lane 0).waits = false ∧ ((micro0 0x3000 { memStall := true }).lane 0).waits = true ∧
      (micro0 0x3000 { memStall := true }).mword 0 0 = some 0x3000) ∧
    (nanoSyndrome (nword0 0) = 0 ∧ tb (nword0 0) 190 = false ∧ ((micro0 0x3000 {}).lane 0).rep.getD (fld 0x3000 8 4 + 1) ≤ 1 ∧
      1 < ((micro0 0x3100 {}).lane 0).rep.getD (fld 0x3100 8 4 + 1)) ∧
    ((micro0 0x5F0000 {}).mword 0 1 = some 0x5F0000 ∧ fld 0x5F0000 16 6 < 0x20 ∧ 3 ≤ fld 0x5F0000 16 6 ∧
      (∀ c ∈ [0, 1, 2, 3], (micro0 (0x400000 + c * 0x10000) {}).mword 0 1 = some (0x400000 + c * 0x10000) ∧
        fld (0x400000 + c * 0x10000) 16 6 = c)) ∧
    ((micro0 0x800000 { stack := [1, 2, 3, 4, 5, 6, 7] }).mword 0 2 = some 0x800000 ∧ tb 0x800000 21 = false ∧
      ((micro0 0x800000 { stack := [1, 2, 3, 4, 5, 6, 7] }).lane 0).stack.length < 8) ∧
    ((micro0 0xA00000 { stack := [9] }).mword 0 2 = some 0xA00000 ∧ tb 0xA00000 21 = true) ∧
    (∀ op ∈ [0, 2, 3, 4, 5, 6, 7], (micro0 (sp op 0x1F) { run := some run0 }).special 0 op = some 0x1F) ∧
    ((micro0 (sp 0 0) { run := some run0 }).lane 0).quiet = false ∧
    (((micro0 (sp 0 0) { run := some { run0 with visible := true } }).lane 0).quiet = true ∧
      (micro0 (sp 0 0) { run := some { run0 with visible := true } }).special 0 0 = some 0) ∧ fld 0x1F 0 6 < 0x20 ∧
    ((micro0 (sp 2 0) {}).condition 0 0 0 0 true = true) ∧ ((micro0 (sp 2 1) {}).condition 0 1 0 0 true = false) := by
  decide +kernel

/-- NEIGHBOUR in a lane alone; a handler of the cause runs; one of a higher priority runs; none does; an atomic region; and
TRAP_RETURN with one frame, with a nanoword to issue again and without. -/
theorem wit_MicroTrapsAnswer :
    let f : TrapFrame := { cause := 0, upc := 7, rep := 2, loop0 := 0, loop1 := 0, latches := [], sp := 0, boundary := false }
    let x := fun l : Lane => (micro0 0 l).lane 0
    let n := micro0 0xC10000 { frames := [{ f with nano := some 3 }], nano := [(3, nword0 0)] }
    (micro0 0 {}).live = true ∧ (x {}).fetching = true ∧ (x {}).cwSize ≤ 1 ∧ 1 < (x { cwSize := 2 }).cwSize ∧
    ((x {}).atomic = false ∧ (x {}).trapPending = 0 ∧ (x { trapActive := 8 }).busyTrap 3 = true ∧
      4 ≤ (x { frames := [f, f, f, f] }).frames.length) ∧
    ((x { frames := [f, f, f] }).busyTrap 0 = false ∧ (x { frames := [f, f, f] }).frames.length < 4) ∧
    ((x { atomic := true }).atomic = true ∧ tb (x { atomic := true }).trapPending 2 = false ∧
      tb (x { atomic := true, trapPending := 4 }).trapPending 2 = true) ∧
    ((micro0 0xC10000 { frames := [f] }).special 0 1 = some 0 ∧ (x { frames := [f] }).frames = [f] ∧ (x {}).trapPending = 0 ∧
      f.nano.isNone = true) ∧
    (n.special 0 1 = some 0 ∧ nanoSyndrome (Tbl.get 0 (n.lane 0).nano 3) = 0) := by decide +kernel

/-- A lane that fetches; a full and an empty stack; reserved codes; a word whose parity fails; a halted lane whose check waits, at a
new and at a known address; one that waits for a rebuild, with no image in flash; and a patch too short to be one. A patch
that passes must verify under an opaque signature; its clause on one lane has a free lane, and a load is due. -/
theorem wit_MachineChecksAnswer :
    let h := fun x : Lane => lane0 3 { x with ms := .halted, check := true, mchk := 9 }
    let p := withCmd { entry0 with opcode := 0x73, len := 64 } up
    let g := ({ up with golden := { patching := true, loads := [0], due := 0 } } : State).setLane 0 { loading := true }
    ((micro0 0 {}).lane 0).fetching = true ∧
    ((micro0 0x800000 { stack := List.replicate 8 0 }).mword 0 2 = some 0x800000 ∧ tb 0x800000 21 = false ∧
      8 ≤ ((micro0 0x800000 { stack := List.replicate 8 0 }).lane 0).stack.length) ∧
    ((micro0 0xA00000 {}).mword 0 2 = some 0xA00000 ∧ tb 0xA00000 21 = true ∧ ((micro0 0xA00000 {}).lane 0).stack = []) ∧
    ((micro0 0x600000 {}).mword 0 1 = some 0x600000 ∧ 0x20 ≤ fld 0x600000 16 6) ∧
    ((micro0 0xC80000 {}).mword 0 3 = some 0xC80000 ∧ 8 ≤ fld 0xC80000 16 6) ∧
    (let y := lane0 3 { ms := .run, upc := 5, micro := [(5, 0)] };
      y.live = true ∧ (y.lane 0).fetching = true ∧ microSyndrome (Tbl.get 0 (y.lane 0).micro 5) ≠ 0) ∧
    ((h {}).live = true ∧ ((h {}).lane 0).ms = .halted ∧ ((h {}).lane 0).check = true ∧
      (h {}).lanes.any (fun e => e.2.rebuild) = false ∧ ((h {}).lane 0).cwSize ≤ 1 ∧ (h {}).failedJob 0 = none ∧
      ¬ (false, 9) ∈ ((h {}).lane 0).record ∧ (false, 9) ∈ ((h { record := [(false, 9)] }).lane 0).record) ∧
    (∀ j : Job, (h { run := some { job := { op := .encode, ctx := 5 } } }).failedJob 0 = some j → j.retry = false) ∧
    ((lane0 3 { rebuild := true }).live = true ∧ ((lane0 3 { rebuild := true }).lane 0).rebuild = true) ∧
    (p.cmdsRun = true ∧ p.serves 0 = true ∧ p.command cmd1 0x73 = some { entry0 with opcode := 0x73, len := 64 } ∧
      p.structural = false ∧ p.hqe.bme = true ∧ p.patchCode [] [0] ≠ 0) ∧
    (((lane0 3 {}).lane 0).quarantined = false ∧ (lane0 0 { draining := true }).laneFree 0 = true) ∧
    (g.golden.loads = [0] ∧ ¬ 0 ∈ ([] : List Nat) ∧ g.golden.patching = true ∧ (g.lane 0).loading = true ∧ g.golden.due ≤ g.ns) := by
  refine ⟨?_, ?_, ?_, ?_, ?_, ?_, ?_, ?_, ?_, ?_, ?_, ?_⟩
  all_goals first
    | decide +kernel
    | (intro j hj; cases hj; rfl)

theorem wit_LaneRegistersAnswer :
    let a := laneAddr 0 0x200
    let on : State := { up with regs := [(a, 0x80000000)], cnt := [(cntKey bLAN 1 0, 2 ^ 48 - 1)] }
    up.barServes 0x1000000 = true ∧ up.barTakes 0x1000000 = true ∧ (up.lane 0).lsf = [] ∧
    ((lane0 3 { lsf := [[1, 2, 3, 4]] }).lane 0).lsf = [[1, 2, 3, 4]] ∧ (up.lane 0).tags = [] ∧
    ((lane0 3 { tags := [[1]] }).lane 0).tags = [[1]] ∧
    (tb (Tbl.get 10 up.regs (laneAddr 0 0x280)).toNat 31 = false ∧ tb (0x80000004 : W32).toNat 31 = true ∧
      4 ≤ fld (0x80000004 : W32).toNat 0 5 ∧ fld (0x80000010 : W32).toNat 0 5 ≤ 16) ∧
    tb (Tbl.get 10 ({ up with regs := [(laneAddr 0 0x280, 0x80000000)] } : State).regs (laneAddr 0 0x280)).toNat 31 = true ∧
    (on.live = true ∧ tb (on.laneReg 0 a) 31 = tb (on.laneReg 0 a) 31 ∧ tb (on.laneReg 0 0x200) 31 = true ∧
      on.cntOf bLAN 1 0 = 2 ^ 48 - 1 ∧ tb (on.laneReg 0 0x200) 30 = false) := by decide +kernel

/-- Display session 0, open, in the pacing state, Erelm state and raster given. -/
def session (st : Nat) (x : ESess) (r : Raster) : State :=
  let e : ErelmSt := { sess := [(0, x)] }
  let a : AsmSt := { nets := [(0, { epAddr := [10, 0, 0, 2], epUdp := 5000 })] }
  (({ up with opens := [(0, 1)], erelm := e, asm := a } : State).setRaster 0 r).setCf 0 0x01 1 st

/-- A composition row whose decoded source has written no row yet. -/
def starved : State :=
  let h := mkHandle 0 0 3
  let b : BpmSt := { frames := [(hKey h, { attr := 8, context := 4, height := 16 })] }
  let m : MscSt := { decs := [(4, { released := some h })], jobs := [(0, { op := .compose, ctx := 5 })] }
  let s : State := { up with opens := [(4, 4), (5, 5)], bpm := b, msc := m }
  (((((s.setCf 5 0x0A 1 1).setCf 5 0x04 2 64).setCf 5 0x08 2 8).setCf 8 0x04 2 64).setCf 8 0x06 2 64).store 0
    [2, 0, 0, 0, 4, 0, 0, 0, 0, 0, 0, 0, 16, 0, 16, 0, 16, 0, 16, 0]

/-- Rows that are and are not next, one behind another display's, a source missing, entries freed, jobs to a lane and to a pipe, a
repeat due and not due, overload at 10 ms, and a domain that is ready. -/
theorem wit_SchedulerAnswers :
    let d := fun (o : Nat) (j : Job) => { up with opens := [(5, o)], msc := { up.msc with jobs := [(0, j)] } }
    let cmp : Job := { op := .compose, ctx := 5, deadline := 0 }
    let dec : Job := { op := .decode, ctx := 5, released := true }
    up.mscWorks = true ∧ (up.raster 5).nextPic ≠ 1 ∧ (up.raster 5).nextRow ≠ 1 ∧ up.creates 5 = false ∧
    (let s := (session sLOCKED { ph := .open_ } {}).applyLead 0;
      (session sLOCKED { ph := .open_ } {}).mscWorks = true ∧ s.flt.safe = false ∧ s.running bMSC = true ∧ s.creates 0 = true ∧
        (s.raster 0).nextPic = 0 ∧ (s.raster 0).nextRow = 0 ∧ s.rowDue 0 0 0 ≤ Int.ofNat s.ns ∧
        s.earlierRow 0 (s.milestone 0 0 0) = false) ∧
    (starved.mscWorks = true ∧ Tbl.find starved.msc.jobs 0 = some { op := .compose, ctx := 5 } ∧
      starved.sourcesPresent { op := .compose, ctx := 5 } = false ∧
      0 ≤ starved.ns + starved.cmpCost (starved.cf 5 0x08 2) 0 ∧ starved.msc.repeats = []) ∧
    (Tbl.find (d 4 {}).opens 5 = some 4) ∧
    ((d 3 { op := .encode, ctx := 5 }).firstJob (((d 3 { op := .encode, ctx := 5 }).msc.jobs.map Prod.snd).filter (fun j =>
        decide (j.op = .encode) && decide (j.ctx = 5) && decide (j.row = 0) && !j.released)) = some { op := .encode, ctx := 5 }) ∧
    (Tbl.find up.opens 5 ≠ some 3 ∧ Tbl.find up.opens 5 ≠ some 4) ∧
    ((up.newJob dec).isSome = true) ∧
    (let s := (d 4 dec).setLane 0 { power := 2 };
      s.mscWorks = true ∧ s.running bMSC = true ∧ s.flt.safe = false ∧ s.laneTakes 0 = true ∧
        (s.lane (s.leadFor 0)).queue.length < s.laneDepth ∧ s.firstJob ((s.msc.jobs.map Prod.snd).filter (fun j =>
        j.released && !j.placed && decide (j.op ≠ .compose) && decide (s.laneOfJob j = some 0) && s.mayRun j && s.inStep j)) =
          some dec) ∧
    (let j := { cmp with released := true };
      let s := d 5 j;
      s.mscWorks = true ∧ s.firstJob ((s.msc.jobs.map Prod.snd).filter (fun j => j.released && !j.placed &&
        decide (j.op = .compose) && s.mayRun j)) = some j ∧ (s.cmpStarted 5 0 && (s.composedCols j).isEmpty) = false ∧
        (s.freePipe 8).isSome = true) ∧
    (let s := d 5 cmp;
      Tbl.find s.msc.jobs 0 = some cmp ∧ cmp.op = .compose ∧ cmp.released = false ∧ ¬ 0 ∈ s.msc.repeats ∧
        s.sourcesPresent cmp = true ∧ s.ns + s.cmpCost (s.cf 5 0x08 2) 0 < ({ cmp with deadline := oneSec } : Job).deadline) ∧
    (up.running bMSC = true ∧ up.ns < up.msc.ovlAt + 10 * ms ∧ (upAt (10 * ms)).msc.ovlAt + 10 * ms ≤ (upAt (10 * ms)).ns) ∧
    (up.barTakes 0xD00048 = true ∧ tb (0 : W32).toNat 31 = false) ∧
    ((lane0 3 { wakeAt := some 0 }).lane 0).wakeAt = some 0 ∧ up.ns < ((lane0 3 { wakeAt := some 1 }).lane 0).wakeAt.getD 0 := by
  decide +kernel

/-! ### Composition, assembly, input flows -/

def pipe0 (x : Pipe) : State := ({ up with opens := [(5, 5)] } : State).setPipe 0 { x with power := 2 }

/-- A row to begin, that continues its picture at its deadline; rows that end; and a retry whose fault waits. -/
theorem wit_ComposedRowsAnswer :
    let j : Job := { op := .compose, ctx := 5, row := 1, deadline := 1000000 }
    let r := fun b : Bool => pipe0 { job := some { j with retry := b }, begun := true }
    let s := (pipe0 { job := some j }).setCmpCtx 5 { started := true }
    (s.live = true ∧ s.running bCMP = true ∧ s.flt.safe = false ∧ (s.pipe 0).job = some j ∧ (s.pipe 0).begun = false ∧
      (s.pipe 0).power = 2 ∧ (s.pipe 0).mapped = false ∧ s.cmpStarted 5 j.pic = true ∧
      s.ns + s.cmpCost (s.cf 5 0x08 2) 1 ≤ j.deadline) ∧
    (let s := (up.setCf 5 0x02 2 8).setCf 5 0x0A 1 2;
      (s.layers 5).length = 2 ∧ (∀ l ∈ s.layers 5, l.type = 0) ∧ tb (s.cf 5 0x02 2) 3 = true ∧ tb (s.cf 5 0x02 2) 2 = false) ∧
    (∀ b : Bool, (r b).live = true ∧ ((r b).pipe 0).job = some { j with retry := b } ∧ ((r b).pipe 0).begun = true) ∧
    (((r true).setFltSrc fCmpPipe { outcome := .pending }).fltSrc fCmpPipe).outcome = .pending ∧
    j.sess = 0xFFFF ∧ ({ j with sess := 0 } : Job).sess ≠ 0xFFFF := by decide +kernel

/-- A composition context without layers and with a background of Y' 1023, Cb 0 and Cr 512: 8-bit limited gives 235 and 16 and 128,
10-bit limited 940, full range 255 (R193, R197). -/
def backdrop (flags : Nat) : State :=
  (((up.setCf 5 0x02 2 flags).setCf 5 0x04 2 8).setCf 5 0x06 2 8).setCf 5 0x0C 4 (1023 * 2 ^ 20 + 512)

theorem test_background : (backdrop 0).lumaAt 5 (fun _ => 0) 0 0 = 235 ∧ (backdrop 0).chromaAt 5 (fun _ => 0) 0 0 = (16, 128) ∧
    (backdrop 8).lumaAt 5 (fun _ => 0) 7 7 = 940 ∧ (backdrop 4).lumaAt 5 (fun _ => 0) 0 0 = 255 ∧ (backdrop 4).chromaAt 5 (fun _ => 0) 6 6 = (0, 128) := by decide +kernel

/-- An opaque component over another hides it; a transparent one leaves it (R193). -/
theorem test_blend : overlay 400 100 255 255 255 1 = 400 * blendDen ∧ overlay 0 100 0 255 255 1 = 100 * blendDen := by decide +kernel

def pkt (seq : W16) : RtpIn := { seq := seq, ts := 0, ssrc := 7, bytes := 100, accepted := true, rowsDone := 0 }

/-- Input flow 2 with its de-jitter queue. -/
def flow (x : DjQ) : State := ({ up with opens := [(2, 2)] } : State).setDj 2 x

def row9 : CodedRow := { pic := 0, row := 1, bytes := 9, lane := 0, last := false, slices := [], at_ := 0 }

/-- A coded H.264 row of context 5, which session 0 shows, and no CELL buffer free for its packet. -/
def starvedRow : State :=
  let s := session sLOCKED { ph := .open_ } {}
  let t : State := { s with opens := [(0, 1), (5, 3)], asm := { s.asm with rows := [(5, [row9])], next := [(0, 0, 0, 0)] } }
  ((t.setCf 0 0x38 2 5).setCf 5 0x0E 2 0xFFFF).setCf 5 0x02 2 1

/-- No row, and a row of one slice without packets; a packet of each kind, at the edges 0, 1, 32,768 and 32,769 of the serial
comparison; and timers at their time and 1 ns before. -/
theorem wit_AssemblyAndInputAnswer :
    let row : CodedRow := { pic := 0, row := 0, bytes := 0, lane := 0, last := false, slices := [], at_ := 0 }
    let a := { up with asm := { up.asm with rows := [(5, [row])] } }
    let x : DjQ := { started := true, ssrc := 7, expect := 10, passed := 40000 }
    let t := (flow { gapAt := some 0 }).setCf 2 0x34 4 3
    (up.live = true ∧ up.running bASM = true ∧ up.flt.safe = false ∧ Tbl.get [] up.asm.rows 5 = []) ∧
    (Tbl.get [] a.asm.rows 5 = [row] ∧ (a.takeRow 5 row).isSome = true) ∧
    (starvedRow.live = true ∧ starvedRow.takeRow 5 row9 = none ∧ Tbl.get [] starvedRow.asm.rows 5 = [row9]) ∧
    ((flow x).works bASM = true ∧ Tbl.find (flow x).opens 2 = some 2 ∧ ((flow x).djq 2) = x) ∧
    ((flow { unsupp := true }).djq 2).unsupp = true ∧ ((flow {}).djq 2).started = false ∧ (pkt 10).accepted = true ∧
    (pkt 10).ssrc = x.ssrc ∧ serial16 (pkt 10).seq.toNat x.expect = 0 ∧ serial16 (pkt 11).seq.toNat x.expect = 1 ∧
    serial16 (pkt 32778).seq.toNat x.expect = 32768 ∧ 32768 < serial16 (pkt 32779).seq.toNat x.expect ∧
    serial16 x.expect (pkt 32779).seq.toNat ≤ x.passed ∧ x.queue.length < max 16 ((flow x).cf 2 0x32 2) ∧
    (t.works bASM = true ∧ (t.djq 2).gapAt = some 0 ∧ ({ t with time := 3000 * 2 ^ 16 } : State).ns = 0 + t.cf 2 0x34 4 * us ∧
      t.ns < 0 + t.cf 2 0x34 4 * us) ∧
    (let h : State := { up with asm := { up.asm with cache := [(heldKey 0 9, { expiry := some 0 })] } };
      (Tbl.find h.asm.cache (heldKey 0 9)).bind (·.expiry) = some 0 ∧ 0 ≤ h.ns) := by decide +kernel

/-! ### Erelm -/

def hdr1 : ErelmHdr := { hdr0 with seq := 1 }

def open0 : State := session sLOCKED { ph := .open_ } {}

/-- Messages of an open session without a key: reliable, repeated, and unreliable; HELLOs of a session in each phase, and of none; an
OPEN_ACK; acknowledgements of rows, new and stale; and each answer that a session gives. -/
theorem wit_ErelmMessagesAnswer :
    let o := fun p : EPh => session sLOCKED { ph := p } {}
    (Tbl.find open0.opens 0 = some 1 ∧ (open0.es 0).ph = .open_ ∧ hdr1.version = 1 ∧ hdr1.lengthOk = true ∧
      (open0.net 0).epAddr = hdr1.srcAddr ∧ (open0.net 0).epUdp = hdr1.srcUdp.toNat ∧ (open0.net 0).keyId = 0 ∧
      (open0.es 0).queue = [] ∧ hdr1.seq.toNat = (open0.es 0).expected ∧ hdr1.seq ≠ 0xFFFFFFFF) ∧
    (∀ p ∈ [EPh.waitHello, .refused, .open_], (o p).helloSess hdr1 = some 0 ∧ (o p).spWorks 0 = true ∧ ((o p).es 0).ph = p) ∧
    (up.helloSess hdr1 = none ∧ up.live = true ∧ (up.cpu 1).ph = .run ∧
      up.erelm.helloAt.find? (fun (e : Bytes × Nat) => decide (e.1 = hdr1.srcAddr)) = none) ∧
    (let s : State := { up with erelm := { up.erelm with helloAt := [(hdr1.srcAddr, 0)] } };
      s.erelm.helloAt.find? (fun (e : Bytes × Nat) => decide (e.1 = hdr1.srcAddr)) = some (hdr1.srcAddr, 0) ∧
      s.ns < 0 + 10 * oneSec) ∧
    (let a := (o .opening).accept hdr1 0x03 false;
      (o .opening).spWorks hdr1.session.toNat = true ∧ a.2 = some 0 ∧ (a.1.reliable 0 hdr1).2 = true ∧
      ((a.1.reliable 0 hdr1).1.es 0).ph = .opening) ∧
    ((open0.accept hdr0 0x03 false).2 = some 0 ∧
      (((open0.accept { hdr0 with seq := 0 } 0x03 false).1).reliable 0 { hdr0 with seq := 0 }).2 = false) ∧
    (∀ t ∈ [0x10, 0x11, 0x20], (open0.accept hdr1 t false).2 = some 0 ∧ ((open0.accept hdr1 t false).1.es 0).ph = .open_) ∧
    (let u := (session sACQUIRE { ph := .open_ } {}).accept hdr1 0x10 false; u.2 = some 0 ∧
      ((u.1.markerOp 0 0 0 1000 0).cf 0 0x01 1 ≠ sLOCKED ∨ u.1.cf 0 0x01 1 = sLOCKED)) ∧
    (let s : State := { open0 with asm := { open0.asm with seqs := [(0, 5)] } };
      serial16 3 (s.es 0).cum = 3 ∧ serial16 (Tbl.get 0 s.asm.seqs 0) 3 = 2 ∧ Tbl.find s.asm.cache (heldKey 0 3) = none ∧
      serial16 0 (s.es 0).cum = 0 ∧ serial16 (Tbl.get 0 s.asm.seqs 0) 5 = 0) ∧
    (∀ t ∈ [0x12, 0x13, 0x21, 0x22], ((open0.accept hdr1 t false).1.reliable 0 hdr1).2 = true ∧
      (((open0.accept hdr1 t false).1.reliable 0 hdr1).1.es 0).ph = .open_) ∧
    (((open0.accept hdr1 0x20 false).1.es 0).resp = none ∧ (Tbl.find (open0.accept hdr1 0x20 false).1.erelm.sess 0).isSome = true) ∧
    (status0.panel ≠ 2 ∧ (open0.es 0).status.map (fun x => x.panel) ≠ some 2) ∧
    (((o .closing).es 0).ph = .closing ∧ ((o .closing).accept hdr1 0x20 false).2 = none ∧
      (o .closing).spWorks hdr1.session.toNat = true) := by decide +kernel

/-- Family 6: its tile, context 7, is shown by the locked sessions 0 and 1. -/
def family : State :=
  let s : State := { up with opens := [(0, 1), (1, 1), (6, 6), (7, 7)] }
  ((((s.setCf 0 0x01 1 sLOCKED).setCf 1 0x01 1 sLOCKED).setCf 7 0x02 2 6).setCf 7 0x0C 2 2).store 8 [1]

/-- Each timer at its time, and with 1 ns to go; and a family of two members, of one, and one evaluated already. -/
theorem wit_ErelmTimersAnswer :
    let m : EMsg := { seq := 1, type := 2, payload := [], sends := 1, at_ := 0 }
    let s := session sLOCKED { ph := .open_, unacked := [m], ackAt := some 0 } { m := { markers := 1, lp := fx } }
    let at_ := fun n : Nat => { s with time := n * 2 ^ 16 }
    (s.spWorks 0 = true ∧ (s.es 0).unacked = [m] ∧ (at_ (2 * ms - 1)).ns < m.at_ + 2 * ms ∧ m.at_ + 2 * ms ≤ (at_ (2 * ms)).ns ∧
      m.sends < 5 ∧ 5 ≤ ({ m with sends := 5 } : EMsg).sends) ∧
    ((s.es 0).ackAt = some 0 ∧ 0 ≤ s.ns) ∧
    ((s.es 0).ph = .open_ ∧ (s.es 0).lastTx + 100 * ms ≤ (at_ (100 * ms)).ns ∧ s.ns < (s.es 0).lastTx + 100 * ms ∧
      (s.es 0).lastRx + oneSec ≤ (at_ oneSec).ns ∧ s.ns < (s.es 0).lastRx + oneSec) ∧
    (s.works bMSC = true ∧ s.cf 0 0x01 1 = sLOCKED ∧ (s.raster 0).m.markers ≠ 0 ∧
      (s.raster 0).lastRx + ((s.raster 0).missed + 1) * (Int.ofNat (64 + fld s.mscLock 16 8) * (s.raster 0).m.lp / fx).toNat ≤
        (at_ ms).ns) ∧
    (let k := s.setCf 0 0x48 8 1;
      k.cf 0 0x01 1 = sLOCKED ∧ k.cf 0 0x48 8 ≠ 0 ∧ k.cf 0 0x48 8 + 250 * ms ≤ ({ k with time := (1 + 250 * ms) * 2 ^ 16 } : State).ns ∧
        k.ns < k.cf 0 0x48 8 + 250 * ms) ∧
    (family.works bMSC = true ∧ family.leadOf 6 = some 0 ∧ Tbl.find family.opens 6 = some 6 ∧ Tbl.find family.msc.steerAt 6 = none ∧
      ((family.setCf 6 0x18 2 0).lockedMembers 6 = [0, 1])) ∧
    (let one := family.setCf 1 0x01 1 sACQUIRE; one.leadOf 6 = some 0 ∧ (one.setCf 6 0x18 2 0).lockedMembers 6 = [0]) ∧
    ¬ (0 + max 1 (fld family.mscSteer 8 8) ≤ family.cf 6 0x10 4) := by decide +kernel

/-! ### Switch core and traffic manager -/

/-- Port 0 up, with the parts given. -/
def portUp (x : Port) : State :=
  ({ up with way := { up.way with portClass := [(0, 3)] } } : State).setPort 0 { x with ph := .up }

/-- Queue 9 of class `c` of destination `d`, and copy 3 of one cell for it. -/
def withCopy (d c lim : Nat) (pl : Place) (asm_ : Bool) : State :=
  let k : Copy := { place := pl, dest := d, cls := c, queue := 9, head := [0], fromAsm := asm_ }
  let w : SwcSt := { copies := [(3, k)], nextCopy := 4, lim := [(acctKey d c, lim)] }
  let t : TmgSt := { queues := [(9, { en := true, dest := d, cls := c, shaper := 0xFFFF })] }
  { portUp {} with swc := w, tmg := t }

def arriving0 : State := withCopy 0 2 1 .arriving false

/-- A port down; a queue closed; a copy admitted at its class's last cell; one that is not, from ASM with room in the layby, and from
another source. -/
theorem wit_ArrivingCopiesAreAdmittedInOrder :
    let full := withCopy 0 2 0 .arriving true
    let down := arriving0.setPort 0 {}
    (arriving0.works bSWC = true ∧ (Tbl.find arriving0.swc.copies 3).isSome = true ∧ (arriving0.copy 3).place = .arriving) ∧
    down.portDown 0 = true ∧ (arriving0.portDown 0 = false ∧ (arriving0.setQueue 9 {}).queueOpen 9 = false) ∧
    (arriving0.queueOpen 9 = true ∧ arriving0.laybyOf 0 2 = [] ∧ arriving0.admission (arriving0.copy 3) = some (true, 1, 0)) ∧
    (full.portDown 0 = false ∧ full.queueOpen 9 = true ∧ full.admission (full.copy 3) = none ∧ (full.copy 3).fromAsm = true ∧
      (full.laybyOf 0 2).length < full.laybyMax ∧ full.swc.laybyUse < 32768) ∧
    ((withCopy 0 2 0 .arriving false).admission ((withCopy 0 2 0 .arriving false).copy 3) = none ∧
      ((withCopy 0 2 0 .arriving false).copy 3).fromAsm = false) := by decide

theorem wit_CopiesAndAccountsAreKept :
    ((Tbl.find arriving0.swc.copies 3).isSome = true ∧ arriving0.portDown 0 = false ∧ arriving0.queueOpen 9 = true) ∧
    arriving0.charge 0 2 1 = some (1, 0) ∧ arriving0.charge 0 2 2 = none ∧
    (let s : State := { arriving0 with swc := { arriving0.swc with gmin := true, sharedSize := 1, cap := [(0, 1)] } };
      s.charge 0 2 2 = some (1, 1) ∧ s.charge 0 2 3 = none) ∧ ({ chargeable := true, own := 1 } : Copy).chargeable = true := by decide

/-- A layby of destination 260 with copy 3: not admitted, admitted, and pruned at its time; and a class that is held. -/
theorem wit_LaybysAdmitAndPrune :
    let lb := fun (d lim due : Nat) => (withCopy d 2 lim (.layby 0 due) true).setLayby d 2 [3]
    let held : State := { up with regs := [(0x900050, 0x14040100)] }
    (up.works bSWC = true ∧ up.laybyOf 260 2 = []) ∧
    ((lb 0 0 0).laybyOf 0 2 = [3] ∧ (lb 0 0 0).queueOpen ((lb 0 0 0).copy 3).queue = true ∧
      (lb 0 0 0).admission ((lb 0 0 0).copy 3) = none) ∧
    ((lb 260 1 0).works bSWC = true ∧ (lb 260 1 0).laybyOf 260 2 = [3] ∧ (lb 260 1 0).queueOpen ((lb 260 1 0).copy 3).queue = true ∧
      (lb 260 1 0).admission ((lb 260 1 0).copy 3) = some (true, 1, 0)) ∧
    (held.works bSWC = true ∧ tb (fld held.laybyCfg 16 8) 2 = true) ∧
    (tb (fld (lb 0 0 0).laybyCfg 16 8) 2 = false ∧ ((lb 0 0 0).copy 3).place = .layby 0 0 ∧ 0 ≤ (lb 0 0 0).ns ∧
      (lb 0 0 1).ns < 1) := by decide

/-- Cells at the distances 0, 1, 1,023, 1,024, 32,767 and 32,768 from the one expected; a gap at its 50 µs and before. -/
theorem wit_ResequencerPassesCellsInOrder :
    let c : SeqCell := { group := 0, src := 1, seq := 5, copyId := 3, last := false }
    let k := rsqKey 0 1
    let s := up.setRsq k { expect := 5, gapAt := some 0 }
    (s.works bSWC = true ∧ serial16 c.seq.toNat (s.rsq k).expect = 0 ∧ (s.rsq k).held = [] ∧ c.last = false ∧
      (s.rsq k).passed = []) ∧
    serial16 (6 : W16).toNat 5 = 1 ∧ serial16 (1028 : W16).toNat 5 = 1023 ∧ serial16 (1029 : W16).toNat 5 = 1024 ∧
    serial16 (32772 : W16).toNat 5 = 32767 ∧ serial16 (32773 : W16).toNat 5 = 32768 ∧
    ((s.rsq k).gapAt = some 0 ∧ 0 + fld (Tbl.get 50 s.regs 0x90005C).toNat 0 10 * us ≤ ({ s with time := 50000 * 2 ^ 16 } : State).ns ∧
      s.ns < 0 + fld (Tbl.get 50 s.regs 0x90005C).toNat 0 10 * us) := by decide

/-- Port 0 with queue 9 of the class given, holding copy 3. -/
def toSend (c : Nat) : State :=
  let s := withCopy 0 c 1 .queued false
  s.setQueue 9 { s.queue 9 with copies := [3], cells := 1, fitAt := some 0 }

theorem wit_TransmitDecisionOrder :
    up.portIdle 0 = false ∧
    ((toSend 7).portIdle 0 = true ∧ (toSend 7).paused 0 7 = false ∧ (toSend 7).portQueues 0 (· == 7) = [9] ∧
      (toSend 7).shaperOk 9 = true) ∧
    ((toSend 6).portIdle 0 = true ∧ (toSend 6).portQueues 0 (· == 7) = [] ∧ (toSend 6).paused 0 6 = false ∧
      (toSend 6).gateQueue 0 = some 9 ∧ (toSend 6).openTime 0 ((toSend 6).headOf 9).milestone ≤ (toSend 6).ns) ∧
    ((toSend 6).queue 9).copies = [3] := by decide

/-- A gate at its time; a frame at its end and 1 ns before; a fit at 1 ms and before; and buckets at 128 ns. -/
theorem wit_TrafficCommandsAnswer :
    let tx := fun n : Nat => portUp { tx := some { copy := 3, start := 0, ends := n, cells := [], readBytes := 0 } }
    let waits := (toSend 6).setQueue 9 { (toSend 6).queue 9 with fitAt := some ms }
    let b := fun v : W32 => { up with tmg := { up.tmg with pol := [(0, {})] }, regs := [(polAddr 0 + 8, v)] }
    ((toSend 6).works bTMG = true ∧ (toSend 6).openLimit 0 = some 0 ∧ 0 ≤ (toSend 6).ns) ∧
    (let s := toSend 6;
      (let t : State := { s with swc := { s.swc with copies := [(3, { s.copy 3 with milestone := 12001 })] } };
        t.openLimit 0 = some 1 ∧ t.ns < 1)) ∧
    ((tx 0).live = true ∧ ((tx 0).port 0).tx.isSome = true ∧ 0 ≤ (tx 0).ns ∧ (tx 1).ns < 1) ∧
    (((toSend 6).queue 9).fitAt = some 0 ∧ 0 ≤ (toSend 6).ns ∧ (waits.queue 9).fitAt = some ms ∧ waits.ns < ms) ∧
    (up.tmg.creditAt + 128 ≤ (upAt 128).ns ∧ (upAt 128).works bTMG = true) ∧
    ((b 0).tmg.psh = [] ∧ (b 0).tmg.qsh = [] ∧ (b 0).tmg.pol = [(0, {})] ∧ (b 0).bkEn (polAddr 0) = false ∧
      (b 0x80000000).bkEn (polAddr 0) = true) ∧
    ({} : Bucket).tokens ≤ Int.ofNat ((b 0x80000000).bkBurst (polAddr 0) * 2 ^ 16) := by decide

/-! ### Ports -/

/-- A frame of 63 bytes and of 64; with a bad check sequence; at and beyond the largest length; beyond the headroom; for a handler;
for no flow; and for a flow. -/
theorem wit_FrameReceptionAnswers :
    let fr := fun n : Nat => { rx0 with length := n }
    let heavy : State := { portUp {} with
      swc := { xoffSent := [(0, true)], ingUse := [(0, 1)] }, bpm := { pools := [(0, { cfg := { bp := 1 } })] } }
    let fl : State := { portUp {} with opens := [(2, 2)], way := { ctxParts := [2, 1] } }
    let fl := fl.setCf 2 0x04 2 0xFFFF
    let f4 := { fr 64 with dstAddr := [0, 0, 0, 0] }
    (up.live = true ∧ (up.port 0).ph ≠ .up) ∧ ((portUp {}).live = true ∧ ((portUp {}).port 0).ph = .up) ∧
    ({ fr 64 with fcsOk := false } : RxFrame).fcsOk = false ∧ (fr 63).length < 64 ∧
    ((fr 1522).length ≤ fld ((portUp {}).prtCfg 0) 0 14 ∧ fld ((portUp {}).prtCfg 0) 0 14 < (fr 9217).length) ∧
    (heavy.beyondHeadroom 0 0 1 = true) ∧ ((portUp {}).beyondHeadroom 0 0 (cellsFor 64) = false) ∧
    ({ fr 64 with erelm := true } : RxFrame).erelm = true ∧ (portUp {}).flowOf 0 (fr 64) = none ∧
    (fl.flowOf 0 f4 = some 2 ∧ (fl.police (2 - fl.partBase 2) 64 0 0).2 = .pass) := by decide

/-- A PAUSE, and a PFC frame of class 3, with and without quanta; a pause at its end; one that has lasted TIME_MS; the watchdog's
register at 10, 1,000 and beyond; and a request due. -/
theorem wit_PausesAnswer :
    let pf : PauseFrame := { pfc := false, classes := 0, quanta := [1] }
    let pc : PauseFrame := { pfc := true, classes := 8, quanta := [0, 0, 0, 0, 0, 0, 0, 0] }
    let ps := fun x : PauseSt => portUp { pauses := [(3, x)] }
    let storm : State := { ps { ends := 200 * ms, since := 0 } with time := 100 * ms * 2 ^ 16 }
    ((portUp {}).live = true ∧ ((portUp {}).port 0).ph = .up ∧ pf.pfc = false ∧ quantaFor pf 3 ≠ 0 ∧
      tb pc.classes.toNat 3 = true ∧ quantaFor pc 3 = 0 ∧ tb pc.classes.toNat 2 = false) ∧
    (Tbl.find ((ps { ends := 0 }).port 0).pauses 3 = some { ends := 0 } ∧ 0 ≤ (ps { ends := 0 }).ns ∧ (ps { ends := 1 }).ns < 1) ∧
    (tb storm.pswCfg 31 = true ∧ storm.ns < 200 * ms ∧ 0 + 100 * ms ≤ storm.ns) ∧
    (up.barTakes 0x900058 = true ∧ 10 ≤ fld (10 : W32).toNat 0 10 ∧ fld (1000 : W32).toNat 0 10 ≤ 1000 ∧ fld (9 : W32).toNat 0 10 < 10 ∧
      1000 < fld (1001 : W32).toNat 0 10 ∧ tb (10 : W32).toNat 31 = false) ∧
    (((portUp { xoff := 8 }).port 0).xoff ≠ 0 ∧ ((portUp { xoff := 8 }).port 0).pfcDue ≤ (portUp { xoff := 8 }).ns) := by decide

/-- Port 0, enabled in a block of class 10G, in the phase given; and in SGMII. -/
def portIn (ph : LinkPh) (x : Port) : State := (portUp {}).setPort 0 { x with ph := ph }
def sgmii (ph : LinkPh) : State := { portIn ph {} with regs := [(prtAddr 0 0x20, 0)] }

theorem wit_LinkStateAnswers :
    let n : NegResult := { halfOnly := false, remoteFault := false, pauseOk := true }
    let h := portIn .hold { holdDue := 10 * ms }
    (let s := portIn .down {};
      s.live = true ∧ Tbl.get false s.plt.blockOn (0 / 8) = true ∧ s.portEn 0 = true ∧ (s.port 0).mapped = false ∧ s.portOff 0 = false ∧
        (s.port 0).ph = .down) ∧
    (((portIn .training {}).port 0).ph = .training ∧ (portIn .training {}).negBad 0 n = false) ∧
    ((sgmii .training).negBad 0 { n with halfOnly := true } = true) ∧ ((portIn .up {}).port 0).ph = .up ∧
    ((h.port 0).ph = .hold ∧ (h.port 0).holdDue ≤ ({ h with time := 10 * ms * 2 ^ 16 } : State).ns ∧ h.ns < (h.port 0).holdDue) ∧
    (let l := portIn .up { lossAt := some 0 };
      (l.port 0).lossAt = some 0 ∧ 0 + 200 * us ≤ ({ l with time := 200 * us * 2 ^ 16 } : State).ns ∧ l.ns < 0 + 200 * us) ∧
    ((sgmii .training).live = true ∧ (sgmii .training).portMode 0 = 0 ∧ ((sgmii .training).port 0).mapped = false ∧
      (sgmii .training).portEn 0 = true ∧ ((sgmii .training).port 0).ph ≠ .up ∧ ((sgmii .training).port 0).ph ≠ .hold ∧
      ((sgmii .training).port 0).ph = .training ∧ ((sgmii .hold).port 0).ph = .hold) := by decide

/-- Margins of 14, 11 and 5 at WARN 12 and FAIL 6; the second failure in a row, inside and at the end of the 60 s. -/
theorem wit_ReceiverMarginAnswers :
    let warn := fld (Tbl.get 12 up.regs (prtAddr 0 0x28)).toNat 0 6
    let fail := fld (Tbl.get 6 up.regs (prtAddr 0 0x2C)).toNat 0 6
    let at_ := fun (n : Nat) (s : State) => { s with time := n * 2 ^ 16 }
    (warn + 2 ≤ (14 : BitVec 6).toNat ∧ fail ≤ (14 : BitVec 6).toNat ∧ (11 : BitVec 6).toNat < warn ∧ fail ≤ (11 : BitVec 6).toNat ∧
      (5 : BitVec 6).toNat < fail) ∧
    (((portUp {}).port 0).ph = .up ∧ ((portUp {}).port 0).lowRaised = false ∧ ((portUp {}).port 0).lowCount = 0 ∧
      ((portUp {}).port 0).failAt = none ∧ 1 ≤ ((portUp { lowCount := 1 }).port 0).lowCount) ∧
    (((portUp { lowCount := 1, failAt := some 0 }).port 0).failAt = some 0 ∧ (portUp {}).ns < 0 + 60 * oneSec ∧
      0 + 60 * oneSec ≤ (at_ (60 * oneSec) (portUp {})).ns) ∧
    ((portIn .retrain { retrainDue := some 0 }).live = true ∧ ((portIn .retrain { retrainDue := some 0 }).port 0).retrainDue = some 0 ∧
      0 ≤ (portIn .retrain { retrainDue := some 0 }).ns ∧ ((portIn .retrain {}).port 0).ph ≠ .up ∧
      ((portIn .retrain { rank := 1 }).port 0).rank < 2 ∧ 2 ≤ ((portIn .retrain { rank := 2 }).port 0).rank) := by decide

/-- A frame of each clause and operation; a busy bus; and a second's pulse 1 ms and 1 ms + 1 ns off. -/
theorem wit_MdioAndPpsAnswer :
    let v22w : W32 := 0x84000000; let v22r : W32 := 0x8C000000; let a45 : W32 := 0x90000000; let w45 : W32 := 0x94000000
    let i45 : W32 := 0x98000000; let r45 : W32 := 0x9C000000
    let busy := fun v : W32 => up.setMdio 0 { busy := true, word := v }
    let pps := fun n : Nat => { upAt n with clk := { src := .pps, ppsAt := some 0 } }
    (up.barTakes 0xB00040 = true ∧ (up.mdio 0).busy = false) ∧
    (tb v22w.toNat 31 = true ∧ tb v22w.toNat 28 = false ∧ fld v22w.toNat 26 2 = 1) ∧
    (tb v22r.toNat 31 = true ∧ tb v22r.toNat 28 = false ∧ fld v22r.toNat 26 2 = 3) ∧
    (tb a45.toNat 31 = true ∧ tb a45.toNat 28 = true ∧ fld a45.toNat 26 2 = 0) ∧
    (tb w45.toNat 31 = true ∧ tb w45.toNat 28 = true ∧ fld w45.toNat 26 2 = 1) ∧
    (tb i45.toNat 31 = true ∧ tb i45.toNat 28 = true ∧ fld i45.toNat 26 2 = 2) ∧
    (tb r45.toNat 31 = true ∧ tb r45.toNat 28 = true ∧ fld r45.toNat 26 2 = 3) ∧
    ((busy v22r).barTakes 0xB00040 = true ∧ ((busy v22r).mdio 0).busy = true ∧ (busy v22r).live = true ∧
      fld ((busy v22r).mdio 0).word.toNat 26 2 = 3 ∧ fld ((busy v22w).mdio 0).word.toNat 26 2 < 2) ∧
    ((pps 0).live = true ∧ (pps 0).clk.src = .pps ∧ (pps 0).plt.cascId = 0 ∧ (pps 0).clk.ppsAt = some 0 ∧
      (Int.ofNat (pps (oneSec + ms)).ns - Int.ofNat (0 + oneSec)).natAbs ≤ ms ∧
      ms < (Int.ofNat (pps (oneSec + ms + 1)).ns - Int.ofNat (0 + oneSec)).natAbs) := by decide

/-! ### Cascade -/

def link0 (x : CasLink) : State :=
  let l : State := { up with cas := { up.cas with links := [(0, x)] } }
  l

/-- A training that fails for a lane and for all four; each step; a wrong peer; CREDIT; a link without a peer; a retrain at its
100 ms; and a module that follows module 0. -/
theorem wit_CascadeBringUpAnswers :
    let tr := fun n : Nat => link0 { ph := .training, step := n, inUse := 15 }
    let follow : State := { link0 { ph := .up } with plt := { up.plt with cascId := 3 } }
    ((tr 1).live = true ∧ ((tr 1).link 0).ph = .training ∧ ((tr 3).link 0).step ≤ 3 ∧ ({ train0 with lanesBad := 1 }).lanesBad.toNat ≠ 0 ∧
      (((tr 1).excludeLanes 0 1).link 0).inUse ≠ 0 ∧ (((tr 1).excludeLanes 0 15).link 0).inUse = 0) ∧
    (train0.lanesBad.toNat = 0 ∧ train0.ok = true ∧ ({ train0 with ok := false }).ok = false) ∧
    (((tr 4).link 0).step = 4 ∧ train0.peerId.toNat = ((tr 4).plt.cascId + 0 + 1) % 4 ∧ train0.peerCasc.toNat = (tr 4).cas.size ∧
      ({ train0 with peerId := 2 }).peerId.toNat ≠ ((tr 4).plt.cascId + 0 + 1) % 4) ∧
    (((tr 5).link 0).step = 5 ∧ train0.peerDigest = (tr 5).way.digest) ∧ (((tr 6).link 0).step = 6 ∧ ((tr 6).link 0).txq = [] ∧
      (tr 6).plt.cascId = 0 ∧ follow.plt.cascId ≠ 0 ∧ peerOf follow.plt.cascId 0 = 0 ∧ peerOf follow.plt.cascId 1 ≠ 0 ∧ ((tr 6).link 0).replay.length < 1024) ∧
    ((link0 {}).running (linkKey 0) = true ∧ ((link0 {}).link 0).ph = .down ∧ ((link0 {}).link 0).miswire = false ∧
      ((link0 {}).link 0).retryDue = none) ∧
    (((link0 { ph := .retrain, retrainDue := some 0 }).link 0).retrainDue = some 0 ∧
      ((link0 { ph := .retrain }).link 0).ph ≠ .up) ∧
    (follow.live = true ∧ follow.plt.cascId ≠ 0 ∧ follow.plt.cascId < 4 ∧ (follow.link (3 - follow.plt.cascId)).ph = .up ∧
      follow.cas.holdover = false) := by decide

/-- A link up, with and without a frame to be acknowledged: damaged, in order, repeated, after a gap, a nak; and a replay at 2 µs,
sent before fewer than and exactly 4 times. -/
theorem wit_LinkFramesAnswer :
    let g := fun n : Nat => ({ seq := 0, vc := 0, payload := [1], sends := n, at_ := 0 } : ReplayFrame)
    let l := fun n : Nat => link0 { ph := .up, replay := [g n], nextSeq := 1 }
    ((link0 {}).link 0).ph ≠ .up ∧ ((l 1).live = true ∧ ((l 1).link 0).ph = .up ∧ ((l 1).link 0).txq = []) ∧
    ({ lf0 with crcOk := false } : LinkFrame).crcOk = false ∧ (lf0.crcOk = true ∧ lf0.nak = false ∧ lf0.payload = []) ∧
    lf0.seq.toNat = ((l 1).link 0).expect ∧ seq12le (4095 : BitVec 12).toNat ((l 1).link 0).expect = true ∧
    seq12le (1 : BitVec 12).toNat ((l 1).link 0).expect = false ∧ ({ lf0 with nak := true } : LinkFrame).nak = true ∧
    (((l 1).link 0).replay = [g 1] ∧ (l 1).ns < (g 1).at_ + 2 * us ∧
      (g 3).at_ + 2 * us ≤ ({ l 3 with time := 2 * us * 2 ^ 16 } : State).ns ∧ (g 3).sends < 4 ∧ 4 ≤ (g 4).sends) := by decide

/-! ### Buffer pools -/

/-- Pool 5 of 4 buffers of the type given, buffer 2 as given. -/
def pool5 (type : Nat) (b : Buf) : State :=
  { up with bpm := { pools := [(5, { cfg := { type := type, count := 4 }, free := 3 })], bufs := [(bufKey 5 2, b)] } }

def h5 : W32 := mkHandle 5 0 2

/-- A buffer held at the counts 0, 1, 1,022 and 1,023, free, owned and not, and by a stale handle. -/
theorem wit_BufferReferencesAnswer :
    let s := fun (c m : Nat) => pool5 tMISC { alloc := true, owner := 1, count := c, marks := m }
    let b := fun (c m : Nat) => (s c m).buf (hKey h5)
    ((s 1 0).live = true ∧ (s 1022 0).stale h5 = false ∧ (b 1022 0).alloc = true ∧ (b 1022 0).count < 1023) ∧
    1023 ≤ (b 1023 0).count ∧ (s 1 0).stale (mkHandle 5 1 2) = true ∧ (pool5 tMISC {}).stale h5 = false ∧
    ((pool5 tMISC {}).buf (hKey h5)).alloc = false ∧ (b 0 0).count = 0 ∧ 1 < (b 2 0).count ∧ ((b 1 1).count = 1 ∧ (b 1 1).marks ≠ 0) ∧
    ((b 1 0).count = 1 ∧ (b 1 0).marks = 0 ∧ tb ((s 1 0).frame h5).attr 0 = false ∧ (b 1 0).owner = (1 : Byte).toNat) ∧
    (b 1 0).owner ≠ (2 : Byte).toNat := by decide

theorem wit_FreedBufferReturnsOnce :
    ((pool5 tMISC { alloc := true }).buf (hKey h5)).withheld = false ∧ (pool5 tMISC { alloc := true }).stale h5 = false := by decide

/-- A free buffer; a stale handle; a count of 0; a clear mark; and a log with 63 and with 64 entries. -/
theorem wit_DoubleFreeIsRejected :
    let e : BpmLog := { kind := 1, op := 0, agent := 0, owner := 0, seq := 0, handle := 0, time := 0, gen := 0 }
    (up.live = true ∧ ((pool5 tMISC {}).buf (hKey h5)).alloc = false) ∧ (pool5 tMISC {}).stale (mkHandle 5 1 2) = true ∧
    ((pool5 tMISC { alloc := true }).isFrame h5 = false ∧ ((pool5 tMISC { alloc := true }).buf (hKey h5)).count = 0) ∧
    ((pool5 tFRAME { alloc := true }).isFrame h5 = true ∧ tb ((pool5 tFRAME { alloc := true }).buf (hKey h5)).marks 4 = false) ∧
    (List.replicate 63 e).length < 64 ∧ 64 ≤ (List.replicate 64 e).length := by decide

/-- A pool of one buffer, which every search finds; one empty for the caller at its reserve; and marks by agents R148 names. -/
theorem wit_AllocAndMarksAnswer :
    (let s : State := { up with bpm := { pools := [(5, { cfg := { count := 1 }, free := 1 })] } };
      s.emptyFor 5 false = false ∧ s.freeIdx 5 = some 0) ∧
    (let s : State := { up with bpm := { pools := [(5, { cfg := { count := 1, reserve := 1 }, free := 1 })] } };
      s.emptyFor 5 false = true ∧ s.emptyFor 5 true = false) ∧
    (let s := fun m : Nat => pool5 tFRAME { alloc := true, marks := m };
      (s 0).stale h5 = false ∧ ((s 0).buf (hKey h5)).alloc = true ∧ (s 0).isFrame h5 = true ∧ mayMark (1 : Byte).toNat 0 = true ∧
        tb ((s 0).buf (hKey h5)).marks 0 = false ∧ mayMark (0x41 : Byte).toNat 0 = false ∧ mayClear (1 : Byte).toNat 0 = true ∧
        tb ((s 3).buf (hKey h5)).marks 0 = true ∧ ((s 3).buf (hKey h5)).marks ≠ 2 ^ 0 ∧ ((s 1).buf (hKey h5)).marks = 2 ^ 0 ∧
        ((s 1).buf (hKey h5)).count = 0 ∧ tb ((s 1).frame h5).attr 0 = false) := by
  refine ⟨⟨by decide, ?_⟩, by decide, by decide⟩
  simp [State.freeIdx, State.pool, State.buf, Tbl.get, Tbl.find, firstFrom, Nat.mod_one]

theorem wit_BpmRegistersAnswer : up.barTakes 0x800040 = true ∧ up.barServes 0x800000 = true ∧ up.bpm.log = [] ∧
    up.barTakes 0x800064 = true ∧ tb (1 : W32).toNat 0 = true := by decide

/-- The last reference frees a MISC buffer: its generation rises and FREES counts; a DEC of the old handle is then a double free that
is counted (R342, R343, R348). -/
theorem test_lastReference :
    let s := run (.dec 1 h5) (pool5 tMISC { alloc := true, owner := 1, count := 1 })
    s.buf (hKey h5) = { gen := 1 } ∧ s.cntOf bBPM 0 1 = 1 ∧ (run (.dec 1 h5) s).cntOf bBPM 0 3 = 1 := by decide

/-! ### Module memory -/

theorem wit_StoredBytesReadBack :
    up.chanOf 31 = up.chanOf 0 ∧ up.chanOff 31 ≠ up.chanOff 0 ∧
    (∀ k ∈ blocksOf 32 1, Tbl.find up.mem.poison k = none) ∧ ((31 : Nat) < 32 ∨ 32 + 1 ≤ 31) ∧ ((33 : Nat) < 32 ∨ 32 + 1 ≤ 33) ∧
    (32 ≤ 32 * 1 ∧ 32 * 1 + 32 ≤ 32 + 32) := by decide

/-- The last byte of the range and the first beyond; a block that a queued write covers; a channel that is free, and one in a refresh window; a poisoned and a clean block; 15
and 47 writes that wait; and a read that waits for its second attempt. -/
theorem wit_MemoryCommandsAnswer :
    let p : State := { up with mem := { poison := [(0, ())] } }
    let r : State := { up with mem := { chans := [(0, { retry := [{ agent := 1, addr := 0, scrub := false }] })] } }
    let w := fun n : Nat => ({ up with mem := { chans := [(0, { writes := List.replicate n { agent := 1, addr := 0, data := [0] } })] } } : State)
    let free := fun s : State => s.live && decide ((s.chan 0).inflight < 256) && decide ((s.chan 0).writes.length < 48) &&
      decide ((s.chan 0).banks = []) && !s.memStalls && decide ((s.chan 0).slot ≤ s.memSlotNow) && decide ((s.chan 0).ph ≠ .selfRefresh) &&
      (s.chan 0).mayActivate s.ns
    (up.live = true ∧ (0x77FFFFFFF : W64).toNat + [(1 : Byte)].length ≤ up.memEnd ∧ (up.chan (up.chanOf 0x77FFFFFFF)).inflight < 256) ∧
    up.memEnd < (0x780000000 : W64).toNat + [(1 : Byte)].length ∧ up.memEnd ≤ (0x780000000 : W64).toNat ∧
    (let s := ({ up with mem := { chans := [(0, { writes := [{ agent := 1, addr := 0, data := zeros 32 }] })] } } : State);
      s.queuedAt 31 = true ∧ s.queuedAt 4096 = false) ∧ up.queuedAt 0 = false ∧
    (((w 15).chan 0).writes.length < 16 ∧ 47 ≤ ((w 47).chan 0).writes.length ∧ ((w 47).chan 0).inflight < 256) ∧
    (up.chanOf 0 = 0 ∧ free up = true ∧ ({ up with mem := { retrainEnd := 1 } } : State).memStalls = true) ∧
    (0x77FFFFFFF : W64).toNat < up.memEnd ∧ p.poisoned 31 1 = true ∧ p.poisoned 32 1 = false ∧ free p = true ∧
    (free r = true ∧ (r.chan 0).retry = [{ agent := 1, addr := 0, scrub := false }]) := by decide +kernel

/-- A channel whose one request is older than 2 us. -/
def oldRequest : State :=
  let q : MemReq := { agent := 1, addr := 0, at_ := 0, kind := .read .clean false false, data := [] }
  { upAt (2 * us + 1) with mem := { chans := [(0, { banks := [(3, [q])] })] } }

/-- A request chosen; a window due, with and without an announced interval; a row at its time; readouts above 85 °C, and at 82 °C after 1 s; a drift
above its maximum; a retrain 10 ms after the last, at its first and second failure; and the patrol at its last block. -/
theorem wit_MemoryScheduleAnswers :
    let m := fun x : MemSt => { up with mem := x }
    let at_ := fun (n : Nat) (s : State) => { s with time := n * 2 ^ 16 }
    (oldRequest.chooseReq 0).isSome = true ∧ (oldRequest.reqsOf 0).any (fun e => decide (e.2.at_ + 2 * us < oldRequest.ns)) = true ∧
    (up.memAwake = true ∧ up.mem.nextWindow ≤ up.ns ∧ up.mem.change = none) ∧
    (m { change := some (true, 0) }).mem.change = some (true, 0) ∧
    (let s := m { chans := [(0, { rows := [(3, (7, 0))] })] }; Tbl.find (s.chan 0).rows 3 = some (7, 0) ∧ 0 ≤ s.ns) ∧
    (850 < (851 : Int) ∧ up.mem.hot = false) ∧
    (let s := at_ oneSec (m { hot := true, coolSince := some 0 });
      s.live = true ∧ s.mem.hot = true ∧ s.mem.coolSince = some 0 ∧ 0 + oneSec ≤ s.ns ∧ s.mem.change = none) ∧
    ((up.chan 0).ph ≠ .excluded ∧ up.driftMax < getAt 0 (([5] : List (BitVec 6)).map (·.toNat)) 0) ∧
    (let s := at_ (10 * ms) (m { retrainQ := [(0, 0)], lastRetrain := some 0, chans := [(0, { retrainFails := 1 })] });
      s.memAwake = true ∧ s.mem.retrainQ = [(0, 0)] ∧ 0 + ms ≤ s.ns ∧ s.mem.lastRetrain = some 0 ∧ 0 + 10 * ms ≤ s.ns ∧
        1 ≤ (s.chan 0).retrainFails ∧ (up.chan 0).retrainFails = 0) ∧
    (tb up.memCfg 23 = true ∧ (up.chan (up.chanOf up.mem.scrubPos)).inflight < 256 ∧ up.memEnd ≤ 0x77FFFFFE0 + 32 ∧
      (up.chan (up.chanOf up.mem.scrubPos)).wanted = false ∧ (up.chan (up.chanOf up.mem.scrubPos)).slot ≤ up.memSlotNow ∧
      up.memStalls = false) := by decide +kernel

/-- Bytes written to module memory at the end of one channel's 32 bytes and the start of the next read back in order (R354). -/
theorem test_memory : (run (.memWrite 1 31 [7, 8]) up).dram 30 4 = [0, 7, 8, 0] := by decide

/-! ### The host interface -/

/-- A command of ring 0, consumed: opcode, target, length, and params from their bytes. -/
def host (op : W16) (target len : W32) (params : Bytes) (s : State) : State :=
  withCmd { entry0 with opcode := op, target := target, len := len, params := padTo 28 params } s

def entryOf (op : W16) (target len : W32) (params : Bytes) : SubEntry :=
  { entry0 with opcode := op, target := target, len := len, params := padTo 28 params }

/-- The command is the one at hand. -/
def isCmd (op : W16) (target len : W32) (params : Bytes) (s : State) : Bool :=
  let t := host op target len params s
  t.cmdsRun && t.serves 0 && t.hqe.bme && decide (t.command cmd1 op.toNat = some (entryOf op target len params))

theorem wit_HostResetsAnswer :
    let held : State := { up with hqe := { rings := [(3, { ph := .run })], eqs := [(4, { ph := .run })] } }
    up.pcie = true ∧ (3 ≠ 0 ∧ (held.ring 3).ph ≠ .free ∧ (held.eq 4).ph ≠ .free) ∧ up.hqe.perst = true ∧
    (let s : State := { up with hqe := { linkUp := true, readyAt := 0 } }; s.hqe.linkUp = true ∧ s.hqe.readyAt ≤ s.ns) ∧
    (let s : State := { up with hqe := { linkUp := true, readyAt := 1 } }; s.ns < s.hqe.readyAt) := by decide

/-- Ring 1 of 16 entries, 5 consumed and completed and 3 taken; and event queue 0 with 4 posted and 2 taken. -/
theorem wit_DoorbellsAnswer :
    let r : Ring := { ph := .run, size := 16, consumed := 5, produced := 5, headSeen := 3 }
    let s : State := { up with hqe := { rings := [(1, r)], eqs := [(0, { ph := .run, posted := 4, db := 2, armed := true, firstAt := some 0 })] } }
    (s.cmdsRun = true ∧ s.running bHQE = true ∧ (s.ring 1).ph = .run ∧ (s.ring 2).ph ≠ .run) ∧
    ((21 : W32) ≠ 5 ∧ serial32 (21 : W32).toNat (5 : W32).toNat ≤ 16 ∧ 16 < serial32 (22 : W32).toNat (5 : W32).toNat) ∧
    (0 < serial32 (5 : W32).toNat 3 ∧ serial32 (5 : W32).toNat 3 ≤ serial32 5 3 ∧ serial32 (3 : W32).toNat 3 = 0 ∧
      serial32 5 3 < serial32 (6 : W32).toNat 3) ∧
    ((s.eq 0).ph = .run ∧ serial32 (4 : W32).toNat 2 ≤ serial32 4 2 ∧ serial32 4 2 < serial32 (5 : W32).toNat 2 ∧ (s.eq 1).ph ≠ .run) ∧
    (s.live = true ∧ (s.eq 0).ph ≠ .free ∧ (s.eq 0).armed = true ∧ 0 < (s.eq 0).unread ∧ fld (s.coalAct 0) 0 8 ≤ (s.eq 0).unread ∧
      (s.eq 0).firstAt = some 0 ∧ 0 + fld (s.coalAct 0) 8 16 * us ≤ s.ns) ∧
    up.barTakes 0x400048 = true ∧
    (let w : State := { up with time := 2000 * ms * 2 ^ 16, hqe := { attached := true } };
      w.live = true ∧ w.hqe.attached = true ∧ w.hqe.hbTimeout ≠ 0 ∧ w.hqe.hbAt + w.hqe.hbTimeout * ms ≤ w.ns) := by decide

theorem wit_CompletionSlotsAreReserved :
    let f := fun n : Nat => ({ ph := .run, size := 16, produced := w32 n, flight := [{ ord := 0, e := entry0 }] } : Ring)
    let fits := fun x : Ring => serial32 x.produced.toNat x.headSeen.toNat + x.flight.length ≤ x.size
    fits (f 15) ∧ ¬ fits (f 16) ∧ ∃ e ∈ (f 15).flight, e.e.sseq = entry0.sseq :=
  ⟨by decide, by decide, _, List.mem_cons_self, rfl⟩

theorem wit_RingAndQueueCommandsAnswer :
    let s : State := { up with way := { queueParts := [0, 0, 4] } }
    let ring : Bytes := [0, 0, 16, 0] ++ zeros 16 ++ [0xFF, 0xFF]
    let eqp : Bytes := [64, 0, 0, 0] ++ zeros 8 ++ [1]
    let bd : State := { up with way := { bounds := [(0x0501, (1, 64)), (0x0502, (0, 1000))] } }
    isCmd 0x01 0 0 [] up = true ∧
    (isCmd 0x10 1 0 ring s = true ∧ ringTarget (entryOf 0x10 1 0 ring) = true ∧ (entryOf 0x10 1 0 ring).param 0 1 ≤ 2 ∧
      isPow2In ((entryOf 0x10 1 0 ring).param 2 2) 16 4096 = true ∧ placeOk (entryOf 0x10 1 0 ring) 16 = true ∧
      (entryOf 0x10 1 0 ring).param 20 2 = 0xFFFF ∧ 1 < getAt 0 s.way.queueParts 2 / 2 ∧ ((host 0x10 1 0 ring s).ring 1).ph = .free) ∧
    ringTarget (entryOf 0x10 0 0 []) = false ∧
    (let t := (host 0x11 1 0 [] up).setRing 1 { ph := .held, size := 16 };
      t.command cmd1 0x11 = some (entryOf 0x11 1 0 []) ∧ (t.ring 1).ph ≠ .free ∧ placeOk (entryOf 0x12 1 0 []) (t.ring 1).size = true) ∧
    isCmd 0x12 1 0 [] up = true ∧
    (isCmd 0x13 7 0 eqp bd = true ∧ eqTarget (entryOf 0x13 7 0 eqp) = true ∧ eqPlaceOk (entryOf 0x13 7 0 eqp) = true ∧
      (host 0x13 7 0 eqp bd).eqCoalOk (entryOf 0x13 7 0 eqp) = true ∧ ((host 0x13 7 0 eqp bd).eq 7).ph = .free) ∧
    (isCmd 0x14 7 0 [] up = true ∧ isCmd 0x15 7 0 eqp bd = true ∧ (((host 0x15 7 0 eqp bd).setEq 7 { ph := .held }).eq 7).ph ≠ .free) ∧
    isCmd 0x16 0 0 [] up = true := by decide

/-- A TX ring with a frame of 60 bytes in front, a CELL pool of 32 buffers; an RX ring with a posted buffer; and a frame whose time
has come. -/
theorem wit_FrameRingsAnswer :
    let e : SubEntry := { entry0 with opcode := 0x100, target := 9, len := 60 }
    let r := fun k : Nat => { up with hqe := { up.hqe with
      bme := true, rings := [(0, { ph := .run, kind := k, size := 16, flight := [{ ord := 0, e := e }] })] } }
    let rx : State := { r kRX with regs := [(0x400070, 0x80000000)] }
    ((r kTX).cmdsRun = true ∧ (r kTX).frontEntry cmd1 kTX 0x100 = some e ∧ e.target.toNat < 262144 ∧ 0 < e.len.toNat ∧
      e.len.toNat + 4 ≤ 9216 ∧ (r kTX).hqe.bme = true ∧ (r kTX).hasCredit 4 ((r kTX).groupOf 0) 0 (cellsFor 64) = true) ∧
    (rx.cmdsRun = true ∧ (rx.ring 0).kind = kRX ∧ (rx.flightOf cmd1).isSome = true ∧ tb rx.excCfg 31 = true ∧
      fld rx.excCfg 0 14 = 0) ∧ up.live = true := by decide

def openAs (k : Nat) : State := { up with opens := [(5, k)] }

/-- Encode context 5, bound by composition context 6. -/
def bound5 : State := ({ up with opens := [(5, 3), (6, 5)] } : State).setCf 6 0x08 2 5

/-- A CELL pool of 32 buffers, one in each bank. -/
def cells32 : State := { up with bpm := { pools := [(0, { cfg := { count := 32 }, free := 32 })] } }

/-- A cell is found wherever the search starts. -/
theorem wit_FrameRingsAnswer_cells : (cells32.allocMany aHqe 0 1 false (cellsFor 64)).2.length = cellsFor 64 := by
  have h : cells32.freeIdx 0 = some 1 := by
    simp [State.freeIdx, cells32, State.pool, State.buf, Tbl.get, Tbl.find, firstFrom, Nat.mod_one, up]
    decide
  have c : cellsFor 64 = 1 := by decide
  have e : cells32.emptyFor 0 false = false := by decide
  rw [c]
  simp only [State.allocMany, State.takeMany, State.alloc, e, h]
  decide

/-- A record of each kind, open, bound and closed. What opening an image answers is the statement's own. -/
theorem wit_ContextCommandsAnswer :
    (isCmd 0x20 5 256 [] up = true ∧ isCmd 0x21 5 256 [] up = true ∧ isCmd 0x24 5 256 [] up = true ∧
      isCmd 0x25 5 256 [] up = true) ∧
    (∀ k ∈ [1, 2, 3, 4, 5], isCmd 0x22 5 0 [] (openAs k) = true ∧ (openAs k).boundCtx 5 = false ∧
      Tbl.find (openAs k).opens 5 = some k ∧ (openAs k).erelm.sess.all (fun x => decide (x.2.closer ≠ some cmd1)) = true) ∧
    (Tbl.find up.opens 5 = none ∧ up.boundCtx 5 = false) ∧ (bound5.boundCtx 5 = true ∧ isCmd 0x22 5 0 [] bound5 = true) ∧
    (isCmd 0x23 5 256 [] (openAs 3) = true ∧ (Tbl.find (openAs 3).opens 5).isSome = true ∧ isCmd 0x23 5 256 [] up = true) ∧
    (isCmd 0x26 5 256 [] (openAs 1) = true ∧ (openAs 1).isOpen 5 kSESS = true) := by decide +kernel

def surf0 : State := { up with cmp := { surfs := [(3, { size := 512 })] }, way := { carves := [(0, (0, (1024, 2)))] } }

def surfBound : State := (({ surf0 with opens := [(5, 5)] } : State).setCf 5 0x0A 1 1).store 0 [1, 0, 0, 0, 3]

def desc0 : SurfaceDesc := { base := 0, width := 64, height := 2, pitch := 256, format := 0 }

def frame0 : State := pool5 tFRAME { alloc := true, count := 1022, owner := aHost }

/-- A surface whose description fits its carve-out; one bound, and one not; a composition context; and a FRAME buffer held and
owned. What a buffer in host memory describes is opaque (log entry 21), so the clauses that need a reading of it stand on one. -/
theorem wit_SurfaceAndFrameCommandsAnswer :
    (isCmd 0x30 0 64 [] surf0 = true ∧ surf0.surfaceOk desc0 = true ∧ surf0.surfaceOk { desc0 with width := 8193 } = false ∧
      surf0.cmp.surfs.free 65536 = some 0) ∧
    (isCmd 0x31 3 64 [] surf0 = true ∧ Tbl.find surf0.cmp.surfs 3 = some { size := 512 }) ∧
    (isCmd 0x32 3 0 [] surf0 = true ∧ isCmd 0x32 3 8 [] surf0 = true ∧ (entryOf 0x32 3 0 []).len = 0 ∧
      (entryOf 0x32 3 8 []).len ≠ 0) ∧
    (isCmd 0x33 3 0 [] surf0 = true ∧ surf0.bindersOf 3 = [] ∧ surf0.surfInUse 3 = false ∧ surf0.surfPending 3 = false) ∧
    (isCmd 0x33 3 0 [] surfBound = true ∧ surfBound.bindersOf 3 ≠ []) ∧
    (isCmd 0x34 5 64 [] surfBound = true ∧ surfBound.isOpen 5 kCMP = true) ∧
    (isCmd 0x40 h5 128 [] frame0 = true ∧ isCmd 0x41 h5 128 [] frame0 = true ∧ isCmd 0x42 h5 128 [] frame0 = true ∧
      frame0.fbBad h5 = none ∧ (frame0.buf (hKey h5)).count < 1023 ∧ 0 < (frame0.buf (hKey h5)).count) := by decide +kernel

/-- Params of QUEUE_OPEN: a limit of 1, destination 263, class 7, profile 4,095, shaper 16,383. -/
def openParams : Bytes := [1, 0, 0, 0, 7, 1, 7, 0, 0xFF, 0x0F, 0xFF, 0x3F]

def queue9 : State := up.setQueue 9 { en := true }

def rec4 : LogRec := { seq := 4, boot := 1, time := 0, source := 1, outcome := 0, flags := 0, detail := 0 }

theorem wit_QueueLaneAndLogCommandsAnswer :
    (isCmd 0x50 0x3FFFF 0 openParams up = true ∧ (entryOf 0x50 0x3FFFF 0 openParams).param 4 2 < 264 ∧
      (entryOf 0x50 0x3FFFF 0 openParams).param 8 2 < 4096 ∧ (entryOf 0x50 0x3FFFF 0 openParams).param 10 2 < 16384 ∧
      (up.queue 0x3FFFF).en = false ∧ (queue9.queue 9).en = true) ∧
    (isCmd 0x51 9 0 [] queue9 = true ∧ (queue9.queue 9).closer ≠ some cmd1 ∧ (entryOf 0x51 9 0 []).param 0 1 = 0 ∧
      isCmd 0x51 9 0 [1] queue9 = true ∧ (entryOf 0x51 9 0 [1]).param 0 1 = 1) ∧
    (isCmd 0x60 0 0 [1] up = true ∧ cmd1 ∉ up.msc.drains ∧ 0 ∈ lanesOf ((entryOf 0x60 0 0 [1]).param 0 8)) ∧
    isCmd 0x61 0 0 [1] up = true ∧ (isCmd 0x80 2 0 [] up = true ∧ isCmd 0x80 3 0 [] up = true) ∧ isCmd 0x81 0 0 [] up = true ∧
    (isCmd 0x91 0 32 [0, 0, 0, 0, 1] { up with flt := { pendingLog := [rec4] } } = true ∧
      (entryOf 0x91 0 32 [0, 0, 0, 0, 1]).param 4 4 * 32 ≤ (32 : W32).toNat) := by decide +kernel

/-- The head of SQ_TAIL's table (R379): with 5 consumed of a ring of 16, a tail of 22 names 17 entries and stops the ring for reason 1,
DOORBELL. -/
theorem test_doorbell :
    let s : State := { up with hqe := { rings := [(1, { ph := .run, size := 16, consumed := 5, produced := 5, headSeen := 5 })] } }
    ((run (.sqTail 1 22 []) s).ring 1).ph = .stopped ∧ ((run (.sqTail 1 22 []) s).ring 1).reason = 1 ∧
    ((run (.sqTail 1 5 []) s).ring 1).ph = .run := by decide

/-- A NOP completes OK: its entry leaves the ring and the completion takes the next sequence (R376, R384). -/
theorem test_nop : ((run (.nop cmd1) (host 0x01 0 0 [] up)).ring 0).flight = [] ∧
    ((run (.nop cmd1) (host 0x01 0 0 [] up)).ring 0).produced = 1 := by decide

/-! ### Events, processors, DMA -/

/-- Source 5 as given, routed with priority 9 to the target given, enabled there. -/
def srcAt (t : Nat) (e : EvSrc) (x : EvTgt) : State :=
  { up with evc := { srcs := [(5, e)], tgts := [(t, x)], route := [(5, 0x90000000)] }, regs := [(tgtCfgAddr t, 0xC0000000)] }

/-- An edge at an idle, a pending and an in-service source; source 0; and a level, idle and pending. -/
theorem wit_EventSourcesAnswer :
    up.live = true ∧ isLevel 5 = false ∧ (up.src 5).ph = .idle ∧ ((srcAt 0 { ph := .pending } {}).src 5).ph = .pending ∧
    ((srcAt 0 { ph := .inService } {}).src 5).ph = .inService ∧ ((srcAt 0 { ph := .inService } {}).src 5).again = false ∧
    ((srcAt 0 { ph := .inService, again := true } {}).src 5).again = true ∧ isLevel 0x200 = true ∧ (up.src 0x200).asserted = false ∧
    ((up.setSrc 0x200 { ph := .pending, asserted := true }).src 0x200).ph = .pending := by decide

/-- A processor's target frozen; enabled without a source; with source 5 and 7 and 8 entries on its stack; a complete of the top and of
another; and the same at the host's target 5. -/
theorem wit_ClaimCompleteThawAnswer :
    let p : EvSrc := { ph := .pending, target := some 0, rt := 0x90000000 }
    let st := fun n : Nat => List.replicate n ((9, 0) : Nat × Nat)
    let s := fun n : Nat => srcAt 0 p { stack := st n }
    (up.live = true ∧ (srcAt 0 p { frozen := true }).live = true ∧ ((srcAt 0 p { frozen := true }).tgt 0).frozen = true) ∧
    ((srcAt 0 {} {}).tgtEn 0 = true ∧ (srcAt 0 {} {}).tgtClaims 0 = true ∧ (srcAt 0 {} {}).best 0 = none) ∧
    (((s 7).tgt 0).frozen = false ∧ (s 7).tgtEn 0 = true ∧ (s 7).tgtClaims 0 = true ∧ (s 7).best 0 = some 5 ∧
      ((s 7).tgt 0).stack.length < 8 ∧ (s 8).best 0 = some 5 ∧ 8 ≤ ((s 8).tgt 0).stack.length) ∧
    (((s 1).tgt 0).stack = [(9, 0)] ∧ fld (9 : W32).toNat 0 16 = 9 ∧ fld (8 : W32).toNat 0 16 ≠ 9) ∧
    tb (1 : W32).toNat 0 = true ∧
    (let h := srcAt 5 { p with target := some 5 } {}; h.barTakes 0x501000 = true ∧ h.best 5 = some 5 ∧ h.tgtClaims 5 = true) := by decide

theorem wit_ClaimTakesTheHighestPriority :
    let s := srcAt 0 { ph := .pending, target := some 0, rt := 0x90000000 } {}
    s.evc.srcs.wf = true ∧ s.best 0 = some 5 ∧ s.eligible 0 5 = true := by decide

/-- SP0's missed report; its service 3 ms later; a second at the end of the 60 s of a processor without commands; and the window's
end. -/
theorem wit_ProcessorSupervisionAnswers :
    let c := fun (n : Nat) (x : Cpu) => (upAt n).setCpu 1 x
    (up.live = true ∧ (up.cpu 1).ph = .run ∧ (up.cpu 1).watched = false ∧ tb (up.cpu 1).services 0 = true ∧
      tb (up.cpu 2).services 0 = false) ∧
    (let s := c (60 * oneSec) { ph := .run, watched := true, restartAt := some 0, services := 2 };
      (s.cpu 1).ph = .run ∧ (s.cpu 1).watched = true ∧ (s.cpu 1).restartAt = some 0 ∧ s.ns ≤ 0 + 60 * oneSec ∧
        tb (s.cpu 1).services 0 = false ∧ 0 + 60 * oneSec ≤ s.ns) ∧
    (let s := c (3 * ms) { ph := .restarting, restartAt := some 0 };
      (s.cpu 1).ph = .restarting ∧ (s.cpu 1).restartAt = some 0 ∧ 0 + 3 * ms ≤ s.ns) := by decide

/-- The host's channel 16: stopped, at work, refused for a count of 0, and with 64 bytes in an allowed carve-out. -/
def dma16 (count : W32) (x : DmaCh) : State :=
  { up with dma := { chans := [(16, x)] }, way := { carves := [(0, (0, (4096, 1)))] },
            regs := [(dmaAddr 16 0x20, count), (dmaAddr 16 0x24, 0x00200000)] }

theorem wit_DmaCommandsAnswer :
    let go : W32 := 0x80200000; let re : W32 := 0xC0200000
    (up.dmaMay 16 = true ∧ tb go.toNat 31 = true ∧ tb go.toNat 30 = false ∧ tb re.toNat 30 = true) ∧
    (((dma16 64 {}).setUnit (dmaKey 16) {}).unit (dmaKey 16)).en = false ∧ ((dma16 64 { busy := true }).dmaCh 16).busy = true ∧
    (((dma16 0 {}).unit (dmaKey 16)).en = true ∧ ((dma16 0 {}).dmaCh 16).busy = false ∧ ((dma16 0 {}).dmaXctl 16 go).dmaErr 16 ≠ 0) ∧
    ((dma16 64 {}).dmaXctl 16 go).dmaErr 16 = 0 ∧ ((dma16 64 {}).dmaXctl 16 re).dmaErr 16 = 0 ∧
    ((dma16 64 { busy := true }).live = true ∧ (dma16 64 { busy := true }).dmaReady 16 = true ∧
      (dma16 64 { busy := true }).dmaSrcHost 16 = true ∧ (dma16 64 { busy := true }).dma.chans.any (fun e => e.2.busy) = true) ∧
    up.barTakes 0x600040 = true := by decide

/-- Claim of source 5 of priority 9 at target 0: it is in service and the threshold is 9 (R400); a complete of another source freezes the
target (R402). -/
theorem test_claim :
    let s := run (.claim 0) (srcAt 0 { ph := .pending, target := some 0, rt := 0x90000000 } {})
    (s.src 5).ph = .inService ∧ s.tgtThr 0 = 9 ∧ s.out = [.claimed 0 5] ∧ ((run (.complete 0 6) s).tgt 0).frozen = true ∧
    ((run (.complete 0 5) s).src 5).ph = .idle := by decide

/-! ### Security -/

def oneOf (f : List (W16 × Bytes)) (s : State) : Bool := f.all (fun e => isCmd e.1 0 64 e.2 s)

/-- Each command with a structural operation in progress and without; an image, a waymap and a detour that their first check refuses;
a ratchet; and a token refused with 2 and with 3 before it. An accepted image must verify under opaque signatures, so its
clause's witness is `wit_ImagesAndQuotesAnswer_accepted`, relative to them. -/
theorem wit_ImagesAndQuotesAnswer :
    (oneOf [(0x70, []), (0x71, []), (0x72, []), (0x74, []), (0x74, [1])] up = true ∧ up.structural = false ∧
      up.sec.detour = none) ∧
    (isCmd 0x70 0 64 [] { up with plt := { up.plt with busy := true } } = true ∧
      ({ up with plt := { up.plt with busy := true } } : State).structural = true) ∧
    ((entryOf 0x70 0 64 []).ratchet = false ∧ (up.install 0 [] true).2 ≠ 0 ∧ imgKind [] ≠ 5) ∧
    (isCmd 0x70 0 0 [1] up = true ∧ (entryOf 0x70 0 0 [1]).ratchet = true ∧ up.sec.svn ≤ 64 ∧ up.lanesSvn ≤ 64) ∧
    (up.wmCheck [] 0).isSome = true ∧ (up.detourCheck []).1 ≠ 0 ∧ (entryOf 0x74 0 64 []).cert = false ∧
    (entryOf 0x74 0 64 [1]).cert = true ∧
    (up.sec.dbgFails < 3 ∧ up.tokenCode [] ≠ 0 ∧ 3 ≤ ({ up with sec := { dbgFails := 3 } } : State).sec.dbgFails) := by
  decide +kernel

/-- Whatever image verifies, its check answers 0. -/
theorem wit_ImagesAndQuotesAnswer_accepted (s : State) (b : Bytes) (i : Nat) (h : s.vendorFor (imgSigner b) = some i)
    (v : sigOk (Config.vendorKey i) b "FV9256-FW" (imgLen b) = true) : s.vendorCode b "FV9256-FW" = 0 := by
  simp [State.vendorCode, h, v]

/-! ### Supply, power, faults -/

def plt0 (p : PltSt) : State := { up with plt := p }

theorem wit_SupplyCommandsAnswer :
    let at_ := fun (n : Nat) (p : PltSt) => { upAt n with plt := p }
    (State.reset.plt.up = false ∧ State.reset.plt.thermal = false) ∧ (plt0 { thermal := true }).plt.thermal = true ∧
    (up.plt.up = true ∧ up.plt.onHoldup = false ∧ (plt0 { up := true, onHoldup := true }).plt.onHoldup = true) ∧
    (up.plt.pfail = false ∧ up.thresh ≤ up.thresh ∧ up.thresh - 1 < up.thresh ∧ up.thresh - 1 ≤ up.thresh - 1 ∧
      up.thresh - 1 < 400) ∧
    (let s := at_ (10 * ms) { up := true, pfail := true };
      s.plt.pfail = true ∧ s.plt.pfailAt + 10 * ms ≤ s.ns ∧ s.thresh + 4 < s.thresh + 5 ∧ up.ns < up.plt.pfailAt + 10 * ms) ∧
    (let s := at_ (5 * oneSec) { up := true, chargeAt := some 0 };
      s.plt.chargeAt = some 0 ∧ 0 + 5 * oneSec ≤ s.ns ∧ up.ns < 0 + 5 * oneSec) := by decide

/-- POWER_STATE to 5, to the present state, to each deeper one, and during a transition; a block that refuses, one that has not
stopped, one that has, and the last; timers at their time; and wakes from each state. -/
theorem wit_PowerCommandsAnswer :
    let go := fun p : PltSt => plt0 { p with up := true, busy := true, target := 2 }
    let busyDma : State := { go { block := 2 } with dma := { chans := [(16, { busy := true })] } }
    (isCmd 0x90 5 0 [] up = true ∧ isCmd 0x90 0 0 [] up = true ∧ isCmd 0x90 4 0 [] up = true ∧ up.plt.cmd ≠ some cmd1 ∧
      up.plt.pend = none ∧ up.structural = false ∧ (0 : W32).toNat = up.plt.cur ∧ up.plt.cur < (4 : W32).toNat) ∧
    (isCmd 0x90 2 0 [] (go {}) = true ∧ (go {}).structural = true) ∧
    (up.plt.cur ≤ 1 ∧ 4 < (5 : Byte).toNat ∧ (4 : Byte).toNat ≤ 4 ∧ up.plt.recovery = false) ∧
    ((0x58 : BitVec 7).toNat = 0x58 + up.plt.cascId % 4 ∧ (0x59 : BitVec 7).toNat ≠ 0x58 + up.plt.cascId % 4 ∧
      2 ≤ (plt0 { up := true, cur := 2 }).plt.cur) ∧
    ((go {}).plt.block = 0 ∧ busyDma.refuses 2 = true) ∧
    ((go { block := 5 }).refuses 5 = false ∧ (go { block := 5 }).stopDone 5 = true ∧
      (stopList 0 2).find? (fun x => decide (5 < x)) ≠ none ∧ (stopList 0 2).find? (fun x => decide (10 < x)) = none) ∧
    (let s : State := { arriving0.setCopy 3 { place := .queued } with plt := (go { block := 5, drainDue := some 0 }).plt };
      s.plt.drainDue = some 0 ∧ s.plt.busy = true ∧ s.plt.block = 5 ∧ 0 ≤ s.ns ∧ s.egressEmpty = false ∧ s.stopDone 5 = false) ∧
    ((plt0 { up := true, retryDue := some 0 }).plt.retryDue = some 0 ∧ (plt0 { up := true, timerDue := some 0 }).plt.timerDue = some 0) ∧
    (up.plt.cur ≠ 4 ∧ (plt0 { cur := 4 }).plt.cur = 4) ∧
    ((plt0 { up := true, cur := 2 }).wakesFrom 3 = true ∧ (plt0 { up := true, cur := 1 }).wakesFrom 3 = false) ∧
    (let s := up.setLane 0 { idleAt := some 0, power := 2 }; (s.lane 0).idleAt = some 0 ∧ (s.members 0).all (fun m => s.laneIsIdle m) = true ∧
      s.running (laneKey (s.leadFor 0)) = true ∧ (s.lane (s.leadFor 0)).power = 2 ∧ (s.lane (s.leadFor 0)).gate = false) ∧
    (let s := up.setLane 0 { idleAt := some 0 }; (s.members 0).all (fun m => s.laneIsIdle m) = false ∧ (s.lane (s.leadFor 0)).power ≠ 2) ∧
    ((pipe0 { idleAt := some 0 }).pipe 0).idleAt = some 0 := by decide

/-- A fault; a forced and an unforced write; STICKY cleared and not; recovery's chunk 383 and 384, its busy time, and a bank that its
header refuses. A bank that passes must verify under opaque signatures. -/
theorem wit_FaultAndRecoveryCommandsAnswer :
    let r : State := plt0 { up := true, recovery := true }
    up.plt.up = true ∧ up.barTakes 0x200000 = true ∧ up.barTakes 0x200048 = true ∧ up.flt.safe = false ∧ up.live = true ∧
    (r.barTakes 0x300080 = true ∧ r.plt.recovery = true ∧ r.sec.recBusy = false ∧ tb (0x8000017F : W32).toNat 31 = true ∧
      fld (0x8000017F : W32).toNat 29 2 = 0 ∧ fld (0x8000017F : W32).toNat 0 10 ≤ 383 ∧ fld (0x80000180 : W32).toNat 0 10 = 384) ∧
    (fld (0xA0000000 : W32).toNat 29 2 = 1 ∧ (r.recWrite 0xA0000000).bankCode (r.recWrite 0xA0000000).recBank ≠ 0) ∧
    ({ r with sec := { recBusy := true } } : State).sec.recBusy = true := by decide

/-! ### The whole module -/

/-- A module without supply, one in OFF at WAKE_N, and the safe state under a write. -/
theorem wit_UnsuppliedOrSafeModuleIsInert : State.reset.plt.up = false ∧ State.reset.plt.cur ≠ 4 ∧
    (∀ b : BoardInputs, Instr.bpmLogPop ≠ .vinRise b) ∧ fromHost (.registerWrite 0x50 1) = true ∧ up.enterSafe.flt.safe = true :=
  ⟨by decide, by decide, fun _ => Instr.noConfusion, by decide, by decide⟩

theorem wit_StepTakesTheFrontAndKeepsTheRest : ({ up with pending := [.bpmLogPop, .registerWrite 0x50 1] } : State).queueWf = true ∧
    State.reset.queueWf = true := by decide

/-- Without a bundle in flash VIN_RISE leads to recovery (R427): firmware does not run, and BAR0 serves only GLB, SEC and FLT. -/
theorem test_recovery :
    let s := run (.vinRise board0) State.reset
    s.plt.up = true ∧ s.plt.recovery = true ∧ s.barServes 0x300080 = true ∧ s.barServes 0x900040 = false := by decide +kernel

/-- A fault raised twice: STICKY, COUNT 2, the particulars of the second (R449, R451). -/
theorem test_fault :
    let s := run (.faultRaise 3 5 6) (run (.faultRaise 3 1 2) up)
    (s.fltSrc 3).sticky = true ∧ (s.fltSrc 3).count = 2 ∧ (s.fltSrc 3).detail = 0x00060005 := by decide

/-! ### The manual's worked examples -/

/-- Encode context 5 as in the example of the class 31 tram: 1.5 Mb/s, 30 pictures/s, bucket 200,000, borrow_max 25,000, with a fill
and a carry. -/
def tram (fill carry : Nat) : State :=
  (((((up.setCf 5 0x54 4 1500).setCf 5 0x10 2 30).setCf 5 0x12 2 1).setCf 5 0x5C 4 200000).setCf 5 0x64 4 25000).setCf 5 0x60 4 fill
    |>.setCf 5 0x6C 4 carry

/-- "pic_target = 50,000 + (−4,000 >> 3) = 49,500. borrow_limit = 25,000", and "50,000 − 4,387 − 5,943 = 39,670, and carry = 0". -/
theorem test_picTarget :
    let p := fun (fill carry : Nat) (row : Nat) => ((tram fill carry).picTarget 5 row false false)
    ((p 104000 0 0).enc 5).cur.target = 49500 ∧ ((p 104000 0 0).enc 5).cur.borrow = 25000 ∧
    ((p 135090 5943 2).enc 5).cur.target = 39670 ∧
    ((p 135090 5943 2).publishTarget 5 ((p 135090 5943 2).enc 5).cur).cfI 5 0x6C 4 = 0 := by decide

/-- "Overshoot 30,943: 25,000 is borrowed and 5,943 goes to carry": a picture of 80,350 bits against 49,407. -/
theorem test_overshoot :
    let p : RcPic := { pic := 1, bits := 80350, target := 49407, borrow := 25000, avg := 50000 }
    ((tram 135090 0).settlePic 5 p).cfI 5 0x6C 4 = 5943 ∧ ((tram 135090 0).settlePic 5 p).cf 5 0x98 8 = 25000 := by decide

/-- "q = 32 + round(6 × log2(5,400 / 5,872)) = 32 + round(−0.73) = 31" (R128). -/
theorem test_qpStep : qpDelta 5400 5872 = -1 := by decide +kernel

/-- The port shaper at Halbrook Street: 6,250 steps active, 12,500 pending, and 150,000 beyond the bound (R62, R66). -/
theorem test_shaper :
    let a := pshAddr 0
    let s : State := { up with way := { bounds := [(0x0201, (125, 125000))] },
                               regs := [(a, 6250), (a + 4, 6250), (a + 8, 0x80000000)] }
    let t := run (.rwsWrite 0xA02000 12500) s
    Tbl.get 0 t.regs a = 12500 ∧ Tbl.get 0 t.regs (a + 4) = 0x8000186A ∧
    Tbl.get 0 (run (.rwsWrite 0xA02000 150000) t).regs a = 12500 ∧ ((run (.rwsWrite 0xA02000 150000) t).unit bTMG).oob = 1 := by decide

/-- The failing patch lead: margins of 11, 5 and 4 in turn lead to a retrain (R324, R325). -/
theorem test_margin :
    let s := run (.eyeMeasurement 0 5) (run (.eyeMeasurement 0 11) (portUp {}))
    (s.port 0).ph = .up ∧ (s.port 0).lowRaised = true ∧ ((run (.eyeMeasurement 0 4) s).port 0).ph = .retrain := by decide

/-- The stuck pause at Halbrook Street: 85 rows of 6 cells fill 510 of the class's 512 cells, so a copy of 4 cells is not admitted where
one of 2 would be (R273, R279). -/
theorem test_stuckPause :
    let s := { up with swc := { lim := [(acctKey 17 6, 512)], used := [(acctKey 17 6, 510)] } }
    s.charge 17 6 4 = none ∧ s.charge 17 6 2 = some (2, 0) := by decide

end Sys2Proof.Tests
end

section
/-! SUPPORT. Folds over the state, and a command whose part works: what the proofs of several families use. -/

namespace Sys2Proof.Machine

open Sys2Proof

/-- What every step of a fold leaves as it was, the fold leaves as it was. -/
theorem foldl_keeps {α β σ : Type} (g : σ → β) (f : σ → α → σ) (h : ∀ s a, g (f s a) = g s) (l : List α) (s : σ) :
    g (l.foldl f s) = g s := by
  induction l generalizing s with
  | nil => rfl
  | cons a r ih => rw [List.foldl_cons, ih, h]

/-- A command whose part works has its effect: `act_true` under the condition as a hypothesis. -/
theorem act_of {ok : Bool} (h : ok = true) (f : State → State) (s : State) : act ok f s = .next (s.after (f s)) := by
  rw [h, act_true]

end Sys2Proof.Machine
end

section
/-! SUPPORT. Power states (chapter 20): the request of a host command, the slot, the management bus, the stop of one block after another, wakes,
and the gating of idle lanes and pipes. -/

namespace Sys2Proof.Machine

open Sys2Proof

/-! ### The host command -/

/-- A command that answers nothing yet leaves the state that its function makes. -/
theorem State.runCmd_goes_on {s t : State} {h : CmdRef} {op : Nat} {e : SubEntry} {f : State → SubEntry → State × Answer}
    (hs : s.serves 0 = true) (hc : s.command h op = some e) (hf : f s e = (t, none)) : s.runCmd h op f = t := by
  simp [State.runCmd, hs, hc, hf]

/-- A command that answers completes with its answer. -/
theorem State.runCmd_answers {s t : State} {h : CmdRef} {op st d : Nat} {r : Bytes} {e : SubEntry}
    {f : State → SubEntry → State × Answer} (hs : s.serves 0 = true) (hc : s.command h op = some e)
    (hf : f s e = (t, some (st, d, r))) : s.runCmd h op f = t.finish h st d r := by
  simp [State.runCmd, hs, hc, hf]

section Request

variable {s : State} {h : CmdRef} {e : SubEntry}

/-- A POWER_STATE that names no state answers BAD_PARAM. -/
theorem State.powerStateOp_bad (hs : s.serves 0 = true) (hc : s.command h 0x90 = some e) (hn : s.plt.cmd ≠ some h)
    (hp : s.plt.pend = none) (ht : 4 < e.target.toNat) : s.powerStateOp h = s.finish h cBAD_PARAM 0 [] :=
  State.runCmd_answers hs hc (by simp [hn, hp, ht, code])

/-- Any other is a request for its state. -/
theorem State.powerStateOp_request (hs : s.serves 0 = true) (hc : s.command h 0x90 = some e) (hn : s.plt.cmd ≠ some h)
    (hp : s.plt.pend = none) (ht : e.target.toNat ≤ 4) : s.powerStateOp h = s.powerReq e.target.toNat (some h) :=
  State.runCmd_goes_on hs hc (by simp [hn, hp, Nat.not_lt.2 ht])

end Request

/-- A request begins when no transition, detour or patch runs (R437). -/
theorem State.powerReq_begins {s : State} (hb : s.structural = false) (t : Nat) (c : Option CmdRef) :
    s.powerReq t c = s.begin_ t c := by
  simp [State.powerReq, hb]

/-- Else it takes the slot, when that is empty (R437). -/
theorem State.powerReq_waits {s : State} (hb : s.structural = true) (hp : s.plt.pend = none) (t : Nat) (c : Option CmdRef) :
    s.powerReq t c = { s with plt := { s.plt with pend := some (t, c) } } := by
  simp [State.powerReq, hb, State.dropPend, hp]

/-- A request for the present state completes at once. -/
theorem State.begin_same (s : State) (h : CmdRef) : s.begin_ s.plt.cur (some h) = s.finish h cOK 0 [] := by
  simp [State.begin_]

/-- A request for a deeper state begins the entry. -/
theorem State.begin_deeper {s : State} {t : Nat} (ht : s.plt.cur < t) (c : Option CmdRef) :
    s.begin_ t c = State.enter { s with plt := { s.plt with
      target := t, cmd := c, retries := 0, tries := 0, autoRetry := tb s.pwrCfg 31 } } := by
  simp [State.begin_, ht, Nat.ne_of_gt ht]

/-! ### The management bus (R442, R475) -/

theorem State.mgmtOk_of {s : State} (hu : s.plt.up = true) (hc : s.plt.cur ≤ 1) : s.mgmtOk = true := by
  simp [State.mgmtOk, hu, hc]

/-- A state that does not exist is refused on the bus. -/
theorem State.stateReq_refused {s : State} {v : Nat} (hm : s.mgmtOk = true) (hv : 4 < v) :
    s.stateReq v = s.emit (.mgmt false []) := by
  simp [State.stateReq, hm, hv]

/-- One that exists is acknowledged and requested. -/
theorem State.stateReq_taken {s : State} {v : Nat} (hm : s.mgmtOk = true) (hv : v ≤ 4) (hr : s.plt.recovery = false) :
    s.stateReq v = (s.emit (.mgmt true [])).powerReq v none := by
  simp [State.stateReq, hm, Nat.not_lt.2 hv, hr]

theorem State.mgmtRead_answers {s : State} (hm : s.mgmtOk = true) (v : Nat) : s.mgmtRead v = s.emit (.mgmt true (leBytes 4 v)) := by
  simp [State.mgmtRead, hm]

/-- Another device's address. -/
theorem State.mgmtMatch_other {s : State} {a : Nat} (ha : a ≠ 0x58 + s.plt.cascId % 4) : s.mgmtMatch a = s := by
  simp [State.mgmtMatch, ha]

/-- The module's address in RUN and IDLE. -/
theorem State.mgmtMatch_awake {s : State} {a : Nat} (hu : s.plt.up = true) (ha : a = 0x58 + s.plt.cascId % 4) (hc : s.plt.cur < 2) :
    s.mgmtMatch a = State.wakeEvent { s.emit (.mgmt true []) with plt := { s.plt with mgmt := true } } 1 := by
  simp [State.mgmtMatch, hu, ha, Nat.not_le.2 hc]

/-- The module's address in a deeper state: the first byte is refused. -/
theorem State.mgmtMatch_asleep {s : State} {a : Nat} (hu : s.plt.up = true) (ha : a = 0x58 + s.plt.cascId % 4) (hc : 2 ≤ s.plt.cur) :
    s.mgmtMatch a = ((s.emit (.mgmt true [])).emit (.mgmt false [])).wakeEvent 1 := by
  simp [State.mgmtMatch, hu, ha, hc]

theorem State.smbusTimeout_up {s : State} (hu : s.plt.up = true) :
    s.smbusTimeout = State.emit { s with plt := { s.plt with mgmt := false } } (.pin "SMB_SDA" false) := by
  simp [State.smbusTimeout, hu]

/-! ### The stop of one block after another (R435, R436) -/

section BlockStop

variable {s : State}

/-- Without an entry in progress no block has been asked. -/
theorem State.blockStop_idle (h : s.plt.busy = false ∨ s.plt.block = 0) : s.blockStop = s := by
  rcases h with h | h <;> simp [State.blockStop, h]

variable (hb : s.plt.busy = true) (h0 : s.plt.block ≠ 0)
include hb h0

theorem State.blockStop_refused (hr : s.refuses s.plt.block = true) : s.blockStop = s.refuse s.plt.block := by
  simp [State.blockStop, hb, h0, hr]

theorem State.blockStop_waits (hr : s.refuses s.plt.block = false) (hd : s.stopDone s.plt.block = false) : s.blockStop = s := by
  simp [State.blockStop, hb, h0, hr, hd]

/-- A block that agrees is stopped, and the next in the entry's order is asked. -/
theorem State.blockStop_next (hr : s.refuses s.plt.block = false) (hd : s.stopDone s.plt.block = true) {n : Nat}
    (hn : (stopList (s.stopBlock s.plt.block).plt.cur (s.stopBlock s.plt.block).plt.target).find?
      (fun x => decide (s.plt.block < x)) = some n) :
    s.blockStop = State.askBlock
      { s.stopBlock s.plt.block with plt := { (s.stopBlock s.plt.block).plt with block := n } } n := by
  simp [State.blockStop, hb, h0, hr, hd, hn]

/-- After the last block the state is reached. -/
theorem State.blockStop_last (hr : s.refuses s.plt.block = false) (hd : s.stopDone s.plt.block = true)
    (hn : (stopList (s.stopBlock s.plt.block).plt.cur (s.stopBlock s.plt.block).plt.target).find?
      (fun x => decide (s.plt.block < x)) = none) :
    s.blockStop = (s.stopBlock s.plt.block).reach := by
  simp [State.blockStop, hb, h0, hr, hd, hn]

end BlockStop

/-! ### Timers of an entry, and wakes (R436, R438, R440) -/

section Timers

variable {s : State} {t0 : Nat}

theorem State.drainTimeout_refuses (hd : s.plt.drainDue = some t0) (hb : s.plt.busy = true) (hk : s.plt.block = 5) (ht : t0 ≤ s.ns)
    (he : s.egressEmpty = false) : s.drainTimeout = s.refuse 5 := by
  simp [State.drainTimeout, hd, hb, hk, ht, he]

theorem State.drainTimeout_rests (hd : s.plt.drainDue = some t0) (h : s.ns < t0 ∨ s.egressEmpty = true) : s.drainTimeout = s := by
  rcases h with h | h
  · simp [State.drainTimeout, hd, Nat.not_le.2 h]
  · simp [State.drainTimeout, hd, h]

theorem State.entryRetry_due (hd : s.plt.retryDue = some t0) (ht : t0 ≤ s.ns) :
    s.entryRetry = State.enter { s with plt := { s.plt with retries := s.plt.tries } } := by
  simp [State.entryRetry, hd, ht]

theorem State.entryRetry_early (hd : s.plt.retryDue = some t0) (ht : s.ns < t0) : s.entryRetry = s := by
  simp [State.entryRetry, hd, Nat.not_le.2 ht]

theorem State.wakeTimer_due (hu : s.plt.up = true) (hd : s.plt.timerDue = some t0) (ht : t0 ≤ s.ns) :
    s.wakeTimer = State.wakeEvent { s with plt := { s.plt with timerDue := none } } 3 := by
  simp [State.wakeTimer, hd, ht, hu]

theorem State.wakeTimer_early (hd : s.plt.timerDue = some t0) (ht : s.ns < t0) : s.wakeTimer = s := by
  simp [State.wakeTimer, hd, Nat.not_le.2 ht]

end Timers

/-- A wake during an entry is latched. -/
theorem State.wakeEvent_latched {s : State} (hb : s.plt.busy = true) (src : Nat) :
    s.wakeEvent src = { s with plt := { s.plt with latched := some (s.plt.latched.getD src) } } := by
  simp [State.wakeEvent, hb]

/-- Else it is served if it ends the state. -/
theorem State.wakeEvent_served {s : State} (hb : s.plt.busy = false) (src : Nat) :
    s.wakeEvent src = if s.wakesFrom src then s.wakeTo src else s := by
  simp [State.wakeEvent, hb]

/-- WAKE_N low for less than 50 µs. -/
theorem State.wakeN_short (s : State) {n : Nat} (hn : n < 50) (b : BoardInputs) : s.wakeN n b = s := by
  simp [State.wakeN, hn]

/-- WAKE_N low for 50 µs in a state other than OFF is a wake. -/
theorem State.wakeN_wakes {s : State} {n : Nat} (hn : 50 ≤ n) (hu : s.plt.up = true) (hc : s.plt.cur ≠ 4) (b : BoardInputs) :
    s.wakeN n b = s.wakeEvent 0 := by
  simp [State.wakeN, Nat.not_lt.2 hn, hu, hc]

/-- The wake from OFF by WAKE_N noted and counted, in the module that it has started. -/
def State.wokenOff (s : State) : State :=
  State.bump { s with plt := { s.plt with wakeFlags := 1, wakeFrom := 4 } } bPLT 2

theorem State.wokenOff_notes (s : State) : s.wokenOff.plt.wakeFlags = 1 ∧ s.wokenOff.plt.wakeFrom = 4 ∧ s.wokenOff.flash = s.flash :=
  ⟨rfl, rfl, rfl⟩

/-- WAKE_N low for 50 µs in OFF is a cold start. -/
theorem State.wakeN_starts {s : State} {n : Nat} (hn : 50 ≤ n) (hc : s.plt.cur = 4) (b : BoardInputs) :
    s.wakeN n b = (s.coldStart b).wokenOff.event .pltWake noCtx 0 := by
  simp [State.wakeN, Nat.not_lt.2 hn, hc, State.wokenOff]

/-! ### Idle lanes and pipes (R19, R88, R441) -/

/-- The gate marks of a carriageway's members: nothing else of a lane changes. -/
theorem State.lane_foldl_gate (l : List Nat) (s : State) (q : Nat) :
    ∃ g, (l.foldl (fun s m => s.setLane m { s.lane m with gate := true }) s).lane q = { s.lane q with gate := g } := by
  induction l generalizing s with
  | nil => exact ⟨_, rfl⟩
  | cons m r ih =>
    obtain ⟨g, hg⟩ := ih (s.setLane m { s.lane m with gate := true })
    rw [List.foldl_cons, hg]
    by_cases hm : q = m
    · subst hm; exact ⟨g, by rw [State.setLane_same]⟩
    · exact ⟨g, by rw [State.setLane_other _ _ _ _ hm]⟩

/-- The lead of a lane to be gated is given SAVE_CONTEXT and FENCE behind its jobs, and keeps its power until they are done. -/
theorem State.gateLane_lead {s : State} {l : Nat} (hg : (s.lane (s.leadFor l)).gate = false) :
    let q := s.leadFor l
    ((s.gateLane l).lane q).gate = true ∧ ((s.gateLane l).lane q).power = (s.lane q).power ∧
      ((s.gateLane l).lane q).queue = (s.lane q).queue ++ [{ op := .save, ctx := (s.lane q).active.getD 0 }, { op := .fence }] := by
  obtain ⟨g, hq⟩ := State.lane_foldl_gate (s.members l) s (s.leadFor l)
  simp [State.gateLane, hg, hq]

/-- A lane powered off. -/
theorem State.laneOff_lane (s : State) (l : Nat) : (s.laneOff l).lane l = (s.lane l).off := by
  unfold State.laneOff
  refine (foldl_keeps (fun s : State => s.lane l) _ ?_ _ _).trans (State.setLane_same ..)
  exact fun _ _ => rfl

theorem State.gate_off {s : State} {l : Nat}
    (h : s.running (laneKey (s.leadFor l)) = false ∨ (s.lane (s.leadFor l)).power ≠ 2) : s.gate l = s.laneOff l := by
  rcases h with h | h <;> simp [State.gate, h]

theorem State.gate_lane {s : State} {l : Nat} (hr : s.running (laneKey (s.leadFor l)) = true)
    (hp : (s.lane (s.leadFor l)).power = 2) : s.gate l = s.gateLane l := by
  simp [State.gate, hr, hp]

theorem State.laneIdle_gates {s : State} {l t0 : Nat} (ha : (s.lane l).idleAt = some t0) (ht : t0 ≤ s.ns)
    (hi : (s.members l).all (fun m => s.laneIsIdle m) = true) : s.laneIdle l = s.gate l := by
  simp only [State.laneIdle, ha, ht, hi, and_self, if_true]

theorem State.laneIdle_rests {s : State} {l t0 : Nat} (ha : (s.lane l).idleAt = some t0)
    (h : s.ns < t0 ∨ (s.members l).all (fun m => s.laneIsIdle m) = false) : s.laneIdle l = s := by
  rcases h with h | h
  · simp [State.laneIdle, ha, Nat.not_le.2 h]
  · simp only [State.laneIdle, ha, h, Bool.false_eq_true, and_false, if_false]

theorem State.pipeIdle_due {s : State} {p t0 : Nat} (ha : (s.pipe p).idleAt = some t0) (ht : t0 ≤ s.ns) :
    s.pipeIdle p = s.setPipe p { s.pipe p with power := 0, idleAt := none } := by
  simp [State.pipeIdle, ha, ht]

theorem State.pipeIdle_early {s : State} {p t0 : Nat} (ha : (s.pipe p).idleAt = some t0) (ht : s.ns < t0) : s.pipeIdle p = s := by
  simp [State.pipeIdle, ha, Nat.not_le.2 ht]

section Commands

/-! ### Each command, where its part works, is its operation -/

variable {s : State}

theorem exec_powerState (hw : s.cmdsRun = true) (h : CmdRef) : exec (.powerState h) s = .next (s.after (s.powerStateOp h)) := by
  show execPowerState h s = _
  exact act_of hw _ s
theorem exec_stateReq (hw : s.plt.up = true) (v : Byte) : exec (.stateReq v) s = .next (s.after (s.stateReq v.toNat)) := by
  show execStateReq v s = _
  exact act_of hw _ s
theorem exec_stateRead (hw : s.plt.up = true) : exec .stateRead s = .next (s.after (s.mgmtRead s.pwrStat.toNat)) := by
  show execStateRead s = _
  exact act_of hw _ s
theorem exec_healthRead (hw : s.plt.up = true) : exec .healthRead s = .next (s.after (s.mgmtRead s.glb.health)) := by
  show execHealthRead s = _
  exact act_of hw _ s
theorem exec_mgmtAddressMatch (hw : s.plt.up = true) (a : BitVec 7) : exec (.mgmtAddressMatch a) s = .next (s.after (s.mgmtMatch a.toNat)) := by
  show execMgmtAddressMatch a s = _
  exact act_of hw _ s
theorem exec_smbusTimeout (hw : s.plt.up = true) : exec .smbusTimeout s = .next (s.after (s.smbusTimeout)) := by
  show execSmbusTimeout s = _
  exact act_of hw _ s
theorem exec_blockStopDone (hw : s.plt.up = true) : exec .blockStopDone s = .next (s.after (s.blockStop)) := by
  show execBlockStopDone s = _
  exact act_of hw _ s
theorem exec_drainTimeout (hw : s.plt.up = true) : exec .drainTimeout s = .next (s.after (s.drainTimeout)) := by
  show execDrainTimeout s = _
  exact act_of hw _ s
theorem exec_entryRetry (hw : s.plt.up = true) : exec .entryRetry s = .next (s.after (s.entryRetry)) := by
  show execEntryRetry s = _
  exact act_of hw _ s
theorem exec_wakeN (hw : (s.plt.up || decide (s.plt.cur = 4)) = true) (n : Nat) (b : BoardInputs) : exec (.wakeN n b) s = .next (s.after (s.wakeN n b)) := by
  show execWakeN n b s = _
  exact act_of hw _ s
theorem exec_wakeTimer (hw : s.plt.up = true) : exec .wakeTimer s = .next (s.after (s.wakeTimer)) := by
  show execWakeTimer s = _
  exact act_of hw _ s
theorem exec_laneIdleTimeout (hw : s.live = true) (l : LaneId) : exec (.laneIdleTimeout l) s = .next (s.after (s.laneIdle l.val)) := by
  show execLaneIdleTimeout l s = _
  exact act_of hw _ s
theorem exec_pipeIdleTimeout (hw : s.live = true) (p : PipeId) : exec (.pipeIdleTimeout p) s = .next (s.after (s.pipeIdle p.val)) := by
  show execPipeIdleTimeout p s = _
  exact act_of hw _ s

end Commands

/-- Settles O56: each clause is the operation of its command, taken apart by the lemmas above. -/
theorem powerCommandsAnswer : Obligations.PowerCommandsAnswer := by
  unfold Obligations.PowerCommandsAnswer
  refine ⟨?request, ?bus, ?address, ?smbus, ?stop, ?drain, ?retry, ?wakeN, ?timer, ?wake, ?idleLane, ?gate, ?idlePipe⟩
  case request =>
    intro h e s hr hs hc hn hp t
    refine ⟨fun ht => ?_, fun hb he ht => ?_, fun hb hd ht => ?_, fun hb ht => ?_⟩
    · rw [exec_powerState hr, State.powerStateOp_bad hs hc hn hp ht]
    · rw [exec_powerState hr, State.powerStateOp_request hs hc hn hp ht, State.powerReq_begins hb, ← State.begin_same, ← he]
    · rw [exec_powerState hr, State.powerStateOp_request hs hc hn hp ht, State.powerReq_begins hb, State.begin_deeper hd]
    · rw [exec_powerState hr, State.powerStateOp_request hs hc hn hp ht, State.powerReq_waits hb hp]
  case bus =>
    intro v s hu hc
    have hm := State.mgmtOk_of hu hc
    refine ⟨fun hv => ?_, fun hv hr => ?_, ?_, ?_⟩
    · rw [exec_stateReq hu, State.stateReq_refused hm hv]
    · rw [exec_stateReq hu, State.stateReq_taken hm hv hr]
    · rw [exec_stateRead hu, State.mgmtRead_answers hm]
    · rw [exec_healthRead hu, State.mgmtRead_answers hm]
  case address =>
    intro a s hu
    refine ⟨fun ha => ?_, fun ha hc => ?_, fun ha hc => ?_⟩
    · rw [exec_mgmtAddressMatch hu, State.mgmtMatch_other ha]
    · rw [exec_mgmtAddressMatch hu, State.mgmtMatch_awake hu ha hc]
    · rw [exec_mgmtAddressMatch hu, State.mgmtMatch_asleep hu ha hc]
  case smbus =>
    intro s hu
    rw [exec_smbusTimeout hu, State.smbusTimeout_up hu]
  case stop =>
    intro s hu b
    refine ⟨fun h => ?_, fun hb h0 hr => ?_, fun hb h0 hr hd => ?_, fun hb h0 hr hd => ⟨fun n hn => ?_, fun hn => ?_⟩⟩
    · rw [exec_blockStopDone hu, State.blockStop_idle h]
    · rw [exec_blockStopDone hu, State.blockStop_refused hb h0 hr]
    · rw [exec_blockStopDone hu, State.blockStop_waits hb h0 hr hd]
    · rw [exec_blockStopDone hu, State.blockStop_next hb h0 hr hd hn]
    · rw [exec_blockStopDone hu, State.blockStop_last hb h0 hr hd hn]
  case drain =>
    intro t0 s hu hd hb hk
    refine ⟨fun ht he => ?_, fun h => ?_⟩
    · rw [exec_drainTimeout hu, State.drainTimeout_refuses hd hb hk ht he]
    · rw [exec_drainTimeout hu, State.drainTimeout_rests hd h]
  case retry =>
    intro t0 s hu hd
    refine ⟨fun ht => ?_, fun ht => ?_⟩
    · rw [exec_entryRetry hu, State.entryRetry_due hd ht]
    · rw [exec_entryRetry hu, State.entryRetry_early hd ht]
  case wakeN =>
    intro n b s
    refine ⟨fun hn hu => ?_, fun hn hu hc => ?_, fun hn hc => ⟨(s.coldStart b).wokenOff, ?_, State.wokenOff_notes _⟩⟩
    · rw [exec_wakeN (by simp [hu]), State.wakeN_short s hn]
    · rw [exec_wakeN (by simp [hu]), State.wakeN_wakes hn hu hc]
    · rw [exec_wakeN (by simp [hc]), State.wakeN_starts hn hc]
  case timer =>
    intro t0 s hu hd
    refine ⟨fun ht => ?_, fun ht => ?_⟩
    · rw [exec_wakeTimer hu, State.wakeTimer_due hu hd ht]
    · rw [exec_wakeTimer hu, State.wakeTimer_early hd ht]
  case wake =>
    intro src s
    refine ⟨fun hb => State.wakeEvent_latched hb src, fun hb hw => ?_, fun hb hw => ?_⟩
    · simp [State.wakeEvent_served hb, hw]
    · simp [State.wakeEvent_served hb, hw]
  case idleLane =>
    intro l t0 s hl ha idle
    refine ⟨fun ht hi => ?_, fun h => ?_⟩
    · rw [exec_laneIdleTimeout hl, State.laneIdle_gates ha ht hi]
    · rw [exec_laneIdleTimeout hl, State.laneIdle_rests ha h]
  case gate =>
    intro s l q
    refine ⟨fun h => by rw [State.gate_off h, State.laneOff_lane], fun hr hp hg => ?_⟩
    obtain ⟨h1, h2, h3⟩ := State.gateLane_lead hg
    rw [State.gate_lane hr hp]
    exact ⟨h1, h2.trans hp, h3⟩
  case idlePipe =>
    intro p t0 s hl ha
    refine ⟨fun ht => ?_, fun ht => ?_⟩
    · rw [exec_pipeIdleTimeout hl, State.pipeIdle_due ha ht]
    · rw [exec_pipeIdleTimeout hl, State.pipeIdle_early ha ht]

end Sys2Proof.Machine
end

section
/-! SUPPORT. What the operations of the buffer pool manager (R342 to R350) and of frame buffers (R147, R148, R153) can change: the pool
manager itself, and what raising a fault changes. -/

namespace Sys2Proof.Machine

open Sys2Proof

/-- `t` is `s` but for the buffer pool manager and what a fault changes. -/
def State.bufOnly (s t : State) : Prop :=
  t = { s with evc := t.evc, hqe := t.hqe, cnt := t.cnt, out := t.out, free := t.free, flt := t.flt, glb := t.glb, bpm := t.bpm }

theorem State.bufOnly_trans {s t u : State} (h : s.bufOnly t) (k : t.bufOnly u) : s.bufOnly u := by
  unfold State.bufOnly at *
  rw [k, h]

theorem State.bufOnly_symm {s t : State} (h : s.bufOnly t) : t.bufOnly s := by
  unfold State.bufOnly at *
  rw [h]

/-- What differs from `t` only so far differs from `s` as `t` does. -/
theorem State.bufOnly_iff {s t u : State} (h : t.bufOnly u) : s.bufOnly u ↔ s.bufOnly t :=
  ⟨fun k => State.bufOnly_trans k (State.bufOnly_symm h), fun k => State.bufOnly_trans k h⟩

theorem State.bufOnly_of_fltOnly {s t : State} (h : s.fltOnly t) : s.bufOnly t := by
  unfold State.fltOnly at h
  unfold State.bufOnly
  rw [h]

/-! ### Updates -/

@[simp] theorem State.bufOnly_self (s : State) : s.bufOnly s ↔ True := ⟨fun _ => trivial, fun _ => rfl⟩
@[simp] theorem State.bufOnly_ite (s a b : State) (c : Prop) [Decidable c] :
    s.bufOnly (if c then a else b) ↔ if c then s.bufOnly a else s.bufOnly b := by split <;> rfl
@[simp] theorem State.bufOnly_draw (s t : State) : s.bufOnly t.draw ↔ s.bufOnly t := State.bufOnly_iff rfl
@[simp] theorem State.bufOnly_bump (s t : State) (b n : Nat) : s.bufOnly (t.bump b n) ↔ s.bufOnly t := State.bufOnly_iff rfl
@[simp] theorem State.bufOnly_bpm (s t : State) (x : BpmSt) : s.bufOnly { t with bpm := x } ↔ s.bufOnly t := State.bufOnly_iff rfl
@[simp] theorem State.bufOnly_setBuf (s t : State) (k : Nat) (b : Buf) : s.bufOnly (t.setBuf k b) ↔ s.bufOnly t := State.bufOnly_iff rfl
@[simp] theorem State.bufOnly_setPool (s t : State) (p : Nat) (x : Pool) : s.bufOnly (t.setPool p x) ↔ s.bufOnly t := State.bufOnly_iff rfl
@[simp] theorem State.bufOnly_setFrame (s t : State) (h : W32) (f : FrameD) : s.bufOnly (t.setFrame h f) ↔ s.bufOnly t :=
  State.bufOnly_iff rfl
@[simp] theorem State.bufOnly_event (s t : State) (e : Ev) (c d : Nat) : s.bufOnly (t.event e c d) ↔ s.bufOnly t :=
  State.bufOnly_iff (State.bufOnly_of_fltOnly (by simp))
@[simp] theorem State.bufOnly_deassertSrc (s t : State) (n : Nat) : s.bufOnly (t.deassertSrc n) ↔ s.bufOnly t :=
  State.bufOnly_iff (State.bufOnly_of_fltOnly (State.fltOnly_of_evOnly (by simp)))
@[simp] theorem State.bufOnly_raise (s t : State) (a b c : Nat) : s.bufOnly (t.raise a b c) ↔ s.bufOnly t :=
  State.bufOnly_iff (State.bufOnly_of_fltOnly (by simp))

/-! ### Operations of the pool manager -/

@[simp] theorem State.bufOnly_poolLevels (s t : State) : s.bufOnly t.poolLevels ↔ s.bufOnly t := by
  unfold State.poolLevels
  simp

@[simp] theorem State.bufOnly_thresholds (s t : State) (p : Nat) : s.bufOnly (t.thresholds p) ↔ s.bufOnly t := by
  refine State.bufOnly_iff ?_
  unfold State.thresholds
  simp

@[simp] theorem State.bufOnly_bpmLogAdd (s t : State) (k o a : Nat) (h : W32) : s.bufOnly (t.bpmLogAdd k o a h) ↔ s.bufOnly t := by
  unfold State.bpmLogAdd
  simp

@[simp] theorem State.bufOnly_doubleFree (s t : State) (o a : Nat) (h : W32) : s.bufOnly (t.doubleFree o a h) ↔ s.bufOnly t := by
  simp [State.doubleFree]

@[simp] theorem State.bufOnly_wrongOwner (s t : State) (o a : Nat) (h : W32) : s.bufOnly (t.wrongOwner o a h) ↔ s.bufOnly t := by
  simp [State.wrongOwner]

@[simp] theorem State.bufOnly_alloc (s t : State) (a p n : Nat) (b : Bool) : s.bufOnly (t.alloc a p n b).1 ↔ s.bufOnly t := by
  refine State.bufOnly_iff ?_
  unfold State.alloc
  dsimp only
  split
  · simp
  · split <;> simp

/-- Buffers taken one after another: by induction on their number. -/
theorem State.bufOnly_takeMany (a p c : Nat) (b : Bool) (n : Nat) (t : State) : t.bufOnly (t.takeMany a p c b n).1 := by
  induction n generalizing t with
  | zero => rfl
  | succ n ih =>
    have h : t.bufOnly (t.alloc a p c b).1 := by simp
    unfold State.takeMany
    split
    next u hd e =>
      rw [e] at h
      split
      · exact h
      · exact State.bufOnly_trans h (ih u)

@[simp] theorem State.bufOnly_allocMany (s t : State) (a p c : Nat) (b : Bool) (n : Nat) :
    s.bufOnly (t.allocMany a p c b n).1 ↔ s.bufOnly t := by
  refine State.bufOnly_iff ?_
  unfold State.allocMany
  dsimp only
  split
  · exact State.bufOnly_takeMany a p c b n t
  · simp [State.nullReturn]

@[simp] theorem State.bufOnly_freeBuf (s t : State) (h : W32) : s.bufOnly (t.freeBuf h) ↔ s.bufOnly t := by
  refine State.bufOnly_iff ?_
  unfold State.freeBuf
  simp

@[simp] theorem State.bufOnly_incRef (s t : State) (b : Bool) (h : W32) : s.bufOnly (t.incRef b h).1 ↔ s.bufOnly t := by
  refine State.bufOnly_iff ?_
  unfold State.incRef
  dsimp only
  split <;> simp

@[simp] theorem State.bufOnly_dropRef (s t : State) (h : W32) : s.bufOnly (t.dropRef h) ↔ s.bufOnly t := by
  refine State.bufOnly_iff ?_
  unfold State.dropRef
  simp

@[simp] theorem State.bufOnly_decRef (s t : State) (a : Nat) (h : W32) : s.bufOnly (t.decRef a h) ↔ s.bufOnly t := by
  refine State.bufOnly_iff ?_
  unfold State.decRef
  simp

@[simp] theorem State.bufOnly_freeRef (s t : State) (a : Nat) (h : W32) : s.bufOnly (t.freeRef a h) ↔ s.bufOnly t := by
  refine State.bufOnly_iff ?_
  unfold State.freeRef
  simp

@[simp] theorem State.bufOnly_xferRef (s t : State) (a : Nat) (h : W32) (o : Nat) : s.bufOnly (t.xferRef a h o) ↔ s.bufOnly t := by
  refine State.bufOnly_iff ?_
  unfold State.xferRef
  simp

@[simp] theorem State.bufOnly_setMark (s t : State) (a : Nat) (h : W32) (m : Nat) : s.bufOnly (t.setMark a h m) ↔ s.bufOnly t := by
  refine State.bufOnly_iff ?_
  unfold State.setMark
  simp

@[simp] theorem State.bufOnly_clrMark (s t : State) (a : Nat) (h : W32) (m : Nat) : s.bufOnly (t.clrMark a h m) ↔ s.bufOnly t := by
  refine State.bufOnly_iff ?_
  unfold State.clrMark
  simp

/-! ### Operations on frame buffers -/

@[simp] theorem State.bufOnly_aliasGone (s t : State) (a : Nat) (h : W32) : s.bufOnly (t.aliasGone a h) ↔ s.bufOnly t := by
  refine State.bufOnly_iff ?_
  unfold State.aliasGone
  simp

@[simp] theorem State.bufOnly_freeing (s t u : State) (a : Nat) (h : W32) : s.bufOnly (u.freeing t a h) ↔ s.bufOnly t := by
  refine State.bufOnly_iff ?_
  unfold State.freeing
  simp

@[simp] theorem State.bufOnly_clrMarkA (s t : State) (a : Nat) (h : W32) (m : Nat) : s.bufOnly (t.clrMarkA a h m) ↔ s.bufOnly t := by
  simp [State.clrMarkA]

@[simp] theorem State.bufOnly_decRefA (s t : State) (a : Nat) (h : W32) : s.bufOnly (t.decRefA a h) ↔ s.bufOnly t := by
  simp [State.decRefA]

@[simp] theorem State.bufOnly_freeRefA (s t : State) (a : Nat) (h : W32) : s.bufOnly (t.freeRefA a h) ↔ s.bufOnly t := by
  simp [State.freeRefA]

@[simp] theorem State.bufOnly_unmark (s t : State) (a : Nat) (h : W32) (m : Nat) : s.bufOnly (t.unmark a h m) ↔ s.bufOnly t := by
  simp [State.unmark]

@[simp] theorem State.bufOnly_freeIdle (s t : State) (h : W32) : s.bufOnly (t.freeIdle h) ↔ s.bufOnly t := by
  simp [State.freeIdle]

@[simp] theorem State.bufOnly_newFrame (s t : State) (a c p w h d n : Nat) (poc : W32) (x : Nat) :
    s.bufOnly (t.newFrame a c p w h d n poc x).1 ↔ s.bufOnly t := by
  refine State.bufOnly_iff ?_
  have k : t.bufOnly (t.alloc a p 0 false).1 := by simp
  unfold State.newFrame
  split
  next u hd e =>
    rw [e] at k
    split <;> simp [k]

/-! ### What they leave as it was -/

section Kept

variable {s t : State} (h : s.bufOnly t)
include h

theorem State.bufOnly.lanes : t.lanes = s.lanes := by rw [h]
theorem State.bufOnly.msc : t.msc = s.msc := by rw [h]

end Kept

end Sys2Proof.Machine
end

section
/-! SUPPORT. Which operations leave a lane's row in execution and its statistics FIFO (R74, R92) as they are: rate control, the frame
buffers, the performance counters, the release of jobs. -/

namespace Sys2Proof.Machine

open Sys2Proof

/-- The row that lane `l` has in execution, and its statistics FIFO. -/
def State.rowFifo (s : State) (l : Nat) : Option LaneRun × List (List W32) := ((s.lane l).run, (s.lane l).lsf)

/-- An update that leaves every lane as it was. -/
theorem State.rowFifo_of_lanes {t u : State} {l : Nat} (h : u.lanes = t.lanes) : u.rowFifo l = t.rowFifo l := by
  simp [State.rowFifo, State.lane, h]

theorem State.rowFifo_of_bufOnly {t u : State} {l : Nat} (h : t.bufOnly u) : u.rowFifo l = t.rowFifo l :=
  State.rowFifo_of_lanes h.lanes

@[simp] theorem State.rowFifo_ite (a b : State) (l : Nat) (c : Prop) [Decidable c] :
    (if c then a else b).rowFifo l = if c then a.rowFifo l else b.rowFifo l := apply_ite (fun s => s.rowFifo l) c a b

/-- A choice between an operation that keeps the row and nothing. -/
theorem State.rowFifo_if {a b : State} {l : Nat} {c : Prop} [Decidable c] (h : a.rowFifo l = b.rowFifo l) :
    (if c then a else b).rowFifo l = b.rowFifo l := by
  split
  · exact h
  · rfl

@[simp] theorem State.rowFifo_foldl {α : Type} (f : State → α → State) (l : Nat) (xs : List α) (t : State)
    (h : ∀ (u : State) (a : α), (f u a).rowFifo l = u.rowFifo l) : (xs.foldl f t).rowFifo l = t.rowFifo l :=
  foldl_keeps (fun s : State => s.rowFifo l) f h xs t

/-- A lane rewritten with its row and its FIFO as they were. -/
@[simp] theorem State.rowFifo_setLane (t : State) (l k : Nat) (x : Lane) (hr : x.run = (t.lane k).run) (hl : x.lsf = (t.lane k).lsf) :
    (t.setLane k x).rowFifo l = t.rowFifo l := by
  unfold State.rowFifo
  by_cases h : l = k
  · subst h; rw [State.setLane_same, hr, hl]
  · rw [State.setLane_other _ _ _ _ h]

/-! ### Updates of other parts -/

section Updates

variable (t : State) (l : Nat)

@[simp] theorem State.rowFifo_draw : t.draw.rowFifo l = t.rowFifo l := State.rowFifo_of_lanes rfl
@[simp] theorem State.rowFifo_bump (b n : Nat) : (t.bump b n).rowFifo l = t.rowFifo l := State.rowFifo_of_lanes rfl
@[simp] theorem State.rowFifo_bumpU (b u n k : Nat) : (t.bumpU b u n k).rowFifo l = t.rowFifo l := State.rowFifo_of_lanes rfl
@[simp] theorem State.rowFifo_event (e : Ev) (c d : Nat) : (t.event e c d).rowFifo l = t.rowFifo l :=
  State.rowFifo_of_lanes (State.event_lanes ..)
@[simp] theorem State.rowFifo_assertSrc (n a b c : Nat) : (t.assertSrc n a b c).rowFifo l = t.rowFifo l :=
  State.rowFifo_of_bufOnly (State.bufOnly_of_fltOnly (State.fltOnly_of_evOnly (by simp)))
@[simp] theorem State.rowFifo_decideFault (a b : Nat) (c : Bool) : (t.decideFault a b c).rowFifo l = t.rowFifo l :=
  State.rowFifo_of_bufOnly (State.bufOnly_of_fltOnly (by simp))
@[simp] theorem State.rowFifo_setCtx (r o : Nat) (b : Bytes) : (t.setCtx r o b).rowFifo l = t.rowFifo l := State.rowFifo_of_lanes rfl
@[simp] theorem State.rowFifo_setCf (r o n v : Nat) : (t.setCf r o n v).rowFifo l = t.rowFifo l := State.rowFifo_of_lanes rfl
@[simp] theorem State.rowFifo_incCf (r o n v : Nat) : (t.incCf r o n v).rowFifo l = t.rowFifo l := State.rowFifo_of_lanes rfl
@[simp] theorem State.rowFifo_setCfI (r o n : Nat) (v : Int) : (t.setCfI r o n v).rowFifo l = t.rowFifo l := State.rowFifo_of_lanes rfl
@[simp] theorem State.rowFifo_setEnc (r : Nat) (x : EncSt) : (t.setEnc r x).rowFifo l = t.rowFifo l := State.rowFifo_of_lanes rfl
@[simp] theorem State.rowFifo_setDec (r : Nat) (x : DecSt) : (t.setDec r x).rowFifo l = t.rowFifo l := State.rowFifo_of_lanes rfl
@[simp] theorem State.rowFifo_msc (x : MscSt) : ({ t with msc := x } : State).rowFifo l = t.rowFifo l := State.rowFifo_of_lanes rfl
@[simp] theorem State.rowFifo_asm (x : AsmSt) : ({ t with asm := x } : State).rowFifo l = t.rowFifo l := State.rowFifo_of_lanes rfl
@[simp] theorem State.rowFifo_setDj (f : Nat) (x : DjQ) : (t.setDj f x).rowFifo l = t.rowFifo l := State.rowFifo_of_lanes rfl
@[simp] theorem State.rowFifo_setCmpCtx (c : Nat) (x : CmpCtx) : (t.setCmpCtx c x).rowFifo l = t.rowFifo l := State.rowFifo_of_lanes rfl
@[simp] theorem State.rowFifo_putJob (j : Job) : (t.putJob j).rowFifo l = t.rowFifo l := State.rowFifo_of_lanes rfl
@[simp] theorem State.rowFifo_drawCarry (r : Nat) : (t.drawCarry r).rowFifo l = t.rowFifo l := State.rowFifo_of_lanes rfl
@[simp] theorem State.rowFifo_store (a : Nat) (b : Bytes) : (t.store a b).rowFifo l = t.rowFifo l := State.rowFifo_of_lanes rfl
@[simp] theorem State.rowFifo_storeFree (a n : Nat) : (t.storeFree a n).rowFifo l = t.rowFifo l := State.rowFifo_of_lanes rfl
@[simp] theorem State.rowFifo_setFrame (h : W32) (f : FrameD) : (t.setFrame h f).rowFifo l = t.rowFifo l := State.rowFifo_of_lanes rfl
@[simp] theorem State.rowFifo_setMark (a : Nat) (h : W32) (m : Nat) : (t.setMark a h m).rowFifo l = t.rowFifo l :=
  State.rowFifo_of_bufOnly (by simp)
@[simp] theorem State.rowFifo_clrMarkA (a : Nat) (h : W32) (m : Nat) : (t.clrMarkA a h m).rowFifo l = t.rowFifo l :=
  State.rowFifo_of_bufOnly (by simp)
@[simp] theorem State.rowFifo_unmark (a : Nat) (h : W32) (m : Nat) : (t.unmark a h m).rowFifo l = t.rowFifo l :=
  State.rowFifo_of_bufOnly (by simp)
@[simp] theorem State.rowFifo_decRefA (a : Nat) (h : W32) : (t.decRefA a h).rowFifo l = t.rowFifo l :=
  State.rowFifo_of_bufOnly (by simp)
@[simp] theorem State.rowFifo_freeIdle (h : W32) : (t.freeIdle h).rowFifo l = t.rowFifo l :=
  State.rowFifo_of_bufOnly (by simp)
@[simp] theorem State.rowFifo_xferRef (a : Nat) (h : W32) (o : Nat) : (t.xferRef a h o).rowFifo l = t.rowFifo l :=
  State.rowFifo_of_bufOnly (by simp)
@[simp] theorem State.rowFifo_incRef (b : Bool) (h : W32) : (t.incRef b h).1.rowFifo l = t.rowFifo l :=
  State.rowFifo_of_bufOnly (by simp)
@[simp] theorem State.rowFifo_newFrame (a c p w h d n : Nat) (poc : W32) (x : Nat) :
    (t.newFrame a c p w h d n poc x).1.rowFifo l = t.rowFifo l :=
  State.rowFifo_of_bufOnly (by simp)
@[simp] theorem State.rowFifo_allocMany (a p c : Nat) (b : Bool) (n : Nat) :
    (t.allocMany a p c b n).1.rowFifo l = t.rowFifo l :=
  State.rowFifo_of_bufOnly (by simp)

end Updates

/-! ### Performance counters (R95) -/

@[simp] theorem State.rowFifo_pmcOverflow (t : State) (l k n : Nat) : (t.pmcOverflow k n).rowFifo l = t.rowFifo l := by
  simp [State.pmcOverflow]

@[simp] theorem State.rowFifo_pmcAdd (t : State) (l k n c fuel : Nat) : (t.pmcAdd k n c fuel).rowFifo l = t.rowFifo l := by
  induction fuel generalizing t n c with
  | zero => rfl
  | succ fuel ih =>
    unfold State.pmcAdd
    dsimp only
    split
    · simp
    · split
      · simp [ih]
      · simp

@[simp] theorem State.rowFifo_pmcSpan (t : State) (l k c n r : Nat) : (t.pmcSpan k c n r).rowFifo l = t.rowFifo l := by
  simp [State.pmcSpan]

@[simp] theorem State.rowFifo_pmcEvent (t : State) (l k c : Nat) : (t.pmcEvent k c).rowFifo l = t.rowFifo l := by
  simp [State.pmcEvent]

@[simp] theorem State.rowFifo_measured (t : State) (l k : Nat) (m : List (Nat × Nat × Nat)) :
    (t.measured k m).rowFifo l = t.rowFifo l := by
  simp [State.measured]

/-! ### Rate control (R125 to R144) -/

@[simp] theorem State.rowFifo_publishTarget (t : State) (l r : Nat) (p : RcPic) : (t.publishTarget r p).rowFifo l = t.rowFifo l := by
  simp [State.publishTarget]

@[simp] theorem State.rowFifo_moveFront (t : State) (l r n : Nat) (b : Bool) : (t.moveFront r n b).rowFifo l = t.rowFifo l := by
  unfold State.moveFront
  simp

@[simp] theorem State.rowFifo_moveFamily (t : State) (l f n : Nat) : (t.moveFamily f n).rowFifo l = t.rowFifo l := by
  unfold State.moveFamily
  simp

@[simp] theorem State.rowFifo_noteSweep (t : State) (l r : Nat) (p : RcPic) : (t.noteSweep r p).rowFifo l = t.rowFifo l := by
  unfold State.noteSweep
  simp

@[simp] theorem State.rowFifo_publishFront (t : State) (l r : Nat) : (t.publishFront r).rowFifo l = t.rowFifo l := by
  unfold State.publishFront
  simp

@[simp] theorem State.rowFifo_bucketAdd (t : State) (l r b : Nat) : (t.bucketAdd r b).1.rowFifo l = t.rowFifo l := by
  unfold State.bucketAdd
  dsimp only
  split <;> simp

@[simp] theorem State.rowFifo_countSkip (t : State) (l d p : Nat) : (t.countSkip d p).rowFifo l = t.rowFifo l := by
  unfold State.countSkip
  simp

@[simp] theorem State.rowFifo_countBias (t : State) (l d p n : Nat) : (t.countBias d p n).rowFifo l = t.rowFifo l := by
  unfold State.countBias
  simp

@[simp] theorem State.rowFifo_settlePic (t : State) (l r : Nat) (p : RcPic) : (t.settlePic r p).rowFifo l = t.rowFifo l := by
  unfold State.settlePic
  simp

@[simp] theorem State.rowFifo_rcRowDone (t : State) (l r p w b : Nat) (c : Option Nat) :
    (t.rcRowDone r p w b c).rowFifo l = t.rowFifo l := by
  unfold State.rcRowDone
  simp

/-! ### The encoder's pictures (R74, R80, R148) -/

@[simp] theorem State.rowFifo_frameRow (t : State) (l : Nat) (h : W32) (n r : Nat) : (t.frameRow h n r).rowFifo l = t.rowFifo l := by
  simp [State.frameRow]

@[simp] theorem State.rowFifo_encRowWritten (t : State) (l r p w : Nat) : (t.encRowWritten r p w).rowFifo l = t.rowFifo l := by
  unfold State.encRowWritten
  split <;> simp

@[simp] theorem State.rowFifo_setEncRefs (t : State) (l r : Nat) (x : List W32) : (t.setEncRefs r x).rowFifo l = t.rowFifo l := by
  simp [State.setEncRefs]

@[simp] theorem State.rowFifo_encPicDone (t : State) (l r p k : Nat) : (t.encPicDone r p k).rowFifo l = t.rowFifo l := by
  unfold State.encPicDone
  simp

/-- recon_fb stands already, or a buffer operation and the picture's entry in the encoder's state. -/
theorem State.takeRecon_cases (s : State) (r p : Nat) :
    s.takeRecon r p = s ∨ ∃ (u : State) (e : EncSt), s.bufOnly u ∧ s.takeRecon r p = u.setEnc r e := by
  unfold State.takeRecon
  split
  · exact .inl rfl
  · dsimp only
    refine .inr ⟨_, _, ?_, rfl⟩
    simp

@[simp] theorem State.rowFifo_takeRecon (t : State) (l r p : Nat) : (t.takeRecon r p).rowFifo l = t.rowFifo l := by
  obtain h | ⟨u, e, hu, h⟩ := t.takeRecon_cases r p
  · rw [h]
  · rw [h, State.rowFifo_setEnc, State.rowFifo_of_bufOnly hu]

@[simp] theorem State.rowFifo_writeStats (t : State) (l r p w : Nat) (x : List UnitStat) :
    (t.writeStats r p w x).rowFifo l = t.rowFifo l := by
  simp [State.writeStats]

/-- The bytes of a coded row: by induction on its buffers. -/
@[simp] theorem State.rowFifo_storeSlices (t : State) (l n : Nat) (hs : List W32) : (t.storeSlices hs n).rowFifo l = t.rowFifo l := by
  induction hs generalizing t n with
  | nil => rfl
  | cons h hs ih => rw [State.storeSlices, ih, State.rowFifo_storeFree]

@[simp] theorem State.rowFifo_codedRow (t : State) (l r : Nat) (c : CodedRow) : (t.codedRow r c).rowFifo l = t.rowFifo l := by
  simp [State.codedRow]

@[simp] theorem State.rowFifo_showRow (t : State) (l r p w b n d : Nat) (c : Bool) (q : Int) :
    (t.showRow r p w b n d c q).rowFifo l = t.rowFifo l := by
  unfold State.showRow
  simp

/-! ### Jobs and rows released (R171, R174, R226) -/

@[simp] theorem State.rowFifo_freeJob (t : State) (l : Nat) (j : Job) : (t.freeJob j).rowFifo l = t.rowFifo l := by
  simp [State.freeJob]

@[simp] theorem State.rowFifo_slotDone (t : State) (l e p r : Nat) : (t.slotDone e p r).rowFifo l = t.rowFifo l := by
  simp [State.slotDone]

@[simp] theorem State.rowFifo_releaseJobs (t : State) (l : Nat) : t.releaseJobs.rowFifo l = t.rowFifo l := by
  simp [State.releaseJobs]

/-- An entry of the job table taken: nothing but the scheduler's own state changes, and of that not the rasters. -/
theorem State.newJob_some {s t : State} {j : Job} (h : s.newJob j = some t) :
    ∃ m : MscSt, t = { s with msc := m } ∧ m.rasters = s.msc.rasters := by
  unfold State.newJob at h
  split at h <;> cases h
  exact ⟨_, rfl, rfl⟩

/-- A job created, in the table or behind those that wait for it: no lane and no raster changes. -/
theorem State.createJob_keeps (t : State) (j : Job) :
    (t.createJob j).lanes = t.lanes ∧ (t.createJob j).msc.rasters = t.msc.rasters := by
  unfold State.createJob
  split
  next u h =>
    obtain ⟨m, rfl, hm⟩ := State.newJob_some (Option.ite_none_right_eq_some.1 h).2
    exact ⟨rfl, hm⟩
  · dsimp only
    repeat' split
    all_goals simp

@[simp] theorem State.rowFifo_createJob (t : State) (l : Nat) (j : Job) : (t.createJob j).rowFifo l = t.rowFifo l :=
  State.rowFifo_of_lanes (t.createJob_keeps j).1

@[simp] theorem State.rowFifo_createDecode (t : State) (l r w : Nat) (h : W32) (b : Bool) (n : Nat) :
    (t.createDecode r w h b n).rowFifo l = t.rowFifo l := by
  simp [State.createDecode]

/-- Rows released one after another: by induction on their number. -/
@[simp] theorem State.rowFifo_releaseRows (t : State) (l f n fuel : Nat) : (t.releaseRows f n fuel).rowFifo l = t.rowFifo l := by
  induction fuel generalizing t with
  | zero => rfl
  | succ fuel ih =>
    unfold State.releaseRows
    dsimp only
    split
    · rfl
    · simp [ih]

@[simp] theorem State.rowFifo_guardRow (t : State) (l f : Nat) : (t.guardRow f).rowFifo l = t.rowFifo l := by
  simp [State.guardRow]

@[simp] theorem State.rowFifo_inputRowEnd (t : State) (l : Nat) (j : Job) (b : Nat) : (t.inputRowEnd j b).rowFifo l = t.rowFifo l := by
  unfold State.inputRowEnd
  split <;> simp

/-! ### The decoder's pictures (R148, R150, R152, R154, R156 to R158) -/

@[simp] theorem State.rowFifo_applyStaged (t : State) (l r : Nat) (x : List (Nat × Byte)) : (t.applyStaged r x).rowFifo l = t.rowFifo l := by
  simp [State.applyStaged]

@[simp] theorem State.rowFifo_showDpb (t : State) (l r : Nat) : (t.showDpb r).rowFifo l = t.rowFifo l := by
  simp [State.showDpb]

@[simp] theorem State.rowFifo_setRefs (t : State) (l r : Nat) (x : List W32) : (t.setRefs r x).rowFifo l = t.rowFifo l := by
  simp [State.setRefs]

@[simp] theorem State.rowFifo_setWaiting (t : State) (l r : Nat) (x : List W32) : (t.setWaiting r x).rowFifo l = t.rowFifo l := by
  simp [State.setWaiting]

@[simp] theorem State.rowFifo_writeOutRow (t : State) (l r : Nat) (w : W32) (n : Nat) : (t.writeOutRow r w n).rowFifo l = t.rowFifo l := by
  simp [State.writeOutRow]

@[simp] theorem State.rowFifo_writeOut (t : State) (l r k : Nat) (h : W32) : (t.writeOut r k h).rowFifo l = t.rowFifo l := by
  unfold State.writeOut
  dsimp only
  split
  · split
    · simp
    · simp
  · rfl

@[simp] theorem State.rowFifo_releasePic (t : State) (l r k : Nat) (h : W32) : (t.releasePic r k h).rowFifo l = t.rowFifo l := by
  unfold State.releasePic
  dsimp only
  split
  · rfl
  · cases (t.dec r).released <;> simp

/-- The pictures that the bumping process releases: by induction on their list. -/
@[simp] theorem State.rowFifo_bumpOut (t : State) (l r k : Nat) (x : List W32) : (t.bumpOut r k x).rowFifo l = t.rowFifo l := by
  induction x generalizing t with
  | nil => simp [State.bumpOut]
  | cons p x ih =>
    unfold State.bumpOut
    split
    · simp [ih]
    · split
      · split <;> simp [ih]
      · exact ih t

@[simp] theorem State.rowFifo_noteDamage (t : State) (l r k : Nat) : (t.noteDamage r k).rowFifo l = t.rowFifo l := by
  unfold State.noteDamage
  dsimp only
  split <;> simp

@[simp] theorem State.rowFifo_concealRow (t : State) (l r n : Nat) (x : List Nat) (m : List (Option (Int × Int))) :
    (t.concealRow r n x m).rowFifo l = t.rowFifo l := by
  simp [State.concealRow]

@[simp] theorem State.rowFifo_decRowWritten (t : State) (l r n : Nat) : (t.decRowWritten r n).rowFifo l = t.rowFifo l := by
  unfold State.decRowWritten
  dsimp only
  split <;> simp

@[simp] theorem State.rowFifo_decRowDone (t : State) (l r k n a b : Nat) (x : List Nat) (m : List (Option (Int × Int))) :
    (t.decRowDone r k n a b x m).rowFifo l = t.rowFifo l := by
  simp [State.decRowDone]

@[simp] theorem State.rowFifo_moveGood (t : State) (l r k : Nat) (h : W32) : (t.moveGood r k h).rowFifo l = t.rowFifo l := by
  unfold State.moveGood
  dsimp only
  split
  · cases (t.dec r).lastGood <;> simp
  · simp

@[simp] theorem State.rowFifo_decPicDone (t : State) (l r k : Nat) : (t.decPicDone r k).rowFifo l = t.rowFifo l := by
  by_cases hs : (t.dec r).skipping = true
  · simp [State.decPicDone, hs]
  · unfold State.decPicDone
    dsimp only
    -- outermost operation first
    rw [if_neg hs, State.rowFifo_if (State.rowFifo_freeIdle ..).symm, State.rowFifo_freeIdle,
      State.rowFifo_bumpOut, State.rowFifo_if (State.rowFifo_moveGood ..).symm, State.rowFifo_moveGood, State.rowFifo_incCf,
      State.rowFifo_setDec, State.rowFifo_if (State.rowFifo_setWaiting ..),
      State.rowFifo_if ((State.rowFifo_setRefs ..).trans (State.rowFifo_setMark ..)), State.rowFifo_if (State.rowFifo_incCf ..)]
    cases (t.dec r).out <;> simp

/-- The rows that a flush conceals: by induction on their list. -/
@[simp] theorem State.rowFifo_flushDecoded (t : State) (l k r : Nat) (x : List Nat) : (t.flushDecoded k r x).rowFifo l = t.rowFifo l := by
  induction x generalizing t with
  | nil => rfl
  | cons n x ih => simp [State.flushDecoded, ih]

end Sys2Proof.Machine
end

section
/-! SUPPORT. The completion of a row and of a picture (R17, R74, R76, R86, R92, R174): what becomes visible, and the record posted. -/

namespace Sys2Proof.Machine

open Sys2Proof

/-! ### The record of a row (R92) -/

/-- A lane's row and FIFO once a record has been posted: a full FIFO loses it. -/
def withRecord (x : Option LaneRun × List (List W32)) (w : List W32) : Option LaneRun × List (List W32) :=
  (x.1, if x.2.length < 512 then x.2 ++ [w] else x.2)

theorem State.rowFifo_lsfPost (t : State) (l ty row a b c : Nat) :
    (t.lsfPost l ty row a b c).rowFifo l = withRecord (t.rowFifo l)
      [w32 (ty * 2 ^ 28 + row % 4096 * 2 ^ 16 + ((t.lane l).lsfSeq + 1) % 2 ^ 16), w32 a, w32 b, w32 c] := by
  unfold State.lsfPost
  dsimp only
  split
  next h => simp [State.rowFifo, withRecord, h]
  next h => simp [State.rowFifo, withRecord, h]

/-- The lane's row is as before, and its FIFO holds one record more. -/
theorem State.posted {s t : State} {l : Nat} {w : List W32} (h : t.rowFifo l = withRecord (s.rowFifo l) w)
    (hf : (s.lane l).lsf.length < 512) :
    (t.lane l).run = (s.lane l).run ∧ (t.lane l).lsf.length = (s.lane l).lsf.length + 1 := by
  simpa [State.rowFifo, withRecord, hf] using congrArg (fun x => (x.1, x.2.length)) h

/-- The slots of a coded row (R97) are counted; nothing else of the lane changes. -/
@[simp] theorem State.rowFifo_rowSlots (t : State) (l k n : Nat) (m : List (Nat × Nat × Nat)) :
    (t.rowSlots k n m).rowFifo l = t.rowFifo l := by
  have h : ∀ (f : State × Nat → Nat → State × Nat), (∀ a c, (f a c).1.rowFifo l = a.1.rowFifo l) →
      ((List.foldl f (t, n) [0x010, 0x011, 0x013])).1.rowFifo l = t.rowFifo l :=
    fun f hf => foldl_keeps (fun a : State × Nat => a.1.rowFifo l) f hf _ _
  unfold State.rowSlots
  dsimp only
  rw [State.rowFifo_ite, State.rowFifo_pmcSpan, ite_self]
  refine h _ (fun a c => ?_)
  split <;> simp

/-- A coded row's completion posts one record and ends no row (R74, R92). -/
theorem State.encodeDone_posts (t : State) (l : Nat) (x : LaneRun) (f : RowFacts) (hs : List W32) :
    ∃ w, (t.encodeDone l x f hs).rowFifo l = withRecord (t.rowFifo l) w := by
  unfold State.encodeDone
  dsimp only
  -- outermost operation first
  rw [State.rowFifo_pmcEvent, State.rowFifo_rowSlots, State.rowFifo_measured, State.rowFifo_drawCarry,
    State.rowFifo_if (State.rowFifo_encPicDone ..), State.rowFifo_publishFront, State.rowFifo_rcRowDone, State.rowFifo_encRowWritten,
    State.rowFifo_codedRow, State.rowFifo_setEnc, State.rowFifo_lsfPost, State.rowFifo_writeStats, State.rowFifo_showRow,
    State.rowFifo_draw]
  exact ⟨_, rfl⟩

/-- A decoded row's completion too. -/
theorem State.decodeDone_posts (t : State) (l : Nat) (x : LaneRun) (f : RowFacts) :
    ∃ w, (t.decodeDone l x f).rowFifo l = withRecord (t.rowFifo l) w := by
  unfold State.decodeDone
  dsimp only
  -- outermost operation first
  rw [State.rowFifo_pmcEvent, State.rowFifo_if ((State.rowFifo_pmcSpan ..).trans (State.rowFifo_measured ..)).symm,
    State.rowFifo_pmcSpan, State.rowFifo_measured, State.rowFifo_drawCarry, State.rowFifo_if (State.rowFifo_decPicDone ..),
    State.rowFifo_if (State.rowFifo_setDec ..).symm, State.rowFifo_setDec, State.rowFifo_lsfPost]
  refine ⟨_, congrArg (withRecord · _) ?_⟩
  split <;> simp

/-! ### The completion of a row (R74, R76, R174) -/

@[simp] theorem State.rowFifo_takeSlices (t : State) (l k r b : Nat) : (t.takeSlices k r b).1.rowFifo l = t.rowFifo l := by
  unfold State.takeSlices
  dsimp only
  split <;> simp

@[simp] theorem State.rowFifo_stallEnds (t : State) (l k : Nat) : (t.stallEnds k).rowFifo l = t.rowFifo l := by
  unfold State.stallEnds
  split <;> simp

@[simp] theorem State.rowFifo_retryDone (t : State) (l : Nat) (j : Job) : (t.retryDone j).rowFifo l = t.rowFifo l := by
  simp [State.retryDone]

/-- What MSC does with a row that is told changes the lane no further than that its row is visible. -/
theorem State.rowFifo_rowTold (t : State) (l : Nat) (j : Job) : (t.rowTold l j).rowFifo l = (t.runVisible l).rowFifo l := by
  simp [State.rowTold]

theorem State.rowFifo_runVisible (t : State) (l : Nat) :
    (t.runVisible l).rowFifo l = ((t.lane l).run.map (fun r => { r with visible := true }), (t.lane l).lsf) := by
  simp [State.runVisible, State.rowFifo]

/-- A row told with its record posted: it is visible, and the FIFO holds one record more. -/
theorem State.told_posts {s t u : State} {l : Nat} {r : LaneRun} {j : Job} {w : List W32} (hr : (s.lane l).run = some r)
    (hf : (s.lane l).lsf.length < 512) (h : t.rowFifo l = withRecord (s.rowFifo l) w) (hu : u.rowFifo l = (t.rowTold l j).rowFifo l) :
    (u.lane l).run = some { r with visible := true } ∧ (u.lane l).lsf.length = (s.lane l).lsf.length + 1 := by
  obtain ⟨h1, h2⟩ := State.posted h hf
  rw [State.rowFifo_rowTold, State.rowFifo_runVisible, h1, hr] at hu
  obtain ⟨k1, k2⟩ := Prod.mk.inj hu
  exact ⟨k1, by rw [k2, h2]⟩

section Complete

variable {s : State} {l : Nat} {r : LaneRun} (hr : (s.lane l).run = some r) (hv : r.visible = false)
  (hm : (s.lane l).ms ≠ .halted) (hp : (s.lane l).power = 2)
include hr hv hm hp

/-- A completion whose job no longer stands is counted and discarded. -/
theorem State.rowCompleteOp_stale (hg : (s.job r.job.idx).gen ≠ r.job.gen ∨ Tbl.find s.msc.jobs r.job.idx = none) (f : RowFacts) :
    s.rowCompleteOp l f = (s.bump bMSC 7).runVisible l := by
  simp [State.rowCompleteOp, hr, hv, hm, hp, hg]

variable (hg : (s.job r.job.idx).gen = r.job.gen) (hj : Tbl.find s.msc.jobs r.job.idx ≠ none) (ht : s.rasterTurn l r.job = true)
include hg hj ht

/-- A decoded row whose turn has come is shown. -/
theorem State.rowCompleteOp_decode (ho : r.job.op = .decode) (f : RowFacts) :
    s.rowCompleteOp l f = ((s.decodeDone l r f).rowTold l r.job).inputRowEnd r.job r.bytes := by
  simp [State.rowCompleteOp, hr, hv, hm, hp, hg, hj, ht, ho]

/-- A coded row with its SLICE buffers is shown. -/
theorem State.rowCompleteOp_encode (ho : r.job.op = .encode) {f : RowFacts} {t : State} {hs : List W32}
    (hk : s.takeSlices l r.job.ctx (ceilDiv f.bits 8) = (t, some hs)) :
    s.rowCompleteOp l f = ((t.stallEnds l).encodeDone l r f hs).rowTold l r.job := by
  simp [State.rowCompleteOp, hr, hv, hm, hp, hg, hj, ht, ho, hk]

/-- Without them the lane traps. -/
theorem State.rowCompleteOp_stalls (ho : r.job.op = .encode) {f : RowFacts} {t : State}
    (hk : s.takeSlices l r.job.ctx (ceilDiv f.bits 8) = (t, none)) : s.rowCompleteOp l f = t.sliceTrap l := by
  simp [State.rowCompleteOp, hr, hv, hm, hp, hg, hj, ht, ho, hk]

/-- A row that is shown is visible with one record more in the FIFO. -/
theorem State.rowCompleteOp_shows (hf : (s.lane l).lsf.length < 512) {f : RowFacts}
    (ho : r.job.op = .decode ∨ (r.job.op = .encode ∧ (s.takeSlices l r.job.ctx (ceilDiv f.bits 8)).2 ≠ none)) :
    ((s.rowCompleteOp l f).lane l).run = some { r with visible := true } ∧
      ((s.rowCompleteOp l f).lane l).lsf.length = (s.lane l).lsf.length + 1 := by
  rcases ho with ho | ⟨ho, hk⟩
  · obtain ⟨w, hw⟩ := s.decodeDone_posts l r f
    rw [State.rowCompleteOp_decode hr hv hm hp hg hj ht ho]
    exact State.told_posts hr hf hw (State.rowFifo_inputRowEnd ..)
  · obtain ⟨hs, hk⟩ := Option.ne_none_iff_exists'.1 hk
    have ht' : s.takeSlices l r.job.ctx (ceilDiv f.bits 8) = ((s.takeSlices l r.job.ctx (ceilDiv f.bits 8)).1, some hs) := by rw [← hk]
    obtain ⟨w, hw⟩ := ((s.takeSlices l r.job.ctx (ceilDiv f.bits 8)).1.stallEnds l).encodeDone_posts l r f hs
    rw [State.rowFifo_stallEnds, State.rowFifo_takeSlices] at hw
    rw [State.rowCompleteOp_encode hr hv hm hp hg hj ht ho ht']
    exact State.told_posts hr hf hw rfl

end Complete

/-! ### FLUSH_PICTURE (R86) -/

@[simp] theorem State.pmcAdd_msc (t : State) (k n c fuel : Nat) : (t.pmcAdd k n c fuel).msc = t.msc := by
  induction fuel generalizing t n c with
  | zero => rfl
  | succ fuel ih =>
    unfold State.pmcAdd State.pmcOverflow
    dsimp only
    repeat' split
    all_goals simp [ih]

@[simp] theorem State.pmcEvent_msc (t : State) (k c : Nat) : (t.pmcEvent k c).msc = t.msc := by
  refine foldl_keeps (fun s : State => s.msc) _ (fun u n => ?_) _ _
  dsimp only
  split <;> simp

/-- A job without a row enters its vector: the lane keeps its FIFO, and MSC its state. -/
theorem State.beginJob_plain (t : State) (l : Nat) {r : LaneRun} (h : r.visible = true) :
    ((t.beginJob l r).lane l).lsf = (t.lane l).lsf ∧ (t.beginJob l r).msc = t.msc := by
  have k := congrArg Prod.snd (State.rowFifo_pmcEvent t l l 0x00A)
  unfold State.beginJob
  dsimp only
  rw [if_pos h, State.setLane_same, State.setLane_msc]
  split
  · exact ⟨k, State.pmcEvent_msc ..⟩
  · exact ⟨rfl, rfl⟩

theorem State.plainJob_keeps (s : State) (l : Nat) (j : Job) :
    ((s.plainJob l j id).lane l).lsf = ((s.popJob l).lane l).lsf ∧ (s.plainJob l j id).msc = (s.popJob l).msc := by
  obtain ⟨h1, h2⟩ := State.beginJob_plain ((s.popJob l).setLane l (id ((s.popJob l).lane l))) l
    (r := { job := j, start := (s.popJob l).ns, visible := true }) rfl
  exact ⟨h1.trans (by simp), h2.trans (by simp)⟩

section Flush

variable {s : State} {l : Nat} {j : Job} (hj : s.headJob l = some j) (ho : j.op = .flush)
include hj ho

/-- A flush of a decode context: what it does to the picture keeps the lane's FIFO, and its record follows. -/
theorem State.flushOp_decode (h4 : Tbl.find s.opens j.ctx = some 4) :
    ∃ (u : State) (n : Nat), u.rowFifo l = (s.plainJob l j id).rowFifo l ∧ s.flushOp l = u.flushPost l j n := by
  unfold State.flushOp
  simp only [hj, ho, h4, ne_eq, not_true_eq_false, if_false]
  split
  · exact ⟨_, _, by simp, rfl⟩
  · exact ⟨_, _, by simp, rfl⟩

/-- A flush of an encode context without a picture in progress leaves its record alone. -/
theorem State.flushOp_encode (h3 : Tbl.find s.opens j.ctx = some 3) (hc : ((s.popJob l).enc j.ctx).cur.open_ = false) :
    s.flushOp l = (s.plainJob l j id).flushPost l j 0 := by
  have he : ((s.plainJob l j id).enc j.ctx).cur.open_ = false := by
    rw [State.enc, (s.plainJob_keeps l j).2]; exact hc
  unfold State.flushOp
  simp [hj, ho, h3, he]

end Flush

/-- The record of a flush stands in the FIFO that the lane had as it took the job. -/
theorem State.flushPost_posts {s u : State} {l : Nat} {j : Job} (hu : u.rowFifo l = (s.plainJob l j id).rowFifo l)
    (hf : ((s.popJob l).lane l).lsf.length < 512) (n : Nat) :
    ((u.flushPost l j n).lane l).lsf.length = ((s.popJob l).lane l).lsf.length + 1 := by
  have hk := (s.plainJob_keeps l j).1
  have hp := State.rowFifo_lsfPost u l 3 j.row (j.ctx * 2 ^ 16 + j.pic % 256 * 256) (n % 2 ^ 24) 0
  rw [hu] at hp
  rw [State.flushPost, (State.posted hp (by rw [hk]; exact hf)).2, hk]

/-! ### A stall on an empty SLICE pool (R17, R111) -/

theorem State.stallTimeout_due {s : State} {l t0 : Nat} (ha : (s.lane l).stallAt = some t0)
    (ho : (s.fltSrc fLaneSliceStall).outcome = .pending) (ht : t0 + 10 * ms ≤ s.ns) :
    s.stallTimeout l = s.decideFault fLaneSliceStall l true := by
  simp [State.stallTimeout, ha, ho, ht]

theorem State.stallTimeout_early {s : State} {l t0 : Nat} (ha : (s.lane l).stallAt = some t0) (ht : s.ns < t0 + 10 * ms) :
    s.stallTimeout l = s := by
  simp [State.stallTimeout, ha, Nat.not_le.2 ht]

section Commands

/-! ### Each command, where its part works, is its operation -/

variable {s : State} (hl : s.live = true)
include hl

theorem exec_rowComplete (l : LaneId) (f : RowFacts) : exec (.rowComplete l f) s = .next (s.after (s.rowCompleteOp l.val f)) := by
  show execRowComplete l f s = _
  exact act_of hl _ s

theorem exec_flushPicture (l : LaneId) : exec (.flushPicture l) s = .next (s.after (s.flushOp l.val)) := by
  show execFlushPicture l s = _
  exact act_of hl _ s

theorem exec_sliceStallTimeout (l : LaneId) : exec (.sliceStallTimeout l) s = .next (s.after (s.stallTimeout l.val)) := by
  show execSliceStallTimeout l s = _
  exact act_of hl _ s

end Commands

/-- Settles O10: every operation between the completion and MSC's notice keeps the lane's row and its FIFO but for the record posted. -/
theorem rowsBecomeVisibleTogether : Obligations.RowsBecomeVisibleTogether := by
  unfold Obligations.RowsBecomeVisibleTogether
  refine ⟨?complete, ?flushDecode, ?flushEncode, ?stall⟩
  case complete =>
    intro l r f s hl hr hv hm hp hf
    refine ⟨fun hg => ?_, fun hg hj ht => ⟨fun ho => ?_, fun t ho hk => ?_⟩⟩
    · rw [exec_rowComplete hl, State.rowCompleteOp_stale hr hv hm hp hg]
    · exact ⟨_, exec_rowComplete hl l f, State.rowCompleteOp_shows hr hv hm hp hg hj ht hf ho⟩
    · rw [exec_rowComplete hl, State.rowCompleteOp_stalls hr hv hm hp hg hj ht ho hk]
  case flushDecode =>
    intro l j s hl hj ho h4 hf
    obtain ⟨u, n, hu, hd⟩ := State.flushOp_decode hj ho h4
    exact ⟨_, by rw [exec_flushPicture hl, hd], State.flushPost_posts hu hf n⟩
  case flushEncode =>
    intro l j s hl hj ho h3 hc hf
    exact ⟨_, by rw [exec_flushPicture hl, State.flushOp_encode hj ho h3 hc], State.flushPost_posts rfl hf 0⟩
  case stall =>
    intro l t0 s hl ha ho
    refine ⟨fun ht => ?_, fun ht => ?_⟩
    · rw [exec_sliceStallTimeout hl, State.stallTimeout_due ha ho ht]
    · rw [exec_sliceStallTimeout hl, State.stallTimeout_early ha ht]

end Sys2Proof.Machine
end

section
/-! SUPPORT. The scheduler (R20, R108, R170 to R182): what the creation, dispatch and release of jobs, the overload measures, and the end of
steering leave unchanged. -/

namespace Sys2Proof.Machine

open Sys2Proof

/-! ### The rasters, through creation and release -/

/-- The allocation of recon_fb changes the encode contexts alone of what MSC holds. -/
theorem State.takeRecon_msc (t : State) (r p : Nat) : ∃ e, (t.takeRecon r p).msc = { t.msc with encs := e } := by
  obtain h | ⟨u, e, hu, h⟩ := t.takeRecon_cases r p
  · exact ⟨t.msc.encs, by rw [h]⟩
  · exact ⟨Tbl.put t.msc.encs r e, by rw [h, State.setEnc, hu.msc]⟩

/-- The jobs released change, of what MSC holds, the encode contexts and the jobs alone. -/
theorem State.releaseJobs_keeps {β : Type} (g : MscSt → β) (hg : ∀ m e j, g { m with encs := e, jobs := j } = g m) (t : State) :
    g t.releaseJobs.msc = g t.msc := by
  refine foldl_keeps (fun s : State => g s.msc) _ (fun s e => ?_) t.msc.jobs t
  dsimp only
  split
  · rw [State.setCmpCtx_msc, State.putJob]
    split
    · obtain ⟨x, hx⟩ := s.takeRecon_msc (s.cf (s.job e.1).ctx 0x08 2) (s.job e.1).pic
      simp only [hx, hg]
    · exact hg s.msc s.msc.encs _
  · rfl

@[simp] theorem State.releaseJobs_msc_rasters (t : State) : t.releaseJobs.msc.rasters = t.msc.rasters :=
  t.releaseJobs_keeps MscSt.rasters (fun _ _ _ => rfl)

@[simp] theorem State.releaseJobs_msc_repeats (t : State) : t.releaseJobs.msc.repeats = t.msc.repeats :=
  t.releaseJobs_keeps MscSt.repeats (fun _ _ _ => rfl)

@[simp] theorem State.enterJobs_msc_rasters (t : State) (l : List Job) : (t.enterJobs l).msc.rasters = t.msc.rasters := by
  refine foldl_keeps (fun s : State => s.msc.rasters) _ (fun s j => ?_) l t
  rw [(State.createJob_keeps _ j).2]
  split
  · obtain ⟨e, he⟩ := s.takeRecon_msc j.ctx j.pic
    rw [he]
  · rfl

@[simp] theorem State.createTile_msc_rasters (t : State) (d p : Nat) (x : Nat × Nat) :
    (t.createTile d p x).msc.rasters = t.msc.rasters := by
  unfold State.createTile
  dsimp only
  split
  · rfl
  · rw [State.enterJobs_msc_rasters, State.setEnc]
    split <;> simp

theorem State.raster_of_msc {s t : State} (h : t.msc.rasters = s.msc.rasters) (d : Nat) : t.raster d = s.raster d := by
  simp only [State.raster, h]

@[simp] theorem State.raster_releaseJobs (t : State) (d : Nat) : t.releaseJobs.raster d = t.raster d :=
  State.raster_of_msc t.releaseJobs_msc_rasters d

/-- The jobs of a row entered, as one list or tile by tile: no raster changes. -/
theorem State.raster_enterRow (t : State) (c : Prop) [Decidable c] (l : List Job) (x : List (Nat × Nat)) (p k d : Nat) :
    (if c then t.enterJobs l else x.foldl (fun s e => s.createTile k p e) t).raster d = t.raster d := by
  refine State.raster_of_msc ?_ d
  split
  · exact t.enterJobs_msc_rasters l
  · exact foldl_keeps (fun s : State => s.msc.rasters) _ (fun s e => s.createTile_msc_rasters k p e) x t

/-- The display's next row moves on by one, at its picture's last row to the next picture. -/
def State.rowAfter (s : State) (d row : Nat) : Nat := if s.displayRows d ≤ row + 1 then 0 else row + 1
def State.picAfter (s : State) (d pic row : Nat) : Nat := if s.displayRows d ≤ row + 1 then pic + 1 else pic

section Create

variable {s u : State} {d pic row : Nat} (hu : u = if row = 0 then s.applyLead d else s)
include hu

/-- A row that is not the display's next, or whose display is not created, makes nothing. -/
theorem State.createRow_other (h : (u.raster d).nextPic ≠ pic ∨ (u.raster d).nextRow ≠ row ∨ u.creates d = false) :
    s.createRow d pic row = s := by
  unfold State.createRow
  simp only [← hu]
  refine if_neg ?_
  simp only [Bool.and_eq_true, decide_eq_true_eq]
  rintro ⟨⟨⟨⟨⟨⟨hc, hp⟩, hr⟩, -⟩, -⟩, -⟩, -⟩
  rcases h with h | h | h
  · exact h hp
  · exact h hr
  · exact Bool.false_ne_true (h.symm.trans hc)

/-- The display's next row, once due and with no earlier row before it, moves the raster on to the row after it. -/
theorem State.createRow_next (hsafe : u.flt.safe = false) (hrun : u.running bMSC = true) (hc : u.creates d = true)
    (hp : (u.raster d).nextPic = pic) (hr : (u.raster d).nextRow = row) (hdue : u.rowDue d pic row ≤ Int.ofNat u.ns)
    (hfirst : u.earlierRow d (u.milestone d row pic) = false) :
    ((s.createRow d pic row).raster d).nextRow = u.rowAfter d row ∧
      ((s.createRow d pic row).raster d).nextPic = u.picAfter d pic row := by
  unfold State.createRow State.rowAfter State.picAfter
  simp only [← hu]
  rw [if_pos (by simpa [hsafe, hrun, hc, hp, hr, hfirst] using hdue), State.raster_releaseJobs, State.raster_enterRow,
    State.setRaster_same]
  simp only [decide_eq_true_eq, and_self]

end Create

/-! ### Dispatch to a lane -/

/-- A lane put back with the queue that it had leaves every queue as it was. -/
theorem State.queue_setLane {t : State} {m : Nat} {x : Lane} (h : x.queue = (t.lane m).queue) (q : Nat) :
    ((t.setLane m x).lane q).queue = (t.lane q).queue := by
  by_cases e : q = m
  · rw [e, State.setLane_same, h]
  · rw [State.setLane_other _ _ _ _ e]

@[simp] theorem State.queue_wakeLane (t : State) (l q : Nat) : ((t.wakeLane l).lane q).queue = (t.lane q).queue := by
  unfold State.wakeLane
  split
  · refine State.queue_setLane ?_ q
    rfl
  · rfl

@[simp] theorem State.queue_prefetchNext (t : State) (l q : Nat) : ((t.prefetchNext l).lane q).queue = (t.lane q).queue := by
  unfold State.prefetchNext
  dsimp only
  repeat' split
  · refine State.queue_setLane ?_ q
    rfl
  all_goals rfl

@[simp] theorem State.wakeLane_msc (t : State) (l : Nat) : (t.wakeLane l).msc = t.msc := by
  unfold State.wakeLane
  split <;> rfl

@[simp] theorem State.prefetchNext_msc (t : State) (l : Nat) : (t.prefetchNext l).msc = t.msc := by
  unfold State.prefetchNext
  dsimp only
  repeat' split
  all_goals rfl

@[simp] theorem State.putJob_lane (t : State) (j : Job) (l : Nat) : (t.putJob j).lane l = t.lane l := rfl

/-- A job that is no retry goes to the end of its lead's queue. -/
theorem State.enqueueJob_queue {t : State} {l : Nat} {j : Job} (h : j.retry = false) :
    ((t.enqueueJob l j).lane (t.leadFor l)).queue = (t.lane (t.leadFor l)).queue ++ [{ j with placed := true }] := by
  unfold State.enqueueJob
  dsimp only
  rw [State.queue_prefetchNext, State.queue_setLane ?kept, State.setLane_same]
  case kept => rfl
  simp [h]

/-- A job given to a lane is in the table as placed. -/
theorem State.enqueueJob_job (t : State) (l : Nat) (j : Job) : (t.enqueueJob l j).job j.idx = { j with placed := true } := by
  unfold State.enqueueJob State.job
  simp [State.putJob]

/-- A decode job is given as it is; at most its context becomes ACTIVE. -/
theorem State.flagJob_decode {s : State} {j : Job} (h : j.op = .decode) :
    (s.flagJob j).2 = j ∧ (s.flagJob j).1.lanes = s.lanes := by
  unfold State.flagJob
  rw [if_pos (by simp [h])]
  refine ⟨rfl, ?_⟩
  dsimp only
  split <;> simp

theorem State.leadFor_of_lanes {s t : State} (h : t.lanes = s.lanes) (l : Nat) : t.leadFor l = s.leadFor l := by
  unfold State.leadFor State.lane
  rw [h]

/-- The jobs that JOB_DISPATCH may give to lane `l`. -/
def State.jobsForLane (s : State) (l : Nat) : List Job :=
  (s.msc.jobs.map Prod.snd).filter (fun j => j.released && !j.placed && decide (j.op ≠ .compose) &&
    decide (s.laneOfJob j = some l) && s.mayRun j && s.inStep j)

/-- A lane that takes work, with room in its queue, is given the first ready job. -/
theorem State.dispatchLane_gives {s : State} {l : Nat} {j : Job} (hrun : s.running bMSC = true) (hsafe : s.flt.safe = false)
    (htakes : s.laneTakes l = true) (hroom : (s.lane (s.leadFor l)).queue.length < s.laneDepth)
    (hj : s.firstJob (s.jobsForLane l) = some j) : s.dispatchLane l = (s.flagJob j).1.enqueueJob l (s.flagJob j).2 := by
  unfold State.jobsForLane at hj
  unfold State.dispatchLane
  rw [if_neg (by simpa [hrun, hsafe, htakes] using hroom)]
  dsimp only
  rw [hj]

/-- A decode job that JOB_DISPATCH gives to a lane stands last in its lead's queue, and is placed. -/
theorem State.dispatchLane_decode {s : State} {l : Nat} {j : Job} (hrun : s.running bMSC = true) (hsafe : s.flt.safe = false)
    (htakes : s.laneTakes l = true) (hroom : (s.lane (s.leadFor l)).queue.length < s.laneDepth)
    (hj : s.firstJob (s.jobsForLane l) = some j) (hop : j.op = .decode) (hre : j.retry = false) :
    ((s.dispatchLane l).lane (s.leadFor l)).queue = (s.lane (s.leadFor l)).queue ++ [{ j with placed := true }] ∧
      (s.dispatchLane l).job j.idx = { j with placed := true } := by
  obtain ⟨hsame, hlanes⟩ := State.flagJob_decode (s := s) hop
  rw [State.dispatchLane_gives hrun hsafe htakes hroom hj, hsame]
  refine ⟨?_, State.enqueueJob_job _ l j⟩
  rw [← State.leadFor_of_lanes hlanes l, State.enqueueJob_queue hre]
  simp only [State.lane, hlanes]

/-! ### Dispatch to a pipe -/

/-- The jobs that JOB_DISPATCH may give to the pipes. -/
def State.jobsForPipes (s : State) : List Job :=
  (s.msc.jobs.map Prod.snd).filter (fun j => j.released && !j.placed && decide (j.op = .compose) && s.mayRun j)

/-- The first ready composition job that has something to compose goes to a free pipe. -/
theorem State.dispatchPipes_gives {s : State} {j : Job} {p : Nat} (hrun : s.running bMSC = true) (hsafe : s.flt.safe = false)
    (hj : s.firstJob s.jobsForPipes = some j) (hcols : (s.cmpStarted j.ctx j.pic && (s.composedCols j).isEmpty) = false)
    (hp : s.freePipe (if j.retry then j.fromLane - 65 else 8) = some p) : s.dispatchPipes = s.givePipe p j := by
  unfold State.jobsForPipes at hj
  unfold State.dispatchPipes
  rw [if_neg (by simp [hrun, hsafe]), hj]
  dsimp only
  rw [if_neg (by rw [hcols]; exact Bool.false_ne_true), hp]

theorem State.givePipe_pipe (s : State) (p : Nat) (j : Job) :
    ((s.givePipe p j).pipe p).job = some { j with placed := true } ∧ ((s.givePipe p j).pipe p).begun = false ∧
      ((s.pipe p).power = 0 → ((s.givePipe p j).pipe p).wakeAt = some (s.ns + 15 * us)) := by
  simp only [State.givePipe, State.setPipe_same, true_and]
  intro h
  rw [if_pos h]

/-! ### Late sources -/

/-- A composition row at its deadline less its cost, with a source missing, is repeated from then on. -/
theorem State.repeatRow_repeats {s : State} {i : Nat} {j : Job} (hj : Tbl.find s.msc.jobs i = some j) (hop : j.op = .compose)
    (hrel : j.released = false) (hnew : ¬ i ∈ s.msc.repeats) (hsrc : s.sourcesPresent j = false)
    (hlate : j.deadline ≤ s.ns + s.cmpCost (s.cf j.ctx 0x08 2) j.row) : i ∈ (s.repeatRow i).msc.repeats := by
  unfold State.repeatRow
  rw [hj]
  dsimp only
  rw [if_pos (by simp [hop, hrel, hnew, hsrc, hlate]), State.releaseJobs_msc_repeats]
  exact List.mem_append_right _ (List.mem_singleton_self i)

/-- One whose sources are all present, or whose deadline less its cost is still to come, stays as it is. -/
theorem State.repeatRow_rests {s : State} {i : Nat} {j : Job} (hj : Tbl.find s.msc.jobs i = some j)
    (h : s.sourcesPresent j = true ∨ s.ns + s.cmpCost (s.cf j.ctx 0x08 2) j.row < j.deadline) : s.repeatRow i = s := by
  unfold State.repeatRow
  rw [hj]
  dsimp only
  refine if_neg ?_
  rintro ⟨-, -, hlate, hsrc, -⟩
  rcases h with h | h
  · exact hsrc h
  · exact absurd hlate (Nat.not_le_of_lt h)

/-! ### Overload: the measures leave the time of the evaluation as it was (R180) -/

@[simp] theorem State.setRaster_ovlAt (t : State) (d : Nat) (x : Raster) : (t.setRaster d x).msc.ovlAt = t.msc.ovlAt := rfl
@[simp] theorem State.setEnc_ovlAt (t : State) (r : Nat) (e : EncSt) : (t.setEnc r e).msc.ovlAt = t.msc.ovlAt := rfl
@[simp] theorem State.setDec_ovlAt (t : State) (r : Nat) (e : DecSt) : (t.setDec r e).msc.ovlAt = t.msc.ovlAt := rfl
@[simp] theorem State.setOvl_ovlAt (t : State) (x : Nat) (o : OvlRes) : (t.setOvl x o).msc.ovlAt = t.msc.ovlAt := rfl

@[simp] theorem State.showSusp_ovlAt (t : State) (d : Nat) : (t.showSusp d).msc.ovlAt = t.msc.ovlAt := by
  unfold State.showSusp
  dsimp only
  split
  · simp [State.incCf]
  · rfl

@[simp] theorem State.suspFrom_ovlAt (t : State) (d : Nat) : (t.suspFrom d).msc.ovlAt = t.msc.ovlAt := by
  unfold State.suspFrom
  dsimp only
  split <;> rfl

@[simp] theorem State.suspEnd_ovlAt (t : State) (d : Nat) : (t.suspEnd d).msc.ovlAt = t.msc.ovlAt := by
  simp [State.suspEnd]

@[simp] theorem State.setSuspended_ovlAt (t : State) (r : Nat) (b : Bool) : (t.setSuspended r b).msc.ovlAt = t.msc.ovlAt := by
  unfold State.setSuspended
  split
  · dsimp only
    rw [foldl_keeps (fun s : State => s.msc.ovlAt), State.setEnc_ovlAt]
    intro s d
    repeat' split
    all_goals simp
  · rfl

@[simp] theorem State.restartRefresh_ovlAt (t : State) (r : Nat) : (t.restartRefresh r).msc.ovlAt = t.msc.ovlAt := by
  unfold State.restartRefresh
  exact foldl_keeps (fun s : State => s.msc.ovlAt) _ (fun s e => s.setEnc_ovlAt e _) _ t

@[simp] theorem State.resume_ovlAt (t : State) (r : Nat) : (t.resume r).msc.ovlAt = t.msc.ovlAt := by
  unfold State.resume
  dsimp only
  rw [State.event_msc]
  split <;> simp [State.setCfI]

theorem State.takeMeasure_ovlAt (t : State) (x : Nat) : (t.takeMeasure x).msc.ovlAt = t.msc.ovlAt := by
  unfold State.takeMeasure
  dsimp only
  repeat' split
  all_goals simp

theorem State.undoMeasure_ovlAt (t : State) (x : Nat) : (t.undoMeasure x).msc.ovlAt = t.msc.ovlAt := by
  unfold State.undoMeasure
  dsimp only
  repeat' split
  all_goals simp

theorem State.evalRes_ovlAt (t : State) (x : Nat) : (t.evalRes x).msc.ovlAt = t.msc.ovlAt := by
  unfold State.evalRes
  dsimp only
  repeat' split
  · exact t.takeMeasure_ovlAt x
  · rfl
  · exact t.undoMeasure_ovlAt x
  all_goals rfl

/-- Overload, once 10 ms have passed, is evaluated now. -/
theorem State.evalOverload_due {s : State} (hrun : s.running bMSC = true) (h : s.msc.ovlAt + 10 * ms ≤ s.ns) :
    s.evalOverload.msc.ovlAt = s.ns := by
  unfold State.evalOverload
  rw [if_pos ⟨h, hrun⟩]
  exact foldl_keeps (fun s : State => s.msc.ovlAt) _ (fun s x => s.evalRes_ovlAt x) _ _

theorem State.evalOverload_early {s : State} (h : s.ns < s.msc.ovlAt + 10 * ms) : s.evalOverload = s :=
  if_neg fun k => absurd k.1 (Nat.not_le_of_lt h)

/-! ### A lane that wakes (R108, R110) -/

theorem State.laneWoken_due {s : State} {l t0 : Nat} (hw : (s.lane l).wakeAt = some t0) (h : t0 ≤ s.ns) :
    s.laneWoken l = (s.setLane l { s.lane l with power := 2, wakeAt := none, idleAt := none }).initLane l := by
  unfold State.laneWoken
  rw [hw]
  exact if_pos h

theorem State.laneWoken_early {s : State} {l t0 : Nat} (hw : (s.lane l).wakeAt = some t0) (h : s.ns < t0) : s.laneWoken l = s := by
  unfold State.laneWoken
  rw [hw]
  exact if_neg (Nat.not_le_of_lt h)

/-! ### Steering ends (R182, R262): no register changes -/

theorem State.bufOnly.regs {s t : State} (h : s.bufOnly t) : t.regs = s.regs := by rw [h]

@[simp] theorem State.allocMany_regs (t : State) (a p c : Nat) (b : Bool) (n : Nat) : (t.allocMany a p c b n).1.regs = t.regs :=
  State.bufOnly.regs ((State.bufOnly_allocMany t t a p c b n).2 rfl)

theorem State.newCopy_if_regs (t : State) (p : Prop) [Decidable p] (n : Nat) (h b : List W32) (k : Bool) (c : Copy) :
    (if p then ((t.writeCells n h b k).newCopy c).1 else t).regs = t.regs := by
  split <;> rfl

@[simp] theorem State.sendRaw_regs (t : State) (d y q : Nat) (b : Bool) (p : Bytes) : (t.sendRaw d y q b p).regs = t.regs := by
  unfold State.sendRaw
  dsimp only
  rw [State.newCopy_if_regs, State.allocMany_regs, State.emit_regs, State.setEs_regs]

theorem State.esCount_regs (t : State) (d i k : Nat) : (t.esCount d i k).regs = t.regs := rfl

theorem State.pumpEs_regs (d n : Nat) (t : State) : (t.pumpEs d n).regs = t.regs := by
  induction n generalizing t with
  | zero => rfl
  | succ n ih =>
    unfold State.pumpEs
    dsimp only
    split
    · rfl
    · split
      · rfl
      · rw [ih, State.esCount_regs, State.sendRaw_regs, State.setEs_regs]

@[simp] theorem State.steerTo_regs (t : State) (d : Nat) (x : Int) : (t.steerTo d x).regs = t.regs := by
  unfold State.steerTo State.sendRel
  dsimp only
  split <;> simp [State.incCf, State.setCfI, State.pumpEs_regs]

@[simp] theorem State.steerOff_regs (t : State) : t.steerOff.regs = t.regs := by
  refine foldl_keeps (fun s : State => s.regs) _ (fun s e => ?_) _ t
  split <;> simp

/-! ### MSC_STEER written (R57, R182) -/

/-- A word with a field replaced, by the bits above the field, its own and those below. -/
theorem setFld_eq (v lo w x : Nat) : setFld v lo w x = 2 ^ (lo + w) * (v / 2 ^ (lo + w)) + (2 ^ lo * (x % 2 ^ w) + v % 2 ^ lo) := by
  have hv : v = 2 ^ (lo + w) * (v / 2 ^ (lo + w)) + 2 ^ lo * fld v lo w + v % 2 ^ lo := by
    rw [fld, Nat.pow_add, ← Nat.div_div_eq_div_mul, Nat.mul_assoc, ← Nat.mul_add, Nat.div_add_mod, Nat.div_add_mod]
  rw [setFld, Nat.mul_comm (fld v lo w), Nat.mul_comm (x % 2 ^ w)]
  omega

/-- A field replaced below bit `i` leaves the bit as it was. -/
theorem tb_setFld_below {lo w i : Nat} (h : lo + w ≤ i) (v x : Nat) : tb (setFld v lo w x) i = tb v i := by
  obtain ⟨k, rfl⟩ := Nat.exists_eq_add_of_le h
  have hlow : 2 ^ lo * (x % 2 ^ w) + v % 2 ^ lo < 2 ^ (lo + w) := by
    calc 2 ^ lo * (x % 2 ^ w) + v % 2 ^ lo
        < 2 ^ lo * (x % 2 ^ w) + 2 ^ lo := Nat.add_lt_add_left (Nat.mod_lt v (Nat.two_pow_pos lo)) _
      _ = 2 ^ lo * (x % 2 ^ w + 1) := (Nat.mul_succ ..).symm
      _ ≤ 2 ^ lo * 2 ^ w := Nat.mul_le_mul_left _ (Nat.mod_lt x (Nat.two_pow_pos w))
      _ = 2 ^ (lo + w) := (Nat.pow_add ..).symm
  have hdiv : setFld v lo w x / 2 ^ (lo + w) = v / 2 ^ (lo + w) := by
    rw [setFld_eq, Nat.mul_add_div (Nat.two_pow_pos _), Nat.div_eq_of_lt hlow, Nat.add_zero]
  rw [tb, tb, fld, fld, Nat.pow_add, ← Nat.div_div_eq_div_mul, ← Nat.div_div_eq_div_mul, hdiv]

/-- A one-bit field holds what it is given. -/
theorem tb_setFld_same (v i x : Nat) : tb (setFld v i 1 x) i = tb x 0 := by
  have hdiv : setFld v i 1 x / 2 ^ i = 2 * (v / (2 ^ i * 2)) + x % 2 ^ 1 := by
    rw [setFld_eq, Nat.pow_succ, Nat.mul_assoc, ← Nat.add_assoc, ← Nat.mul_add, Nat.mul_add_div (Nat.two_pow_pos i),
      Nat.div_eq_of_lt (Nat.mod_lt v (Nat.two_pow_pos i)), Nat.add_zero]
  rw [tb, tb, fld, fld, hdiv]
  simp

theorem tb_w32 (n : Nat) : tb (w32 n).toNat 31 = tb n 31 := by
  have h : n % 2 ^ 32 / 2 ^ 31 % 2 = n / 2 ^ 31 % 2 := by omega
  simp only [tb, fld, w32, BitVec.toNat_ofNat, Nat.pow_one, h]

theorem tb_fld_zero (v i : Nat) : tb (fld v i 1) 0 = tb v i := by
  simp [tb, fld]

/-- MSC_STEER's register: EN, and the three fields below it. -/
def steerDesc : RegDesc :=
  { reset := 0x80641014, fields := [rw 31 1, rwc 16 8 (.clampNz 200), rwc 8 8 (.range 1 255), rw 0 8] }

theorem regDesc_steer : regDesc 0xD00048 = some steerDesc := rfl

/-- EN of MSC_STEER holds what a write carries. -/
theorem State.newWord_steer_en (s : State) (old v : Nat) : tb (s.newWord steerDesc false old v) 31 = tb v 31 := by
  simp only [State.newWord, steerDesc, List.foldl, rw, rwc, Bool.and_false, Bool.false_eq_true, if_false]
  rw [tb_setFld_below (by decide), tb_setFld_below (by decide), tb_setFld_below (by decide), tb_setFld_same]
  exact tb_fld_zero v 31

theorem State.storeReg_steer_word (s : State) (v : Nat) :
    (s.storeReg 0xD00048 steerDesc v).word 0xD00048 steerDesc.reset =
      (w32 (s.newWord steerDesc false (s.word 0xD00048 steerDesc.reset) v)).toNat := by
  have hfree : s.locked steerDesc.lock (s.word 0xD00048 steerDesc.reset) = false := rfl
  unfold State.storeReg
  dsimp only
  rw [hfree, if_neg (by decide), State.word, Tbl.get_put_same]

/-- What follows from a write of MSC_STEER changes no register. -/
theorem State.afterStore_steer_regs (t : State) (old new : Nat) : (t.afterStore 0xD00048 old new).regs = t.regs := by
  have hgo : t.afterStore 0xD00048 old new = if !tb new 31 then t.steerOff else t := by
    simp [State.afterStore]
  rw [hgo]
  split <;> simp

/-- MSC_STEER after a write has EN as written. -/
theorem State.writeReg_steer_en (s : State) (v : Nat) : tb (s.writeReg 0xD00048 v).mscSteer 31 = tb v 31 := by
  unfold State.writeReg
  rw [regDesc_steer]
  dsimp only
  unfold State.mscSteer
  rw [State.afterStore_steer_regs]
  calc tb ((s.storeReg 0xD00048 steerDesc v).word 0xD00048 steerDesc.reset) 31
      = tb (s.newWord steerDesc false (s.word 0xD00048 steerDesc.reset) v) 31 := by rw [State.storeReg_steer_word, tb_w32]
    _ = tb v 31 := s.newWord_steer_en _ v

/-! ### The scheduler's commands -/

section Commands

variable {s : State}

theorem exec_rowJobCreate (hw : s.mscWorks = true) (d : CtxId) (pic row : Nat) :
    exec (.rowJobCreate d pic row) s = .next (s.after (s.createRow d.val pic row)) := by
  show execRowJobCreate d pic row s = _
  exact act_of hw _ s

theorem exec_sourceRowArrival (hw : s.mscWorks = true) (r : CtxId) (row : Nat) :
    exec (.sourceRowArrival r row) s = .next (s.after (s.sourceRow r.val row)) := by
  show execSourceRowArrival r row s = _
  exact act_of hw _ s

theorem exec_jobTableEntryFreed (hw : s.mscWorks = true) : exec .jobTableEntryFreed s = .next (s.after s.entryFreed) := by
  show execJobTableEntryFreed s = _
  exact act_of hw _ s

theorem exec_jobDispatch (hw : s.mscWorks = true) (x : DispTarget) : exec (.jobDispatch x) s = .next (s.after (s.dispatch x)) := by
  show execJobDispatch x s = _
  exact act_of hw _ s

theorem exec_sourceRepeat (hw : s.mscWorks = true) (i : JobId) :
    exec (.sourceRepeat i) s = .next (s.after (s.repeatRow i.val)) := by
  show execSourceRepeat i s = _
  exact act_of hw _ s

theorem exec_overloadEvaluate (hl : s.live = true) : exec .overloadEvaluate s = .next (s.after s.evalOverload) := by
  show execOverloadEvaluate s = _
  exact act_of hl _ s

theorem exec_steerDisable (hb : s.barTakes 0xD00048 = true) (v : W32) :
    exec (.steerDisable v) s = .next (s.after (s.writeReg 0xD00048 v.toNat)) := by
  show execSteerDisable v s = _
  exact act_of hb _ s

theorem exec_domainReady_lane (hl : s.live = true) (l : LaneId) :
    exec (.domainReady (.lane l)) s = .next (s.after (s.laneWoken l.val)) := by
  show execDomainReady (.lane l) s = _
  exact act_of hl _ s

/-- The row of a decode context that has arrived has its job created. -/
theorem State.sourceRow_decode {r : Nat} (h : Tbl.find s.opens r = some 4) (row : Nat) :
    s.sourceRow r row = (s.createDecode r row nullHandle false 0).releaseJobs := by
  unfold State.sourceRow
  simp only [h]

/-- The coded-as-is row of an encode context that has arrived releases the first of its jobs. -/
theorem State.sourceRow_encode {r row : Nat} {j : Job} (h : Tbl.find s.opens r = some 3)
    (hj : s.firstJob ((s.msc.jobs.map Prod.snd).filter (fun j =>
      decide (j.op = .encode) && decide (j.ctx = r) && decide (j.row = row) && !j.released)) = some j) :
    s.sourceRow r row = (if row = 0 then s.takeRecon r j.pic else s).putJob { j with released := true } := by
  unfold State.sourceRow
  simp only [h, hj]

/-- The row of any other source that has arrived has the composition jobs judged. -/
theorem State.sourceRow_other {r : Nat} (h3 : Tbl.find s.opens r ≠ some 3) (h4 : Tbl.find s.opens r ≠ some 4) (row : Nat) :
    s.sourceRow r row = s.releaseJobs := by
  unfold State.sourceRow
  split
  · contradiction
  · contradiction
  · rfl

/-- A freed entry serves the oldest creation that waits. -/
theorem State.entryFreed_serves {j : Job} {q : List Job} {t : State} (hq : s.msc.waiting = j :: q) (ht : s.newJob j = some t) :
    s.entryFreed = ({ t with msc := { t.msc with waiting := q } }).releaseJobs := by
  unfold State.entryFreed
  rw [hq]
  dsimp only
  rw [ht]

end Commands

/-- Settles O15: a lemma for each command, on what creation, dispatch, the measures and the end of steering leave as they were. -/
theorem schedulerAnswers : Obligations.SchedulerAnswers := by
  unfold Obligations.SchedulerAnswers
  refine ⟨?create, ?source, ?freed, ?lane, ?pipes, ?repeats, ?overload, ?steer, ?woken⟩
  case create =>
    intro d pic row s hw
    rw [exec_rowJobCreate hw]
    refine ⟨fun h => ?_, fun hsafe hrun hc hp hr hdue hfirst => ⟨_, rfl, ?_⟩⟩
    · rw [State.createRow_other rfl h]
    · exact State.createRow_next rfl hsafe hrun hc hp hr hdue hfirst
  case source =>
    intro r row s hw
    rw [exec_sourceRowArrival hw]
    refine ⟨fun h => ?_, fun j h hj => ?_, fun h3 h4 => ?_⟩
    · rw [State.sourceRow_decode h]
    · rw [State.sourceRow_encode h hj]
    · rw [State.sourceRow_other h3 h4]
  case freed =>
    intro j q t s hw hq ht
    rw [exec_jobTableEntryFreed hw, State.entryFreed_serves hq ht]
  case lane =>
    intro l j s hw hrun hsafe htakes hroom hj hop hre
    exact ⟨_, exec_jobDispatch hw _, State.dispatchLane_decode hrun hsafe htakes hroom hj hop hre⟩
  case pipes =>
    intro j p s hw hrun hsafe hj hcols hp
    refine ⟨_, exec_jobDispatch hw _, ?_⟩
    rw [State.dispatch, State.dispatchPipes_gives hrun hsafe hj hcols hp]
    exact s.givePipe_pipe p j
  case repeats =>
    intro i j s hw hj hop hrel hnew
    rw [exec_sourceRepeat hw]
    refine ⟨fun h => ?_, fun h => ?_, fun hsrc hlate => ⟨_, rfl, State.repeatRow_repeats hj hop hrel hnew hsrc hlate⟩⟩
    · rw [State.repeatRow_rests hj (.inl h)]
    · rw [State.repeatRow_rests hj (.inr h)]
  case overload =>
    intro s hl hrun
    rw [exec_overloadEvaluate hl]
    exact ⟨fun h => by rw [State.evalOverload_early h], fun h => ⟨_, rfl, State.evalOverload_due hrun h⟩⟩
  case steer =>
    intro v s hb hv
    exact ⟨_, exec_steerDisable hb v, (s.writeReg_steer_en v.toNat).trans hv⟩
  case woken =>
    intro l t0 s hl hw
    rw [exec_domainReady_lane hl]
    refine ⟨fun h => ⟨_, rfl, ?_⟩, fun h => by rw [State.laneWoken_early hw h]⟩
    simp [State.laneWoken_due hw h, State.initLane]

end Sys2Proof.Machine
end

section
/-! SUPPORT. The fields of registers (R57, R60): a field keeps its value while another field of the word is replaced, and the fields of each described
register lie apart. -/

namespace Sys2Proof.Machine

open Sys2Proof

/-! ### Bits and fields of a word -/

theorem tb_eq_testBit (v i : Nat) : tb v i = v.testBit i := by
  simp only [tb, fld, Nat.testBit_eq_decide_div_mod_eq]
  rfl

/-- A field is its bits. -/
theorem fld_congr {a b lo w : Nat} (h : ∀ i, lo ≤ i → i < lo + w → tb a i = tb b i) : fld a lo w = fld b lo w := by
  refine Nat.eq_of_testBit_eq fun j => ?_
  simp only [fld, Nat.testBit_mod_two_pow, Nat.testBit_div_two_pow]
  by_cases hj : j < w
  · have hb := h (lo + j) (by omega) (by omega)
    simp only [tb_eq_testBit] at hb
    simp [Nat.add_comm j, hb]
  · simp [hj]

/-- A field replaced above bit `i` leaves the bit as it was. -/
theorem tb_setFld_above {lo w i : Nat} (h : i < lo) (v x : Nat) : tb (setFld v lo w x) i = tb v i := by
  have hlow : setFld v lo w x = 2 ^ lo * (2 ^ w * (v / 2 ^ (lo + w)) + x % 2 ^ w) + v % 2 ^ lo := by
    rw [setFld_eq, Nat.mul_add, ← Nat.mul_assoc, ← Nat.pow_add, Nat.add_assoc]
  rw [tb_eq_testBit, tb_eq_testBit, hlow, Nat.testBit_two_pow_mul_add _ (Nat.mod_lt v (Nat.two_pow_pos lo)), if_pos h,
    Nat.testBit_mod_two_pow]
  simp [h]

/-- Two fields share no bit. -/
def RField.apart (f g : RField) : Bool := decide (f.lo + f.w ≤ g.lo) || decide (g.lo + g.w ≤ f.lo)

/-- A field keeps its value while a field apart from it is replaced. -/
theorem fld_setFld_apart {f g : RField} (h : f.apart g = true) (v x : Nat) : fld (setFld v g.lo g.w x) f.lo f.w = fld v f.lo f.w := by
  refine fld_congr fun i hlo hhi => ?_
  simp only [RField.apart, Bool.or_eq_true, decide_eq_true_eq] at h
  rcases h with h | h
  · exact tb_setFld_above (by omega) v x
  · exact tb_setFld_below (by omega) v x

/-! ### Fields of the described registers -/

/-- Each static field lies apart from each field that is not static. -/
def RegDesc.apart (d : RegDesc) : Bool := d.fields.all (fun f => !f.static || d.fields.all (fun g => g.static || f.apart g))

/-- The description at an address, where there is one, has its static fields apart from the others. -/
def allApart (x : Option RegDesc) : Bool := x.all RegDesc.apart

/-- Row by row of the table. -/
theorem regDesc_apart (a : Nat) : allApart (regDesc a) = true := by
  dsimp only [regDesc, lanDesc, pltDesc, fltDesc, hqeDesc, evcDesc, memDesc, swcDesc, tmgDesc, prtDesc, mscDesc, cmpDesc, asmDesc]
  repeat' split
  all_goals rfl

/-- In a register's description a static field lies apart from each field that is not. -/
theorem regDesc_static_apart {a : Nat} {d : RegDesc} {f g : RField} (hd : regDesc a = some d) (hf : f ∈ d.fields) (hs : f.static = true)
    (hg : g ∈ d.fields) (hn : g.static = false) : f.apart g = true := by
  have h := regDesc_apart a
  simp only [allApart, hd, Option.all_some, RegDesc.apart, List.all_eq_true] at h
  have hr := h f hf
  simp only [hs, Bool.not_true, Bool.false_or, List.all_eq_true] at hr
  simpa [hn] using hr g hg

/-- What each member's step of a fold leaves as it was, the fold leaves as it was. -/
theorem foldl_keeps_mem {α β σ : Type} (g : σ → β) (f : σ → α → σ) (l : List α) (h : ∀ a ∈ l, ∀ s, g (f s a) = g s) (s : σ) :
    g (l.foldl f s) = g s := by
  induction l generalizing s with
  | nil => rfl
  | cons a r ih => rw [List.foldl_cons, ih (fun b hb => h b (by simp [hb])), h a (by simp)]

/-- Settles O4: a locked write replaces only fields that are not static, and the static ones lie apart from those. -/
theorem staticFieldsKeepTheirValues : Obligations.StaticFieldsKeepTheirValues := by
  unfold Obligations.StaticFieldsKeepTheirValues
  intro a v old s d f _ hd hf hs
  unfold State.newWord
  refine foldl_keeps_mem (fun w => fld w f.lo f.w) _ d.fields (fun g hg w => ?_) old
  cases hn : g.static with
  | true => simp
  | false => simpa using fld_setFld_apart (regDesc_static_apart hd hf hs hg hn) w _

end Sys2Proof.Machine
end

section
/-! SUPPORT. Context records as they read (R68, R89): stored fields, and the carried state that stands over the bytes from 0xC0 on. -/

namespace Sys2Proof.Machine

open Sys2Proof

/-! ### Little-endian bytes -/

@[simp] theorem leBytes_length (n v : Nat) : (leBytes n v).length = n := by
  induction n generalizing v with
  | zero => rfl
  | succ n ih => simp [leBytes, ih]

/-- The bytes of a number that fits spell the number. -/
theorem leNat_leBytes {n v : Nat} (h : v < 256 ^ n) : leNat (leBytes n v) = v := by
  induction n generalizing v with
  | zero => simp at h; simp [leBytes, leNat, h]
  | succ n ih =>
    rw [leBytes, leNat, ih (by rw [Nat.pow_succ] at h; omega), BitVec.toNat_ofNat]
    exact Nat.mod_add_div v 256

/-! ### Stored bytes -/

theorem State.ctxByte_setCtx_other (s : State) {r off r2 off2 : Nat} {b : Bytes}
    (h : r2 * 256 + off2 < r * 256 + off ∨ r * 256 + off + b.length ≤ r2 * 256 + off2) :
    (s.setCtx r off b).ctxByte r2 off2 = s.ctxByte r2 off2 :=
  ctxWrite_other b s.ctx _ _ h

theorem State.ctxByte_setCtx_at (s : State) (r off : Nat) {b : Bytes} {i : Nat} (h : i < b.length) :
    (s.setCtx r off b).ctxByte r (off + i) = b[i] := by
  rw [← ctxWrite_at b s.ctx (r * 256 + off) i h, Nat.add_assoc]
  rfl

/-! ### Bytes as they read -/

theorem State.recByte_plain {s : State} {r off : Nat} (h : off < 0xC0 ∨ Tbl.find s.msc.carry r = none) :
    s.recByte r off = s.ctxByte r off := by
  rcases h with h | h
  · simp [State.recByte, Nat.not_le.2 h]
  · simp [State.recByte, h]

/-- A byte reads as before where it is stored as before and the carried states are the same. -/
theorem State.recByte_congr {s t : State} {r off : Nat} (hc : Tbl.find t.msc.carry r = Tbl.find s.msc.carry r)
    (hb : t.ctxByte r off = s.ctxByte r off) : t.recByte r off = s.recByte r off := by
  simp only [State.recByte, hc, hb]

theorem State.recByte_setCtx_other (s : State) {r off r2 off2 : Nat} {b : Bytes}
    (h : r2 * 256 + off2 < r * 256 + off ∨ r * 256 + off + b.length ≤ r2 * 256 + off2) :
    (s.setCtx r off b).recByte r2 off2 = s.recByte r2 off2 :=
  State.recByte_congr rfl (s.ctxByte_setCtx_other h)

theorem State.recordImage_getElem (s : State) (r : Nat) {i : Nat} (h : i < (s.recordImage r).length) : (s.recordImage r)[i] = s.recByte r i := by
  simp [State.recordImage]

/-! ### The carried state stored -/

theorem State.storeCarry_find (s : State) (r : Nat) : Tbl.find (s.storeCarry r).msc.carry r = none := by
  unfold State.storeCarry
  split
  · exact Tbl.find_del_same _ r
  · assumption

/-- Storing the carried state of a record changes no byte as it reads. -/
theorem State.recByte_storeCarry (s : State) (r r2 : Nat) {off : Nat} (h : off < 256) :
    (s.storeCarry r).recByte r2 off = s.recByte r2 off := by
  cases hn : Tbl.find s.msc.carry r with
  | none => simp [State.storeCarry, hn]
  | some n =>
    have hlen : ((s.recordImage r).drop 0xC0).length = 64 := by simp [State.recordImage]
    have hs : s.storeCarry r = (s.setCtx r 0xC0 ((s.recordImage r).drop 0xC0)).noCarry r := by simp [State.storeCarry, hn]
    by_cases hr : r2 = r
    · subst hr
      by_cases ho : off < 0xC0
      · rw [State.recByte_plain (.inl ho), State.recByte_plain (.inl ho), hs]
        exact s.ctxByte_setCtx_other (by omega)
      · obtain ⟨i, rfl⟩ := Nat.exists_eq_add_of_le (Nat.not_lt.1 ho)
        rw [State.recByte_plain (.inr (s.storeCarry_find r2)), hs]
        have hi : i < ((s.recordImage r2).drop 0xC0).length := by omega
        calc ((s.setCtx r2 0xC0 ((s.recordImage r2).drop 0xC0)).noCarry r2).ctxByte r2 (0xC0 + i)
            = ((s.recordImage r2).drop 0xC0)[i] := s.ctxByte_setCtx_at r2 0xC0 hi
          _ = s.recByte r2 (0xC0 + i) := by rw [List.getElem_drop, State.recordImage_getElem]
    · rw [hs]
      exact State.recByte_congr (Tbl.find_del_other _ hr) (s.ctxByte_setCtx_other (by omega))

/-! ### A posted word -/

/-- The state in which the posted word `a` is stored: the carried state that stands over it has become stored bytes. -/
def State.postBase (s : State) (a : Nat) : State := if 48 ≤ a % 64 then s.storeCarry (a / 64) else s

theorem State.indLand_ctx (s : State) (a v : Nat) : s.indLand 0 0 a v = (s.postBase a).setCf (a / 64) (a % 64 * 4) 4 v := rfl

theorem State.recByte_postBase (s : State) (a r : Nat) {off : Nat} (h : off < 256) : (s.postBase a).recByte r off = s.recByte r off := by
  unfold State.postBase
  split
  · exact s.recByte_storeCarry _ r h
  · rfl

/-- The bytes of a posted word read as they are stored. -/
theorem State.recByte_posted (s : State) (a v : Nat) {i : Nat} (h : i < 4) :
    (s.indLand 0 0 a v).recByte (a / 64) (a % 64 * 4 + i) = (leBytes 4 v)[i]'(by simpa using h) := by
  have hplain : a % 64 * 4 + i < 0xC0 ∨ Tbl.find (s.postBase a).msc.carry (a / 64) = none := by
    by_cases ha : 48 ≤ a % 64
    · exact .inr (by simp only [State.postBase, ha, if_true, State.storeCarry_find])
    · exact .inl (by omega)
  rw [State.indLand_ctx, State.recByte_plain (s := (s.postBase a).setCf _ _ _ _) hplain]
  exact State.ctxByte_setCtx_at _ _ _ _

/-- Settles O7: the four bytes are the posted word's, and no other byte is stored. -/
theorem postedRecordWordReadsBack : Obligations.PostedRecordWordReadsBack := by
  unfold Obligations.PostedRecordWordReadsBack
  refine fun s a v hv => ⟨?word, fun r off ho hout => ?frame⟩
  case word =>
    have hbytes : (List.range 4).map (fun i => (s.indLand 0 0 a v).recByte (a / 64) (a % 64 * 4 + i)) = leBytes 4 v := by
      refine List.ext_getElem (by simp) fun i h1 _ => ?_
      rw [List.getElem_map, List.getElem_range, State.recByte_posted s a v (by simpa using h1)]
    calc (s.indLand 0 0 a v).indWord 0 0 a
        = leNat ((List.range 4).map (fun i => (s.indLand 0 0 a v).recByte (a / 64) (a % 64 * 4 + i))) := rfl
      _ = v := by rw [hbytes, leNat_leBytes (by simpa using hv)]
  case frame =>
    rw [State.indLand_ctx, State.setCf, State.recByte_setCtx_other _ (by rw [leBytes_length]; omega), State.recByte_postBase s a r ho]

end Sys2Proof.Machine
end

section
/-! SUPPORT. The step (R58, R374, R394, R427, R433, R454): the tick of an idle block, and each command where its part works. -/

namespace Sys2Proof.Machine

open Sys2Proof

/-! ### The tick -/

/-- Cycles of a lane that is not powered, and whose signals are low, leave it as it is. -/
theorem State.laneCycles_unpowered {s : State} {l : Nat} (hp : (s.lane l).power ≠ 2) (hs : (s.lane l).sig = 0) (k : Nat) :
    s.laneCycles l k = s := by
  simp [State.laneCycles, hp, hs]

theorem State.laneClocks_unpowered {s : State} (h : ∀ l, (s.lane l).power ≠ 2 ∧ (s.lane l).sig = 0) (a b : Nat) : s.laneClocks a b = s :=
  foldl_fix _ s _ fun e _ => State.laneCycles_unpowered (h e.1).1 (h e.1).2 _

/-- Without a request that waits, no channel has a command slot. -/
theorem State.memTick_idle {s : State} (h : ∀ e ∈ s.mem.chans, e.2.wanted = false ∧ e.2.writes.length ≤ 16) : s.memTick = s := by
  have hnone : s.mem.chans.filter (fun e => e.2.wanted || decide (16 < e.2.writes.length)) = [] := by
    simpa [List.filter_eq_nil_iff] using h
  rw [State.memTick, hnone, List.foldl_nil]

/-- Without an open session, no count of suspension is brought up to date. -/
theorem State.msTick_noSession {s : State} (h : ∀ e ∈ s.opens, e.2 ≠ 1) : s.msTick = s := by
  have hnone : s.opens.filter (fun e => decide (e.2 = 1)) = [] := by simpa [List.filter_eq_nil_iff] using h
  rw [State.msTick, hnone, List.foldl_nil]

theorem State.cellTime_stopped {s : State} (h : s.running bSWC = false) : s.cellTime = s := by
  simp [State.cellTime, h]

/-- Without a detour and a patch nothing falls due. -/
theorem State.dueNow_idle {s : State} (hd : s.sec.detour = none) (hg : s.golden.patching = false) : s.dueNow = s := by
  simp [State.dueNow, hd, hg]

theorem State.tick_unpowered {s : State} (h : s.plt.up = false) : s.tick = s := by
  simp [State.tick, h]

/-- The tick of a supplied block in which nothing goes on advances module time. -/
theorem State.tick_idle {s : State} (hu : s.plt.up = true) (hd : s.sec.detour = none) (hg : s.golden.patching = false)
    (hr : s.running bSWC = false) (hl : ∀ l, (s.lane l).power ≠ 2 ∧ (s.lane l).sig = 0)
    (hm : ∀ e ∈ s.mem.chans, e.2.wanted = false ∧ e.2.writes.length ≤ 16) (ho : ∀ e ∈ s.opens, e.2 ≠ 1) : s.tick = s.tickTime := by
  have due : s.tickTime.dueNow = s.tickTime := State.dueNow_idle hd hg
  have lanes : s.tickTime.laneClocks s.ns s.tickTime.ns = s.tickTime := State.laneClocks_unpowered (s := s.tickTime) hl _ _
  have mem : s.tickTime.memTick = s.tickTime := State.memTick_idle hm
  have msec : s.tickTime.msTick = s.tickTime := State.msTick_noSession ho
  have cell : s.tickTime.cellTime = s.tickTime := State.cellTime_stopped hr
  simp only [State.tick, hu, Bool.not_true, Bool.false_eq_true, if_false, due, lanes, mem, msec, cell, ite_self]

/-! ### The step -/

theorem step_front {c : Instr} {s : State} {rest : List Instr} (h : s.pending = c :: rest) :
    step s = exec c { s with pending := rest } := by
  simp only [step, h]

/-- A step on an empty queue is the tick, where that leaves the queue empty. -/
theorem step_tick {s : State} (h : s.pending = []) (ht : s.tick.pending = []) : step s = .next s.tick := by
  simp only [step, h]
  rw [← ht]

/-- Settles O1: the tick by the lemmas above; each command is `act` under the condition of its clause, and `act_of` is what it then answers. -/
theorem stepRunsTheFrontCommand : Obligations.StepRunsTheFrontCommand := by
  unfold Obligations.StepRunsTheFrontCommand
  refine ⟨fun c s rest h => step_front h, fun s hq => ⟨fun hu => ?unpowered, fun hu hd hg hr hl hm ho => ?idle⟩, ?commands⟩
  case unpowered =>
    have ht := State.tick_unpowered hu
    rw [step_tick hq (by rw [ht, hq]), ht]
  case idle =>
    have ht := State.tick_idle hu hd hg hr hl hm ho
    rw [step_tick hq (by rw [ht]; exact hq), ht]
    rfl
  case commands =>
    and_intros
    all_goals
      intros
      dsimp only [exec]
      exact act_of ‹_› _ _

end Sys2Proof.Machine
end

section
/-! SUPPORT. Unit headers (R58, R59, R61): what a write of EN does in each state of the header, and what a block's start and stop change. -/

namespace Sys2Proof.Machine

open Sys2Proof

/-! ### A header's registers written -/

theorem State.headerWrite_ignw {s : State} {k : Nat} (hf : isFwDma k = false) (n : Nat) : s.headerWrite k 4 n = s.clearIgnw k n := by
  simp [State.headerWrite, hf]

theorem State.headerWrite_oob {s : State} {k : Nat} (hf : isFwDma k = false) (n : Nat) : s.headerWrite k 8 n = s.clearOob k n := by
  simp [State.headerWrite, hf]

theorem State.headerWrite_ctl (s : State) (k n : Nat) : s.headerWrite k 0 n = s.ctlEn k n := rfl

/-! ### EN written (R58, R61) -/

section CtlEn

variable {s : State} {k v : Nat}

/-- A write to a port's header wakes no lane. -/
theorem State.ctlWakes_port (hp : isPortKey k = true) : s.ctlWakes k = s := by
  have hl : isLaneKey k = false := by
    simp only [isPortKey, isLaneKey, Bool.and_eq_true, Bool.and_eq_false_iff, decide_eq_true_eq, decide_eq_false_iff_not] at *
    omega
  simp [State.ctlWakes, hl]

/-- A port that may be enabled: neither mapped out nor in fallback. -/
def State.portTakes (s : State) (k : Nat) : Prop := isPortKey k = true → (s.port (k - 128)).mapped = false ∧ s.noPorts = false

variable (hf : isFwDma k = false) (hp : s.portTakes k)
include hf hp

/-- What EN written does to the header that the write has woken. -/
theorem State.ctlEn_taken : s.ctlEn k v =
    let w := s.ctlWakes k
    let h := w.unit k
    if tb v 0 then
      if h.en then w else if h.running || w.pltHolds k || w.portHeld k then w.setUnit k { h with enPending := true } else w.startUnit k
    else if h.enPending then w.setUnit k { h with enPending := false }
    else if h.en then w.stopUnit k
    else w := by
  cases hk : isPortKey k with
  | false => simp [State.ctlEn, hf, hk]
  | true => simp [State.ctlEn, hf, hk, (hp hk).1, (hp hk).2, State.ctlWakes_port hk]

theorem State.ctlEn_enabled (hv : tb v 0 = true) (he : ((s.ctlWakes k).unit k).en = true) : s.ctlEn k v = s.ctlWakes k := by
  simp [State.ctlEn_taken hf hp, hv, he]

/-- A start while the stop is in progress is deferred. -/
theorem State.ctlEn_deferred (hv : tb v 0 = true) (he : ((s.ctlWakes k).unit k).en = false)
    (hr : ((s.ctlWakes k).unit k).running = true) :
    s.ctlEn k v = (s.ctlWakes k).setUnit k { (s.ctlWakes k).unit k with enPending := true } := by
  simp [State.ctlEn_taken hf hp, hv, he, hr]

theorem State.ctlEn_starts (hv : tb v 0 = true) (he : ((s.ctlWakes k).unit k).en = false)
    (hr : ((s.ctlWakes k).unit k).running = false) (hh : (s.ctlWakes k).pltHolds k = false)
    (hd : (s.ctlWakes k).portHeld k = false) : s.ctlEn k v = (s.ctlWakes k).startUnit k := by
  simp [State.ctlEn_taken hf hp, hv, he, hr, hh, hd]

/-- A deferred start is cancelled. -/
theorem State.ctlEn_cancelled (hv : tb v 0 = false) (he : ((s.ctlWakes k).unit k).enPending = true) :
    s.ctlEn k v = (s.ctlWakes k).setUnit k { (s.ctlWakes k).unit k with enPending := false } := by
  simp [State.ctlEn_taken hf hp, hv, he]

theorem State.ctlEn_stops (hv : tb v 0 = false) (hn : ((s.ctlWakes k).unit k).enPending = false)
    (he : ((s.ctlWakes k).unit k).en = true) : s.ctlEn k v = (s.ctlWakes k).stopUnit k := by
  simp [State.ctlEn_taken hf hp, hv, hn, he]

end CtlEn

/-! ### A block started and stopped -/

/-- A block without units of its own, and without pending values to apply, has nothing to do at its start. -/
theorem State.startBlock_plain (s : State) {b : Nat} (hb : b ∉ [bHQE, bDMA, bMEM, bTMG, bCAS]) : s.startBlock b = s := by
  simp only [List.mem_cons, List.not_mem_nil, or_false, not_or] at hb
  obtain ⟨hhqe, hdma, hmem, htmg, hcas⟩ := hb
  simp [State.startBlock, unitsOf, hhqe, hdma, hmem, htmg, hcas]

theorem State.startUnit_block (s : State) {b : Nat} (h : b < 32) (hb : b ∉ [bHQE, bDMA, bMEM, bTMG, bCAS]) :
    s.startUnit b = s.setUnit b { s.unit b with en := true, enPending := false, running := true } := by
  have hup : decide (b < 384) = true := decide_eq_true (by omega)
  simp only [State.startUnit, h, hup, Bool.true_or, if_true, State.startBlock_plain _ hb]

theorem State.stopUnit_block (s : State) {b : Nat} (h : b < 32) : s.stopUnit b = s.setUnit b { s.unit b with en := false } := by
  simp [State.stopUnit, h]

/-! ### The end of a stop -/

theorem State.stopComplete_falls {s : State} {k : Nat} (hr : (s.unit k).running = true) (he : (s.unit k).en = false)
    (hm : s.mayStop k = true) :
    s.stopComplete k = if (s.unit k).enPending then ((s.fallUnit k).restartState k).startUnit k else s.fallUnit k := by
  simp [State.stopComplete, hr, he, hm]

/-! ### The commands -/

section Commands

variable {s : State}

theorem exec_ignwClear {u : UnitId} (ht : s.hdrTakes u = true) (v : W32) :
    exec (.ignwClear u v) s = .next (s.after (s.headerWrite (unitKey u) 4 v.toNat)) := by
  show execIgnwClear u v s = _
  exact act_of ht _ s

theorem exec_oobClear {u : UnitId} (ht : s.hdrTakes u = true) (v : W32) :
    exec (.oobClear u v) s = .next (s.after (s.headerWrite (unitKey u) 8 v.toNat)) := by
  show execOobClear u v s = _
  exact act_of ht _ s

theorem exec_ctlEnWrite {u : UnitId} (ht : s.hdrTakes u = true) (v : W32) :
    exec (.ctlEnWrite u v) s = .next (s.after (s.headerWrite (unitKey u) 0 v.toNat)) := by
  show execCtlEnWrite u v s = _
  exact act_of ht _ s

theorem exec_unitStopComplete (hu : s.plt.up = true) (u : UnitId) :
    exec (.unitStopComplete u) s = .next (s.after (s.stopComplete (unitKey u))) := by
  show execUnitStopComplete u s = _
  exact act_of hu _ s

end Commands

/-- Settles O3: each state of the header by its lemma. -/
theorem headerCommandsAnswer : Obligations.HeaderCommandsAnswer := by
  unfold Obligations.HeaderCommandsAnswer
  refine ⟨?counts, ?enable, ?blocks, ?completion⟩
  case counts =>
    intro u v s ht hf
    rw [exec_ignwClear ht, exec_oobClear ht, State.headerWrite_ignw hf, State.headerWrite_oob hf]
    exact ⟨rfl, rfl⟩
  case enable =>
    intro u v s ht hf hp
    rw [exec_ctlEnWrite ht, State.headerWrite_ctl]
    refine ⟨fun hv he => ?_, fun hv he hr => ?_, fun hv he hr hh hd => ?_, fun hv he => ?_, fun hv hn he => ?_⟩
    · rw [State.ctlEn_enabled hf hp hv he]
    · rw [State.ctlEn_deferred hf hp hv he hr]
    · rw [State.ctlEn_starts hf hp hv he hr hh hd]
    · rw [State.ctlEn_cancelled hf hp hv he]
    · rw [State.ctlEn_stops hf hp hv hn he]
  case blocks =>
    exact fun b s hb => ⟨s.startUnit_block (by omega) hb, s.stopUnit_block (by omega)⟩
  case completion =>
    intro u s hu hr he hm
    rw [exec_unitStopComplete hu, State.stopComplete_falls hr he hm]

end Sys2Proof.Machine
end

section
/-! SUPPORT. Register writes: a plain and an unaligned one (R56, R72), and boundary-applied pairs inside and outside their bounds (R62, R63, R66). -/

namespace Sys2Proof.Machine

open Sys2Proof

theorem w32_toNat (v : W32) : w32 v.toNat = v := by simp [w32]

/-- A field of the whole word holds the word written. -/
theorem w32_setFld_whole (old : Nat) (v : W32) : w32 (setFld old 0 32 v.toNat) = v := by
  have hv : w32 (setFld old 0 32 v.toNat) = w32 v.toNat := by
    rw [setFld_eq, w32, w32]
    refine BitVec.eq_of_toNat_eq ?_
    simp only [BitVec.toNat_ofNat]
    omega
  rw [hv, w32_toNat]

/-! ### GLB_SCRATCH (R72) -/

/-- GLB_SCRATCH: one field of 32 bits. -/
def scratchDesc : RegDesc := { fields := [rw 0 32] }

theorem regDesc_scratch : regDesc 0x50 = some scratchDesc := rfl

theorem State.newWord_scratch (s : State) (old : Nat) (v : W32) : w32 (s.newWord scratchDesc false old v.toNat) = v := by
  have hf : fld v.toNat 0 32 = v.toNat := by simp only [fld]; omega
  exact (congrArg (fun x => w32 (setFld old 0 32 x)) hf).trans (w32_setFld_whole old v)

theorem State.storeReg_scratch (s : State) (v : W32) : s.storeReg 0x50 scratchDesc v.toNat = { s with regs := Tbl.put s.regs 0x50 v } := by
  show ({ s with regs := Tbl.put s.regs 0x50 (w32 (s.newWord scratchDesc false (s.word 0x50 scratchDesc.reset) v.toNat)) } : State) = _
  rw [State.newWord_scratch]

theorem State.afterStore_scratch (s : State) (old new : Nat) : s.afterStore 0x50 old new = s := rfl

theorem State.writeBar_scratch (s : State) (v : W32) : s.writeBar 0x50 v = { s with regs := Tbl.put s.regs 0x50 v } := by
  show s.writeReg 0x50 v.toNat = _
  simp only [State.writeReg, regDesc_scratch, State.afterStore_scratch, State.storeReg_scratch]

/-! ### Boundary-applied pairs (R62, R63, R66) -/

section Pair

variable {s : State} {a v : Nat} {d : PairDesc} (hd : pairDesc a = some d)
include hd

/-- A write that fails the check leaves the shadow and PEND as they are. -/
theorem State.rwsWrite_rejected (hb : d.ids.all (fun e => s.inBounds e.1 (fld v e.2.1 e.2.2)) = false) : s.rwsWrite a v = s.oob d.key := by
  simp only [State.rwsWrite, hd, hb, Bool.false_eq_true, if_false]

variable (hb : d.ids.all (fun e => s.inBounds e.1 (fld v e.2.1 e.2.2)) = true)
include hb

/-- While the pair's unit does not run both words take the value. -/
theorem State.rwsWrite_stopped (hr : s.pairRuns a d.key = false) :
    s.rwsWrite a v = { s with regs := Tbl.put (Tbl.put s.regs a (w32 (fld v 0 d.width))) (a + 4) (w32 (fld v 0 d.width)) } := by
  simp only [State.rwsWrite, hd, hb, hr, Bool.false_eq_true, if_false, if_true]

/-- While it runs the shadow takes the value and the active word PEND. -/
theorem State.rwsWrite_pends (hr : s.pairRuns a d.key = true) :
    (s.rwsWrite a v).regs = Tbl.put (Tbl.put s.regs a (w32 (fld v 0 d.width))) (a + 4) (w32 (fld (s.word (a + 4) d.reset) 0 31 + 2 ^ 31)) ∧
    s.rwsWrite a v = { s with regs := (s.rwsWrite a v).regs, tmg := { s.tmg with rateAt := (s.rwsWrite a v).tmg.rateAt } } := by
  by_cases hw : d.width = 21 <;> simp only [State.rwsWrite, hd, hb, hr, hw, if_true, if_false, and_self]

end Pair

/-! ### The commands -/

section Commands

variable {s : State} {a : W32}

theorem exec_registerWrite (hb : s.barTakes a.toNat = true) (v : W32) :
    exec (.registerWrite a v) s = .next (s.after (if a.toNat % 4 = 0 then s.writeBar a.toNat v else s.badAccess)) := by
  show execRegisterWrite a v s = _
  exact act_of hb _ s

theorem exec_rwsWrite (hb : s.barTakes a.toNat = true) {d : PairDesc} (hd : pairDesc a.toNat = some d) (v : W32) :
    exec (.rwsWrite a v) s = .next (s.after (s.rwsWrite a.toNat v.toNat)) := by
  show execRwsWrite a v s = _
  exact act_of (by simp [hb, hd]) _ s

end Commands

/-- Settles O5: the route of GLB_SCRATCH, the unaligned address, and a pair's write by the outcome of its check and by whether its unit runs. -/
theorem registerWritesAnswer : Obligations.RegisterWritesAnswer := by
  unfold Obligations.RegisterWritesAnswer
  refine ⟨?scratch, ?unaligned, ?pair⟩
  case scratch =>
    intro v s hb
    rw [exec_registerWrite hb, if_pos (by rfl)]
    exact congrArg (fun t => Host.Outcome.next (s.after t)) (s.writeBar_scratch v)
  case unaligned =>
    intro a v s hb ha
    rw [exec_registerWrite hb, if_neg ha]
    rfl
  case pair =>
    intro a v s d hb hd
    rw [exec_rwsWrite hb hd]
    refine ⟨fun ho => ?_, fun hi hr => ?_, fun hi hr => ⟨_, rfl, State.rwsWrite_pends hd hi hr⟩⟩
    · rw [State.rwsWrite_rejected hd ho]
    · rw [State.rwsWrite_stopped hd hi hr]

end Sys2Proof.Machine
end

section
/-! SUPPORT. The indirect pairs (R67, R68): what an access does while the pair is idle and while it is BUSY, and what the end of a prefetch loads. -/

namespace Sys2Proof.Machine

open Sys2Proof

theorem State.barServes_of_takes {s : State} {a : Nat} (h : s.barTakes a = true) : s.barServes a = true := by
  simp only [State.barTakes, Bool.and_eq_true] at h
  exact h.1

/-! ### The pair after an access -/

/-- An error is noted beside the access, whose advance and prefetch it leaves alone. -/
theorem IndSt.fail_ainc (x : IndSt) (e : Nat) : (x.fail e).ainc = x.ainc := by
  unfold IndSt.fail
  split <;> rfl

/-- A word is posted beside the advance of the address. -/
theorem IndSt.next_post (x : IndSt) (p : Option W32) : ({ x with post := p } : IndSt).next = { x.next with post := p } := by
  unfold IndSt.next
  split <;> rfl

section Access

variable {s : State} {k : Nat}

/-- While BUSY is 1 each access is held, behind those that are. -/
theorem State.indAccess_held (hb : (s.indSt k).busy = true) (a : IndAcc) :
    s.indAccess k a = s.setInd k { s.indSt k with held := (s.indSt k).held ++ [a] } := by
  simp [State.indAccess, hb]

theorem State.indAccess_addr (hb : (s.indSt k).busy = false) (v : W32) : s.indAccess k (.addr v) = s.indAddr k v.toNat := by
  simp [State.indAccess, hb]

theorem State.indAccess_read (hb : (s.indSt k).busy = false) : s.indAccess k .read = s.indRead k := by
  simp [State.indAccess, hb]

theorem State.indAccess_write (hb : (s.indSt k).busy = false) (v : W32) : s.indAccess k (.write v) = s.indWrite k v.toNat := by
  simp [State.indAccess, hb]

variable {n : Nat} {rw : Bool} (hs : s.spaceOf k (s.indSt k).space = some (n, rw))
include hs

/-- A read inside the space gives the prefetched word. -/
theorem State.indRead_inside (hi : (s.indSt k).waddr < n) :
    s.indRead k = (s.setInd k { (s.indSt k).next with busy := (s.indSt k).ainc }).emit (.regRead (indBase k + 4) (s.indSt k).data) := by
  simp only [State.indRead, hs, hi, decide_true, if_true]

/-- A read beyond the space gives 0, and RANGE. -/
theorem State.indRead_beyond (ho : n ≤ (s.indSt k).waddr) :
    s.indRead k = (s.setInd k { ((s.indSt k).fail eRANGE).next with busy := (s.indSt k).ainc }).emit (.regRead (indBase k + 4) 0) := by
  have hd : decide ((s.indSt k).waddr < n) = false := decide_eq_false (Nat.not_lt.2 ho)
  simp only [State.indRead, hs, hd, Bool.false_eq_true, if_false, IndSt.fail_ainc]

/-- A write beyond the space is ignored, with RANGE. -/
theorem State.indWrite_beyond (ho : n ≤ (s.indSt k).waddr) (v : Nat) :
    s.indWrite k v = s.setInd k { ((s.indSt k).fail eRANGE).next with busy := true } := by
  simp [State.indWrite, hs, ho, eRANGE]

end Access

section Write

variable {s : State} {k n : Nat} (hi : (s.indSt k).waddr < n)
include hi

/-- A write to a word of a space that the host may only read is ignored, with READONLY. -/
theorem State.indWrite_readonly (hs : s.spaceOf k (s.indSt k).space = some (n, false)) (v : Nat) :
    s.indWrite k v = s.setInd k { ((s.indSt k).fail eREADONLY).next with busy := true } := by
  simp [State.indWrite, hs, Nat.not_le.2 hi, eREADONLY]

variable (hs : s.spaceOf k (s.indSt k).space = some (n, true))
include hs

/-- A write to a word of an open record or an enabled queue is ignored, with LOCKED. -/
theorem State.indWrite_locked (hl : s.indLocked k (s.indSt k).waddr = true) (v : Nat) :
    s.indWrite k v = s.setInd k { ((s.indSt k).fail eLOCKED).next with busy := true } := by
  simp [State.indWrite, hs, Nat.not_le.2 hi, hl, eLOCKED]

/-- Any other write posts its word. -/
theorem State.indWrite_posts (hl : s.indLocked k (s.indSt k).waddr = false) (v : W32) :
    s.indWrite k v.toNat = s.setInd k { (s.indSt k).next with post := some v, busy := true } := by
  simp [State.indWrite, hs, Nat.not_le.2 hi, hl, IndSt.next_post, w32_toNat]

end Write

/-- A prefetch ends, with no word posted and no access held: the word at the address is loaded. -/
theorem State.indDone_loads {s : State} {k n : Nat} {rw : Bool} (hb : (s.indSt k).busy = true) (hp : (s.indSt k).post = none)
    (hh : (s.indSt k).held = []) (hs : s.spaceOf k (s.indSt k).space = some (n, rw)) (hi : (s.indSt k).waddr < n) :
    s.indDone k = s.setInd k { s.indSt k with busy := false, data := w32 (s.indWord k (s.indSt k).space (s.indSt k).waddr) } := by
  simp only [State.indDone, hb, hp, hh, hs, hi, Bool.not_true, Bool.false_eq_true, if_false, decide_true, if_true, State.indHeld]

theorem State.indClear_one {s : State} {v : Nat} (hv : tb v 30 = true) (k : Nat) :
    s.indClear k v = s.setInd k { s.indSt k with errf := false, err := 0, errAddr := 0 } := by
  simp only [State.indClear, hv, if_true]

/-! ### The commands -/

section Commands

variable {s : State} {w : IndId}

theorem exec_indAddrWrite (hb : s.barTakes (indBase (indKey w)) = true) (v : W32) :
    exec (.indAddrWrite w v) s = .next (s.after (s.indAccess (indKey w) (.addr v))) := by
  show execIndAddrWrite w v s = _
  exact act_of hb _ s

theorem exec_indDataRead (hb : s.barServes (indBase (indKey w)) = true) :
    exec (.indDataRead w) s = .next (s.after (s.indAccess (indKey w) .read)) := by
  show execIndDataRead w s = _
  exact act_of hb _ s

theorem exec_indDataWrite (hb : s.barTakes (indBase (indKey w)) = true) (v : W32) :
    exec (.indDataWrite w v) s = .next (s.after (s.indAccess (indKey w) (.write v))) := by
  show execIndDataWrite w v s = _
  exact act_of hb _ s

theorem exec_indPrefetchDone (hu : s.plt.up = true) (w : IndId) :
    exec (.indPrefetchDone w) s = .next (s.after (s.indDone (indKey w))) := by
  show execIndPrefetchDone w s = _
  exact act_of hu _ s

theorem exec_indErrClear (hb : s.barTakes (indBase (indKey w)) = true) (v : W32) :
    exec (.indErrClear w v) s = .next (s.after (s.indClear (indKey w) v.toNat)) := by
  show execIndErrClear w v s = _
  exact act_of hb _ s

end Commands

/-- Settles O6: an access by whether the pair is BUSY, and in an idle pair by the space, its bounds and its locks. -/
theorem indirectPairsAnswer : Obligations.IndirectPairsAnswer := by
  unfold Obligations.IndirectPairsAnswer
  refine ⟨?held, ?idle, ?prefetch, ?clear⟩
  case held =>
    intro w v s hb hbusy
    rw [exec_indAddrWrite hb, exec_indDataRead (State.barServes_of_takes hb), exec_indDataWrite hb, State.indAccess_held hbusy,
      State.indAccess_held hbusy, State.indAccess_held hbusy]
    exact ⟨rfl, rfl, rfl⟩
  case idle =>
    intro w v s hb k x hbusy
    rw [exec_indAddrWrite hb, exec_indDataRead (State.barServes_of_takes hb), exec_indDataWrite hb, State.indAccess_addr hbusy,
      State.indAccess_read hbusy, State.indAccess_write hbusy]
    refine ⟨rfl, fun n rw hs hi => ?_, fun n rw hs ho => ⟨?_, ?_⟩, fun n hs hi hl => ?_, fun n hs hi hl => ?_, fun n hs hi => ?_⟩
    · rw [State.indRead_inside hs hi]
    · rw [State.indRead_beyond hs ho]
    · rw [State.indWrite_beyond hs ho]
    · rw [State.indWrite_posts hi hs hl]
    · rw [State.indWrite_locked hi hs hl]
    · rw [State.indWrite_readonly hi hs]
  case prefetch =>
    intro w s n rw hu k x hbusy hp hh hs hi
    rw [exec_indPrefetchDone hu, State.indDone_loads hbusy hp hh hs hi]
  case clear =>
    intro w v s hb hv
    rw [exec_indErrClear hb, State.indClear_one hv]

end Sys2Proof.Machine
end

section
/-! SUPPORT. GLB and the holding registers (R56, R69, R70, R72): the bad-access count, the snapshot, the time latch, and reads. -/

namespace Sys2Proof

/-! ### Entries of a table copied into another -/

/-- A key below the first that a table may list is not listed. -/
theorem Tbl.find_of_lt {α : Type} {t : Tbl α} {lo k : Nat} (h : Tbl.risesFrom t lo = true) (hk : k < lo) : Tbl.find t k = none := by
  induction t generalizing lo with
  | nil => rfl
  | cons e r ih =>
    simp only [Tbl.risesFrom, Bool.and_eq_true, decide_eq_true_eq] at h
    obtain ⟨hlo, hr⟩ := h
    rw [Tbl.find, if_neg (by omega), ih hr (by omega)]

/-- The entries of `t` whose key `p` accepts, put into `h`. -/
def Tbl.copyInto {α : Type} (p : Nat → Bool) (t h : Tbl α) : Tbl α := t.foldl (fun h e => if p e.1 then Tbl.put h e.1 e.2 else h) h

/-- A key that is not copied reads as before. -/
theorem Tbl.find_copyInto_other {α : Type} {p : Nat → Bool} {t : Tbl α} {k : Nat} (hk : p k = false ∨ Tbl.find t k = none) (h : Tbl α) :
    Tbl.find (Tbl.copyInto p t h) k = Tbl.find h k := by
  induction t generalizing h with
  | nil => rfl
  | cons e r ih =>
    have hr : p k = false ∨ Tbl.find r k = none := hk.imp_right fun hn => by
      simp only [Tbl.find] at hn
      split at hn
      · cases hn
      · exact hn
    have hstep : Tbl.find (if p e.1 then Tbl.put h e.1 e.2 else h) k = Tbl.find h k := by
      split
      next hp =>
        refine Tbl.find_put_other _ _ fun he => ?_
        subst he
        simp [hp, Tbl.find] at hk
      next => rfl
    exact (ih hr _).trans hstep

/-- In the canonical form each key is listed once, and one that is copied reads as in the table it came from. -/
theorem Tbl.find_copyInto_same {α : Type} {p : Nat → Bool} {t : Tbl α} {lo k : Nat} (hw : Tbl.risesFrom t lo = true)
    (hk : Tbl.find t k ≠ none) (hp : p k = true) (h : Tbl α) : Tbl.find (Tbl.copyInto p t h) k = Tbl.find t k := by
  induction t generalizing lo h with
  | nil => exact absurd rfl hk
  | cons e r ih =>
    simp only [Tbl.risesFrom, Bool.and_eq_true, decide_eq_true_eq] at hw
    obtain ⟨-, hr⟩ := hw
    by_cases he : k = e.1
    · subst he
      have hcopy : Tbl.copyInto p (e :: r) h = Tbl.copyInto p r (Tbl.put h e.1 e.2) := by simp [Tbl.copyInto, hp]
      rw [hcopy, Tbl.find_copyInto_other (.inr (Tbl.find_of_lt hr (Nat.lt_succ_self _))), Tbl.find_put_same, Tbl.find, if_pos rfl]
    · have hfind : Tbl.find (e :: r) k = Tbl.find r k := by rw [Tbl.find, if_neg he]
      rw [hfind] at hk ⊢
      exact ih hr hk _

end Sys2Proof

namespace Sys2Proof.Machine

open Sys2Proof

/-! ### Bad accesses (R56) -/

theorem State.badClear_one {v : Nat} (hv : tb v 31 = true) (s : State) :
    s.badClear v = { s with glb := { s.glb with badFlag := false, badCount := 0 } } := by
  simp [State.badClear, hv]

/-! ### Snapshots (R70) -/

/-- A scope that GLB_SNAP takes: a block, or all. -/
def snapScopeOk (sc : Nat) : Prop := sc ≤ 16 ∨ sc = 255

theorem State.snap_starts {s : State} {v : Nat} (hv : tb v 31 = true) (hb : s.glb.snapBusy = false) (hsc : snapScopeOk (fld v 0 8)) :
    s.snap v = { s with glb := { s.glb with snapScope := fld v 0 8, snapBusy := true, snapFor := fld v 0 8 } } := by
  have hok : (!(decide (fld v 0 8 ≤ 16) || decide (fld v 0 8 = 255))) = false := by
    rcases hsc with h | h <;> simp [h]
  simp only [State.snap, hv, hb, hok, Bool.or_self, Bool.false_eq_true, if_true, if_false]

theorem State.snap_lost {s : State} {v : Nat} (hv : tb v 31 = true)
    (h : s.glb.snapBusy = true ∨ (16 < fld v 0 8 ∧ fld v 0 8 ≠ 255)) :
    s.snap v = { s with glb := { s.glb with snapScope := fld v 0 8, snapLost := min (s.glb.snapLost + 1) 0xFFFF } } := by
  have hno : (s.glb.snapBusy || !(decide (fld v 0 8 ≤ 16) || decide (fld v 0 8 = 255))) = true := by simpa using h
  simp only [State.snap, hv, hno, if_true]
  rfl

/-- The counters that a snapshot of scope `sc` copies. -/
def snapTakes (sc k : Nat) : Bool := decide (sc = 255 ∨ cntBlock k = sc)

theorem State.snapDone_busy {s : State} (hb : s.glb.snapBusy = true) :
    s.snapDone = { s with
      held := Tbl.copyInto (snapTakes s.glb.snapFor) s.cnt s.held,
      glb := { s.glb with snapBusy := false, snapSeq := s.glb.snapSeq + 1, snapTime := s.ns } } := by
  simp only [State.snapDone, hb, if_true, Tbl.copyInto, snapTakes, decide_eq_true_eq]

/-! ### Reads without an effect (R57, R69, R72) -/

/-- An aligned address whose word is composed as it is read: no header, pair or stored word, and no read with an effect. -/
def composed (a : Nat) : Bool :=
  decide (a % 4 = 0) && !readActs a && (headerAt a).isNone && (indAt a).isNone && (pairAt a).isNone && (regDesc a).isNone

theorem State.readBar_composed {s : State} {a : Nat} (h : composed a = true) (hb : s.barServes a = true) :
    s.readBar a = some (w32 (s.readLive a)) := by
  simp only [composed, Bool.and_eq_true, decide_eq_true_eq, Bool.not_eq_true', Option.isNone_iff_eq_none] at h
  obtain ⟨⟨⟨⟨⟨ha, hacts⟩, hhdr⟩, hind⟩, hpair⟩, hreg⟩ := h
  have hw : a / 4 * 4 = a := Nat.div_mul_cancel (Nat.dvd_of_mod_eq_zero ha)
  simp only [State.readBar, hw, hb, hacts, State.readHeld, hind, State.readWord, hhdr, hpair, hreg, Bool.not_false, Bool.and_self, if_true]

theorem State.readLive_id (s : State) : s.readLive 0 = 0x9256B100 + s.plt.cascId % 4 := rfl

theorem composed_mscHolding : ∀ n : Fin 8, composed (0xD00100 + 8 * n.val) = true ∧ composed (0xD00104 + 8 * n.val) = true := by decide

/-- A word of MSC's holding registers: the low half of the copied counter at H, the high half at H + 4. -/
theorem State.readLive_mscHolding (s : State) {o : Nat} (hlo : 0x100 ≤ o) (hhi : o < 0x140) (ho : o % 4 = 0) :
    s.readLive (0xD00000 + o) =
      if o % 8 = 0 then fld (Tbl.get 0 s.held (cntKey bMSC 0 ((o - 0x100) / 8))) 0 32
      else fld (Tbl.get 0 s.held (cntKey bMSC 0 ((o - 0x100) / 8))) 32 16 := by
  have hblock : (0xD00000 + o) / 0x100000 = 13 := by omega
  have hoff : (0xD00000 + o) % 0x100000 = o := by omega
  have hlan : ¬ 0x1000000 ≤ 0xD00000 + o := by omega
  have hend : ¬ 0x1400000 ≤ 0xD00000 + o := by omega
  have hword : s.holdWord 13 0 0x100 (holdCount 13) o = some (if o % 8 = 0 then fld (Tbl.get 0 s.held (cntKey bMSC 0 ((o - 0x100) / 8))) 0 32
      else fld (Tbl.get 0 s.held (cntKey bMSC 0 ((o - 0x100) / 8))) 32 16) := if_pos ⟨hlo, hhi, ho⟩
  have hb : ¬ (13 = bPRT ∨ 13 = bCAS) := by decide
  simp only [State.readLive, hblock, hoff, hlan, hend, hb, if_false, hword]

/-! ### The commands -/

section Commands

variable {s : State}

theorem exec_bar0BadAccess (hp : s.pcie = true) : exec .bar0BadAccess s = .next (s.after s.badAccess) := by
  show execBar0BadAccess s = _
  exact act_of hp _ s

theorem exec_badaccClear (hb : s.barTakes 0x68 = true) (v : W32) : exec (.badaccClear v) s = .next (s.after (s.badClear v.toNat)) := by
  show execBadaccClear v s = _
  exact act_of hb _ s

theorem exec_snapshot (hb : s.barTakes 0x30 = true) (v : W32) : exec (.snapshot v) s = .next (s.after (s.snap v.toNat)) := by
  show execSnapshot v s = _
  exact act_of hb _ s

theorem exec_snapshotComplete (hu : s.plt.up = true) : exec .snapshotComplete s = .next (s.after s.snapDone) := by
  show execSnapshotComplete s = _
  exact act_of hu _ s

theorem exec_timeRead (hb : s.barServes 0x40 = true) : exec .timeRead s = .next (s.after s.timeLatch) := by
  show execTimeRead s = _
  exact act_of hb _ s

end Commands

/-- Settles O8: each command is its operation; what a snapshot copies is read key by key, and the reads are of composed words. -/
theorem glbCommandsAnswer : Obligations.GlbCommandsAnswer := by
  unfold Obligations.GlbCommandsAnswer
  refine ⟨?bad, ?clear, ?starts, ?lost, ?copied, ?time, ?id, ?holding⟩
  case bad =>
    intro s hp
    rw [exec_bar0BadAccess hp]
    rfl
  case clear =>
    intro v s hb hv
    rw [exec_badaccClear hb, State.badClear_one hv]
  case starts =>
    intro v s hb hv hbusy hsc
    rw [exec_snapshot hb, State.snap_starts hv hbusy hsc]
  case lost =>
    intro v s hb hv h
    rw [exec_snapshot hb, State.snap_lost hv h]
  case copied =>
    intro s hu hbusy
    refine ⟨Tbl.copyInto (snapTakes s.glb.snapFor) s.cnt s.held, ?_, fun hw k hk hsc => ?_, fun k hall hblock => ?_⟩
    · rw [exec_snapshotComplete hu, State.snapDone_busy hbusy]
    · rw [Tbl.get, Tbl.get, Tbl.find_copyInto_same hw hk (decide_eq_true hsc)]
    · rw [Tbl.get, Tbl.get, Tbl.find_copyInto_other (.inl (decide_eq_false (not_or.2 ⟨hall, hblock⟩)))]
  case time =>
    intro s hb
    rw [exec_timeRead hb]
    rfl
  case id =>
    intro s hb
    rw [State.readBar_composed (by decide) hb, State.readLive_id]
  case holding =>
    intro s n hlow hhigh h
    obtain ⟨clow, chigh⟩ := composed_mscHolding n
    have hl := s.readLive_mscHolding (o := 0x100 + 8 * n.val) (by omega) (by omega) (by omega)
    have hh := s.readLive_mscHolding (o := 0x104 + 8 * n.val) (by omega) (by omega) (by omega)
    rw [if_pos (by omega), show (0x100 + 8 * n.val - 0x100) / 8 = n.val by omega, ← Nat.add_assoc] at hl
    rw [if_neg (by omega), show (0x104 + 8 * n.val - 0x100) / 8 = n.val by omega, ← Nat.add_assoc] at hh
    rw [State.readBar_composed clow hlow, State.readBar_composed chigh hhigh, hl, hh]
    simp [fld, h]

end Sys2Proof.Machine
end

section
/-! SUPPORT. CTX_QUERY of a record with carried state (R68, R89): its buffer holds the record as it reads, which need not be the bytes stored. -/

namespace Sys2Proof.Machine

open Sys2Proof

/-- Where nothing is left to settle, what a command sends out is all that has been sent. -/
theorem State.after_out {t : State} (h : t.quiet = true) (s : State) : (s.after t).out = t.out := by
  simp only [State.after, quiet_ended h]

theorem exec_ctxQuery {s : State} (hr : s.cmdsRun = true) (h : CmdRef) :
    exec (.ctxQuery h) s = .next (s.after (s.runCmd h 0x23 (fun s e => s.ctxQueryCmd e))) := by
  show execCtxQuery h s = _
  exact act_of hr _ s

/-- CTX_QUERY of an open record writes the record as it reads to the command's buffer. -/
theorem State.ctxQuery_open {s : State} {h : CmdRef} {e : SubEntry} (hs : s.serves 0 = true) (hb : s.hqe.bme = true)
    (hc : s.command h 0x23 = some e) (hr : e.target.toNat < 40960) (ho : (Tbl.find s.opens e.target.toNat).isSome = true) :
    s.runCmd h 0x23 (fun s e => s.ctxQueryCmd e) =
      (s.toHost e.addr.toNat (s.recordImage e.target.toNat)).finish h cOK 0 [] := by
  have hn : (Tbl.find s.opens e.target.toNat).isNone = false := by rw [← Option.not_isSome, ho]; rfl
  exact State.runCmd_answers hs hc (by
    simp only [State.ctxQueryCmd, Nat.not_le.2 hr, hn, State.reply, hb, if_true, if_false, Bool.false_eq_true, okRes])

/-! ### A record whose carried state stands over other stored bytes -/

/-- CTX_QUERY of record 5, into host address 0. -/
def queryEntry : SubEntry :=
  { sseq := 1, opcode := 0x23, flags := 0, tag := 0, target := 5, addr := 0, len := 256, params := zeros 28 }

def queryRef : CmdRef := { ring := 0, sseq := 1 }

/-- CTX_QUERY waits its turn on ring 0, and record 5 is an open encode context whose carried state was drawn as free value 0; the stored byte
at 0xC0 is `x`. -/
def carriedState (x : Byte) : State :=
  { plt := { up := true, firmware := true },
    cpus := [(0, { ph := .run, services := 1 })],
    hqe := { bme := true, attached := true,
             rings := [(0, { ph := .run, kind := kCMD, size := 16, consumed := 1, flight := [{ ord := 0, e := queryEntry }] })] },
    opens := [(5, 3)], ctx := [(5 * 256 + 0xC0, x)], msc := { carry := [(5, 0)] } }

/-- What the query leaves when it writes `b` to its buffer. -/
def queryLeaves (x : Byte) (b : Bytes) : State := ((carriedState x).toHost 0 b).finish queryRef cOK 0 []

theorem queryLeaves_quiet (x : Byte) (b : Bytes) : (queryLeaves x b).quiet = true := by exact rfl

theorem queryLeaves_out (x : Byte) (b : Bytes) : (queryLeaves x b).out.head? = some (.hostWrite 0 b) := rfl

/-- The bytes written to the buffer can be told from what the query leaves. -/
theorem queryLeaves_injective {x : Byte} {b c : Bytes}
    (h : (carriedState x).after (queryLeaves x b) = (carriedState x).after (queryLeaves x c)) : b = c := by
  have hout : (queryLeaves x b).out.head? = (queryLeaves x c).out.head? := by
    rw [← State.after_out (queryLeaves_quiet x b) (carriedState x), ← State.after_out (queryLeaves_quiet x c) (carriedState x), h]
  rw [queryLeaves_out, queryLeaves_out] at hout
  injection hout with hwrite
  injection hwrite

/-- The two images differ at 0xC0 where the stored byte is not that of the carried state. -/
theorem recordImage_ne_ctxImage :
    (carriedState (Config.codedByte 0 0xC0 + 1)).recordImage 5 ≠ (carriedState (Config.codedByte 0 0xC0 + 1)).ctxImage 5 := by
  intro h
  have hbyte : Config.codedByte 0 0xC0 = Config.codedByte 0 0xC0 + 1 := congrArg (fun b : Bytes => byteAt b 0xC0) h
  bv_omega

/-- Refutes O46: its clause on CTX_QUERY names the stored bytes (`ctxImage`), but the command writes the record as it reads (`recordImage`), in
which the carried state stands over the stored bytes from 0xC0 on. -/
theorem not_contextCommandsAnswer : ¬ Obligations.ContextCommandsAnswer := by
  unfold Obligations.ContextCommandsAnswer
  intro h
  let s := carriedState (Config.codedByte 0 0xC0 + 1)
  have hstored : exec (.ctxQuery queryRef) s = .next (s.after ((s.toHost 0 (s.ctxImage 5)).finish queryRef cOK 0 [])) := by
    obtain ⟨-, -, -, -, hquery, -⟩ := h queryRef queryEntry [] s rfl rfl rfl
    exact hquery rfl (by decide) rfl
  have hread : exec (.ctxQuery queryRef) s = .next (s.after ((s.toHost 0 (s.recordImage 5)).finish queryRef cOK 0 [])) := by
    rw [exec_ctxQuery (rfl : s.cmdsRun = true), State.ctxQuery_open (e := queryEntry) rfl rfl rfl (by decide) rfl]
    rfl
  have hsame := hread.symm.trans hstored
  injection hsame with hafter
  exact recordImage_ne_ctxImage (queryLeaves_injective hafter)

end Sys2Proof.Machine
end

section
/-! SUPPORT. The registers of a lane that do something (R92 to R100, R122): the statistics FIFO, the performance counters with their overflow, and
tagged sampling. -/

namespace Sys2Proof.Machine

open Sys2Proof

/-! ### A raise leaves its source's sticky bit set (R451) -/

/-- The sticky bit of fault source `n`. -/
def State.sticky (s : State) (n : Nat) : Bool := (s.fltSrc n).sticky

theorem State.sticky_of_srcs {s t : State} (h : t.flt.srcs = s.flt.srcs) (n : Nat) : t.sticky n = s.sticky n := by
  simp only [State.sticky, State.fltSrc, h]

@[simp] theorem State.sticky_ite (a b : State) (n : Nat) (c : Prop) [Decidable c] :
    (if c then a else b).sticky n = if c then a.sticky n else b.sticky n := apply_ite (fun s => s.sticky n) c a b

@[simp] theorem State.sticky_logFault (s : State) (a b c d e n : Nat) : (s.logFault a b c d e).sticky n = s.sticky n :=
  State.sticky_of_srcs rfl n
@[simp] theorem State.sticky_event (s : State) (e : Ev) (c d n : Nat) : (s.event e c d).sticky n = s.sticky n :=
  State.sticky_of_srcs (by simp) n
@[simp] theorem State.sticky_emit (s : State) (o : Output) (n : Nat) : (s.emit o).sticky n = s.sticky n := State.sticky_of_srcs rfl n
@[simp] theorem State.sticky_assertReplace (s : State) (n : Nat) : s.assertReplace.sticky n = s.sticky n := State.sticky_of_srcs rfl n
@[simp] theorem State.sticky_unitResets (s : State) (l : List Nat) (n : Nat) :
    ({ s with flt := { s.flt with unitResets := l } } : State).sticky n = s.sticky n := State.sticky_of_srcs rfl n
@[simp] theorem State.sticky_resetReq (s : State) (b : Bool) (n : Nat) :
    ({ s with flt := { s.flt with resetReq := b } } : State).sticky n = s.sticky n := State.sticky_of_srcs rfl n
@[simp] theorem State.sticky_setFltSrc (s : State) (n : Nat) (x : FltSrc) : (s.setFltSrc n x).sticky n = x.sticky := by
  rw [State.sticky, State.setFltSrc_same]

@[simp] theorem State.sticky_react (s : State) (n unit cfg : Nat) : (s.react n unit cfg).sticky n = s.sticky n := by
  unfold State.react
  dsimp only
  rw [State.sticky_ite, State.sticky_setFltSrc]
  -- the source put back, with its pin latched, has the sticky bit that it had
  change (if tb cfg 0 then State.sticky _ n else _) = _
  simp

theorem State.raise_sticky (s : State) (n unit part : Nat) : ((s.raise n unit part).fltSrc n).sticky = true := by
  change (s.raise n unit part).sticky n = true
  unfold State.raise State.raiseWith
  dsimp only
  cases fltEvent n unit <;> simp

/-! ### Bits and fields of the words written (R95, R98) -/

theorem fld_lt (v lo w : Nat) : fld v lo w < 2 ^ w := Nat.mod_lt _ (Nat.two_pow_pos w)

/-- A bit set is 1, whether it was before or not. -/
theorem tb_setBit (v i : Nat) : tb (setBit v i) i = true := by
  unfold setBit
  split
  next h => exact h
  next h =>
    rw [tb_eq_testBit] at h ⊢
    rw [Nat.add_comm, Nat.testBit_two_pow_add_eq]
    simpa using h

theorem w32_toNat_of_lt {n : Nat} (h : n < 2 ^ 32) : (w32 n).toNat = n := by
  rw [w32, BitVec.toNat_ofNat, Nat.mod_eq_of_lt h]

/-- LAN_PMC_CFGn put together: EN and OVF_EV of `v`; the mode's two bits (CHAIN, EDGE) and the event's code of `m`. -/
def pmcWord (v m : Nat) : Nat := fld v 31 1 * 2 ^ 31 + fld m 29 2 * 2 ^ 29 + fld v 28 1 * 2 ^ 28 + fld m 0 10

theorem pmcWord_fields (v m : Nat) :
    pmcWord v m < 2 ^ 32 ∧ fld (pmcWord v m) 31 1 = fld v 31 1 ∧ fld (pmcWord v m) 28 1 = fld v 28 1 ∧
      fld (pmcWord v m) 29 2 = fld m 29 2 ∧ fld (pmcWord v m) 0 10 = fld m 0 10 := by
  simp only [pmcWord, fld]
  omega

/-- The word that a write leaves in an enabled counter's register. -/
theorem pmcWord_kept (v old : Nat) :
    fld v 31 1 * 2 ^ 31 + fld v 28 1 * 2 ^ 28 + (fld old 30 1 * 2 ^ 30 + fld old 29 1 * 2 ^ 29 + fld old 0 10) = pmcWord v old := by
  simp only [pmcWord, fld]
  omega

/-- The word that it leaves in the register of a counter that is not enabled. -/
theorem pmcWord_new (v : Nat) :
    fld v 31 1 * 2 ^ 31 + fld v 28 1 * 2 ^ 28 + fld v 29 2 * 2 ^ 29 + fld v 0 10 = pmcWord v v := by
  simp only [pmcWord]
  omega

/-- LAN_TAG_CFG put together: EN and LOG2N. -/
theorem tagWord_fields {en : Bool} {n w : Nat} (hn : n < 32) (h : w = b2n en * 2 ^ 31 + n) :
    w < 2 ^ 32 ∧ tb w 31 = en ∧ fld w 0 5 = n := by
  subst h
  cases en <;> simp [b2n, tb, fld] <;> omega

/-! ### The statistics FIFO (R92 to R94) -/

section Fifo

variable {s : State} {l : Nat}

theorem State.lsfPopOp_empty (h : (s.lane l).lsf = []) (e : EccResult) :
    s.lsfPopOp l e =
      (s.setLane l { s.lane l with lsfLatch := [0, 0, 0] }).emit (.regRead (laneAddr l 0x64) (w32 (s.lane l).lsfSeq)) := by
  unfold State.lsfPopOp
  simp only [h]

theorem State.lsfPopOp_clean {w : List W32} {r : List (List W32)} (h : (s.lane l).lsf = w :: r) :
    s.lsfPopOp l .clean =
      (s.setLane l { s.lane l with lsf := r, lsfLatch := w.drop 1 }).emit (.regRead (laneAddr l 0x64) (getAt 0 w 0)) := by
  unfold State.lsfPopOp
  simp only [h]

theorem State.lsfPopOp_single {w : List W32} {r : List (List W32)} (h : (s.lane l).lsf = w :: r) :
    s.lsfPopOp l .single =
      (s.setLane l { s.lane l with lsf := r, lsfLatch := w.drop 1, eccCorr := satAdd (s.lane l).eccCorr 1 0xFFFF }).emit
        (.regRead (laneAddr l 0x64) (getAt 0 w 0)) := by
  unfold State.lsfPopOp
  simp only [h]

/-- An uncorrectable record reads as type 0xE, and its fault is raised. -/
theorem State.lsfPopOp_uncorrectable {w : List W32} {r : List (List W32)} (h : (s.lane l).lsf = w :: r) :
    s.lsfPopOp l .uncorrectable =
      ((s.setLane l { s.lane l with lsf := r, lsfLatch := [0, 0, 0], eccUncorr := satAdd (s.lane l).eccUncorr 1 0xFFFF }).emit
        (.regRead (laneAddr l 0x64) (w32 (0xE * 2 ^ 28)))).raise fLaneLsfUe l 0 := by
  unfold State.lsfPopOp
  simp only [h]

/-- The lane after an uncorrectable record: the raise leaves what the read has made of it. -/
theorem State.lsfPopOp_uncorrectable_lane {w : List W32} {r : List (List W32)} (h : (s.lane l).lsf = w :: r) :
    (s.lsfPopOp l .uncorrectable).lane l =
      { s.lane l with lsf := r, lsfLatch := [0, 0, 0], eccUncorr := satAdd (s.lane l).eccUncorr 1 0xFFFF } := by
  rw [State.lsfPopOp_uncorrectable h, State.lane, State.raise_lanes, State.emit_lanes]
  exact State.setLane_same ..

theorem State.lsfClrOp_one {v : W32} (h : tb v.toNat 0 = true) :
    s.lsfClrOp l v = s.setLane l { s.lane l with eccCorr := 0, eccUncorr := 0, lsfLost := 0 } := if_pos h

theorem State.lsfClrOp_zero {v : W32} (h : tb v.toNat 0 = false) : s.lsfClrOp l v = s := by
  unfold State.lsfClrOp
  rw [h, if_neg Bool.false_ne_true]

end Fifo

/-! ### Performance counters (R95, R96) -/

/-- Two counters of one unit share a key only when they are one counter. -/
theorem cntKey_ne {b u m n : Nat} (h : m ≠ n) : cntKey b u m ≠ cntKey b u n := by
  unfold cntKey
  omega

/-- Counters set to zero one after another: those named read zero, the others as before. -/
theorem State.cntOf_zeroed (b u n : Nat) (l : List Nat) (s : State) :
    (l.foldl (fun s m => { s with cnt := Tbl.put s.cnt (cntKey b u m) 0 }) s).cntOf b u n = if n ∈ l then 0 else s.cntOf b u n := by
  induction l generalizing s with
  | nil => rfl
  | cons m r ih =>
    rw [List.foldl_cons, ih]
    by_cases h : n = m
    · subst h; simp [State.cntOf]
    · simp only [List.mem_cons, h, false_or, State.cntOf, Tbl.get_put_other 0 _ 0 (cntKey_ne h)]

theorem State.pmcClrOp_cntOf (s : State) (l : Nat) (v : W32) (n : Fin 8) :
    (s.pmcClrOp l v).cntOf bLAN (l + 1) n.val = if tb v.toNat n.val then 0 else s.cntOf bLAN (l + 1) n.val := by
  unfold State.pmcClrOp
  rw [State.cntOf_zeroed]
  simp [bitsOf, n.isLt]

/-- A register of the lane that a write has stored reads as the word written. -/
theorem State.laneReg_put (s : State) (l off n : Nat) (h : n < 2 ^ 32) :
    ({ s with regs := Tbl.put s.regs (laneAddr l off) (w32 n) } : State).laneReg l off = n := by
  rw [State.laneReg, Tbl.get_put_same, w32_toNat_of_lt h]

/-- LAN_PMC_CFGn after a write: EN and OVF_EV as written; the mode and the event's code as written where EN read 0, else as before. -/
theorem State.pmcCfgOp_word (s : State) (l n : Nat) (v : W32) :
    (s.pmcCfgOp l n v).laneReg l (0x200 + 4 * n) =
      pmcWord v.toNat (if tb (s.laneReg l (0x200 + 4 * n)) 31 then s.laneReg l (0x200 + 4 * n) else v.toNat) := by
  unfold State.pmcCfgOp
  dsimp only
  split
  · rw [pmcWord_kept, State.laneReg_put _ _ _ _ (pmcWord_fields ..).1]
  · rw [pmcWord_new, State.laneReg_put _ _ _ _ (pmcWord_fields ..).1]

theorem State.cntOf_pmcOverflow (s : State) (l n u m : Nat) : (s.pmcOverflow l n).cntOf bLAN u m = s.cntOf bLAN u m := by
  unfold State.pmcOverflow
  dsimp only
  split
  · rw [State.cntOf_event _ _ _ _ _ _ _ (by unfold cntKey bLAN; omega)]
    rfl
  · rfl

theorem State.pmcOverflow_ovf (s : State) (l n : Nat) : tb ((s.pmcOverflow l n).lane l).pmcOvf n = true := by
  unfold State.pmcOverflow
  dsimp only
  split
  · rw [State.lane, State.event_lanes]
    change tb ((s.setLane l _).lane l).pmcOvf n = true
    rw [State.setLane_same]
    exact tb_setBit _ n
  · rw [State.setLane_same]
    exact tb_setBit _ n

theorem State.pmcOverflow_laneReg (s : State) (l n k off : Nat) : (s.pmcOverflow l n).laneReg k off = s.laneReg k off := by
  unfold State.pmcOverflow State.laneReg
  dsimp only
  split <;> simp

/-- A counter at its top, without CHAIN, wraps: one more makes it zero with its OVF bit. -/
theorem State.pmcWrapOp_wraps {s : State} {l n : Nat} (he : tb (s.laneReg l (0x200 + 4 * n)) 31 = true)
    (ht : s.cntOf bLAN (l + 1) n = 2 ^ 48 - 1) (hc : tb (s.laneReg l (0x200 + 4 * n)) 30 = false) :
    s.pmcWrapOp l n = (s.bumpU bLAN (l + 1) n 1).pmcOverflow l n := by
  have hreg : ((s.bumpU bLAN (l + 1) n 1).pmcOverflow l n).laneReg l (0x200 + 4 * n) = s.laneReg l (0x200 + 4 * n) :=
    State.pmcOverflow_laneReg ..
  unfold State.pmcWrapOp
  rw [if_pos (by simp [he, ht])]
  unfold State.pmcAdd
  dsimp only
  rw [if_neg (by omega), hreg, hc, Bool.and_false, if_neg Bool.false_ne_true]

theorem State.cntOf_bumpU_top {s : State} {b u n : Nat} (ht : s.cntOf b u n = 2 ^ 48 - 1) : (s.bumpU b u n 1).cntOf b u n = 0 := by
  unfold State.cntOf at ht
  rw [State.cntOf, State.bumpU, Tbl.get_put_same, ht]
  rfl

/-! ### Tagged sampling (R98) -/

theorem State.tagPopOp_empty {s : State} {l : Nat} (h : (s.lane l).tags = []) :
    s.tagPopOp l = (s.setLane l { s.lane l with tagLatch := List.replicate 7 0 }).emit (.regRead (laneAddr l 0x290) 0) := by
  unfold State.tagPopOp
  simp only [h]

theorem State.tagPopOp_oldest {s : State} {l : Nat} {w : List W32} {r : List (List W32)} (h : (s.lane l).tags = w :: r) :
    s.tagPopOp l =
      (s.setLane l { s.lane l with tags := r, tagLatch := w.drop 1 }).emit (.regRead (laneAddr l 0x290) (getAt 0 w 0)) := by
  unfold State.tagPopOp
  simp only [h]

/-- LAN_TAG_CFG as it reads. -/
def State.tagCfg (s : State) (l : Nat) : Nat := (Tbl.get 10 s.regs (laneAddr l 0x280)).toNat

/-- LOG2N after a write of `v` over `old`. -/
def log2nAfter (old v : Nat) : Nat :=
  if tb old 31 then fld old 0 5 else if 4 ≤ fld v 0 5 ∧ fld v 0 5 ≤ 16 then fld v 0 5 else fld old 0 5

theorem State.tagCfgOp_word (s : State) (l : Nat) (v : W32) :
    tb ((s.tagCfgOp l v).tagCfg l) 31 = tb v.toNat 31 ∧
      fld ((s.tagCfgOp l v).tagCfg l) 0 5 = log2nAfter (s.tagCfg l) v.toNat := by
  have hn : log2nAfter (s.tagCfg l) v.toNat < 32 := by
    have hold := fld_lt (s.tagCfg l) 0 5
    have hnew := fld_lt v.toNat 0 5
    unfold log2nAfter
    repeat' split
    all_goals omega
  obtain ⟨hw, hen, hlog⟩ := tagWord_fields (en := tb v.toNat 31) hn rfl
  have hreg : (s.tagCfgOp l v).tagCfg l = b2n (tb v.toNat 31) * 2 ^ 31 + log2nAfter (s.tagCfg l) v.toNat := by
    rw [State.tagCfg, State.tagCfgOp]
    dsimp only
    rw [Tbl.get_put_same]
    exact w32_toNat_of_lt hw
  rw [hreg]
  exact ⟨hen, hlog⟩

/-- EN going to 1 reseeds the LFSR; a seed of 0 counts as 1. -/
theorem State.tagCfgOp_seeds {s : State} {l : Nat} {v : W32} (ho : tb (s.tagCfg l) 31 = false) (hv : tb v.toNat 31 = true) :
    ((s.tagCfgOp l v).lane l).lfsr =
      let seed := fld (Tbl.get 1 s.regs (laneAddr l 0x284)).toNat 0 24
      if seed = 0 then 1 else seed := by
  unfold State.tagCfg at ho
  unfold State.tagCfgOp
  dsimp only
  simp only [ho, hv, Bool.false_eq_true, not_false_eq_true, and_self, if_true, if_false]
  exact congrArg Lane.lfsr (State.setLane_same ..)

/-! ### Each command, where the BAR is served or the module is live, is its operation -/

section Commands

variable {s : State}

theorem exec_lsfPop (h : s.barServes 0x1000000 = true) (l : LaneId) (e : EccResult) :
    exec (.lsfPop l e) s = .next (s.after (s.lsfPopOp l.val e)) := by
  show execLsfPop l e s = _
  exact act_of h _ s

theorem exec_tagRecPop (h : s.barServes 0x1000000 = true) (l : LaneId) :
    exec (.tagRecPop l) s = .next (s.after (s.tagPopOp l.val)) := by
  show execTagRecPop l s = _
  exact act_of h _ s

theorem exec_lsfClr (h : s.barTakes 0x1000000 = true) (l : LaneId) (v : W32) :
    exec (.lsfClr l v) s = .next (s.after (s.lsfClrOp l.val v)) := by
  show execLsfClr l v s = _
  exact act_of h _ s

theorem exec_pmcClr (h : s.barTakes 0x1000000 = true) (l : LaneId) (v : W32) :
    exec (.pmcClr l v) s = .next (s.after (s.pmcClrOp l.val v)) := by
  show execPmcClr l v s = _
  exact act_of h _ s

theorem exec_pmcCfgWrite (h : s.barTakes 0x1000000 = true) (l : LaneId) (n : Fin 8) (v : W32) :
    exec (.pmcCfgWrite l n v) s = .next (s.after (s.pmcCfgOp l.val n.val v)) := by
  show execPmcCfgWrite l n v s = _
  exact act_of h _ s

theorem exec_tagCfgWrite (h : s.barTakes 0x1000000 = true) (l : LaneId) (v : W32) :
    exec (.tagCfgWrite l v) s = .next (s.after (s.tagCfgOp l.val v)) := by
  show execTagCfgWrite l v s = _
  exact act_of h _ s

theorem exec_pmcWrap (h : s.live = true) (l : LaneId) (n : Fin 8) :
    exec (.pmcWrap l n) s = .next (s.after (s.pmcWrapOp l.val n.val)) := by
  show execPmcWrap l n s = _
  exact act_of h _ s

end Commands

/-- Settles O14: the reads by what the FIFO or the tag buffer holds, the words written by their fields, and a wrap by its counter. -/
theorem laneRegistersAnswer : Obligations.LaneRegistersAnswer := by
  unfold Obligations.LaneRegistersAnswer
  intro l s x pop rec0
  refine ⟨fun hb => ⟨fun e h => ?_, fun w r h => ⟨?_, ?_, ?uncorrectable⟩, fun h => ?_, fun w r h => ?_⟩,
    fun hb => ⟨fun v h => ?_, fun v h => ?_, fun v => ?_, ?pmcCfg, ?tagCfg⟩, ?wrap⟩
  · rw [exec_lsfPop hb, State.lsfPopOp_empty h]
  · rw [exec_lsfPop hb, State.lsfPopOp_clean h]
  · rw [exec_lsfPop hb, State.lsfPopOp_single h]
  case uncorrectable =>
    have hlane := State.lsfPopOp_uncorrectable_lane h
    refine ⟨_, exec_lsfPop hb l _, by rw [hlane], by rw [hlane], ?_⟩
    rw [State.lsfPopOp_uncorrectable h]
    exact State.raise_sticky ..
  · rw [exec_tagRecPop hb, State.tagPopOp_empty h]
  · rw [exec_tagRecPop hb, State.tagPopOp_oldest h]
  · rw [exec_lsfClr hb, State.lsfClrOp_one h]
  · rw [exec_lsfClr hb, State.lsfClrOp_zero h]
  · exact ⟨_, exec_pmcClr hb l v, s.pmcClrOp_cntOf l.val v⟩
  case pmcCfg =>
    intro n v old
    obtain ⟨-, hen, hovf, hmode, hcode⟩ := pmcWord_fields v.toNat (if tb old 31 then old else v.toNat)
    refine ⟨_, exec_pmcCfgWrite hb l n v, ?_⟩
    rw [State.pmcCfgOp_word]
    refine ⟨?_, ?_, ?_, ?_⟩
    · rw [tb, hen, tb]
    · rw [tb, hovf, tb]
    · rw [hmode, apply_ite (fun w => fld w 29 2)]
    · rw [hcode, apply_ite (fun w => fld w 0 10)]
  case tagCfg =>
    intro v old seed
    obtain ⟨hen, hlog⟩ := s.tagCfgOp_word l.val v
    refine ⟨_, exec_tagCfgWrite hb l v, hen, State.tagCfgOp_seeds, fun ho hlo hhi => hlog.trans ?_, fun ho => hlog.trans ?_⟩
    · exact (if_neg (by rw [Bool.not_eq_true]; exact ho)).trans (if_pos ⟨hlo, hhi⟩)
    · exact if_pos ho
  case wrap =>
    intro hl n he ht hc
    refine ⟨_, exec_pmcWrap hl l n, ?_, ?_⟩
    · rw [State.pmcWrapOp_wraps he ht hc, State.cntOf_pmcOverflow, State.cntOf_bumpU_top ht]
    · rw [State.pmcWrapOp_wraps he ht hc, State.pmcOverflow_ovf]

end Sys2Proof.Machine
end

section
/-! SUPPORT. Which operations leave the lanes and module time as they are: the performance counters (but for their overflow bits), and what rate
control and the decoder do as a row starts (R125 to R140, R148 to R154). -/

namespace Sys2Proof.Machine

open Sys2Proof

/-- Lane `l` but for the overflow bits of its counters, and module time. -/
def State.laneView (s : State) (l : Nat) : Lane × Nat := ({ s.lane l with pmcOvf := 0 }, s.time)

theorem State.laneView_of_lanes {t u : State} {l : Nat} (h : u.lanes = t.lanes) (ht : u.time = t.time) : u.laneView l = t.laneView l := by
  simp only [State.laneView, State.lane, h, ht]

theorem State.bufOnly.time {s t : State} (h : s.bufOnly t) : t.time = s.time := by rw [h]

theorem State.laneView_of_bufOnly {t u : State} {l : Nat} (h : t.bufOnly u) : u.laneView l = t.laneView l :=
  State.laneView_of_lanes h.lanes h.time

/-- A field of the lane that the view shows. -/
theorem State.laneView_field {β : Type} (g : Lane → β) (hg : ∀ (x : Lane) (v : Nat), g { x with pmcOvf := v } = g x) {t u : State} {l : Nat}
    (h : u.laneView l = t.laneView l) : g (u.lane l) = g (t.lane l) := by
  rw [← hg (u.lane l) 0, ← hg (t.lane l) 0]
  exact congrArg (fun v => g v.1) h

theorem State.laneView_ns {t u : State} {l : Nat} (h : u.laneView l = t.laneView l) : u.ns = t.ns :=
  congrArg (fun v => v.2 / 2 ^ 16) h

@[simp] theorem State.laneView_ite (a b : State) (l : Nat) (c : Prop) [Decidable c] :
    (if c then a else b).laneView l = if c then a.laneView l else b.laneView l := apply_ite (fun s => s.laneView l) c a b

/-- A choice between an operation that keeps the view and nothing. -/
theorem State.laneView_if {a b : State} {l : Nat} {c : Prop} [Decidable c] (h : a.laneView l = b.laneView l) :
    (if c then a else b).laneView l = b.laneView l := by
  split
  · exact h
  · rfl

@[simp] theorem State.laneView_foldl {α : Type} (f : State → α → State) (l : Nat) (xs : List α) (t : State)
    (h : ∀ (u : State) (a : α), (f u a).laneView l = u.laneView l) : (xs.foldl f t).laneView l = t.laneView l :=
  foldl_keeps (fun s : State => s.laneView l) f h xs t

/-! ### Updates of other parts -/

section Updates

variable (t : State) (l : Nat)

@[simp] theorem State.laneView_draw : t.draw.laneView l = t.laneView l := State.laneView_of_lanes rfl rfl
@[simp] theorem State.laneView_bumpU (b u n k : Nat) : (t.bumpU b u n k).laneView l = t.laneView l := State.laneView_of_lanes rfl rfl
@[simp] theorem State.laneView_setCtx (r o : Nat) (b : Bytes) : (t.setCtx r o b).laneView l = t.laneView l := State.laneView_of_lanes rfl rfl
@[simp] theorem State.laneView_setCf (r o n v : Nat) : (t.setCf r o n v).laneView l = t.laneView l := State.laneView_of_lanes rfl rfl
@[simp] theorem State.laneView_incCf (r o n v : Nat) : (t.incCf r o n v).laneView l = t.laneView l := State.laneView_of_lanes rfl rfl
@[simp] theorem State.laneView_setEnc (r : Nat) (x : EncSt) : (t.setEnc r x).laneView l = t.laneView l := State.laneView_of_lanes rfl rfl
@[simp] theorem State.laneView_setDec (r : Nat) (x : DecSt) : (t.setDec r x).laneView l = t.laneView l := State.laneView_of_lanes rfl rfl
@[simp] theorem State.laneView_store (a : Nat) (b : Bytes) : (t.store a b).laneView l = t.laneView l := State.laneView_of_lanes rfl rfl
@[simp] theorem State.laneView_setFrame (h : W32) (f : FrameD) : (t.setFrame h f).laneView l = t.laneView l := State.laneView_of_lanes rfl rfl
@[simp] theorem State.laneView_event (e : Ev) (c d : Nat) : (t.event e c d).laneView l = t.laneView l :=
  State.laneView_of_bufOnly (by simp)
@[simp] theorem State.laneView_raise (a b c : Nat) : (t.raise a b c).laneView l = t.laneView l :=
  State.laneView_of_bufOnly (by simp)
@[simp] theorem State.laneView_assertSrc (n a b c : Nat) : (t.assertSrc n a b c).laneView l = t.laneView l :=
  State.laneView_of_bufOnly (State.bufOnly_of_fltOnly (State.fltOnly_of_evOnly (by simp)))
@[simp] theorem State.laneView_setMark (a : Nat) (h : W32) (m : Nat) : (t.setMark a h m).laneView l = t.laneView l :=
  State.laneView_of_bufOnly (by simp)
@[simp] theorem State.laneView_unmark (a : Nat) (h : W32) (m : Nat) : (t.unmark a h m).laneView l = t.laneView l :=
  State.laneView_of_bufOnly (by simp)
@[simp] theorem State.laneView_xferRef (a : Nat) (h : W32) (o : Nat) : (t.xferRef a h o).laneView l = t.laneView l :=
  State.laneView_of_bufOnly (by simp)
@[simp] theorem State.laneView_incRef (b : Bool) (h : W32) : (t.incRef b h).1.laneView l = t.laneView l :=
  State.laneView_of_bufOnly (by simp)
@[simp] theorem State.laneView_newFrame (a c p w h d n : Nat) (poc : W32) (x : Nat) :
    (t.newFrame a c p w h d n poc x).1.laneView l = t.laneView l :=
  State.laneView_of_bufOnly (by simp)

end Updates

/-! ### Performance counters (R95) -/

/-- A lane rewritten with other overflow bits. -/
@[simp] theorem State.laneView_setLane_ovf (t : State) (l k v : Nat) :
    (t.setLane k { t.lane k with pmcOvf := v }).laneView l = t.laneView l := by
  unfold State.laneView
  by_cases h : l = k
  · subst h; rw [State.setLane_same, State.setLane_time]
  · rw [State.setLane_other _ _ _ _ h, State.setLane_time]

@[simp] theorem State.laneView_pmcOverflow (t : State) (l k n : Nat) : (t.pmcOverflow k n).laneView l = t.laneView l := by
  simp [State.pmcOverflow]

/-- An addition with its carries: by induction on their number. -/
@[simp] theorem State.laneView_pmcAdd (t : State) (l k n c fuel : Nat) : (t.pmcAdd k n c fuel).laneView l = t.laneView l := by
  induction fuel generalizing t n c with
  | zero => rfl
  | succ fuel ih =>
    unfold State.pmcAdd
    dsimp only
    split
    · simp
    · split
      · simp [ih]
      · simp

@[simp] theorem State.laneView_pmcSpan (t : State) (l k c n r : Nat) : (t.pmcSpan k c n r).laneView l = t.laneView l := by
  simp [State.pmcSpan]

@[simp] theorem State.laneView_pmcEvent (t : State) (l k c : Nat) : (t.pmcEvent k c).laneView l = t.laneView l := by
  simp [State.pmcEvent]

/-! ### Rate control as a row starts (R125 to R128, R133) -/

@[simp] theorem State.laneView_newSweep (t : State) (l r p : Nat) (b : Bool) : (t.newSweep r p b).laneView l = t.laneView l := by
  simp [State.newSweep]

@[simp] theorem State.laneView_picTarget (t : State) (l r p : Nat) (a b : Bool) : (t.picTarget r p a b).laneView l = t.laneView l := by
  unfold State.picTarget
  simp

@[simp] theorem State.laneView_moveFront (t : State) (l r n : Nat) (b : Bool) : (t.moveFront r n b).laneView l = t.laneView l := by
  unfold State.moveFront
  simp

@[simp] theorem State.laneView_moveFamily (t : State) (l f n : Nat) : (t.moveFamily f n).laneView l = t.laneView l := by
  unfold State.moveFamily
  simp

@[simp] theorem State.laneView_noteSweep (t : State) (l r : Nat) (p : RcPic) : (t.noteSweep r p).laneView l = t.laneView l := by
  unfold State.noteSweep
  simp

@[simp] theorem State.laneView_rowStart (t : State) (l r n : Nat) (p : RowPlan) : (t.rowStart r n p).laneView l = t.laneView l := by
  unfold State.rowStart
  simp

/-! ### The decoder as a row starts (R148 to R154) -/

@[simp] theorem State.laneView_showDpb (t : State) (l r : Nat) : (t.showDpb r).laneView l = t.laneView l := by
  simp [State.showDpb]

@[simp] theorem State.laneView_setRefs (t : State) (l r : Nat) (x : List W32) : (t.setRefs r x).laneView l = t.laneView l := by
  simp [State.setRefs]

@[simp] theorem State.laneView_setWaiting (t : State) (l r : Nat) (x : List W32) : (t.setWaiting r x).laneView l = t.laneView l := by
  simp [State.setWaiting]

@[simp] theorem State.laneView_writeOutRow (t : State) (l r : Nat) (w : W32) (n : Nat) : (t.writeOutRow r w n).laneView l = t.laneView l := by
  simp [State.writeOutRow]

@[simp] theorem State.laneView_writeOut (t : State) (l r k : Nat) (h : W32) : (t.writeOut r k h).laneView l = t.laneView l := by
  unfold State.writeOut
  dsimp only
  split
  · split
    · simp
    · simp
  · rfl

@[simp] theorem State.laneView_releasePic (t : State) (l r k : Nat) (h : W32) : (t.releasePic r k h).laneView l = t.laneView l := by
  unfold State.releasePic
  dsimp only
  split
  · rfl
  · cases (t.dec r).released <;> simp

/-- The pictures that the bumping process releases: by induction on their list. -/
@[simp] theorem State.laneView_bumpOut (t : State) (l r k : Nat) (x : List W32) : (t.bumpOut r k x).laneView l = t.laneView l := by
  induction x generalizing t with
  | nil => simp [State.bumpOut]
  | cons p x ih =>
    unfold State.bumpOut
    split
    · simp [ih]
    · split
      · split <;> simp [ih]
      · exact ih t

@[simp] theorem State.laneView_substitute (t : State) (l r k : Nat) (p : W32) (b : Bool) :
    (t.substitute r k p b).laneView l = t.laneView l := by
  unfold State.substitute
  dsimp only
  split
  · simp
  · rw [State.laneView_setRefs, State.laneView_setMark]
    split
    · simp
    · simp

@[simp] theorem State.laneView_dropRefs (t : State) (l r k : Nat) (x : List W32) : (t.dropRefs r k x).laneView l = t.laneView l := by
  refine State.laneView_foldl _ l x t (fun u p => ?_)
  split <;> simp

@[simp] theorem State.laneView_lengthen (t : State) (l r k : Nat) (x : List W32) : (t.lengthen r k x).laneView l = t.laneView l := by
  refine State.laneView_foldl _ l x t (fun u p => ?_)
  split <;> simp

@[simp] theorem State.laneView_decPicStart (t : State) (l r k : Nat) (f : DecodeFacts) :
    (t.decPicStart r k f).1.laneView l = t.laneView l := by
  unfold State.decPicStart
  dsimp only
  split
  · simp
  · split
    · simp
    · simp [apply_ite Prod.fst]

@[simp] theorem State.laneView_decRowStart (t : State) (l k : Nat) (j : Job) (f : DecodeFacts) :
    (t.decRowStart k j f).1.laneView l = t.laneView l := by
  unfold State.decRowStart
  dsimp only
  rw [State.laneView_setCtx]
  split <;> split <;> simp

end Sys2Proof.Machine
end

section
/-! SUPPORT. The lane instructions (R73, R76, R86 to R88, R108, R226): the job that leaves the queue, the switch to its context, and its entry into
its vector. -/

namespace Sys2Proof.Machine

open Sys2Proof

/-! ### A lane's seat: its queue, its place in its carriageway, and whether it is to be gated -/

def Lane.seat (x : Lane) : List Job × Nat × Nat × Bool := (x.queue, x.cwSize, x.cwLead, x.gate)

/-- The seat of lane `l`, and module time. -/
def State.seat (s : State) (l : Nat) : (List Job × Nat × Nat × Bool) × Nat := ((s.lane l).seat, s.time)

theorem State.seat_of_laneView {s t : State} {l : Nat} (h : t.laneView l = s.laneView l) : t.seat l = s.seat l :=
  congrArg (fun v : Lane × Nat => (v.1.seat, v.2)) h

/-- A lane rewritten with its seat as it was. -/
theorem State.seat_setLane {s : State} {k : Nat} {x : Lane} (h : x.seat = (s.lane k).seat) (l : Nat) : (s.setLane k x).seat l = s.seat l := by
  unfold State.seat
  by_cases e : l = k
  · subst e; rw [State.setLane_same, h, State.setLane_time]
  · rw [State.setLane_other _ _ _ _ e, State.setLane_time]

section Seat

variable {s t : State} {l : Nat} (h : t.seat l = s.seat l)
include h

theorem State.queue_of_seat : (t.lane l).queue = (s.lane l).queue := congrArg (fun v => v.1.1) h
theorem State.gate_of_seat : (t.lane l).gate = (s.lane l).gate := congrArg (fun v => v.1.2.2.2) h

theorem State.leadFor_of_seat : t.leadFor l = s.leadFor l :=
  congrArg (fun v : (List Job × Nat × Nat × Bool) × Nat => if v.1.2.1 ≤ 1 then l else v.1.2.2.1) h

theorem State.members_of_seat : t.members l = s.members l :=
  congrArg (fun v : (List Job × Nat × Nat × Bool) × Nat =>
    if v.1.2.1 ≤ 1 then [l] else (List.range v.1.2.1).map (fun i => v.1.2.2.1 + i)) h

end Seat

/-! ### The job boundary (R106, R113) and the head of the queue -/

@[simp] theorem State.seat_sliceStall (s : State) (k l : Nat) : (s.sliceStall k).seat l = s.seat l := by
  unfold State.sliceStall
  split
  · rfl
  · rw [State.seat_of_laneView (State.laneView_raise ..)]
    exact State.seat_setLane (by rfl) l

@[simp] theorem State.seat_takeTrap (s : State) (k c l : Nat) (b : Bool) : (s.takeTrap k c b).seat l = s.seat l := by
  unfold State.takeTrap
  dsimp only
  split
  · rw [State.seat_sliceStall, State.seat_of_laneView (State.laneView_pmcEvent ..)]
    exact State.seat_setLane (by rfl) l
  · rw [State.seat_of_laneView (State.laneView_pmcEvent ..)]
    exact State.seat_setLane (by rfl) l

@[simp] theorem State.seat_servePending (s : State) (k l : Nat) (b : Bool) : (s.servePending k b).seat l = s.seat l := by
  unfold State.servePending
  dsimp only
  split
  · split
    · rfl
    · exact s.seat_takeTrap ..
  · rfl

@[simp] theorem State.seat_atBoundary (s : State) (k l : Nat) : (s.atBoundary k).seat l = s.seat l := by
  unfold State.atBoundary State.jobBoundary
  dsimp only
  split
  · rw [State.seat_servePending, State.seat_setLane (by rfl)]
    exact State.seat_setLane (by rfl) l
  · rfl

/-- The lead's queue loses its head; nothing else of a seat changes. -/
theorem State.seat_popJob (s : State) (k l : Nat) :
    (s.popJob k).seat l =
      if l = s.leadFor k then (((s.lane l).queue.drop 1, (s.lane l).seat.2), s.time) else s.seat l := by
  have hl := s.seat_atBoundary k l
  unfold State.popJob
  dsimp only
  rw [State.leadFor_of_seat (s.seat_atBoundary k k)]
  split
  next e =>
    rw [← e, State.seat, State.setLane_same, State.setLane_time]
    exact congrArg (fun v => ((v.1.1.drop 1, v.1.2), v.2)) hl
  next e =>
    rw [State.seat, State.setLane_other _ _ _ _ e, State.setLane_time]
    exact hl

theorem State.popJob_ns (s : State) (l : Nat) : (s.popJob l).ns = s.ns := by
  have h : ((s.popJob l).seat l).2 = s.time := by
    rw [State.seat_popJob]
    split <;> rfl
  exact congrArg (· / 2 ^ 16) h

/-- The head leaves the queue whatever else of the lanes differs. -/
theorem State.seat_popJob_congr {s t : State} (h : ∀ l, t.seat l = s.seat l) (k l : Nat) : (t.popJob k).seat l = (s.popJob k).seat l := by
  rw [State.seat_popJob, State.seat_popJob, State.leadFor_of_seat (h k), h l]
  split
  · exact congrArg (fun v => ((v.1.1.drop 1, v.1.2), v.2)) (h l)
  · rfl

/-! ### A job enters its vector (R108) -/

/-- The job in execution at its vector, before the prefetch and the first CTU of a row. -/
def State.enterVector (s : State) (l : Nat) (r : LaneRun) : State :=
  let t := if r.job.retry then s.pmcEvent l 0x00A else s
  t.setLane l { t.lane l with run := some { r with cycle := t.laneCycle }, ms := .run, upc := vectorOf r.job.op, rep := none, ctu := 0,
                              lastNano := none, asked := false, idleAt := none }

theorem State.beginJob_eq (s : State) (l : Nat) (r : LaneRun) :
    s.beginJob l r = if r.visible then s.enterVector l r else ((s.enterVector l r).prefetchNext l).tagCtu l := rfl

/-- The job that the lane executes, where it stands in it, and in which context. -/
def Lane.executes (x : Lane) (r : LaneRun) (ctx : Option Nat) : Prop :=
  x.run = some r ∧ x.ms = .run ∧ x.upc = vectorOf r.job.op ∧ x.active = ctx

theorem State.laneView_retryEvent (s : State) (l k : Nat) (b : Bool) :
    (if b then s.pmcEvent l 0x00A else s).laneView k = s.laneView k :=
  State.laneView_if (State.laneView_pmcEvent ..)

theorem State.enterVector_lane (s : State) (l : Nat) (r : LaneRun) :
    (∃ n, ((s.enterVector l r).lane l).executes { r with cycle := n } (s.lane l).active) ∧
      ((s.enterVector l r).lane l).prefetch = (s.lane l).prefetch := by
  have hview := s.laneView_retryEvent l l r.job.retry
  unfold State.enterVector
  dsimp only
  rw [State.setLane_same]
  exact ⟨⟨_, rfl, rfl, rfl, State.laneView_field Lane.active (fun _ _ => rfl) hview⟩,
    State.laneView_field Lane.prefetch (fun _ _ => rfl) hview⟩

theorem State.seat_enterVector (s : State) (l : Nat) (r : LaneRun) (k : Nat) : (s.enterVector l r).seat k = s.seat k := by
  unfold State.enterVector
  dsimp only
  rw [State.seat_setLane (by rfl)]
  exact State.seat_of_laneView (s.laneView_retryEvent l k r.job.retry)

/-- The prefetch of the next job's context writes the prefetch slot alone. -/
theorem State.prefetchNext_lane (s : State) (l : Nat) :
    ∃ p a, (s.prefetchNext l).lane l = { s.lane l with prefetch := p, prefetchAt := a } := by
  unfold State.prefetchNext
  dsimp only
  repeat' split
  · exact ⟨_, _, State.setLane_same ..⟩
  all_goals exact ⟨_, _, rfl⟩

/-- The first CTU of a row writes what belongs to tagged sampling alone. -/
theorem State.tagCtu_lane (s : State) (l : Nat) :
    ∃ v g n, (s.tagCtu l).lane l = { s.lane l with lfsr := v, tags := g, tagLost := n } := by
  unfold State.tagCtu
  dsimp only
  split
  · exact ⟨_, _, _, rfl⟩
  · split
    · exact ⟨_, _, _, State.setLane_same ..⟩
    · split
      · exact ⟨_, _, _, State.setLane_same ..⟩
      · exact ⟨_, _, _, State.setLane_same ..⟩

/-- A job begun is in execution at its vector, in the context that was active. -/
theorem State.beginJob_executes (s : State) (l : Nat) (r : LaneRun) :
    ∃ n, ((s.beginJob l r).lane l).executes { r with cycle := n } (s.lane l).active := by
  obtain ⟨⟨n, hrun⟩, -⟩ := s.enterVector_lane l r
  rw [State.beginJob_eq]
  split
  · exact ⟨n, hrun⟩
  · obtain ⟨v, g, m, htag⟩ := ((s.enterVector l r).prefetchNext l).tagCtu_lane l
    obtain ⟨p, a, hpre⟩ := (s.enterVector l r).prefetchNext_lane l
    rw [htag, hpre]
    exact ⟨n, hrun⟩

/-! ### Jobs without a row -/

/-- Such a job is in execution, its results visible, and it has left the queue. -/
def State.runsPlain (t s : State) (l : Nat) (j : Job) : Prop :=
  ∃ r : LaneRun, (t.lane l).run = some r ∧ r.job = j ∧ r.visible = true ∧ (t.lane l).ms = .run ∧ (t.lane l).upc = vectorOf j.op ∧
    (t.lane l).queue = ((s.popJob l).lane l).queue

theorem State.plainJob_lane (s : State) (l : Nat) (j : Job) (f : Lane → Lane) :
    (∃ r : LaneRun, ((s.plainJob l j f).lane l).executes r (f ((s.popJob l).lane l)).active ∧ r.job = j ∧ r.visible = true) ∧
      ((s.plainJob l j f).lane l).prefetch = (f ((s.popJob l).lane l)).prefetch := by
  obtain ⟨⟨n, hrun⟩, hpre⟩ := ((s.popJob l).setLane l (f ((s.popJob l).lane l))).enterVector_lane l
    { job := j, start := (s.popJob l).ns, visible := true }
  rw [State.setLane_same] at hrun hpre
  exact ⟨⟨_, hrun, rfl, rfl⟩, hpre⟩

theorem State.seat_plainJob (s : State) (l : Nat) (j : Job) {f : Lane → Lane} (hf : ∀ x, (f x).seat = x.seat) (k : Nat) :
    (s.plainJob l j f).seat k = (s.popJob l).seat k := by
  have he := State.seat_enterVector ((s.popJob l).setLane l (f ((s.popJob l).lane l))) l
    { job := j, start := (s.popJob l).ns, visible := true } k
  rw [State.seat_setLane (hf _)] at he
  exact he

/-- A job without a row, taken from lanes with the seats of `s`. -/
theorem State.plainJob_runs {s u : State} (hu : ∀ k, u.seat k = s.seat k) (l : Nat) (j : Job) {f : Lane → Lane}
    (hf : ∀ x, (f x).seat = x.seat) : (u.plainJob l j f).runsPlain s l j := by
  obtain ⟨⟨r, ⟨hrun, hms, hupc, -⟩, hjob, hvis⟩, -⟩ := u.plainJob_lane l j f
  subst hjob
  exact ⟨r, hrun, rfl, hvis, hms, hupc, State.queue_of_seat ((u.seat_plainJob l r.job hf l).trans (State.seat_popJob_congr hu l l))⟩

/-- Every member's contexts unloaded, as SAVE_CONTEXT begins. -/
def State.unloaded (s : State) (l : Nat) : State :=
  (s.members l).foldl (fun s m => s.setLane m { s.lane m with active := none, prefetch := none }) s

theorem State.seat_unloaded (s : State) (l k : Nat) : (s.unloaded l).seat k = s.seat k :=
  foldl_keeps (fun t : State => t.seat k) _ (fun _ _ => State.seat_setLane (by rfl) k) _ s

section Plain

variable {s : State} {l : Nat} {j : Job} (hj : s.headJob l = some j)
include hj

theorem State.nopJob_head (ho : j.op = .nop) : s.nopJob l = s.plainJob l j id := by
  simp [State.nopJob, hj, ho]

theorem State.loadCtx_head (ho : j.op = .load) :
    s.loadCtx l = s.plainJob l j (fun x => { x with prefetch := some j.ctx, prefetchAt := s.ns }) := by
  simp [State.loadCtx, hj, ho]

theorem State.saveCtx_head (ho : j.op = .save) :
    s.saveCtx l = (s.unloaded l).plainJob l j (fun x => { x with active := none, prefetch := none }) := by
  simp [State.saveCtx, State.unloaded, hj, ho]

/-- A fence that no gating waits for does nothing else. -/
theorem State.fenceJob_head (ho : j.op = .fence) (hg : ∀ m ∈ (s.popJob l).members l, ((s.popJob l).lane m).gate = false) :
    s.fenceJob l = s.plainJob l j id := by
  have hseat := s.seat_plainJob l j (f := id) (fun _ => rfl)
  have hopen : ∀ m ∈ (s.plainJob l j id).members l, ((s.plainJob l j id).lane m).gate = false := by
    intro m hm
    rw [State.members_of_seat (hseat l)] at hm
    rw [State.gate_of_seat (hseat m)]
    exact hg m hm
  unfold State.fenceJob
  rw [hj]
  dsimp only
  rw [if_pos ho]
  exact foldl_fix _ _ _ (fun m hm => by rw [hopen m hm, if_neg Bool.false_ne_true])

theorem State.badOp_reserved {n : Nat} (ho : j.op = .reserved n) :
    s.badOp l = ((s.popJob l).freeJob j).raise fLaneBadJob l j.ctx := by
  simp [State.badOp, State.badJob, hj, ho]

end Plain

/-! ### The start of a row (R87) -/

theorem State.switchCtx_active (s : State) (l c : Nat) : ((s.switchCtx l c).lane l).active = some c := by
  unfold State.switchCtx
  dsimp only
  split
  next h => exact h
  next h => rw [State.setLane_same]

theorem State.switchCtx_ns (s : State) (l c : Nat) : (s.switchCtx l c).ns = s.ns := by
  unfold State.switchCtx
  dsimp only
  split
  · rfl
  · rw [State.ns, State.setLane_time]
    refine State.laneView_ns (l := l) ?_
    split <;> simp

/-- The lane as it takes a row: its queue without the row, and the row's context switched to. -/
def State.rowTaken (s : State) (l : Nat) (j : Job) : State := (s.popJob l).switchCtx l j.ctx

theorem State.rowTaken_ns (s : State) (l : Nat) (j : Job) : (s.rowTaken l j).ns = s.ns :=
  (State.switchCtx_ns ..).trans (s.popJob_ns l)

/-- What a lane begins for row job `j` at time `ns`: the row, not yet visible, late after its deadline. -/
def LaneRun.begins (r : LaneRun) (j : Job) (ns : Nat) : Prop :=
  r.job.op = j.op ∧ r.job.ctx = j.ctx ∧ r.job.row = j.row ∧ r.job.pic = j.pic ∧ r.visible = false ∧ r.start = ns ∧
    r.late = decide (j.deadline < ns)

/-- A row that begins, its lane's state being that of the row taken, is in execution in its context. -/
theorem State.beginJob_row {s u : State} {l : Nat} {j : Job} (hu : u.laneView l = (s.rowTaken l j).laneView l) (r : LaneRun) :
    ∃ n, ((u.beginJob l r).lane l).executes { r with cycle := n } (some j.ctx) := by
  have hctx : (u.lane l).active = some j.ctx :=
    (State.laneView_field Lane.active (fun _ _ => rfl) hu).trans (State.switchCtx_active ..)
  rw [← hctx]
  exact u.beginJob_executes l r

/-- The row's picture begun, where the row is no retry. -/
def State.picBegun (s : State) (l : Nat) (j : Job) (f : DecodeFacts) : State × Job := if j.retry then (s, j) else s.decRowStart l j f

/-- The job keeps all but what the row's completion is to show. -/
theorem State.picBegun_keeps (s : State) (l : Nat) (j : Job) (f : DecodeFacts) :
    (s.picBegun l j f).1.laneView l = s.laneView l ∧ ∃ d n, (s.picBegun l j f).2 = { j with staged := d, noop := n } := by
  unfold State.picBegun
  split
  · exact ⟨rfl, j.staged, j.noop, rfl⟩
  · exact ⟨State.laneView_decRowStart .., _, _, rfl⟩

section Row

variable {s : State} {l : Nat} {j : Job} (hj : s.headJob l = some j)
include hj

theorem State.encodeRowOp_bad (ho : j.op = .encode) (hk : Tbl.find s.opens j.ctx ≠ some 3) :
    s.encodeRowOp l = ((s.popJob l).freeJob j).raise fLaneBadJob l j.ctx := by
  simp [State.encodeRowOp, State.badJob, hj, ho, hk]

/-- An encoded row begins: with the plan that it brings, or with one made now. -/
theorem State.encodeRowOp_begins (ho : j.op = .encode) (hk : Tbl.find s.opens j.ctx = some 3) :
    ∃ (u : State) (r : LaneRun), s.encodeRowOp l = u.beginJob l r ∧ u.laneView l = (s.rowTaken l j).laneView l ∧ r.begins j s.ns ∧
      ∀ p, j.plan = some p → r.job = j ∧ r.target = p.1 ∧ r.qp = p.2.1 ∧ r.coast = p.2.2 := by
  have hns := s.rowTaken_ns l j
  unfold State.encodeRowOp
  rw [hj]
  dsimp only
  rw [if_neg (not_not_intro ho), if_neg (not_not_intro hk)]
  split
  next q hq =>
    refine ⟨_, _, rfl, rfl, ⟨rfl, rfl, rfl, rfl, rfl, hns, congrArg (fun n => decide (j.deadline < n)) hns⟩, fun p hp => ?_⟩
    cases hq.symm.trans hp
    exact ⟨rfl, rfl, rfl, rfl⟩
  next hq =>
    have hview : ∀ (c : Prop) [Decidable c] (n p : Nat) (a b : Bool) (w : RowPlan),
        ((if c then (s.rowTaken l j).picTarget j.ctx p a b else s.rowTaken l j).rowStart j.ctx n w).laneView l =
          (s.rowTaken l j).laneView l := by
      intro c _ n p a b w
      rw [State.laneView_rowStart]
      exact State.laneView_if (State.laneView_picTarget ..)
    refine ⟨_, _, rfl, hview .., ⟨rfl, rfl, rfl, rfl, rfl, (State.laneView_ns (hview ..)).trans hns,
      congrArg (fun n => decide (j.deadline < n)) hns⟩, fun p hp => ?_⟩
    cases hq.symm.trans hp

theorem State.decodeRowOp_bad (ho : j.op = .decode) (hk : Tbl.find s.opens j.ctx ≠ some 4) (f : DecodeFacts) :
    s.decodeRowOp l f = ((s.popJob l).freeJob j).raise fLaneBadJob l j.ctx := by
  simp [State.decodeRowOp, State.badJob, hj, ho, hk]

/-- A decoded row begins, after the start of its picture where it is no retry. -/
theorem State.decodeRowOp_begins (ho : j.op = .decode) (hk : Tbl.find s.opens j.ctx = some 4) (f : DecodeFacts) :
    ∃ (u : State) (r : LaneRun), s.decodeRowOp l f = u.beginJob l r ∧ u.laneView l = (s.rowTaken l j).laneView l ∧ r.begins j s.ns ∧
      r.bytes = f.bytes := by
  have hns := s.rowTaken_ns l j
  unfold State.decodeRowOp
  rw [hj]
  dsimp only
  rw [if_neg (not_not_intro ho), if_neg (not_not_intro hk)]
  obtain ⟨hview, d, n, hjob⟩ := (s.rowTaken l j).picBegun_keeps l j f
  have hbegun : (if j.retry then ((s.popJob l).switchCtx l j.ctx, j) else ((s.popJob l).switchCtx l j.ctx).decRowStart l j f) =
      (s.rowTaken l j).picBegun l j f := rfl
  rw [hbegun]
  generalize (s.rowTaken l j).picBegun l j f = w at hview hjob ⊢
  obtain ⟨t, i⟩ := w
  dsimp only at hview hjob ⊢
  subst hjob
  have hdrawn : ∀ (c : Prop) [Decidable c], (if c then t.draw else t).laneView l = (s.rowTaken l j).laneView l := by
    intro c _
    rw [State.laneView_if (State.laneView_draw ..), hview]
  have hnow : ∀ (c : Prop) [Decidable c], (if c then t.draw else t).ns = s.ns := fun c _ => (State.laneView_ns (hdrawn c)).trans hns
  exact ⟨_, _, rfl, hdrawn _, ⟨rfl, rfl, rfl, rfl, rfl, hnow _, congrArg (fun n => decide (j.deadline < n)) (hnow _)⟩, rfl⟩

end Row

/-! ### Each command, where the module is live, is its operation -/

section Commands

variable {s : State} (hl : s.live = true) (l : LaneId)
include hl

theorem exec_laneNop : exec (.laneNop l) s = .next (s.after (s.nopJob l.val)) := by
  show execLaneNop l s = _
  exact act_of hl _ s

theorem exec_fence : exec (.fence l) s = .next (s.after (s.fenceJob l.val)) := by
  show execFence l s = _
  exact act_of hl _ s

theorem exec_loadContext : exec (.loadContext l) s = .next (s.after (s.loadCtx l.val)) := by
  show execLoadContext l s = _
  exact act_of hl _ s

theorem exec_saveContext : exec (.saveContext l) s = .next (s.after (s.saveCtx l.val)) := by
  show execSaveContext l s = _
  exact act_of hl _ s

theorem exec_laneBadJob : exec (.laneBadJob l) s = .next (s.after (s.badOp l.val)) := by
  show execLaneBadJob l s = _
  exact act_of hl _ s

theorem exec_encodeRow : exec (.encodeRow l) s = .next (s.after (s.encodeRowOp l.val)) := by
  show execEncodeRow l s = _
  exact act_of hl _ s

/-- A row that the guard alone released, and whose data runs out, is abandoned (R226). -/
theorem exec_decodeRow_short {f : DecodeFacts} {t : State} (hf : f.ranOut = true) (ht : s.shortRow l.val = some t) :
    exec (.decodeRow l f) s = .next (s.after t) := by
  show execDecodeRow l f s = _
  rw [execDecodeRow, act_of hl, hf, if_pos rfl, ht]

theorem exec_decodeRow_runs {f : DecodeFacts} (hf : f.ranOut = false ∨ s.shortRow l.val = none) :
    exec (.decodeRow l f) s = .next (s.after (s.decodeRowOp l.val f)) := by
  have hnone : (if f.ranOut then s.shortRow l.val else none) = none := by
    rcases hf with hf | hf <;> simp [hf]
  show execDecodeRow l f s = _
  rw [execDecodeRow, act_of hl, hnone]

end Commands

/-- Settles O9: a job without a row by its operation, and a row by how it begins; what comes before its entry into the vector leaves the lane as
the switch to its context made it. -/
theorem laneInstructionsAnswer : Obligations.LaneInstructionsAnswer := by
  unfold Obligations.LaneInstructionsAnswer
  intro l j s hl hj u plain
  have hplain : ∀ {c : Instr} {t : State}, exec c s = .next (s.after t) → t.runsPlain s l.val j → plain c := by
    rintro c t hc ⟨r, hrun, hjob, hvis, hms, hupc, hq⟩
    exact ⟨t, r, hc, hrun, hjob, hvis, hms, hupc, hq⟩
  refine ⟨fun ho => ?nop, fun ho hg => ?fence, fun ho => ?load, fun ho => ?save, fun n ho => ?reserved, fun ho hk => ?encodeBad,
    fun ho hk => ?encode, fun f t hf ht => exec_decodeRow_short hl l hf ht, fun f ho hk hf => ?decodeBad, fun f ho hk hf => ?decode⟩
  case nop =>
    refine hplain (exec_laneNop hl l) ?_
    rw [State.nopJob_head hj ho]
    exact State.plainJob_runs (fun _ => rfl) l.val j (fun _ => rfl)
  case fence =>
    refine hplain (exec_fence hl l) ?_
    rw [State.fenceJob_head hj ho hg]
    exact State.plainJob_runs (fun _ => rfl) l.val j (fun _ => rfl)
  case load =>
    have hload := exec_loadContext hl l
    rw [State.loadCtx_head hj ho] at hload
    exact ⟨hplain hload (State.plainJob_runs (fun _ => rfl) l.val j (fun _ => rfl)), _, hload, (State.plainJob_lane ..).2⟩
  case save =>
    have hsave := exec_saveContext hl l
    rw [State.saveCtx_head hj ho] at hsave
    obtain ⟨⟨r, ⟨-, -, -, hactive⟩, -⟩, hprefetch⟩ :=
      (s.unloaded l.val).plainJob_lane l.val j (fun x => { x with active := none, prefetch := none })
    exact ⟨hplain hsave (State.plainJob_runs (s.seat_unloaded l.val) l.val j (fun _ => rfl)), _, hsave, hactive, hprefetch⟩
  case reserved => rw [exec_laneBadJob hl, State.badOp_reserved hj ho]
  case encodeBad => rw [exec_encodeRow hl, State.encodeRowOp_bad hj ho hk]
  case encode =>
    obtain ⟨v, r, hv, hview, ⟨hop, hctx, hrow, hpic, hvis, hstart, hlate⟩, hplan⟩ := State.encodeRowOp_begins hj ho hk
    obtain ⟨n, hrun, hms, hupc, hactive⟩ := State.beginJob_row hview r
    refine ⟨_, _, by rw [exec_encodeRow hl, hv], hrun, hctx, hrow, hpic, hvis, hstart, hlate, hplan, hms, ?_, hactive⟩
    rw [hupc, hop, ho, vectorOf]
  case decodeBad => rw [exec_decodeRow_runs hl l hf, State.decodeRowOp_bad hj ho hk]
  case decode =>
    obtain ⟨v, r, hv, hview, ⟨hop, hctx, hrow, hpic, hvis, hstart, hlate⟩, hbytes⟩ := State.decodeRowOp_begins hj ho hk f
    obtain ⟨n, hrun, hms, hupc, hactive⟩ := State.beginJob_row hview r
    refine ⟨_, _, by rw [exec_decodeRow_runs hl l hf, hv], hrun, hctx, hrow, hpic, hvis, hbytes, hstart, hlate, hms, ?_, hactive⟩
    rw [hupc, hop, ho, vectorOf]

end Sys2Proof.Machine
end

section
/-! SUPPORT. ALLOC, SETMARK and CLRMARK (R148, R342, R345 to R349): the buffer that a search finds, what the thresholds leave of the pool manager,
and each operation by the outcome of its checks. -/

namespace Sys2Proof.Machine

open Sys2Proof

/-! ### The search for a free buffer (R342) -/

/-- What the search finds, it accepts. -/
theorem firstFrom_accepts {p : Nat → Bool} {n fuel i : Nat} (h : firstFrom p n fuel = some i) : p i = true := by
  induction fuel generalizing n with
  | zero => simp [firstFrom] at h
  | succ fuel ih =>
    unfold firstFrom at h
    split at h
    next hp => simpa [← Option.some.inj h] using hp
    next => exact ih h

/-- The buffer chosen is free: of a bank of the CELL pool, of that pool where its bank has none, or of another pool. -/
theorem State.freeIdx_free {s : State} {p i : Nat} (h : s.freeIdx p = some i) : (s.buf (bufKey p i)).alloc = false := by
  unfold State.freeIdx at h
  dsimp only at h
  split at h <;> split at h
  · next hp j hj => simpa [← Option.some.inj h] using firstFrom_accepts hj
  · next => simpa using firstFrom_accepts h
  · next hj => simpa [← Option.some.inj h] using firstFrom_accepts hj
  · next => exact absurd h (by simp)

/-! ### The thresholds (R345) -/

@[simp] theorem State.evOnly_poolLevels (s t : State) : s.evOnly t.poolLevels ↔ s.evOnly t := by
  unfold State.poolLevels
  simp

section EvOnly

variable {s t : State} (h : s.evOnly t)
include h

theorem State.evOnly.bpm : t.bpm = s.bpm := by rw [h]
theorem State.evOnly.buf (k : Nat) : t.buf k = s.buf k := by simp only [State.buf, h.bpm]
theorem State.evOnly.pool (p : Nat) : t.pool p = s.pool p := by simp only [State.pool, h.bpm]
theorem State.evOnly.frame (g : W32) : t.frame g = s.frame g := by simp only [State.frame, h.bpm]

end EvOnly

/-- A pool after its free count has been compared with its thresholds. -/
def Pool.compared (x : Pool) : Pool :=
  { x with
    low := min x.low x.free
    warnOn := decide (x.free ≤ x.cfg.warn) || (x.warnOn && decide (x.free ≤ x.cfg.warn + x.cfg.warn / 8))
    bpOn := decide (x.free ≤ x.cfg.bp)
    emptyOn := decide (x.free = 0) || (x.emptyOn && decide (x.free ≤ x.cfg.reserve)) }

/-- The comparison notes its outcome in the pool; all else that it does is to raise and end events. -/
theorem State.thresholds_evOnly (s : State) (p : Nat) : (s.setPool p (s.pool p).compared).evOnly (s.thresholds p) := by
  unfold State.thresholds Pool.compared
  simp

@[simp] theorem State.thresholds_buf (s : State) (p k : Nat) : (s.thresholds p).buf k = s.buf k :=
  (s.thresholds_evOnly p).buf k

@[simp] theorem State.thresholds_frame (s : State) (p : Nat) (h : W32) : (s.thresholds p).frame h = s.frame h :=
  (s.thresholds_evOnly p).frame h

@[simp] theorem State.thresholds_lastHandle (s : State) (p : Nat) : (s.thresholds p).bpm.lastHandle = s.bpm.lastHandle := by
  rw [(s.thresholds_evOnly p).bpm]
  rfl

@[simp] theorem State.thresholds_poolFree (s : State) (p : Nat) : ((s.thresholds p).pool p).free = (s.pool p).free := by
  rw [(s.thresholds_evOnly p).pool, State.setPool_same, Pool.compared]

/-! ### ALLOC (R342, R345 to R347) -/

/-- On a pool empty for the caller the answer is the null handle, and it is counted. -/
theorem State.alloc_null {s : State} {p : Nat} {r : Bool} (he : s.emptyFor p r = true) (a n : Nat) :
    (s.alloc a p n r).1 = State.bump { s with bpm := { s.bpm with lastHandle := nullHandle } } bBPM 2 := by
  simp [State.alloc, he]

/-- A pool that is not empty for the caller has a free buffer. -/
theorem State.emptyFor_free {s : State} {p : Nat} {r : Bool} (he : s.emptyFor p r = false) : (s.pool p).free ≠ 0 := by
  simp only [State.emptyFor, Bool.or_eq_false_iff, decide_eq_false_iff_not] at he
  exact he.1.2

/-- The pool manager with buffer `i` of pool `p` taken. -/
def State.takenBpm (s : State) (a p n i : Nat) : BpmSt :=
  let x := s.pool p
  let b := s.buf (bufKey p i)
  { s.bpm with
    bufs := Tbl.put s.bpm.bufs (bufKey p i)
      { b with alloc := true, owner := a, count := if x.cfg.type = tFRAME then 0 else n, marks := 0 }
    pools := Tbl.put s.bpm.pools p { x with free := x.free - 1 }
    lastHandle := mkHandle p b.gen i
    lastBank := if p = 0 then i % 32 else s.bpm.lastBank
    frames := if x.cfg.type = tFRAME then Tbl.put s.bpm.frames (bufKey p i) { content := s.free } else s.bpm.frames }

/-- Else the buffer found is taken, and the pool's free count compared with its thresholds. -/
theorem State.alloc_takes {s : State} {p i : Nat} {r : Bool} (he : s.emptyFor p r = false) (hi : s.freeIdx p = some i) (a n : Nat) :
    ∃ t : State, t.bpm = s.takenBpm a p n i ∧ (s.alloc a p n r).1 = t.thresholds p := by
  unfold State.alloc
  simp only [he, hi, Bool.false_eq_true, if_false]
  refine ⟨_, ?_, rfl⟩
  split <;> rfl

/-! ### Marks (R148, R342, R348, R349) -/

/-- A word with bit `i` set is at least that bit's weight. -/
theorem two_pow_le_of_tb {v i : Nat} (h : tb v i = true) : 2 ^ i ≤ v :=
  Nat.ge_two_pow_of_testBit (by rwa [← tb_eq_testBit])

section Marks

variable {s : State} {h : W32} {a m : Nat}

/-- No operation on an allocated frame buffer of the current generation is a double free. -/
theorem State.isDouble_frame (hs : s.stale h = false) (ha : (s.buf (hKey h)).alloc = true) (hf : s.isFrame h = true) :
    s.isDouble h = false := by
  simp [State.isDouble, hs, ha, hf]

variable (hs : s.stale h = false) (ha : (s.buf (hKey h)).alloc = true) (hf : s.isFrame h = true)
include hs ha hf

theorem State.setMark_sets (hm : mayMark a m = true) (hb : tb (s.buf (hKey h)).marks m = false) :
    s.setMark a h m = s.setBuf (hKey h) { s.buf (hKey h) with marks := (s.buf (hKey h)).marks + 2 ^ m } := by
  simp [State.setMark, hs, ha, hf, hm, hb]

theorem State.setMark_refused (hm : mayMark a m = false) : s.setMark a h m = s.wrongOwner oSETMARK a h := by
  simp [State.setMark, hs, ha, hf, hm]

/-- A mark cleared while another mark or a reference holds the buffer. -/
theorem State.clrMark_keeps (hm : mayClear a m = true) (hb : tb (s.buf (hKey h)).marks m = true)
    (hk : (s.buf (hKey h)).marks ≠ 2 ^ m ∨ (s.buf (hKey h)).count ≠ 0) :
    s.clrMark a h m = s.setBuf (hKey h) { s.buf (hKey h) with marks := (s.buf (hKey h)).marks - 2 ^ m } := by
  have hle : 2 ^ m ≤ (s.buf (hKey h)).marks := two_pow_le_of_tb hb
  have hheld : ¬ ((s.buf (hKey h)).marks - 2 ^ m = 0 ∧ (s.buf (hKey h)).count = 0) := by omega
  simp only [State.clrMark, State.isDouble_frame hs ha hf, hf, hb, hm, Bool.not_true, Bool.and_false, Bool.or_false,
    Bool.false_eq_true, if_false, Bool.and_eq_true, decide_eq_true_eq, beq_iff_eq, hheld]

/-- The last mark cleared on a buffer without a reference frees it. -/
theorem State.clrMark_frees (hm : mayClear a m = true) (hb : (s.buf (hKey h)).marks = 2 ^ m) (hc : (s.buf (hKey h)).count = 0) :
    s.clrMark a h m = (s.setBuf (hKey h) { s.buf (hKey h) with marks := 0 }).freeBuf h := by
  have hbit : tb (2 ^ m) m = true := by rw [tb_eq_testBit, Nat.testBit_two_pow_self]
  simp [State.clrMark, State.isDouble_frame hs ha hf, hf, hbit, hm, hb, hc]

end Marks

/-! ### The picture that a substitute stands for (R153) -/

@[simp] theorem State.freeBuf_frame (s : State) (h g : W32) : (s.freeBuf h).frame g = s.frame g := by
  unfold State.freeBuf
  dsimp only
  split
  · rfl
  · rw [State.thresholds_frame]
    rfl

/-- The picture that a buffer stands for keeps its reference where the buffer stays allocated, or is no substitute. -/
theorem State.freeing_plain {t : State} {h : W32} (ht : (t.buf (hKey h)).alloc = true ∨ tb (t.frame h).attr 0 = false) (s : State)
    (a : Nat) : s.freeing t a h = t := by
  rcases ht with ht | ht <;> simp [State.freeing, State.aliasGone, ht]

/-! ### Commands -/

section Commands

variable {s : State} (hl : s.live = true) (a : Byte)
include hl

theorem exec_alloc (p : PoolId) (n : Nat) (r : Bool) : exec (.alloc a p n r) s = .next (s.after (s.alloc a.toNat p.val n r).1) := by
  show execAlloc a p n r s = _
  exact act_of hl _ s

theorem exec_setmark (h : W32) (m : Fin 5) : exec (.setmark a h m) s = .next (s.after (s.setMark a.toNat h m.val)) := by
  show execSetmark a h m s = _
  exact act_of hl _ s

theorem exec_clrmark (h : W32) (m : Fin 5) : exec (.clrmark a h m) s = .next (s.after (s.clrMarkA a.toNat h m.val)) := by
  show execClrmark a h m s = _
  exact act_of hl _ s

end Commands

/-- Settles O36: ALLOC by whether the pool is empty for the caller, with the pool manager that the buffer taken leaves read back field by field;
each mark by its checks, and by whether it was the last to hold its buffer. -/
theorem allocAndMarksAnswer : Obligations.AllocAndMarksAnswer := by
  unfold Obligations.AllocAndMarksAnswer
  refine ⟨fun a p n r s hl => ⟨fun he => ?null, fun i he hi => ?taken⟩, fun a h m s hl => ?marks⟩
  case null => rw [exec_alloc hl, State.alloc_null he]
  case taken =>
    obtain ⟨t, ht, halloc⟩ := State.alloc_takes he hi a.toNat n
    have hbuf (k : Nat) : t.buf k = Tbl.get {} (s.takenBpm a.toNat p.val n i).bufs k := by rw [← ht]; rfl
    have hpool : t.pool p.val = Tbl.get {} (s.takenBpm a.toNat p.val n i).pools p.val := by rw [← ht]; rfl
    refine ⟨_, exec_alloc hl a p n r, State.freeIdx_free hi, ?_, ?_, ?_, fun k hk => ?_⟩ <;> rw [halloc]
    · rw [State.thresholds_lastHandle, ht]
      rfl
    · rw [State.thresholds_buf, hbuf, State.takenBpm, Tbl.get_put_same]
    · rw [State.thresholds_poolFree, hpool, State.takenBpm, Tbl.get_put_same]
      exact Nat.sub_add_cancel (Nat.pos_of_ne_zero (State.emptyFor_free he))
    · rw [State.thresholds_buf, hbuf, State.takenBpm, Tbl.get_put_other _ _ _ hk]
      rfl
  case marks =>
    refine ⟨fun hs ha hf hm hb => ?set, fun hs ha hf hm => ?refused, fun hs ha hf hm hb hk => ?kept, fun hs ha hf hm hb hc hattr => ?freed⟩
    case set => rw [exec_setmark hl, State.setMark_sets hs ha hf hm hb]
    case refused => rw [exec_setmark hl, State.setMark_refused hs ha hf hm]
    case kept =>
      rw [exec_clrmark hl, State.clrMarkA, State.clrMark_keeps hs ha hf hm hb hk, State.freeing_plain (.inl ?_)]
      rwa [State.setBuf_same]
    case freed =>
      rw [exec_clrmark hl, State.clrMarkA, State.clrMark_frees hs ha hf hm hb hc, State.freeing_plain (.inr ?_)]
      rwa [State.freeBuf_frame]

end Sys2Proof.Machine
end

section
/-! SUPPORT. Row assembly and input flows (R159, R160, R208, R220, R225): a coded row taken or left, a packet of a flow by its place in the flow's
sequence, and the timers of gaps and holds. -/

namespace Sys2Proof.Machine

open Sys2Proof

/-! ### Row assembly (R208) -/

/-- Every session's waiting segments passed on in their transmission order. -/
def State.flushAll (s : State) : State :=
  s.asm.segs.foldl (fun (t : State) x => t.flushSess x.1 (Tbl.get [] t.asm.segs x.1).length) s

section Assembly

variable {s : State} {e : Nat} (hr : s.running bASM = true) (hf : s.flt.safe = false)
include hr hf

/-- Without a coded row of the context the segments that wait pass. -/
theorem State.asmEnqueueOp_idle (h : Tbl.get [] s.asm.rows e = []) : s.asmEnqueueOp e = s.flushAll := by
  simp [State.asmEnqueueOp, State.flushAll, hr, hf, h]

/-- Its oldest coded row is taken where it can be. -/
theorem State.asmEnqueueOp_takes {r : CodedRow} {l : List CodedRow} {u : State} (h : Tbl.get [] s.asm.rows e = r :: l)
    (ht : s.takeRow e r = some u) : s.asmEnqueueOp e = u.flushAll := by
  simp [State.asmEnqueueOp, State.flushAll, hr, hf, h, ht]

/-- A row for which the CELL pool has no room stays, and the null handle is counted (R276, R347). -/
theorem State.asmEnqueueOp_starved {r : CodedRow} {l : List CodedRow} (h : Tbl.get [] s.asm.rows e = r :: l)
    (ht : s.takeRow e r = none) : s.asmEnqueueOp e = s.nullReturn.flushAll := by
  simp [State.asmEnqueueOp, State.flushAll, hr, hf, h, ht]

end Assembly

/-! ### A packet of a flow (R159, R160, R225) -/

@[simp] theorem State.incCf_djq (s : State) (r o n v f : Nat) : (s.incCf r o n v).djq f = s.djq f := rfl
@[simp] theorem State.setCf_djq (s : State) (r o n v f : Nat) : (s.setCf r o n v).djq f = s.djq f := rfl
@[simp] theorem State.bump_djq (s : State) (b n f : Nat) : (s.bump b n).djq f = s.djq f := rfl

/-- A packet that the flow does not accept, counted. -/
def State.unacceptedCounted (s : State) (f : Nat) : State := (s.bump bASM 7).incCf f 0x5C 4 1

/-- A packet that it accepts, counted. -/
def State.acceptedCounted (s : State) (f : Nat) (k : RtpIn) : State :=
  (((s.bump bASM 6).incCf f 0x40 8 1).incCf f 0x48 8 k.bytes).setCf f 0x01 1 2

@[simp] theorem State.unacceptedCounted_djq (s : State) (f g : Nat) : (s.unacceptedCounted f).djq g = s.djq g := rfl
@[simp] theorem State.acceptedCounted_djq (s : State) (f : Nat) (k : RtpIn) (g : Nat) : (s.acceptedCounted f k).djq g = s.djq g := rfl
@[simp] theorem State.acceptedCounted_ns (s : State) (f : Nat) (k : RtpIn) : (s.acceptedCounted f k).ns = s.ns := rfl

/-- A packet's number that a flow expects is at distance 0. -/
theorem serial16_self (q : W16) : serial16 q.toNat q.toNat = 0 := by
  unfold serial16
  omega

section Packet

variable {s : State} {f : Nat} {k : RtpIn} (ho : Tbl.find s.opens f = some 2)
include ho

/-- A packet that is not accepted, where the flow has reported that already. -/
theorem State.rtpIn_unaccepted (ha : k.accepted = false) (hu : (s.djq f).unsupp = true) : s.rtpIn f k = s.unacceptedCounted f := by
  simp [State.rtpIn, State.unacceptedCounted, ho, ha, hu]

/-- The first one of a flow is reported. -/
theorem State.rtpIn_reports (ha : k.accepted = false) (hu : (s.djq f).unsupp = false) :
    s.rtpIn f k = ((s.unacceptedCounted f).setDj f { s.djq f with unsupp := true }).event .asmInUnsupp f 0 := by
  simp [State.rtpIn, State.unacceptedCounted, ho, ha, hu]

variable (ha : k.accepted = true)
include ha

/-- The first packet starts the flow. -/
theorem State.rtpIn_starts (hn : (s.djq f).started = false) :
    s.rtpIn f k = ((s.acceptedCounted f k).setDj f { s.djq f with
      started := true, ssrc := k.ssrc, expect := (k.seq.toNat + 1) % 2 ^ 16, passed := 1, queue := [], arrived := [],
      gapAt := none }).passOn f k := by
  simp [State.rtpIn, State.acceptedCounted, ho, ha, hn]

variable (hs : (s.djq f).started = true) (hc : k.ssrc = (s.djq f).ssrc)
include hs hc

/-- The expected packet passes on, with those queued behind it. -/
theorem State.rtpIn_expected (hx : serial16 k.seq.toNat (s.djq f).expect = 0) :
    s.rtpIn f k = (((s.acceptedCounted f k).setDj f { s.djq f with
      expect := ((s.djq f).expect + 1) % 2 ^ 16, passed := (s.djq f).passed + 1 }).passOn f k).djDrain f
        ((s.djq f).queue.length + 1) := by
  simp [State.rtpIn, State.acceptedCounted, ho, ha, hs, hc, hx]

/-- One behind, no further back than packets have passed, is late. -/
theorem State.rtpIn_late (hx : 32768 < serial16 k.seq.toNat (s.djq f).expect)
    (hb : serial16 (s.djq f).expect k.seq.toNat ≤ (s.djq f).passed) :
    s.rtpIn f k = (s.acceptedCounted f k).incCf f 0x58 4 1 := by
  have hne : serial16 k.seq.toNat (s.djq f).expect ≠ 0 := by omega
  simp [State.rtpIn, State.acceptedCounted, ho, ha, hs, hc, hx, hne, Nat.not_lt.2 hb]

/-- One beyond a gap, for which the queue has room, waits. -/
theorem State.rtpIn_waits (hx : 1 ≤ serial16 k.seq.toNat (s.djq f).expect) (hx' : serial16 k.seq.toNat (s.djq f).expect ≤ 32768)
    (hq : ∀ y ∈ (s.djq f).queue, y.seq ≠ k.seq) (hl : (s.djq f).queue.length < max 16 ((s.acceptedCounted f k).cf f 0x32 2)) :
    s.rtpIn f k = (s.acceptedCounted f k).setDj f ((s.djq f).hold k s.ns) := by
  have hne : serial16 k.seq.toNat (s.djq f).expect ≠ 0 := by omega
  have hex : (s.djq f).expect ≠ k.seq.toNat := fun he => hne (by rw [he, serial16_self])
  have hnew : (s.djq f).queue.any (fun y => decide (y.seq = k.seq)) = false := by simpa using hq
  have hroom : ¬ max 16 ((s.acceptedCounted f k).cf f 0x32 2) ≤ (s.djq f).queue.length := Nat.not_le.2 hl
  rw [State.rtpIn, if_neg (fun hn => hn ho), if_neg (by simp [ha]), ← State.acceptedCounted]
  simp only [State.acceptedCounted_djq, State.acceptedCounted_ns, hs, hc, hne, hex, hnew, hroom, Nat.not_lt.2 hx', ne_eq,
    not_true_eq_false, Bool.not_true, Bool.false_eq_true, false_and, or_false, if_false]

end Packet

/-! ### Timers (R160, R220) -/

theorem State.dejitterTimeout_due {s : State} {f t : Nat} (hg : (s.djq f).gapAt = some t) (ht : t + s.cf f 0x34 4 * us ≤ s.ns) :
    s.dejitterTimeout f = s.declareLost f false := by
  simp [State.dejitterTimeout, hg, ht]

theorem State.dejitterTimeout_early {s : State} {f t : Nat} (hg : (s.djq f).gapAt = some t) (ht : s.ns < t + s.cf f 0x34 4 * us) :
    s.dejitterTimeout f = s := by
  simp [State.dejitterTimeout, hg, Nat.not_le.2 ht]

theorem State.holdExpire_due {s : State} {d q t : Nat} {h : Held} (hh : Tbl.find s.asm.cache (heldKey d q) = some h)
    (he : h.expiry = some t) (ht : t ≤ s.ns) : s.holdExpire d q = (s.releaseHold (heldKey d q)).bump bASM 5 := by
  simp [State.holdExpire, hh, he, ht]

theorem State.holdExpire_early {s : State} {d q t : Nat} {h : Held} (hh : Tbl.find s.asm.cache (heldKey d q) = some h)
    (he : h.expiry = some t) (ht : s.ns < t) : s.holdExpire d q = s := by
  simp [State.holdExpire, hh, he, Nat.not_le.2 ht]

/-! ### Commands -/

section Commands

variable {s : State}

theorem exec_asmEnqueue (hl : s.live = true) (e : CtxId) : exec (.asmEnqueue e) s = .next (s.after (s.asmEnqueueOp e.val)) := by
  show execAsmEnqueue e s = _
  exact act_of hl _ s

variable (hw : s.works bASM = true)
include hw

theorem exec_rtpPacketIn (f : CtxId) (k : RtpIn) : exec (.rtpPacketIn f k) s = .next (s.after (s.rtpIn f.val k)) := by
  show execRtpPacketIn f k s = _
  exact act_of hw _ s

theorem exec_dejitterTimeout (f : CtxId) : exec (.dejitterTimeout f) s = .next (s.after (s.dejitterTimeout f.val)) := by
  show execDejitterTimeout f s = _
  exact act_of hw _ s

theorem exec_holdExpire (d : CtxId) (q : W16) : exec (.holdExpire d q) s = .next (s.after (s.holdExpire d.val q.toNat)) := by
  show execHoldExpire d q s = _
  exact act_of hw _ s

end Commands

/-- Settles O17: row assembly by whether a row is there and can be taken, a packet by its place in the flow's sequence, and each timer by whether
its time has run out. -/
theorem assemblyAndInputAnswer : Obligations.AssemblyAndInputAnswer := by
  unfold Obligations.AssemblyAndInputAnswer
  refine ⟨fun e s hl hr hf => ?assembly, fun f k s hw ho => ?packet, fun f t s hw hg => ?gap, fun d q h t s hw hh he => ?hold⟩
  case assembly =>
    refine ⟨fun h => ?_, fun r l u h ht => ?_, fun r l h ht => ?_⟩ <;> rw [exec_asmEnqueue hl]
    · rw [State.asmEnqueueOp_idle hr hf h, State.flushAll]
    · rw [State.asmEnqueueOp_takes hr hf h ht, State.flushAll]
    · rw [State.asmEnqueueOp_starved hr hf h ht, State.flushAll]
  case packet =>
    refine ⟨fun ha hu => ?_, fun ha hu => ?_, fun ha hn => ?_, fun ha hs hc hx => ?_, fun ha hs hc hx hb => ?_,
      fun ha hs hc hx hx' hq hl => ?_⟩ <;> rw [exec_rtpPacketIn hw]
    · rw [State.rtpIn_unaccepted ho ha hu, State.unacceptedCounted]
    · rw [State.rtpIn_reports ho ha hu, State.unacceptedCounted]
    · rw [State.rtpIn_starts ho ha hn, State.acceptedCounted]
    · rw [State.rtpIn_expected ho ha hs hc hx, State.acceptedCounted]
    · rw [State.rtpIn_late ho ha hs hc hx hb, State.acceptedCounted]
    · rw [State.rtpIn_waits ho ha hs hc hx hx' hq hl, State.acceptedCounted]
  case gap =>
    refine ⟨fun ht => ?_, fun ht => ?_⟩ <;> rw [exec_dejitterTimeout hw]
    · rw [State.dejitterTimeout_due hg ht]
    · rw [State.dejitterTimeout_early hg ht]
  case hold =>
    refine ⟨fun ht => ?_, fun ht => ?_⟩ <;> rw [exec_holdExpire hw]
    · rw [State.holdExpire_due hh he ht]
    · rw [State.holdExpire_early hh he ht]

end Sys2Proof.Machine
end

section
/-! SUPPORT. Surfaces, layers and frame buffers by command (R147, R149, R186 to R188, R194, R195): what each command answers, by the outcome of
its checks. -/

namespace Sys2Proof.Machine

open Sys2Proof

/-! ### The form of a host command -/

/-- A command that answers, run where commands run, completes with its answer. -/
theorem State.now_answers {s t : State} {h : CmdRef} {op st d : Nat} {r : Bytes} {e : SubEntry}
    {f : State → SubEntry → State × Answer} (hr : s.cmdsRun = true) (hs : s.serves 0 = true) (hc : s.command h op = some e)
    (hf : f s e = (t, some (st, d, r))) : s.now h op f = .next (s.after (t.finish h st d r)) := by
  rw [State.now, act_of hr, State.runCmd_answers hs hc hf]

/-- A command's buffer, of the length that its entry names. -/
theorem State.withData_reads {s : State} (hb : s.hqe.bme = true) (b : Bytes) (e : SubEntry) (f : Bytes → State × Answer) :
    s.withData (some b) e f = f (b.take e.len.toNat) := by
  simp [State.withData, hb]

/-! ### Surfaces (R186 to R188, R195) -/

section Surfaces

variable {s : State}

theorem State.surfCreateCmd_creates {b : Bytes} {k : Nat} (ho : s.surfaceOk (Config.surfaceOf b) = true)
    (hk : s.cmp.surfs.free 65536 = some k) :
    s.surfCreateCmd b = (s.setSurface k {
      base := (Config.surfaceOf b).base, width := (Config.surfaceOf b).width, height := (Config.surfaceOf b).height,
      pitch := (Config.surfaceOf b).pitch, format := (Config.surfaceOf b).format,
      size := (Config.surfaceOf b).pitch * (Config.surfaceOf b).height }, okRes (leBytes 4 k)) := by
  simp [State.surfCreateCmd, ho, hk]

theorem State.surfCreateCmd_bad {b : Bytes} (ho : s.surfaceOk (Config.surfaceOf b) = false) :
    s.surfCreateCmd b = (s, code cBAD_PARAM) := by
  simp [State.surfCreateCmd, ho]

variable {e : SubEntry}

/-- Samples that fit are stored in the back buffer. -/
theorem State.surfUploadCmd_stores {b : Bytes} {x : Surface} (hx : Tbl.find s.cmp.surfs e.target.toNat = some x)
    (hl : (Config.uploadOf b).offset + (Config.uploadOf b).samples.length ≤ x.size) (hp : (Config.uploadOf b).palette = none) :
    s.surfUploadCmd e b = (s.store (x.backAt + (Config.uploadOf b).offset) (Config.uploadOf b).samples, okRes []) := by
  simp [State.surfUploadCmd, hx, hp, Nat.not_lt.2 hl]

variable (hx : (Tbl.find s.cmp.surfs e.target.toNat).isSome = true)
include hx

theorem State.surfFlipCmd_flips (r : Option (Nat × Nat × Nat × Nat)) :
    s.surfFlipCmd e r = (s.flip e.target.toNat r, okRes []) := by
  simp [State.surfFlipCmd, ← Option.not_isSome, hx]

/-- A surface that nothing binds is deleted. -/
theorem State.surfDeleteCmd_deletes (hb : s.bindersOf e.target.toNat = []) (hu : s.surfInUse e.target.toNat = false)
    (hp : s.surfPending e.target.toNat = false) :
    s.surfDeleteCmd e = ({ s with cmp := { s.cmp with surfs := Tbl.del s.cmp.surfs e.target.toNat } }, okRes []) := by
  simp [State.surfDeleteCmd, ← Option.not_isSome, hx, hb, hu, hp]

end Surfaces

/-- One that a layer binds is not. -/
theorem State.surfDeleteCmd_bound {s : State} {e : SubEntry} (hb : s.bindersOf e.target.toNat ≠ []) :
    s.surfDeleteCmd e = (s, code cSTATE) := by
  simp [State.surfDeleteCmd, hb]

/-! ### Layers (R194) -/

/-- LAYER_SET without a descriptor leaves those that wait, and has the alpha and the background that it names wait with them. -/
theorem State.layerCmd_noSlots {s : State} {e : SubEntry} {b : Bytes} (hs : (Config.layerCmd b).slots = [])
    (hn : e.target.toNat < 40960) (ho : s.isOpen e.target.toNat kCMP = true) :
    ∃ x : CmpCtx, s.layerCmd e b = (s.setCmpCtx e.target.toNat x, okRes []) ∧
      x.pendDesc = (s.cmpCtx e.target.toNat).pendDesc ∧
      (∀ v, (Config.layerCmd b).globalAlpha = some v → x.pendGa = some (v % 256)) ∧
      (∀ v, (Config.layerCmd b).background = some v → x.pendBg = some (v % 2 ^ 30)) := by
  refine ⟨?taken, ?answer, ?kept⟩
  case answer =>
    simp only [State.layerCmd, hs, ho, Nat.not_le.2 hn, List.map_nil, List.any_nil, List.foldl_nil, Bool.not_true,
      Bool.false_eq_true, if_false]
    rfl
  case kept => exact ⟨rfl, fun v hv => by simp [hv], fun v hv => by simp [hv]⟩

/-! ### Frame buffers (R147, R149) -/

section Frames

variable {s : State}

/-- A handle that is not refused names an allocated frame buffer of its generation. -/
theorem State.fbBad_none {h : W32} (hb : s.fbBad h = none) :
    s.isFrame h = true ∧ s.stale h = false ∧ (s.buf (hKey h)).alloc = true := by
  unfold State.fbBad at hb
  split at hb
  next => exact absurd hb (by simp)
  next hf =>
    split at hb
    next => exact absurd hb (by simp)
    next hs => simpa [and_assoc] using And.intro hf hs

/-- INC of a buffer whose count has room (R342). -/
theorem State.incRef_counts {h : W32} (hs : s.stale h = false) (ha : (s.buf (hKey h)).alloc = true)
    (hc : (s.buf (hKey h)).count < 1023) :
    s.incRef false h = (s.setBuf (hKey h) { s.buf (hKey h) with count := (s.buf (hKey h)).count + 1 }, true) := by
  simp [State.incRef, hs, ha, hc]

variable {e : SubEntry} (hb : s.fbBad e.target = none)
include hb

theorem State.fbQueryCmd_replies (hbme : s.hqe.bme = true) :
    s.fbQueryCmd e = (s.toHost e.addr.toNat (s.frameBytes e.target), okRes []) := by
  simp [State.fbQueryCmd, State.reply, hb, hbme]

theorem State.fbPinCmd_pins (hc : (s.buf (hKey e.target)).count < 1023) :
    s.fbPinCmd e = (s.setBuf (hKey e.target)
      { s.buf (hKey e.target) with count := (s.buf (hKey e.target)).count + 1 }, okRes []) := by
  obtain ⟨-, hs, ha⟩ := State.fbBad_none hb
  simp [State.fbPinCmd, hb, State.incRef_counts hs ha hc]

theorem State.fbReleaseCmd_releases (hc : 0 < (s.buf (hKey e.target)).count) :
    s.fbReleaseCmd e = (s.decRefA aHost e.target, code cOK) := by
  obtain ⟨hf, hs, ha⟩ := State.fbBad_none hb
  simp [State.fbReleaseCmd, hf, State.isDouble_frame hs ha hf, Nat.ne_of_gt hc]

end Frames

/-- Settles O47: each command by what it answers. -/
theorem surfaceAndFrameCommandsAnswer : Obligations.SurfaceAndFrameCommandsAnswer := by
  unfold Obligations.SurfaceAndFrameCommandsAnswer
  intro h e b s hr hs hb img n
  refine ⟨fun k hc ho hk => ?create, fun hc ho => ?bad, fun x hc hx hl hp => ?upload, fun hc hx hl => ?flip, fun hc hx hl => ?flipRect,
    fun hc hx hn hu hp => ?delete, fun hc _ hn => ?bound, fun hc hn hi ho => ?layer, fun hc hg => ?query, fun hc hg hn => ?pin,
    fun hc hg hn => ?release⟩
  case create =>
    show execSurfaceCreate h (some b) s = _
    exact State.now_answers hr hs hc ((State.withData_reads hb ..).trans (State.surfCreateCmd_creates ho hk))
  case bad =>
    show execSurfaceCreate h (some b) s = _
    exact State.now_answers hr hs hc ((State.withData_reads hb ..).trans (State.surfCreateCmd_bad ho))
  case upload =>
    show execSurfaceUpload h (some b) s = _
    exact State.now_answers hr hs hc ((State.withData_reads hb ..).trans (State.surfUploadCmd_stores hx hl hp))
  case flip =>
    show execSurfaceFlip h (some b) s = _
    exact State.now_answers hr hs hc ((if_pos (by simp [hl])).trans (State.surfFlipCmd_flips hx none))
  case flipRect =>
    have hne : e.len.toNat ≠ 0 := by simpa [BitVec.toNat_eq] using hl
    show execSurfaceFlip h (some b) s = _
    exact State.now_answers hr hs hc ((if_neg hne).trans ((State.withData_reads hb ..).trans (State.surfFlipCmd_flips hx _)))
  case delete =>
    show execSurfaceDelete h s = _
    exact State.now_answers hr hs hc (State.surfDeleteCmd_deletes hx hn hu hp)
  case bound =>
    show execSurfaceDelete h s = _
    exact State.now_answers hr hs hc (State.surfDeleteCmd_bound hn)
  case layer =>
    obtain ⟨x, hx, hkept⟩ := State.layerCmd_noSlots hn hi ho
    refine ⟨x, ?_, hkept⟩
    show execLayerSet h (some b) s = _
    exact State.now_answers hr hs hc ((State.withData_reads hb ..).trans hx)
  case query =>
    show execFbQuery h s = _
    exact State.now_answers hr hs hc (State.fbQueryCmd_replies hg hb)
  case pin =>
    show execFbPin h s = _
    exact State.now_answers hr hs hc (State.fbPinCmd_pins hg hn)
  case release =>
    show execFbRelease h s = _
    exact State.now_answers hr hs hc (State.fbReleaseCmd_releases hg hn)

end Sys2Proof.Machine
end

section
/-! SUPPORT. What falls due in an Erelm session (R166, R167, R169, R236 to R239, R245, R246, R262): the session's own timers, the markers that do
not come, and the steering of a family. -/

namespace Sys2Proof.Machine

open Sys2Proof

/-! ### The session's timers (R236 to R239, R245, R246) -/

section Retransmission

variable {s : State} {d : Nat} {m : EMsg} {r : List EMsg} (hu : (s.es d).unacked = m :: r)
include hu

theorem State.erelmRetransmitOp_early (ht : s.ns < m.at_ + 2 * ms) : s.erelmRetransmitOp d = s := by
  simp only [State.erelmRetransmitOp, hu, ht, if_true]

/-- After five sendings the session fails. -/
theorem State.erelmRetransmitOp_exhausted (ht : m.at_ + 2 * ms ≤ s.ns) (hm : 5 ≤ m.sends) : s.erelmRetransmitOp d = s.failEs d 0 := by
  simp only [State.erelmRetransmitOp, hu, Nat.not_lt.2 ht, hm, if_false, if_true]

/-- Before, every message that waits is sent again, oldest first. -/
theorem State.erelmRetransmitOp_resends (ht : m.at_ + 2 * ms ≤ s.ns) (hm : m.sends < 5) :
    s.erelmRetransmitOp d =
      ((m :: r).foldl (fun (t : State) k => t.sendRaw d k.type k.seq false k.payload) (s.setEs d { s.es d with
        unacked := (m :: r).map (fun (k : EMsg) => { k with sends := k.sends + 1, at_ := s.ns }) })).esCount d 1 (r.length + 1) := by
  simp only [State.erelmRetransmitOp, hu, Nat.not_lt.2 ht, Nat.not_le.2 hm, if_false, List.length_cons]

end Retransmission

section Session

variable {s : State} {d : Nat}

theorem State.ackDueOp_due {t : Nat} (ha : (s.es d).ackAt = some t) (ht : t ≤ s.ns) : s.ackDueOp d = s.sendKeep d [] := by
  simp only [State.ackDueOp, ha, ht, if_true]

theorem State.ackDueOp_early {t : Nat} (ha : (s.es d).ackAt = some t) (ht : s.ns < t) : s.ackDueOp d = s := by
  simp only [State.ackDueOp, ha, Nat.not_le.2 ht, if_false]

theorem State.keepDueOp_due (hp : (s.es d).ph = .open_ ∨ (s.es d).ph = .opening) (ht : (s.es d).lastTx + 100 * ms ≤ s.ns) :
    s.keepDueOp d = s.sendKeep d [] := if_pos ⟨hp, ht⟩

theorem State.keepDueOp_early (ht : s.ns < (s.es d).lastTx + 100 * ms) : s.keepDueOp d = s :=
  if_neg fun h => Nat.not_le.2 ht h.2

theorem State.silenceOp_due (hp : (s.es d).ph = .open_ ∨ (s.es d).ph = .opening) (ht : (s.es d).lastRx + oneSec ≤ s.ns) :
    s.silenceOp d = s.failEs d 1 := if_pos ⟨hp.imp_right .inl, ht⟩

theorem State.silenceOp_early (ht : s.ns < (s.es d).lastRx + oneSec) : s.silenceOp d = s :=
  if_neg fun h => Nat.not_le.2 ht h.2

/-! ### Markers that do not come (R166, R167, R262) -/

/-- Without a change of the raster state no STATUS is sent. -/
theorem State.rasterStatus_same (s : State) (d : Nat) : s.rasterStatus d (s.cf d 0x01 1) = s := if_pos (.inl rfl)

/-- The time in which a marker is expected: 64 + MISS_SLACK lines of the session's model. -/
def State.markerGap (s : State) (d : Nat) : Nat := (Int.ofNat (64 + fld s.mscLock 16 8) * (s.raster d).m.lp / fx).toNat

/-- One more marker counted that did not come. -/
def State.missCounted (s : State) (d : Nat) : State :=
  ((s.setRaster d { s.raster d with missed := (s.raster d).missed + 1 }).incCf d 0x68 4 1).bump bMSC 2

/-- How many in a row have not come, with that one. -/
def State.missRun (s : State) (d : Nat) : Nat := min 255 ((s.missCounted d).cf d 0x47 1 + 1)

/-- A marker that does not come in its time is counted; the third in a row loses a locked raster. -/
theorem State.missingOp_due (hc : s.cf d 0x01 1 ≠ sCLOSED) (hs : s.cf d 0x01 1 ≠ sSUSPENDED) (hm : (s.raster d).m.markers ≠ 0)
    (ht : (s.raster d).lastRx + ((s.raster d).missed + 1) * s.markerGap d ≤ s.ns) :
    s.missingOp d =
      let v := (s.missCounted d).setCf d 0x47 1 (s.missRun d)
      if s.cf d 0x01 1 = sLOCKED ∧ 3 ≤ s.missRun d then ((v.setCf d 0x01 1 sLOST).incCf d 0x94 4 1).event .mscRasterLost d 0
      else v :=
  if_neg (not_or.2 ⟨hc, not_or.2 ⟨hs, not_or.2 ⟨hm, Nat.not_lt.2 ht⟩⟩⟩)

/-- The states of R166 in which a marker is awaited are neither CLOSED nor SUSPENDED. -/
theorem sessionState_awaiting {st : Nat} (h : st = sLOCKED ∨ st = sLOST ∨ st = sRELOCK ∨ st = sACQUIRE) :
    st ≠ sCLOSED ∧ st ≠ sSUSPENDED := by
  obtain rfl | rfl | rfl | rfl := h <;> decide

theorem State.suspendOp_due (hc : s.cf d 0x01 1 ≠ sCLOSED) (hs : s.cf d 0x01 1 ≠ sSUSPENDED)
    (ht : s.cf d 0x48 8 + 250 * ms ≤ s.ns) :
    s.suspendOp d = ((s.setCf d 0x01 1 sSUSPENDED).suspFrom d).event .mscSuspend d 0 := by
  simp only [State.suspendOp, hc, hs, Nat.not_lt.2 ht, or_self, if_false]

theorem State.suspendOp_early (ht : s.ns < s.cf d 0x48 8 + 250 * ms) : s.suspendOp d = s := if_pos (.inr (.inr ht))

end Session

/-! ### Steering (R169, R262) -/

/-- PERIOD pictures have passed since the family's last evaluation. -/
def State.steerDue (s : State) (fam : Nat) : Bool :=
  match Tbl.find s.msc.steerAt fam with
  | none => true
  | some p => decide (p + max 1 ((Tbl.find s.msc.steerPer fam).getD (fld s.mscSteer 8 8)) ≤ s.cf fam 0x10 4)

/-- An evaluation begun: its picture, its PERIOD and its lead are kept. -/
def State.steerBegun (s : State) (fam lead : Nat) : State :=
  { s with msc := { s.msc with
      steerAt := Tbl.put s.msc.steerAt fam (s.cf fam 0x10 4)
      steerPer := Tbl.put s.msc.steerPer fam (fld s.mscSteer 8 8) } }.setCf fam 0x18 2 lead

/-- What the evaluation at picture `n` does to one member. -/
def State.steerMember (lead n : Nat) (s : State) (d : Nat) : State :=
  if d = lead then s
  else
    let ph := s.phi lead d n
    let v := s.setCfI d 0x54 4 (clampI (-2147483648) 2147483647 ph)
    let x := v.slewFor lead ph
    if tb v.mscSteer 31 ∧ v.steerOk d ∧ x ≠ v.cfI d 0x50 2 then v.steerTo d x else v

section Steering

variable {s : State} {fam lead : Nat} (hl : s.leadOf fam = some lead) (ho : Tbl.find s.opens fam = some 6)
include hl

theorem State.steerOp_early (hd : s.steerDue fam = false) : s.steerOp fam = s := by
  have hskip : Tbl.find s.opens fam ≠ some 6 ∨ (!s.steerDue fam) = true := .inr (by rw [hd, Bool.not_false])
  rw [State.steerOp, hl]
  exact if_pos hskip

include ho

/-- Once a period each locked member is steered against the lead. -/
theorem State.steerOp_due (hd : s.steerDue fam = true) :
    s.steerOp fam = ((s.steerBegun fam lead).lockedMembers fam).foldl (State.steerMember lead (s.cf fam 0x10 4)) (s.steerBegun fam lead) := by
  have hgo : ¬ (Tbl.find s.opens fam ≠ some 6 ∨ (!s.steerDue fam) = true) := by simp [ho, hd]
  rw [State.steerOp, hl]
  exact if_neg hgo

/-- A lead alone is not steered. -/
theorem State.steerOp_alone (hd : s.steerDue fam = true) (hm : (s.steerBegun fam lead).lockedMembers fam = [lead]) :
    s.steerOp fam = s.steerBegun fam lead := by
  rw [State.steerOp_due hl ho hd, hm, List.foldl_cons, List.foldl_nil, State.steerMember, if_pos rfl]

/-- Of two members the one that does not lead is. -/
theorem State.steerOp_pair {d : Nat} (hd : s.steerDue fam = true)
    (hm : (s.steerBegun fam lead).lockedMembers fam = [lead, d] ∨ (s.steerBegun fam lead).lockedMembers fam = [d, lead]) :
    s.steerOp fam = State.steerMember lead (s.cf fam 0x10 4) (s.steerBegun fam lead) d := by
  have hlead : ∀ t : State, State.steerMember lead (s.cf fam 0x10 4) t lead = t := fun _ => if_pos rfl
  rw [State.steerOp_due hl ho hd]
  obtain hm | hm := hm <;> simp only [hm, List.foldl_cons, List.foldl_nil, hlead]

end Steering

/-! ### Commands -/

section Commands

variable {s : State}

theorem exec_erelmRetransmit {d : CtxId} (hw : s.spWorks d.val = true) :
    exec (.erelmRetransmit d) s = .next (s.after (s.erelmRetransmitOp d.val)) := by
  show execErelmRetransmit d s = _
  exact act_of hw _ s

theorem exec_ackDue {d : CtxId} (hw : s.spWorks d.val = true) : exec (.ackDue d) s = .next (s.after (s.ackDueOp d.val)) := by
  show execAckDue d s = _
  exact act_of hw _ s

theorem exec_keepaliveDue {d : CtxId} (hw : s.spWorks d.val = true) : exec (.keepaliveDue d) s = .next (s.after (s.keepDueOp d.val)) := by
  show execKeepaliveDue d s = _
  exact act_of hw _ s

theorem exec_sessionSilence {d : CtxId} (hw : s.spWorks d.val = true) : exec (.sessionSilence d) s = .next (s.after (s.silenceOp d.val)) := by
  show execSessionSilence d s = _
  exact act_of hw _ s

variable (hw : s.works bMSC = true)
include hw

theorem exec_markerMissing (d : CtxId) :
    exec (.markerMissing d) s = .next (s.after ((s.missingOp d.val).rasterStatus d.val (s.cf d.val 0x01 1))) := by
  show execMarkerMissing d s = _
  exact act_of hw _ s

theorem exec_sessionSuspend (d : CtxId) :
    exec (.sessionSuspend d) s = .next (s.after ((s.suspendOp d.val).rasterStatus d.val (s.cf d.val 0x01 1))) := by
  show execSessionSuspend d s = _
  exact act_of hw _ s

theorem exec_steerEvaluate (f : CtxId) : exec (.steerEvaluate f) s = .next (s.after (s.steerOp f.val)) := by
  show execSteerEvaluate f s = _
  exact act_of hw _ s

end Commands

/-- Settles O19: each timer by whether its time has come, a missing marker by how many have not come in a row, and steering by whether PERIOD
pictures have passed and by the members that are locked. -/
theorem erelmTimersAnswer : Obligations.ErelmTimersAnswer := by
  unfold Obligations.ErelmTimersAnswer
  refine ⟨fun d m r s hw hu => ?resend, fun d t s hw ha => ?ack, fun d s hw hp => ?silence, fun d s hw => ?markers,
    fun f lead s hw hl ho => ?steer⟩
  case resend =>
    refine ⟨fun ht => ?_, fun ht hm => ?_, fun ht hm => ?_⟩ <;> rw [exec_erelmRetransmit hw]
    · rw [State.erelmRetransmitOp_early hu ht]
    · rw [State.erelmRetransmitOp_exhausted hu ht hm]
    · rw [State.erelmRetransmitOp_resends hu ht hm]
  case ack =>
    refine ⟨fun ht => ?_, fun ht => ?_⟩ <;> rw [exec_ackDue hw]
    · rw [State.ackDueOp_due ha ht]
    · rw [State.ackDueOp_early ha ht]
  case silence =>
    refine ⟨fun ht => ?_, fun ht => ?_, fun ht => ?_, fun ht => ?_⟩
    · rw [exec_keepaliveDue hw, State.keepDueOp_due hp ht]
    · rw [exec_keepaliveDue hw, State.keepDueOp_early ht]
    · rw [exec_sessionSilence hw, State.silenceOp_due hp ht]
    · rw [exec_sessionSilence hw, State.silenceOp_early ht]
  case markers =>
    refine ⟨fun hst hm ht => ?_, fun hst ht => ?_, fun ht => ?_⟩
    · obtain ⟨hc, hs⟩ := sessionState_awaiting (.inl hst)
      rw [exec_markerMissing hw, State.missingOp_due hc hs hm ht, hst]
      simp only [true_and]
      rfl
    · obtain ⟨hc, hs⟩ := sessionState_awaiting hst
      rw [exec_sessionSuspend hw, State.suspendOp_due hc hs ht]
      rfl
    · rw [exec_sessionSuspend hw, State.suspendOp_early ht, State.rasterStatus_same]
  case steer =>
    refine ⟨fun hd => ?_, fun hd => ⟨fun hm => ?_, fun d hne hm => ?_⟩⟩ <;> rw [exec_steerEvaluate hw]
    · rw [State.steerOp_early hl hd]
    · rw [State.steerOp_alone hl ho hd hm]
      rfl
    · rw [State.steerOp_pair hl ho hd hm, State.steerMember, if_neg hne]
      rfl

end Sys2Proof.Machine
end

section
/-! SUPPORT. Rows of the compositor (R184, R193, R197, R453): what a pipe's start of its row leaves, how a row ends that was composed or that
failed, and the sample of a context whose layers are all OFF. -/

namespace Sys2Proof.Machine

open Sys2Proof

/-! ### A pipe begins its row (R184) -/

/-- What a row needs before its samples are made: its picture started, and its lateness and its poisoned source counted (R199). -/
def State.rowPrepared (s : State) (p : Nat) (j : Job) (poisoned : Bool) : State :=
  let e := s.cf j.ctx 0x08 2
  let s := if s.cmpStarted j.ctx j.pic then s else s.cmpPicStart j.ctx p j.pic (s.cmpFlags e j.pic).2.1
  let s := if j.deadline < s.ns + s.cmpCost e j.row then s.bump bCMP 4 else s
  if poisoned then
    let s := (s.incCf j.ctx 0x38 4 1).bump bCMP 3
    if (s.cmpCtx j.ctx).poisonPic = some j.pic then s
    else (s.setCmpCtx j.ctx { s.cmpCtx j.ctx with poisonPic := some j.pic }).event .cmpSrcPoison j.ctx j.pic
  else s

/-- A row's samples written into its slot, and its pipe set to compose. -/
def State.rowBegun (s : State) (p : Nat) (j : Job) (poisoned : Bool) : State :=
  let v := s.writeSlot j
  v.setPipe p { s.pipe p with begun := true, start := s.ns, poisoned := poisoned, conc := v.readsConcealed j, idleAt := none }

/-- A pipe with power and in service starts the job that it has not begun. -/
theorem State.composeOp_begins {s : State} {p : Nat} {j : Job} (hr : s.running bCMP = true) (hf : s.flt.safe = false)
    (hj : (s.pipe p).job = some j) (hb : (s.pipe p).begun = false) (hp : (s.pipe p).power = 2) (hm : (s.pipe p).mapped = false)
    (b : Bool) : s.composeOp p b = (s.rowPrepared p j b).rowBegun p j b := by
  simp only [State.composeOp, hj, hb, hp, hm, hr, hf, ne_eq, not_true_eq_false, decide_false, Bool.or_false, Bool.not_true,
    Bool.false_eq_true, if_false]
  rfl

/-- A row that continues its picture, in time and from a sound source, needs nothing. -/
theorem State.rowPrepared_continues {s : State} {j : Job} (hs : s.cmpStarted j.ctx j.pic = true)
    (hd : s.ns + s.cmpCost (s.cf j.ctx 0x08 2) j.row ≤ j.deadline) (p : Nat) : s.rowPrepared p j false = s := by
  simp only [State.rowPrepared, hs, Nat.not_lt.2 hd, if_true, Bool.false_eq_true, if_false]

@[simp] theorem State.rowBegun_pipe (s : State) (p : Nat) (j : Job) (b : Bool) : (s.rowBegun p j b).pipe p =
    { s.pipe p with begun := true, start := s.ns, poisoned := b, conc := (s.writeSlot j).readsConcealed j, idleAt := none } := by
  rw [State.rowBegun, State.setPipe_same]

/-! ### Layers that are OFF (R193, R197) -/

/-- A sample of a blend brought to a denominator `k` times as large. -/
def rescale (k : Int) (o : (Int × Int × Int) × Int) : (Int × Int × Int) × Int :=
  ((o.1.1 * k, o.1.2.1 * k, o.1.2.2 * k), o.2 * k)

theorem rescale_one (o : (Int × Int × Int) × Int) : rescale 1 o = o := by
  simp only [rescale, Int.mul_one]

theorem rescale_rescale (j k : Int) (o : (Int × Int × Int) × Int) : rescale j (rescale k o) = rescale (j * k) o := by
  simp only [rescale, Int.mul_assoc, Int.mul_comm j k]

/-- Steps that each rescale by `k`, whatever they meet, rescale by a power of `k`. -/
theorem foldl_rescale {α : Type} {f : (Int × Int × Int) × Int → α → (Int × Int × Int) × Int} {k : Int} {l : List α}
    (h : ∀ o, ∀ a ∈ l, f o a = rescale k o) (o : (Int × Int × Int) × Int) : l.foldl f o = rescale (k ^ l.length) o := by
  induction l generalizing o with
  | nil => rw [List.foldl_nil, List.length_nil, Int.pow_zero, rescale_one]
  | cons a l ih =>
    rw [List.foldl_cons, h o a List.mem_cons_self, ih (fun o b hb => h o b (List.mem_cons_of_mem a hb)), rescale_rescale,
      List.length_cons, Int.pow_succ]

/-- Layers that are OFF leave the background, over the denominator of as many blends. -/
theorem State.blend_off {s : State} {c : Nat} (h : ∀ l ∈ s.layers c, l.type = 0) (n : Nat → Nat) (x y : Nat) :
    s.blend c n x y = rescale (blendDen ^ s.cf c 0x0A 1) (((s.background c).y, (s.background c).cb, (s.background c).cr), 1) := by
  have off : ∀ i ∈ List.range (s.cf c 0x0A 1), (s.layer c i).type = 0 := fun i hi => h _ (List.mem_map_of_mem hi)
  unfold State.blend
  rw [List.foldl_map, foldl_rescale (k := blendDen), List.length_range]
  intro o i hi
  simp only [off i hi, ne_eq, not_true_eq_false, false_and, if_false, rescale]

/-- A value that the denominator divides is not rounded. -/
theorem roundDiv_mul {d : Int} (hd : 0 < d) (v : Int) : roundDiv (v * d) d = v := by
  have half : d / (2 * d) = 0 := Int.ediv_eq_zero_of_lt (Int.le_of_lt hd) (by omega)
  rw [roundDiv, Int.add_comm, Int.mul_left_comm 2 v d, Int.add_mul_ediv_right _ _ (by omega), half, Int.zero_add]

/-- The limited range of 10 bits. -/
theorem State.clampOut_limited10 {s : State} {c : Nat} (h10 : tb (s.cf c 0x02 2) 3 = true) (hl : tb (s.cf c 0x02 2) 2 = false)
    (v : Nat) : s.clampOut c 235 v = min 940 (max 64 v) := by
  simp only [State.clampOut, State.outBits, h10, hl, clampI, if_true, Bool.false_eq_true, if_false]
  omega

theorem State.lumaAt_off {s : State} {c : Nat} (h : ∀ l ∈ s.layers c, l.type = 0) (h10 : tb (s.cf c 0x02 2) 3 = true)
    (hl : tb (s.cf c 0x02 2) 2 = false) (n : Nat → Nat) (x y : Nat) :
    s.lumaAt c n x y = min 940 (max 64 (fld (s.cf c 0x0C 4) 20 10)) := by
  have hk : 0 < blendDen ^ s.cf c 0x0A 1 := Int.pow_pos (by decide)
  have rounded : roundDiv (s.blend c n x y).1.1 ((s.blend c n x y).2 * 2 ^ (12 - s.outBits c)) = (fld (s.cf c 0x0C 4) 20 10 : Nat) := by
    rw [State.blend_off h, State.outBits, if_pos h10]
    calc roundDiv (((fld (s.cf c 0x0C 4) 20 10 : Nat) : Int) * 4 * blendDen ^ s.cf c 0x0A 1) (1 * blendDen ^ s.cf c 0x0A 1 * 4)
        = roundDiv (((fld (s.cf c 0x0C 4) 20 10 : Nat) : Int) * (4 * blendDen ^ s.cf c 0x0A 1)) (4 * blendDen ^ s.cf c 0x0A 1) := by
          rw [Int.mul_assoc, Int.one_mul, Int.mul_comm _ 4]
      _ = _ := roundDiv_mul (by omega) _
  rw [State.lumaAt, rounded, State.clampOut_limited10 h10 hl]

/-! ### A row ends (R184, R453) -/

/-- The pipe that had the row is free. -/
def State.pipeFreed (s : State) (p : Nat) : State :=
  s.setPipe p { s.pipe p with job := none, begun := false, idleAt := none }

section Ends

variable {s : State} {p : Nat} {j : Job} (hj : (s.pipe p).job = some j) (hb : (s.pipe p).begun = true)
include hj hb

/-- A row composed by its first pipe, or whose fault waits for no outcome. -/
theorem State.composeDoneOp_composed (h : j.retry = false ∨ ((s.pipeFreed p).fltSrc fCmpPipe).outcome ≠ .pending) :
    s.composeDoneOp p true = (s.pipeFreed p).rowComposed p j (s.pipe p).conc := by
  have settled : ¬ (j.retry = true ∧ ((s.pipeFreed p).fltSrc fCmpPipe).outcome = .pending) := by
    rintro ⟨hr, ho⟩
    exact h.elim (fun hn => Bool.noConfusion (hn.symm.trans hr)) (fun hn => hn ho)
  simp only [State.pipeFreed] at settled
  simp only [State.composeDoneOp, State.pipeFreed, hj, hb, settled, Bool.not_true, Bool.false_eq_true, if_false, if_true]

/-- A row composed at its retry shows that the first pipe's fault was not lasting. -/
theorem State.composeDoneOp_settles (hr : j.retry = true) (ho : ((s.pipeFreed p).fltSrc fCmpPipe).outcome = .pending) :
    s.composeDoneOp p true =
      ((s.pipeFreed p).decideFault fCmpPipe (j.fromLane - 65) false).rowComposed p j (s.pipe p).conc := by
  simp only [State.pipeFreed] at ho
  simp only [State.composeDoneOp, State.pipeFreed, hj, hb, hr, ho, and_self, Bool.not_true, Bool.false_eq_true, if_false, if_true]

theorem State.composeDoneOp_retries (hr : j.retry = false) : s.composeDoneOp p false = (s.pipeFault p).putJob
    { j with retry := true, placed := false, released := true, attempts := j.attempts + 1, fromLane := 65 + p } := by
  simp only [State.composeDoneOp, hj, hb, hr, Bool.not_true, Bool.false_eq_true, if_false]

/-- A row abandoned is counted in the record of its session, where it has one. -/
theorem State.composeDoneOp_abandons (hr : j.retry = true) :
    s.composeDoneOp p false =
      (if j.sess = 0xFFFF then (s.pipeFault p).raise fRowAbandoned j.ctx j.row
       else ((s.pipeFault p).raise fRowAbandoned j.ctx j.row).incCf j.sess 0x90 4 1).rowComposed p j (s.pipe p).conc := by
  simp only [State.composeDoneOp, hj, hb, hr, Bool.not_true, Bool.false_eq_true, if_false, if_true]

end Ends

/-! ### Commands -/

section Commands

variable {s : State} (hl : s.live = true)
include hl

theorem exec_composeRow (p : PipeId) (b : Bool) : exec (.composeRow p b) s = .next (s.after (s.composeOp p.val b)) := by
  show execComposeRow p b s = _
  exact act_of hl _ s

theorem exec_composeRowComplete (p : PipeId) (ok : Bool) :
    exec (.composeRowComplete p ok) s = .next (s.after (s.composeDoneOp p.val ok)) := by
  show execComposeRowComplete p ok s = _
  exact act_of hl _ s

end Commands

/-- Settles O16: a row's start, of which only the preparation depends on its picture, its deadline and its source; the background under layers
that are OFF; and a row's end by its outcome and by whether it is a retry. -/
theorem composedRowsAnswer : Obligations.ComposedRowsAnswer := by
  unfold Obligations.ComposedRowsAnswer
  refine ⟨fun p b j s hl hr hf hj hb hp hm => ?begin, fun s c x y n h h10 hlim => State.lumaAt_off h h10 hlim n x y,
    fun p j s hl hj hb => ?ends⟩
  case begin =>
    have begins := State.composeOp_begins hr hf hj hb hp hm
    refine ⟨⟨(s.rowPrepared p.val j b).rowBegun p.val j b, ?_, ?_⟩, fun hs hd => ?_⟩
    · rw [exec_composeRow hl, begins]
    · simp only [State.rowBegun_pipe, and_self]
    · rw [exec_composeRow hl, begins, State.rowPrepared_continues hs hd, State.rowBegun]
  case ends =>
    refine ⟨fun h => ?_, fun hr ho => ?_, fun hr => ?_, fun hr hd => ?_, fun hr hd => ?_⟩ <;> rw [exec_composeRowComplete hl]
    · rw [State.composeDoneOp_composed hj hb h, State.pipeFreed]
    · rw [State.composeDoneOp_settles hj hb hr ho, State.pipeFreed]
    · rw [State.composeDoneOp_retries hj hb hr]
    · rw [State.composeDoneOp_abandons hj hb hr, if_pos hd]
    · rw [State.composeDoneOp_abandons hj hb hr, if_neg hd]

end Sys2Proof.Machine
end

section
/-! SUPPORT. Messages of an Erelm endpoint (R233, R237, R241 to R247, R255 to R263): the checks and the order that they share, and what each
does to its session. -/

namespace Sys2Proof.Machine

open Sys2Proof

/-! ### Checks and order (R233, R237) -/

/-- A valid message heard: the silence timer is renewed and what it acknowledges is retired. -/
def State.heard (s : State) (d ack : Nat) : State :=
  s.setEs d { s.es d with
    lastRx := s.ns, unacked := (s.es d).unacked.filter (fun m => decide (2 ^ 31 ≤ serial32 ack m.seq)) }

/-- A session without a key checks no tag, and one without waiting messages sends none when the window opens. -/
theorem State.accept_keyless {s : State} {h : ErelmHdr} (ho : Tbl.find s.opens h.session.toNat = some 1)
    (hp : (s.es h.session.toNat).ph = .open_) (hv : h.version = 1) (hl : h.lengthOk = true)
    (ha : (s.net h.session.toNat).epAddr = h.srcAddr) (hu : (s.net h.session.toNat).epUdp = h.srcUdp.toNat)
    (hk : (s.net h.session.toNat).keyId = 0) (hq : (s.es h.session.toNat).queue = []) (type : Nat) (any : Bool) :
    s.accept h type any = (s.heard h.session.toNat h.ack.toNat, some h.session.toNat) := by
  have keyless : s.keyed h.session.toNat = false := by rw [State.keyed, hk]; rfl
  simp [State.accept, State.heard, State.pumpEs, ho, hp, hv, hl, ha, hu, hq, keyless]

/-- The expected reliable message is taken up, and the number after it is expected. -/
theorem State.reliable_expected {s : State} {d : Nat} {h : ErelmHdr} (he : h.seq.toNat = (s.es d).expected) (hm : h.seq ≠ 0xFFFFFFFF) :
    ((s.reliable d h).1.es d).expected = (s.es d).expected + 1 ∧ (s.reliable d h).2 = true := by
  have below : (s.es d).expected ≠ 0xFFFFFFFF := fun hx => hm (BitVec.eq_of_toNat_eq (he.trans hx))
  simp [State.reliable, he, below]

/-! ### HELLO (R241, R242, R247) -/

section Hello

variable {s : State} {h : ErelmHdr} (hv : h.version = 1) (hl : h.lengthOk = true) (hn : h.session = 0xFFFF) (b : HelloBody)
include hv hl hn

theorem State.helloOp_opens {d : Nat} (hd : s.helloSess h = some d) (hp : (s.es d).ph = .waitHello) :
    s.helloOp h b = s.sendOpen d b := by
  simp [State.helloOp, hd, hp, hv, hl, hn]

theorem State.helloOp_refused {d : Nat} (hd : s.helloSess h = some d) (hp : (s.es d).ph = .refused) : s.helloOp h b = s := by
  simp [State.helloOp, hd, hp, hv, hl, hn]

/-- An endpoint that begins again ends the running session, and is answered as a new one. -/
theorem State.helloOp_reopens {d : Nat} (hd : s.helloSess h = some d) (hp : (s.es d).ph = .open_) :
    s.helloOp h b =
      let u := ((s.endStream d).event .erelmReopen d 0).esCount d 12 1
      (u.setEs d ((u.es d).clear .waitHello)).sendOpen d b := by
  simp [State.helloOp, hd, hp, hv, hl, hn]

/-- A HELLO that finds no session is reported where none of its source address has been. -/
theorem State.helloOp_reports (hd : s.helloSess h = none)
    (hf : s.erelm.helloAt.find? (fun (e : Bytes × Nat) => decide (e.1 = h.srcAddr)) = none) :
    s.helloOp h b = ({ s with erelm := { s.erelm with
        helloAt := s.erelm.helloAt.filter (fun (e : Bytes × Nat) => decide (e.1 ≠ h.srcAddr)) ++ [(h.srcAddr, s.ns)] } }).event
      .erelmHello noCtx (helloDetail b) := by
  have whole : (decide (h.version ≠ 1) || !h.lengthOk || decide (h.session ≠ 0xFFFF)) = false := by simp [hv, hl, hn]
  simp only [State.helloOp, hd, hf, whole, Bool.false_eq_true, if_false, if_true]

end Hello

/-- Within 10 s of that report another one is not. -/
theorem State.helloOp_repeated {s : State} {h : ErelmHdr} (hd : s.helloSess h = none) {e : Bytes × Nat}
    (hf : s.erelm.helloAt.find? (fun (e : Bytes × Nat) => decide (e.1 = h.srcAddr)) = some e) (ht : s.ns < e.2 + 10 * oneSec)
    (b : HelloBody) : s.helloOp h b = s := by
  have early : decide (e.2 + 10 * oneSec ≤ s.ns) = false := decide_eq_false (Nat.not_le.2 ht)
  simp only [State.helloOp, hd, hf, early, Bool.false_eq_true, if_false, ite_self]

/-! ### OPEN_ACK (R243 to R245) -/

/-- A session opened: its raster is to be acquired, by models without a marker, and its record says what the endpoint can do. -/
def State.opened (v : State) (d : Nat) : State :=
  let s := v.setEs d { v.es d with ph := .open_ }
  let s := (s.setCf d 0x01 1 sACQUIRE).setRaster d { s.raster d with m := {}, second := {} }
  let caps := match (s.es d).hello with
    | some b => b.caps.toNat
    | none => 0
  s.setCf d 0x02 2 (setFld (s.cf d 0x02 2) 0 1 (fld caps 6 1))

theorem State.opened_ph (v : State) (d : Nat) : ((v.opened d).es d).ph = .open_ := by
  show ((v.setEs d { v.es d with ph := .open_ }).es d).ph = .open_
  rw [State.setEs_same]

theorem State.opened_raster (v : State) (d : Nat) : (v.opened d).raster d = { v.raster d with m := {}, second := {} } :=
  State.setRaster_same _ d _

/-- The result KEY_UNKNOWN, as a byte and as a number. -/
theorem decide_keyUnknown (r : Byte) : decide (r = 6) = decide (r.toNat = 6) :=
  decide_eq_decide.2 ⟨fun h => congrArg BitVec.toNat h, fun h => BitVec.eq_of_toNat_eq h⟩

section OpenAck

variable {s u v : State} {h : ErelmHdr} {r d : Nat} (ha : s.accept h 0x03 (decide (r = 6)) = (u, some d))
include ha

theorem State.openAckOp_unordered (hr : u.reliable d h = (v, false)) : s.openAckOp h r = v := by
  simp [State.openAckOp, ha, hr]

variable (hr : u.reliable d h = (v, true)) (hp : (v.es d).ph = .opening)
include hr hp

theorem State.openAckOp_refuses (h0 : r ≠ 0) :
    s.openAckOp h r = (v.setEs d { v.es d with ph := .refused, unacked := [], queue := [] }).event .erelmRefused d r := by
  simp [State.openAckOp, ha, hr, hp, h0]

theorem State.openAckOp_opens (h0 : r = 0) : s.openAckOp h r = (v.opened d).event .erelmOpen d 0 := by
  subst h0
  simp only [State.openAckOp, ha, hr, hp, ne_eq, not_true_eq_false, decide_false, Bool.not_true, Bool.or_self, Bool.false_eq_true,
    if_false, if_true]
  rfl

end OpenAck

/-! ### MARKER (R249, R263) -/

/-- A raster that does not become locked calls for no commitment (R253). -/
theorem lockReason_none {old new : Nat} (hk : new ≠ sLOCKED ∨ old = sLOCKED) (begun tiles jumped : Bool) :
    lockReason old new begun tiles jumped = none := by
  obtain hk | rfl := hk
  · exact if_pos hk
  · exact ite_self none

section Marker

variable {s u : State} {h : ErelmHdr} {d : Nat} (ha : s.accept h 0x10 false = (u, some d))
include ha

theorem State.markerMsg_unopened (hp : (u.es d).ph ≠ .open_) (f l : Nat) (steer : Int) (t : Nat) : s.markerMsg h f l steer t = u := by
  simp [State.markerMsg, ha, hp]

/-- Where the raster does not become locked, the marker leads to no join and to no commitment. -/
theorem State.markerMsg_keepsStream (hp : (u.es d).ph = .open_) {f l : Nat} {steer : Int} {t : Nat}
    (hk : (u.markerOp d f l t steer).cf d 0x01 1 ≠ sLOCKED ∨ u.cf d 0x01 1 = sLOCKED) :
    s.markerMsg h f l steer t = (u.markerOp d f l t steer).rasterStatus d (u.cf d 0x01 1) := by
  have joins : ¬ ((u.cf d 0x01 1 = sACQUIRE ∨ u.cf d 0x01 1 = sSUSPENDED) ∧ (u.markerOp d f l t steer).cf d 0x01 1 = sLOCKED) := by
    rintro ⟨hold, hnew⟩
    obtain hk | hk := hk
    · exact hk hnew
    · rw [hk] at hold
      exact absurd hold (by decide)
  simp only [State.markerMsg, ha, hp, joins, lockReason_none hk, if_false, ne_eq, not_true_eq_false]

end Marker

/-! ### ROW_ACK, LOSS and REFRESH_REQ (R221, R255 to R259) -/

/-- A ROW_ACK counted, with the late rows that it tells of. -/
def State.rowAckCounted (u : State) (d : Nat) (tot : W32) : State := (u.setEs d { u.es d with late := tot }).esCount d 9 1

/-- A packet number not given yet, or one whose packet has not been sent. -/
def State.unsent (v : State) (d cum : Nat) : Bool :=
  !(decide (0 < serial16 (Tbl.get 0 v.asm.seqs d) cum) && decide (serial16 (Tbl.get 0 v.asm.seqs d) cum ≤ 32768)) ||
    (match Tbl.find v.asm.cache (heldKey d cum) with
    | some x => decide (x.st = .queued)
    | none => false)

theorem State.unsent_unassigned {v : State} {d cum : Nat}
    (h : serial16 (Tbl.get 0 v.asm.seqs d) cum = 0 ∨ 32768 < serial16 (Tbl.get 0 v.asm.seqs d) cum) : v.unsent d cum = true := by
  obtain h | h := h
  · simp [State.unsent, h]
  · simp [State.unsent, Nat.not_le.2 h]

theorem State.unsent_released {v : State} {d cum : Nat} (h1 : 1 ≤ serial16 (Tbl.get 0 v.asm.seqs d) cum)
    (h2 : serial16 (Tbl.get 0 v.asm.seqs d) cum ≤ 32768) (hc : Tbl.find v.asm.cache (heldKey d cum) = none) :
    v.unsent d cum = false := by
  simp [State.unsent, Nat.lt_of_succ_le h1, h2, hc]

/-- The packets that a ROW_ACK newly covers are released. -/
def State.covered (v : State) (d cum : Nat) : State :=
  let w := (List.range (serial16 cum (v.es d).cum)).foldl (fun (t : State) i => t.releaseHold (heldKey d (((v.es d).cum + 1 + i) % 65536))) v
  w.setEs d { w.es d with cum := cum }

section RowAck

variable {s u : State} {h : ErelmHdr} {d cum : Nat} {tot : W32} (ha : s.accept h 0x11 false = (u, some d))
include ha

theorem State.rowAckMsg_stale
    (hn : serial16 cum ((u.rowAckCounted d tot).es d).cum = 0 ∨ 32768 ≤ serial16 cum ((u.rowAckCounted d tot).es d).cum) :
    s.rowAckMsg h cum tot = u.rowAckCounted d tot := by
  rw [State.rowAckMsg, ha]
  exact if_pos hn

/-- One that newly covers packets is bogus where the packet that it names has not been sent. -/
theorem State.rowAckMsg_covers (h1 : 1 ≤ serial16 cum ((u.rowAckCounted d tot).es d).cum)
    (h2 : serial16 cum ((u.rowAckCounted d tot).es d).cum < 32768) :
    s.rowAckMsg h cum tot =
      if (u.rowAckCounted d tot).unsent d cum then (u.rowAckCounted d tot).esCount d 10 1 else (u.rowAckCounted d tot).covered d cum := by
  rw [State.rowAckMsg, ha]
  exact if_neg (not_or.2 ⟨Nat.ne_of_gt h1, Nat.not_le.2 h2⟩)

end RowAck

section Requests

variable {s u v : State} {h : ErelmHdr} {d : Nat} (hr : u.reliable d h = (v, true)) (hp : (v.es d).ph = .open_)
include hr hp

/-- The packets that a LOSS names are answered in turn; one that cannot be sent again calls for a refresh. -/
theorem State.lossMsg_answers (ha : s.accept h 0x12 false = (u, some d)) (l : List (W16 × W16)) :
    s.lossMsg h l =
      let seqs := l.flatMap (fun r => v.lossSeqs d r)
      let a := seqs.foldl (fun (a : State × Bool) q =>
        ((a.1.answerLoss d q).1, a.2 || decide ((a.1.answerLoss d q).2 = .refresh))) ((v.esCount d 5 1).esCount d 6 seqs.length, false)
      if a.2 then a.1.refreshFor d h.seq.toNat 0 else a.1 := by
  simp only [State.lossMsg, ha, hr, hp, ne_eq, not_true_eq_false, decide_false, Bool.not_true, Bool.or_self, Bool.false_eq_true, if_false]

theorem State.refreshMsg_restarts (ha : s.accept h 0x13 false = (u, some d)) :
    s.refreshMsg h = (v.esCount d 7 1).refreshFor d h.seq.toNat 1 := by
  simp [State.refreshMsg, ha, hr, hp]

end Requests

/-! ### KEEPALIVE (R238, R239) -/

section Keepalive

variable {s u : State} {h : ErelmHdr}

/-- One that asks for no time is not answered, whether or not its session took it up. -/
theorem State.keepMsg_plain {a : Option Nat} (ha : s.accept h 0x20 false = (u, a)) : s.keepMsg h none = u := by
  cases a <;> simp [State.keepMsg, ha]

/-- The first request of an exchange is answered with its own stamps; of a response before it there are none yet. -/
theorem State.keepMsg_answers {d : Nat} (ha : s.accept h 0x20 false = (u, some d)) (hp : (u.es d).ph = .open_) (hr : (u.es d).resp = none)
    {x : ESess} (hx : Tbl.find u.erelm.sess d = some x) (q : W64) :
    s.keepMsg h (some q) =
      let v := u.sendKeep d (beBytes 8 q.toNat ++ beBytes 8 (u.ingressStamp h.port.val) ++ zeros 16)
      v.setEs d { v.es d with prevReq := q, resp := if v.swc.nextCopy = u.swc.nextCopy then none else some u.swc.nextCopy } := by
  have never : beBytes 8 0 ++ beBytes 8 0 = zeros 16 := by decide
  simp [State.keepMsg, ha, hp, hr, hx, never]

end Keepalive

/-! ### STATUS and CLOSE (R248, R263) -/

/-- A CLOSE acknowledged at once and reported. -/
def State.closeTold (v : State) (d reason : Nat) : State := (v.sendKeep d []).event .erelmClose d reason

section StatusAndClose

variable {s u v : State} {h : ErelmHdr} {d : Nat} (hr : u.reliable d h = (v, true))
include hr

theorem State.statusMsg_keeps (ha : s.accept h 0x21 false = (u, some d)) {b : StatusBody}
    (hb : b.panel ≠ 2 ∨ (v.es d).status.map (fun x => x.panel) = some 2) :
    s.statusMsg h b = v.setEs d { v.es d with status := some b, late := b.lateTotal } := by
  have known : ¬ (b.panel = 2 ∧ (v.es d).status.map (fun x => x.panel) ≠ some 2) := fun ⟨h2, hw⟩ => hb.elim (· h2) hw
  simp only [State.statusMsg, ha, hr, known, if_false, Bool.not_true, Bool.false_eq_true]

/-- A fault of the panel is reported when the STATUS before did not tell of it. -/
theorem State.statusMsg_reports (ha : s.accept h 0x21 false = (u, some d)) {b : StatusBody} (h2 : b.panel = 2)
    (hw : (v.es d).status.map (fun x => x.panel) ≠ some 2) :
    s.statusMsg h b = (v.setEs d { v.es d with status := some b, late := b.lateTotal }).event .erelmEpFault d 0 := by
  simp only [State.statusMsg, ha, hr, h2, hw, ne_eq, not_false_eq_true, and_self, if_true, if_false, Bool.not_true, Bool.false_eq_true]

/-- A session that the module closes too has ended. -/
theorem State.closeMsg_done (ha : s.accept h 0x22 false = (u, some d)) {r : Nat}
    (hp : ((v.closeTold d r).es d).ph = .closing ∨ ((v.closeTold d r).es d).ph = .shutdown) :
    s.closeMsg h r = (v.closeTold d r).closeDone d := by
  simp only [State.closeMsg, ha, hr, Bool.not_true, Bool.false_eq_true, if_false]
  exact if_pos hp

theorem State.closeMsg_waits (ha : s.accept h 0x22 false = (u, some d)) {r : Nat}
    (hc : ((v.closeTold d r).es d).ph ≠ .closing) (hs : ((v.closeTold d r).es d).ph ≠ .shutdown) :
    s.closeMsg h r = ((v.closeTold d r).endStream d).setEs d (((v.closeTold d r).es d).clear .waitHello) := by
  simp only [State.closeMsg, ha, hr, Bool.not_true, Bool.false_eq_true, if_false]
  exact if_neg (not_or.2 ⟨hc, hs⟩)

end StatusAndClose

/-! ### Commands -/

section Commands

variable {s : State} {h : ErelmHdr}

/-- A HELLO is served by the SP of the session that it finds. -/
theorem exec_hello_found {d : Nat} (hd : s.helloSess h = some d) (hw : s.spWorks d = true) (b : HelloBody) :
    exec (.hello h b) s = .next (s.after (s.helloOp h b)) := by
  show execHello h b s = _
  exact act_of (by rw [hd]; exact hw) _ s

/-- One that finds none is served by any SP that runs. -/
theorem exec_hello_none (hd : s.helloSess h = none) (hl : s.live = true) (hc : (s.cpu 1).ph = .run) (b : HelloBody) :
    exec (.hello h b) s = .next (s.after (s.helloOp h b)) := by
  have serves : (s.live && (List.range 4).any (fun i => decide ((s.cpu (i + 1)).ph = .run))) = true := by
    rw [hl, Bool.true_and, List.any_eq_true]
    exact ⟨0, by decide, decide_eq_true hc⟩
  show execHello h b s = _
  exact act_of (by rw [hd]; exact serves) _ s

variable (hw : s.spWorks h.session.toNat = true)
include hw

theorem exec_openAck (r : Byte) : exec (.openAck h r) s = .next (s.after (s.openAckOp h r.toNat)) := by
  show execOpenAck h r s = _
  exact act_of hw _ s

theorem exec_marker (f : W32) (l st : W16) (tm : W64) :
    exec (.marker h f l st tm) s = .next (s.after (s.markerMsg h f.toNat l.toNat (sgn st.toNat 16) tm.toNat)) := by
  show execMarker h f l st tm s = _
  exact act_of hw _ s

theorem exec_rowAck (pic : W32) (row cum : W16) (late : Bool) (tot : W32) :
    exec (.rowAck h pic row cum late tot) s = .next (s.after (s.rowAckMsg h cum.toNat tot)) := by
  show execRowAck h pic row cum late tot s = _
  exact act_of hw _ s

theorem exec_loss (l : List (W16 × W16)) : exec (.loss h l) s = .next (s.after (s.lossMsg h l)) := by
  show execLoss h l s = _
  exact act_of hw _ s

theorem exec_refreshReq (r : Byte) : exec (.refreshReq h r) s = .next (s.after (s.refreshMsg h)) := by
  show execRefreshReq h r s = _
  exact act_of hw _ s

theorem exec_keepalive (q : Option W64) : exec (.keepalive h q) s = .next (s.after (s.keepMsg h q)) := by
  show execKeepalive h q s = _
  exact act_of hw _ s

theorem exec_status (b : StatusBody) : exec (.status h b) s = .next (s.after (s.statusMsg h b)) := by
  show execStatus h b s = _
  exact act_of hw _ s

theorem exec_close (r : Byte) : exec (.close h r) s = .next (s.after (s.closeMsg h r.toNat)) := by
  show execClose h r s = _
  exact act_of hw _ s

end Commands

/-- Settles O18: what a message without a key passes before it is taken up, and then each message by what its session stands at: HELLO and
OPEN_ACK by the phase, ROW_ACK by which rows it covers, STATUS by what the one before said, CLOSE by whether the module closes too. -/
theorem erelmMessagesAnswer : Obligations.ErelmMessagesAnswer := by
  unfold Obligations.ErelmMessagesAnswer
  refine ⟨fun h type any s => ?valid, fun h b s hv hl hn => ?hello, fun h r d u v s hw ha hr hp => ?openAck, fun h r d u v s hw ha hr => ?repeated,
    fun h f l st tm d u s hw ha => ?marker, fun h pic row cum late tot d u s hw ha => ?rowAck,
    fun h l d u v s hw ha hr hp => ?loss, fun h r d u v s hw ha hr hp => ?refresh,
    fun h d u s hw ha => ?keepalive, fun h u s hw ha => ?unheard, fun h b d u v s hw ha hr => ?status, fun h r d u v s hw ha hr => ?close⟩
  case valid =>
    intro d ho hp hv hl ha hu hk hq left
    exact ⟨State.accept_keyless ho hp hv hl ha hu hk hq type any, State.reliable_expected⟩
  case hello =>
    refine ⟨fun d hd hw => ?_, fun hd hlive hc => ?_⟩
    · rw [exec_hello_found hd hw]
      refine ⟨fun hp => ?_, fun hp => ?_, fun hp => ?_⟩
      · rw [State.helloOp_opens hv hl hn b hd hp]
      · rw [State.helloOp_refused hv hl hn b hd hp]
      · rw [State.helloOp_reopens hv hl hn b hd hp]
    · rw [exec_hello_none hd hlive hc]
      refine ⟨fun e hf ht => ?_, fun hf => ?_⟩
      · rw [State.helloOp_repeated hd hf ht]
      · rw [State.helloOp_reports hv hl hn b hd hf]
  case openAck =>
    rw [decide_keyUnknown] at ha
    rw [exec_openAck hw]
    refine ⟨fun h0 => ?_, fun h0 => ⟨v.opened d, ?_, State.opened_ph v d, State.opened_raster v d⟩⟩
    · rw [State.openAckOp_refuses ha hr hp fun hr0 => h0 (BitVec.eq_of_toNat_eq hr0)]
    · rw [State.openAckOp_opens ha hr hp (congrArg BitVec.toNat h0)]
  case repeated =>
    rw [decide_keyUnknown] at ha
    rw [exec_openAck hw, State.openAckOp_unordered ha hr]
  case marker =>
    rw [exec_marker hw]
    refine ⟨fun hp => ?_, fun hp hk => ?_⟩
    · rw [State.markerMsg_unopened ha hp]
    · rw [State.markerMsg_keepsStream ha hp hk]
  case rowAck =>
    rw [exec_rowAck hw]
    refine ⟨fun hn => ?_, fun h1 h2 hs => ?_, fun h1 h2 ha1 ha2 hc => ?_⟩
    · rw [State.rowAckMsg_stale ha hn]
      rfl
    · rw [State.rowAckMsg_covers ha h1 h2, if_pos (State.unsent_unassigned (v := u.rowAckCounted d tot) hs)]
      rfl
    · rw [State.rowAckMsg_covers ha h1 h2, State.unsent_released (v := u.rowAckCounted d tot) ha1 ha2 hc]
      rfl
  case loss => rw [exec_loss hw, State.lossMsg_answers hr hp ha]
  case refresh => rw [exec_refreshReq hw, State.refreshMsg_restarts hr hp ha]
  case keepalive =>
    refine ⟨?_, fun hp hr q x hx => ?_⟩ <;> rw [exec_keepalive hw]
    · rw [State.keepMsg_plain ha]
    · rw [State.keepMsg_answers ha hp hr hx]
  case unheard => rw [exec_keepalive hw, State.keepMsg_plain ha]
  case status =>
    rw [exec_status hw]
    refine ⟨fun hb => ?_, fun h2 hwas => ?_⟩
    · rw [State.statusMsg_keeps hr ha hb]
    · rw [State.statusMsg_reports hr ha h2 hwas]
  case close =>
    rw [exec_close hw]
    refine ⟨fun hp => ?_, fun hc hs => ?_⟩
    · rw [State.closeMsg_done hr ha hp]
      rfl
    · rw [State.closeMsg_waits hr ha hc hs]
      rfl

end Sys2Proof.Machine
end

section
/-! SUPPORT. Copies at the switch core (R273, R275, R279, R282, R291): what an admission charges and a copy's end returns, the outcomes of an
arrival, and the table of copies after each. -/

namespace Sys2Proof

/-- A table in which one number was raised and lowered again reads as before. -/
theorem Tbl.get_raised_lowered (t : Tbl Nat) (k n x : Nat) :
    Tbl.get 0 (Tbl.put (Tbl.put t k (Tbl.get 0 t k + n)) k (Tbl.get 0 (Tbl.put t k (Tbl.get 0 t k + n)) k - n)) x = Tbl.get 0 t x := by
  by_cases hx : x = k
  · subst hx
    simp
  · rw [Tbl.get_put_other _ _ _ hx, Tbl.get_put_other _ _ _ hx]

end Sys2Proof

namespace Sys2Proof.Machine

open Sys2Proof

/-! ### Accounts (R273) -/

/-- What is charged: the copy's cells, split between the class's own limit and the shared accounts. -/
theorem State.charge_split {s : State} {d c n a b : Nat} (h : s.charge d c n = some (a, b)) :
    a + b = n ∧ (0 < a → Tbl.get 0 s.swc.used (acctKey d c) + a ≤ Tbl.get 0 s.swc.lim (acctKey d c)) ∧
    (0 < b → s.swc.sharedUsed + b ≤ s.swc.sharedSize ∧ Tbl.get 0 s.swc.sused d + b ≤ Tbl.get 0 s.swc.cap d) := by
  unfold State.charge at h
  dsimp only at h
  split at h
  case isTrue =>
    obtain ⟨hshared, hsplit⟩ := Option.ite_none_right_eq_some.1 h
    obtain ⟨rfl, rfl⟩ := Prod.mk.inj (Option.some.inj hsplit)
    exact ⟨by omega, fun _ => by omega, fun hb => hshared.resolve_left (by omega)⟩
  case isFalse =>
    obtain ⟨hown, hsplit⟩ := Option.ite_none_right_eq_some.1 h
    obtain ⟨rfl, rfl⟩ := Prod.mk.inj (Option.some.inj hsplit)
    exact ⟨rfl, fun _ => hown, fun hb => absurd hb (Nat.lt_irrefl 0)⟩

/-- A charged copy's end returns what its admission charged. -/
theorem State.dropAcct_addAcct (s : State) {k : Copy} (hk : k.chargeable = true) :
    let t := (s.addAcct k.dest k.cls k.own k.shared).dropAcct k
    t.swc.sharedUsed = s.swc.sharedUsed ∧
    (∀ x : Nat, Tbl.get 0 t.swc.used x = Tbl.get 0 s.swc.used x ∧ Tbl.get 0 t.swc.sused x = Tbl.get 0 s.swc.sused x) := by
  simp only [State.dropAcct, hk, if_true]
  exact ⟨Nat.add_sub_cancel .., fun x => ⟨Tbl.get_raised_lowered .., Tbl.get_raised_lowered ..⟩⟩

/-! ### The table of copies under each update -/

@[simp] theorem State.setCopy_copies (s : State) (i : Nat) (k : Copy) : (s.setCopy i k).swc.copies = Tbl.put s.swc.copies i k := rfl
@[simp] theorem State.addAcct_copies (s : State) (d c a b : Nat) : (s.addAcct d c a b).swc.copies = s.swc.copies := rfl
@[simp] theorem State.subIng_copies (s : State) (p c n : Nat) : (s.subIng p c n).swc.copies = s.swc.copies := rfl

/-- A pause sent or ended is the port's matter. -/
@[simp] theorem State.pfcSync_swc (s : State) (p : Nat) : (s.pfcSync p).swc = s.swc := by
  unfold State.pfcSync
  dsimp only
  repeat' split
  all_goals rfl

/-- A credit returned changes the credits alone. -/
theorem State.returnCredit_credits (s : State) (c : Copy) :
    ∃ x : Tbl Nat, s.returnCredit c = { s with swc := { s.swc with credits := x } } := by
  unfold State.returnCredit
  split
  · exact ⟨_, rfl⟩
  · exact ⟨s.swc.credits, rfl⟩

@[simp] theorem State.returnCredit_copies (s : State) (c : Copy) : (s.returnCredit c).swc.copies = s.swc.copies := by
  obtain ⟨x, hx⟩ := s.returnCredit_credits c
  rw [hx]

/-- A copy that joins its queue stands there as admission charged it. -/
theorem State.join_copies (s : State) (i : Nat) (a : Bool × Nat × Nat) : (s.join i a).swc.copies = Tbl.put s.swc.copies i
    { s.copy i with place := .queued, chargeable := a.1, own := a.2.1, shared := a.2.2, joined := s.ns } := by
  unfold State.join
  dsimp only
  split <;> split <;> simp

/-! ### The outcomes of an arrival (R279) -/

/-- A copy that is not admitted, counted where its queue is at its limit (R291). -/
def State.refusalCounted (s : State) (c : Copy) : State :=
  if c.place = .arriving ∧ s.limitOk c.queue c.n = false then s.bump bTMG 11 else s

@[simp] theorem State.refusalCounted_swc (s : State) (c : Copy) : (s.refusalCounted c).swc = s.swc := by
  unfold State.refusalCounted
  split <;> rfl

@[simp] theorem State.refusalCounted_tmg (s : State) (c : Copy) : (s.refusalCounted c).tmg = s.tmg := by
  unfold State.refusalCounted
  split <;> rfl

@[simp] theorem State.refusalCounted_ns (s : State) (c : Copy) : (s.refusalCounted c).ns = s.ns := by
  unfold State.refusalCounted
  split <;> rfl

@[simp] theorem State.refusalCounted_laybyCfg (s : State) (c : Copy) : (s.refusalCounted c).laybyCfg = s.laybyCfg := by
  unfold State.refusalCounted
  split <;> rfl

/-- The copy as it waits in a layby: its time there (R281), and its credit no longer owed. -/
def State.inLayby (s : State) (c : Copy) : Copy :=
  { c with place := .layby s.ns (s.ns + fld s.laybyCfg 24 8 * ms), unit := none }

/-- A copy put into its layby behind the copies `l` (R280). -/
def State.enterLayby (s : State) (i : Nat) (c : Copy) (l : List Nat) : State :=
  let t := ((s.setCopy i (s.inLayby c)).returnCredit c).setLayby c.dest c.cls (l ++ [i])
  { t with swc := { t.swc with laybyUse := t.swc.laybyUse + 1, laybyHigh := max t.swc.laybyHigh (t.swc.laybyUse + 1) } }

section EnterLayby

variable (s : State) (i : Nat) (c : Copy) (l : List Nat)

/-- What it changes of the switch core: the copy, its source's credits, its layby and the laybys' use. -/
theorem State.enterLayby_swc : ∃ x : Tbl Nat, (s.enterLayby i c l).swc = { s.swc with
    copies := Tbl.put s.swc.copies i (s.inLayby c), credits := x, laybys := Tbl.put s.swc.laybys (acctKey c.dest c.cls) (l ++ [i]),
    laybyUse := s.swc.laybyUse + 1, laybyHigh := max s.swc.laybyHigh (s.swc.laybyUse + 1) } := by
  obtain ⟨x, hx⟩ := (s.setCopy i (s.inLayby c)).returnCredit_credits c
  exact ⟨x, by rw [State.enterLayby, hx]; rfl⟩

theorem State.enterLayby_copies : (s.enterLayby i c l).swc.copies = Tbl.put s.swc.copies i (s.inLayby c) := by
  obtain ⟨x, hx⟩ := s.enterLayby_swc i c l
  rw [hx]

theorem State.enterLayby_copy : (s.enterLayby i c l).copy i = s.inLayby c := by
  rw [State.copy, State.enterLayby_copies, Tbl.get_put_same]

theorem State.enterLayby_laybyOf : (s.enterLayby i c l).laybyOf c.dest c.cls = l ++ [i] := by
  obtain ⟨x, hx⟩ := s.enterLayby_swc i c l
  rw [State.laybyOf, hx, Tbl.get_put_same]

theorem State.enterLayby_laybyUse : (s.enterLayby i c l).swc.laybyUse = s.swc.laybyUse + 1 := by
  obtain ⟨x, hx⟩ := s.enterLayby_swc i c l
  rw [hx]

theorem State.enterLayby_used : (s.enterLayby i c l).swc.used = s.swc.used := by
  obtain ⟨x, hx⟩ := s.enterLayby_swc i c l
  rw [hx]

theorem State.enterLayby_tmg : (s.enterLayby i c l).tmg = s.tmg := by
  obtain ⟨x, hx⟩ := (s.setCopy i (s.inLayby c)).returnCredit_credits c
  rw [State.enterLayby, hx]
  rfl

end EnterLayby

section Arrive

variable {s : State} {i : Nat} {c : Copy} (hf : Tbl.find s.swc.copies i = some c)
include hf

theorem State.copy_of_find : s.copy i = c := by
  rw [State.copy, Tbl.get, hf]
  rfl

/-- A copy that has arrived before arrives no more. -/
theorem State.arrive_arrived (hp : ¬ (c.place = .arriving ∨ c.place = .held)) : s.arrive i = (s, false) := by
  simp [State.arrive, State.copy_of_find hf, hp]

variable (hp : c.place = .arriving ∨ c.place = .held)
include hp

/-- A copy for a port that is down is discarded (R282). -/
theorem State.arrive_down (hd : s.portDown c.dest = true) : s.arrive i = (s.discardDown i, false) := by
  simp [State.arrive, State.copy_of_find hf, hf, hp, hd]

variable (hd : s.portDown c.dest = false)
include hd

/-- A copy for a queue that takes none is discarded (R291). -/
theorem State.arrive_closed (hq : s.queueOpen c.queue = false) : s.arrive i = ((s.discardCopy i).bump bTMG 11, false) := by
  simp [State.arrive, State.copy_of_find hf, hf, hp, hd, hq]

variable (hq : s.queueOpen c.queue = true)
include hq

/-- Behind an empty layby an admitted copy joins its queue. -/
theorem State.arrive_joins {a : Bool × Nat × Nat} (hl : s.laybyOf c.dest c.cls = []) (ha : s.admission c = some a) :
    s.arrive i = (s.join i a, true) := by
  simp [State.arrive, State.copy_of_find hf, hf, hp, hd, hq, hl, ha]

/-- Any other is counted and waits: where the layby takes it, there, else with its cells. -/
theorem State.arrive_waits (hn : s.laybyOf c.dest c.cls ≠ [] ∨ s.admission c = none) : s.arrive i =
    if c.fromAsm && decide ((s.laybyOf c.dest c.cls).length < s.laybyMax) && decide (s.swc.laybyUse < 32768) then
      ((s.refusalCounted c).enterLayby i c (s.laybyOf c.dest c.cls), false)
    else ((s.refusalCounted c).setCopy i { c with place := .held }, false) := by
  have hnone : (if (s.laybyOf c.dest c.cls).isEmpty then s.admission c else none) = none := by
    rcases hn with hn | hn <;> simp [hn]
  have hmax : (s.refusalCounted c).laybyMax = s.laybyMax := by simp [State.laybyMax]
  have hfresh : ¬ ((Tbl.find s.swc.copies i).isNone ∨ ¬ (c.place = .arriving ∨ c.place = .held)) := by simp [hf, hp]
  unfold State.arrive
  rw [State.copy_of_find hf, if_neg hfresh, if_neg (by simp [hd]), if_neg (by simp [hq])]
  dsimp only
  rw [hnone, ← hmax, ← congrArg SwcSt.laybyUse (s.refusalCounted_swc c)]
  rfl

end Arrive

/-- Whatever comes of its arrival, the copy keeps its cells and its bytes. -/
theorem State.arrive_keeps {s : State} {i : Nat} {c : Copy} (hf : Tbl.find s.swc.copies i = some c) (hd : s.portDown c.dest = false)
    (hq : s.queueOpen c.queue = true) :
    ∃ k : Copy, Tbl.find (s.arrive i).1.swc.copies i = some k ∧ k.head = c.head ∧ k.body = c.body ∧ k.data = c.data := by
  by_cases hp : c.place = .arriving ∨ c.place = .held
  case neg =>
    rw [State.arrive_arrived hf hp]
    exact ⟨c, hf, rfl, rfl, rfl⟩
  case pos =>
    by_cases hn : s.laybyOf c.dest c.cls ≠ [] ∨ s.admission c = none
    case pos =>
      rw [State.arrive_waits hf hp hd hq hn]
      split
      · rw [State.enterLayby_copies, Tbl.find_put_same]
        exact ⟨_, rfl, rfl, rfl, rfl⟩
      · rw [State.setCopy_copies, Tbl.find_put_same]
        exact ⟨_, rfl, rfl, rfl, rfl⟩
    case neg =>
      obtain ⟨hl, ha⟩ := not_or.1 hn
      obtain ⟨a, ha⟩ := Option.ne_none_iff_exists'.1 ha
      rw [State.arrive_joins hf hp hd hq (Classical.not_not.1 hl) ha, State.join_copies, Tbl.find_put_same, State.copy_of_find hf]
      exact ⟨_, rfl, rfl, rfl, rfl⟩

/-! ### Commands -/

/-- A copy that has not joined leaves its port as it was. -/
theorem State.arriveOp_stays {s t : State} {i : Nat} (h : s.arrive i = (t, false)) : s.arriveOp i = t := by
  simp [State.arriveOp, h]

/-- One that has joined lets the port of its queue decide (R305). -/
theorem State.arriveOp_joined {s t : State} {i : Nat} (h : s.arrive i = (t, true)) :
    s.arriveOp i = if (s.copy i).dest < 256 then t.txDecide (s.copy i).dest else t := by
  simp [State.arriveOp, h]

theorem exec_copyArrive {s : State} (hw : s.works bSWC = true) (i : Nat) : exec (.copyArrive i) s = .next (s.after (s.arriveOp i)) := by
  show execCopyArrive i s = _
  exact act_of hw _ s

/-- Settles O21: the copy after each outcome of its arrival that is left when its port is up and its queue open, the split of a charge, and
the accounts as tables raised and lowered. -/
theorem copiesAndAccountsAreKept : Obligations.CopiesAndAccountsAreKept := by
  unfold Obligations.CopiesAndAccountsAreKept
  exact ⟨fun _ _ _ hf hd hq => State.arrive_keeps hf hd hq, fun _ _ _ _ _ _ h => State.charge_split h,
    fun s _ hk => s.dropAcct_addAcct hk⟩

/-- Settles O20: the outcomes of an arrival, in the order of R279. -/
theorem arrivingCopiesAreAdmittedInOrder : Obligations.ArrivingCopiesAreAdmittedInOrder := by
  unfold Obligations.ArrivingCopiesAreAdmittedInOrder
  intro i c s hw hf hp
  rw [exec_copyArrive hw]
  refine ⟨fun hd => ?down, fun hd hq => ?closed, fun a hd hq hl ha => ?joins, fun hd hq hn => ⟨fun ha hl hu => ?layby, fun hno => ?held⟩⟩
  case down => rw [State.arriveOp_stays (State.arrive_down hf hp hd)]
  case closed => rw [State.arriveOp_stays (State.arrive_closed hf hp hd hq)]
  case joins => rw [State.arriveOp_joined (State.arrive_joins hf hp hd hq hl ha), State.copy_of_find hf]
  case layby =>
    have h := State.arrive_waits hf hp hd hq hn
    rw [if_pos (by simp [ha, hl, hu])] at h
    rw [State.arriveOp_stays h]
    refine ⟨_, rfl, State.enterLayby_laybyOf .., ?_, ?_, ?_, ?_⟩
    · rw [State.enterLayby_copy, State.inLayby, State.refusalCounted_ns, State.refusalCounted_laybyCfg]
    · rw [State.enterLayby_laybyUse, State.refusalCounted_swc]
    · rw [State.enterLayby_used, State.refusalCounted_swc]
    · rw [State.enterLayby_tmg, State.refusalCounted_tmg]
  case held =>
    have hroom : (c.fromAsm && decide ((s.laybyOf c.dest c.cls).length < s.laybyMax) && decide (s.swc.laybyUse < 32768)) = false := by
      rcases hno with h | h | h
      · simp [h]
      · simp [Nat.not_lt.2 h]
      · simp [Nat.not_lt.2 h]
    have h := State.arrive_waits hf hp hd hq hn
    rw [hroom, if_neg Bool.false_ne_true] at h
    rw [State.arriveOp_stays h]
    rfl

end Sys2Proof.Machine
end

section
/-! SUPPORT. Laybys (R280, R281): a round of admission and a round of pruning, by what stands at the front. -/

namespace Sys2Proof.Machine

open Sys2Proof

/-! ### A round of admission (R280) -/

section Front

variable {s : State} {d c i : Nat} {r : List Nat}

/-- An empty layby admits nothing. -/
theorem State.laybyAdmitOp_empty (hl : s.laybyOf d c = []) : s.laybyAdmitOp d c = s := by
  simp [State.laybyAdmitOp, hl, State.laybyAdmit]

variable (hl : s.laybyOf d c = i :: r) (hq : s.queueOpen (s.copy i).queue = true)
include hl hq

/-- A front copy that is not admitted ends the round. -/
theorem State.laybyAdmit_refused (ha : s.admission (s.copy i) = none) (n : Nat) : s.laybyAdmit d c (n + 1) = s := by
  simp [State.laybyAdmit, hl, hq, ha]

/-- A front copy that is admitted leaves, and the round goes on. -/
theorem State.laybyAdmit_admitted {a : Bool × Nat × Nat} (ha : s.admission (s.copy i) = some a) (n : Nat) :
    s.laybyAdmit d c (n + 1) = ((s.leaveLayby d c i).join i a).laybyAdmit d c n := by
  simp [State.laybyAdmit, hl, hq, ha]

theorem State.laybyAdmitOp_refused (ha : s.admission (s.copy i) = none) : s.laybyAdmitOp d c = s := by
  have hlen : (s.laybyOf d c).length = r.length + 1 := by rw [hl, List.length_cons]
  simp only [State.laybyAdmitOp, hlen, State.laybyAdmit_refused hl hq ha, Nat.lt_irrefl, and_false, if_false]

end Front

/-- The one copy of a destination that is no port's. -/
theorem State.laybyAdmitOp_single {s : State} {d c i : Nat} {a : Bool × Nat × Nat} (hd : 256 ≤ d) (hl : s.laybyOf d c = [i])
    (hq : s.queueOpen (s.copy i).queue = true) (ha : s.admission (s.copy i) = some a) :
    s.laybyAdmitOp d c = (s.leaveLayby d c i).join i a := by
  have hround : s.laybyAdmit d c (s.laybyOf d c).length = (s.leaveLayby d c i).join i a := by
    rw [hl, List.length_singleton, State.laybyAdmit_admitted hl hq ha, State.laybyAdmit]
  rw [State.laybyAdmitOp, hround]
  exact if_neg fun h => absurd h.1 (Nat.not_lt.2 hd)

/-! ### A round of pruning (R281) -/

/-- A class of HOLD_MASK never prunes. -/
theorem State.laybyPrune_held {s : State} {d c : Nat} (hm : tb (fld s.laybyCfg 16 8) c = true) : s.laybyPrune d c = s := by
  simp [State.laybyPrune, hm]

/-- The one copy of a layby is pruned once its time has run out. -/
theorem State.laybyPrune_single {s : State} {d c i t0 due : Nat} (hm : tb (fld s.laybyCfg 16 8) c = false) (hl : s.laybyOf d c = [i])
    (hp : (s.copy i).place = .layby t0 due) : s.laybyPrune d c = if due ≤ s.ns then s.pruneCopy i else s := by
  simp [State.laybyPrune, hm, hl, hp]

/-! ### Commands -/

section Commands

variable {s : State} (hw : s.works bSWC = true) (d : DestId) (c : ClassId)
include hw

theorem exec_laybyAdmit : exec (.laybyAdmit d c) s = .next (s.after (s.laybyAdmitOp d.val c.val)) := by
  show execLaybyAdmit d c s = _
  exact act_of hw _ s

theorem exec_laybyPrune : exec (.laybyPrune d c) s = .next (s.after (s.laybyPrune d.val c.val)) := by
  show execLaybyPrune d c s = _
  exact act_of hw _ s

end Commands

/-- Settles O22: a round by the layby's front copy and its admission, and a prune by the class and the copy's time. -/
theorem laybysAdmitAndPrune : Obligations.LaybysAdmitAndPrune := by
  unfold Obligations.LaybysAdmitAndPrune
  refine ⟨fun d c s hw hl => ?empty, fun d c i r s hw hl hq ha => ?refused, fun d c i a s hw hd hl hq ha => ?admitted,
    fun s d c i n r a hl hq ha => State.laybyAdmit_admitted hl hq ha n, fun d c s hw hm => ?held,
    fun d c i t0 due s hw hm hl hp => ⟨fun ht => ?due, fun ht => ?early⟩⟩
  case empty => rw [exec_laybyAdmit hw, State.laybyAdmitOp_empty hl]
  case refused => rw [exec_laybyAdmit hw, State.laybyAdmitOp_refused hl hq ha]
  case admitted => rw [exec_laybyAdmit hw, State.laybyAdmitOp_single hd hl hq ha]
  case held => rw [exec_laybyPrune hw, State.laybyPrune_held hm]
  case due => rw [exec_laybyPrune hw, State.laybyPrune_single hm hl hp, if_pos ht]
  case early => rw [exec_laybyPrune hw, State.laybyPrune_single hm hl hp, if_neg (Nat.not_le.2 ht)]

end Sys2Proof.Machine
end

section
/-! SUPPORT. The resequencer (R284, R285): a numbered cell by its distance from the one expected, and the end of the oldest gap. -/

namespace Sys2Proof.Machine

open Sys2Proof

/-! ### Cells passed on -/

/-- A cell that is not its frame's last is counted as passed. -/
theorem State.rsqPass_middle {c : SeqCell} (hl : c.last = false) (s : State) (k : Nat) : s.rsqPass k c = s.setRsq k
    { s.rsq k with passed := Tbl.put (s.rsq k).passed c.copyId (Tbl.get 0 (s.rsq k).passed c.copyId + 1) } := by
  simp [State.rsqPass, hl]

/-- Where nothing is held, nothing follows. -/
theorem State.rsqDrain_empty {s : State} {k : Nat} (hh : (s.rsq k).held = []) : ∀ n : Nat, s.rsqDrain k n = s
  | 0 => rfl
  | n + 1 => by simp [State.rsqDrain, hh]

/-! ### The timer of the oldest gap (R284) -/

/-- Where nothing is held, no timer runs. -/
theorem Rsq.retime_empty {x : Rsq} (hh : x.held = []) : x.retime = { x with heldAt := [], gapAt := none } := by
  have hnone : x.heldAt.filter (fun e => x.held.any (fun c => decide (c.seq.toNat = e.1))) = [] := by simp [hh]
  rw [Rsq.retime, hnone]

/-- The first cell held starts the timer. -/
theorem Rsq.retime_first {x : Rsq} {c : SeqCell} {t : Nat} (hh : x.held = [c]) (ht : x.heldAt = [(c.seq.toNat, t)]) :
    x.retime.gapAt = some t := by
  simp [Rsq.retime, hh, ht]

@[simp] theorem State.rsqTimer_rsq (s : State) (k : Nat) : (s.rsqTimer k).rsq k = (s.rsq k).retime := State.setRsq_same ..

/-! ### A cell by its distance (R284) -/

section Treat

variable {s : State} {k : Nat} {c : SeqCell}

/-- The expected cell passes on, with those held that follow it. -/
theorem State.rsqTreat_expected (hd : serial16 c.seq.toNat (s.rsq k).expect = 0) (n : Nat) : s.rsqTreat k c (n + 1) =
    (((s.setRsq k { s.rsq k with expect := wrapAdd (s.rsq k).expect 1 16 }).rsqPass k c).rsqDrain k 1024).rsqTimer k := by
  rw [State.rsqTreat]
  exact if_pos hd

/-- One at most 1,023 ahead is held. -/
theorem State.rsqTreat_ahead (h1 : 1 ≤ serial16 c.seq.toNat (s.rsq k).expect) (h2 : serial16 c.seq.toNat (s.rsq k).expect ≤ 1023)
    (n : Nat) : s.rsqTreat k c (n + 1) =
      (s.setRsq k { s.rsq k with held := (s.rsq k).held ++ [c], heldAt := (s.rsq k).heldAt ++ [(c.seq.toNat, s.ns)] }).rsqTimer k := by
  rw [State.rsqTreat]
  exact (if_neg (Nat.one_le_iff_ne_zero.1 h1)).trans (if_pos h2)

/-- One behind is late. -/
theorem State.rsqTreat_behind (hd : 32768 ≤ serial16 c.seq.toNat (s.rsq k).expect) (n : Nat) :
    s.rsqTreat k c (n + 1) = s.bump bSWC 5 := by
  rw [State.rsqTreat]
  exact (if_neg (by omega)).trans ((if_neg (by omega)).trans (if_neg (by omega)))

/-- The gap ended at a cell that is far ahead, where nothing else is held. -/
def State.gapEndedAt (s : State) (k : Nat) (c : SeqCell) : State :=
  let t := (s.setRsq k { s.rsq k with held := [c] }).rsqDeclare k c.seq.toNat
  t.setRsq k { t.rsq k with held := [] }

/-- One further ahead, with nothing held, ends the gap at itself and is treated afresh. -/
theorem State.rsqTreat_far (h1 : 1024 ≤ serial16 c.seq.toNat (s.rsq k).expect) (h2 : serial16 c.seq.toNat (s.rsq k).expect ≤ 32767)
    (hh : (s.rsq k).held = []) (n : Nat) : s.rsqTreat k c (n + 1) = (s.gapEndedAt k c).rsqTreat k c n := by
  have hempty : (s.rsq k).held.isEmpty = true := List.isEmpty_iff.2 hh
  rw [State.rsqTreat]
  exact (if_neg (by omega)).trans ((if_neg (by omega)).trans ((if_pos h2).trans (if_pos hempty)))

/-- The resequencer once the expected cell, in the middle of its frame, has passed. -/
def Rsq.passing (x : Rsq) (c : SeqCell) : Rsq :=
  { x with expect := wrapAdd x.expect 1 16, passed := Tbl.put x.passed c.copyId (Tbl.get 0 x.passed c.copyId + 1) }

/-- The expected cell in the middle of its frame, with nothing held: the next is expected, and no timer runs. -/
theorem State.rsqTreat_middle (hd : serial16 c.seq.toNat (s.rsq k).expect = 0) (hh : (s.rsq k).held = []) (hl : c.last = false) (n : Nat) :
    (s.rsqTreat k c (n + 1)).rsq k = { (s.rsq k).passing c with gapAt := none, heldAt := [] } ∧
    (s.rsqTreat k c (n + 1)).swc.evstat = s.swc.evstat := by
  have hpass : (s.setRsq k { s.rsq k with expect := wrapAdd (s.rsq k).expect 1 16 }).rsqPass k c =
      (s.setRsq k { s.rsq k with expect := wrapAdd (s.rsq k).expect 1 16 }).setRsq k ((s.rsq k).passing c) := by
    rw [State.rsqPass_middle hl, State.setRsq_same, Rsq.passing]
  have hheld : ((s.rsq k).passing c).held = [] := hh
  rw [State.rsqTreat_expected hd, hpass, State.rsqDrain_empty (by rw [State.setRsq_same, hheld]), State.rsqTimer_rsq, State.setRsq_same,
    Rsq.retime_empty hheld]
  exact ⟨rfl, rfl⟩

end Treat

/-! ### Gaps (R285) -/

/-- A gap's end noted: its number is the one expected, SEQ_GAP stands in EVSTAT, and the event is raised. -/
def State.gapReported (s : State) (k e : Nat) : State :=
  let t := s.setRsq k { s.rsq k with expect := e, gapAt := none }
  State.event { t with swc := { t.swc with evstat := setBit t.swc.evstat 3 } } .swcSeqGap noCtx k

theorem State.gapReported_rsq (s : State) (k e : Nat) : (s.gapReported k e).rsq k = { s.rsq k with expect := e, gapAt := none } := by
  rw [State.rsq, State.gapReported, State.event_swc]
  exact State.setRsq_same ..

theorem State.gapReported_evstat (s : State) (k e : Nat) : tb (s.gapReported k e).swc.evstat 3 = true := by
  rw [State.gapReported, State.event_swc]
  exact tb_setBit _ 3

/-- A gap declared with no frame in progress discards none. -/
theorem State.rsqDeclare_idle {s : State} {k : Nat} (hp : (s.rsq k).passed = []) (e : Nat) : s.rsqDeclare k e = s.gapReported k e := by
  have hkeys : Tbl.keys ((s.gapReported k e).rsq k).passed = [] := by
    rw [State.gapReported_rsq, hp]
    rfl
  unfold State.rsqDeclare
  exact congrArg (List.foldl _ (s.gapReported k e)) hkeys

/-- Ended at a cell, with no frame in progress: the cell is expected, nothing is held, and SEQ_GAP stands in EVSTAT. -/
theorem State.gapEndedAt_idle {s : State} {k : Nat} (hp : (s.rsq k).passed = []) (c : SeqCell) :
    ((s.gapEndedAt k c).rsq k).expect = c.seq.toNat ∧ ((s.gapEndedAt k c).rsq k).held = [] ∧
      tb (s.gapEndedAt k c).swc.evstat 3 = true := by
  have hidle : ((s.setRsq k { s.rsq k with held := [c] }).rsq k).passed = [] := by
    rw [State.setRsq_same]
    exact hp
  rw [State.gapEndedAt, State.rsqDeclare_idle hidle]
  dsimp only
  rw [State.setRsq_same, State.gapReported_rsq]
  exact ⟨rfl, rfl, State.gapReported_evstat ..⟩

/-- A cell far ahead in the middle of its frame, with nothing held and no frame in progress: the gap ends at it, and it passes on. -/
theorem State.rsqTreat_farMiddle {s : State} {k : Nat} {c : SeqCell} (h1 : 1024 ≤ serial16 c.seq.toNat (s.rsq k).expect)
    (h2 : serial16 c.seq.toNat (s.rsq k).expect ≤ 32767) (hh : (s.rsq k).held = []) (hp : (s.rsq k).passed = []) (hl : c.last = false)
    (n : Nat) :
    tb (s.rsqTreat k c (n + 2)).swc.evstat 3 = true ∧ ((s.rsqTreat k c (n + 2)).rsq k).expect = wrapAdd c.seq.toNat 1 16 ∧
      ((s.rsqTreat k c (n + 2)).rsq k).held = [] := by
  obtain ⟨hexp, hheld, hev⟩ := State.gapEndedAt_idle hp c
  have hd : serial16 c.seq.toNat ((s.gapEndedAt k c).rsq k).expect = 0 := by rw [hexp, serial16_self]
  obtain ⟨hrsq, hkept⟩ := State.rsqTreat_middle hd hheld hl n
  rw [State.rsqTreat_far h1 h2 hh, hrsq, hkept, ← hexp]
  exact ⟨hev, rfl, hheld⟩

theorem State.rsqTimeout_due {s : State} {g src t0 : Nat} (hg : (s.rsq (rsqKey g src)).gapAt = some t0)
    (ht : t0 + fld (Tbl.get 50 s.regs 0x90005C).toNat 0 10 * us ≤ s.ns) : s.rsqTimeout g src = s.rsqGap (rsqKey g src) := by
  rw [State.rsqTimeout, hg]
  exact if_pos ht

theorem State.rsqTimeout_early {s : State} {g src t0 : Nat} (hg : (s.rsq (rsqKey g src)).gapAt = some t0)
    (ht : s.ns < t0 + fld (Tbl.get 50 s.regs 0x90005C).toNat 0 10 * us) : s.rsqTimeout g src = s := by
  rw [State.rsqTimeout, hg]
  exact if_neg (Nat.not_le.2 ht)

/-! ### Commands -/

section Commands

variable {s : State} (hw : s.works bSWC = true)
include hw

theorem exec_reseqCell (c : SeqCell) : exec (.reseqCell c) s = .next (s.after (s.rsqCell c)) := by
  show execReseqCell c s = _
  exact act_of hw _ s

theorem exec_reseqGapTimeout (g : GroupId) (src : Byte) :
    exec (.reseqGapTimeout g src) s = .next (s.after (s.rsqTimeout g.val src.toNat)) := by
  show execReseqGapTimeout g src s = _
  exact act_of hw _ s

end Commands

/-- Settles O23: a cell by its distance from the one expected, and the gap's timer. -/
theorem resequencerPassesCellsInOrder : Obligations.ResequencerPassesCellsInOrder := by
  unfold Obligations.ResequencerPassesCellsInOrder
  refine ⟨fun c s hw => ?cell, fun g src t0 s hw hg => ⟨fun ht => ?due, fun ht => ?early⟩⟩
  case cell =>
    rw [exec_reseqCell hw]
    refine ⟨fun hd => ?passes, fun hd hh hl => ⟨_, rfl, (State.rsqTreat_middle hd hh hl _).1⟩, fun h1 h2 => ⟨_, rfl, ?holds⟩,
      fun hd => ?late, fun h1 h2 hh hp hl => ⟨_, rfl, ?far⟩⟩
    case passes => rw [State.rsqCell, State.rsqTreat_expected hd]
    case holds =>
      rw [State.rsqCell, State.rsqTreat_ahead h1 h2, State.rsqTimer_rsq, State.setRsq_same]
      exact ⟨rfl, fun hh ht => Rsq.retime_first (c := c) (by simp [hh]) (by simp [ht])⟩
    case late => rw [State.rsqCell, State.rsqTreat_behind hd]
    case far => exact State.rsqTreat_farMiddle h1 h2 hh hp hl _
  case due => rw [exec_reseqGapTimeout hw, State.rsqTimeout_due hg ht]
  case early => rw [exec_reseqGapTimeout hw, State.rsqTimeout_early hg ht]

end Sys2Proof.Machine
end

section
/-! SUPPORT. Pauses (R277, R293, R316 to R318): a received frame class by class, a pause's end, the storm watchdog, and the request repeated. -/

namespace Sys2Proof

/-- An entry that is found stands in the table. -/
theorem Tbl.mem_of_find {α : Type} {t : Tbl α} {k : Nat} {v : α} (h : Tbl.find t k = some v) : (k, v) ∈ t := by
  induction t with
  | nil => simp at h
  | cons e r ih =>
    obtain ⟨k', v'⟩ := e
    by_cases hk : k = k'
    · simp_all [Tbl.find]
    · exact List.mem_cons_of_mem _ (ih (by simpa [Tbl.find, hk] using h))

end Sys2Proof

namespace Sys2Proof.Machine

open Sys2Proof

/-! ### A received frame (R293, R316, R318) -/

/-- The pause in force on class `c` of port `p`. -/
def State.pauseOf (s : State) (p c : Nat) : Option PauseSt := Tbl.find (s.port p).pauses c

/-- What a pause's end changes: the port's pauses without that class, and the class's release. -/
theorem State.endPause_cases (s : State) (p c : Nat) : (s.pauseOf p c = none ∧ s.endPause p c = s) ∨
    ∃ r : Tbl (Nat × Nat), s.endPause p c = s.setPort p { s.port p with pauses := Tbl.del (s.port p).pauses c, released := r } := by
  unfold State.endPause
  split
  next => exact .inr ⟨_, rfl⟩
  next h => exact .inl ⟨h, rfl⟩

/-- A pause of some quanta sets the class's pause, to end when they have run out. -/
theorem State.takePause_holds {q : Nat} (hq : q ≠ 0) (s : State) (p c : Nat) : ∃ y : PauseSt, y.ends = s.ns + s.quantaNs p q ∧
    s.takePause p q c = s.setPort p { s.port p with pauses := Tbl.put (s.port p).pauses c y } := by
  unfold State.takePause
  rw [if_neg hq]
  refine ⟨_, ?_, rfl⟩
  repeat' split
  all_goals rfl

theorem State.takePause_release (s : State) (p c : Nat) : s.takePause p 0 c = s.endPause p c := if_pos rfl

/-- A pause taken changes the pauses and releases of its port alone. -/
theorem State.takePause_port (s : State) (p q c : Nat) : s.takePause p q c = s ∨
    ∃ (t : Tbl PauseSt) (r : Tbl (Nat × Nat)), s.takePause p q c = s.setPort p { s.port p with pauses := t, released := r } ∧
      ∀ j : Nat, j ≠ c → Tbl.find t j = s.pauseOf p j := by
  by_cases hq : q = 0
  case pos =>
    subst hq
    rw [State.takePause_release]
    obtain ⟨-, h⟩ | ⟨r, h⟩ := s.endPause_cases p c
    · exact .inl h
    · exact .inr ⟨_, r, h, fun j hj => Tbl.find_del_other _ hj⟩
  case neg =>
    obtain ⟨y, -, h⟩ := State.takePause_holds hq s p c
    exact .inr ⟨_, _, h, fun j hj => Tbl.find_put_other _ _ hj⟩

section TakePause

variable (s : State) (p q c : Nat)

@[simp] theorem State.takePause_ns : (s.takePause p q c).ns = s.ns := by
  obtain h | ⟨t, r, h, -⟩ := s.takePause_port p q c <;> rw [h]
  rfl

/-- The port's rate is as before, and so is the time of its quanta. -/
@[simp] theorem State.takePause_quantaNs (n : Nat) : (s.takePause p q c).quantaNs p n = s.quantaNs p n := by
  obtain h | ⟨t, r, h, -⟩ := s.takePause_port p q c <;> rw [h]
  have hspeed : ((s.setPort p { s.port p with pauses := t, released := r }).port p).speed = (s.port p).speed := by
    rw [State.setPort_same]
  have hrate : (s.setPort p { s.port p with pauses := t, released := r }).rate p = s.rate p := by
    unfold State.rate
    rw [hspeed]
    rfl
  rw [State.quantaNs, State.bitNs, hrate]
  rfl

theorem State.takePause_other {j : Nat} (hj : j ≠ c) : (s.takePause p q c).pauseOf p j = s.pauseOf p j := by
  obtain h | ⟨t, r, h, ht⟩ := s.takePause_port p q c <;> rw [h]
  rw [State.pauseOf, State.setPort_same]
  exact ht j hj

/-- What a pause taken makes of its class: none without quanta, one that ends with them otherwise. -/
theorem State.takePause_same : (q = 0 → (s.takePause p q c).pauseOf p c = none) ∧
    (q ≠ 0 → ∃ y : PauseSt, (s.takePause p q c).pauseOf p c = some y ∧ y.ends = s.ns + s.quantaNs p q) := by
  refine ⟨fun hq => ?_, fun hq => ?_⟩
  · rw [hq, State.takePause_release]
    obtain ⟨hn, h⟩ | ⟨r, h⟩ := s.endPause_cases p c <;> rw [h]
    · exact hn
    · rw [State.pauseOf, State.setPort_same]
      exact Tbl.find_del_same ..
  · obtain ⟨y, hy, h⟩ := State.takePause_holds hq s p c
    rw [h, State.pauseOf, State.setPort_same]
    exact ⟨y, Tbl.find_put_same .., hy⟩

end TakePause

/-- The pauses of a frame taken, class by class. -/
def State.takePauses (s : State) (p : Nat) (f : PauseFrame) (l : List Nat) : State :=
  l.foldl (fun s c => s.takePause p (quantaFor f c) c) s

section TakePauses

variable (s : State) (p : Nat) (f : PauseFrame) {l : List Nat} {c : Nat}

theorem State.takePauses_other (hc : c ∉ l) : (s.takePauses p f l).pauseOf p c = s.pauseOf p c := by
  induction l generalizing s with
  | nil => rfl
  | cons a r ih =>
    obtain ⟨ha, hr⟩ := List.ne_and_not_mem_of_not_mem_cons hc
    exact (ih _ hr).trans (State.takePause_other s p _ a ha)

theorem State.takePauses_ns (l : List Nat) : (s.takePauses p f l).ns = s.ns :=
  foldl_keeps State.ns _ (fun s c => s.takePause_ns p (quantaFor f c) c) l s

theorem State.takePauses_quantaNs (l : List Nat) (n : Nat) : (s.takePauses p f l).quantaNs p n = s.quantaNs p n :=
  foldl_keeps (fun s => s.quantaNs p n) _ (fun s c => s.takePause_quantaNs p (quantaFor f c) c n) l s

/-- A class among those named is held for its quanta, or released where it has none. -/
theorem State.takePauses_named (hl : l.Nodup) (hc : c ∈ l) :
    (quantaFor f c = 0 → (s.takePauses p f l).pauseOf p c = none) ∧
    (quantaFor f c ≠ 0 → ∃ y : PauseSt, (s.takePauses p f l).pauseOf p c = some y ∧ y.ends = s.ns + s.quantaNs p (quantaFor f c)) := by
  obtain ⟨before, behind, rfl⟩ := List.append_of_mem hc
  have hbehind : c ∉ behind := (List.nodup_cons.1 (List.nodup_append.1 hl).2.1).1
  have hfold : s.takePauses p f (before ++ c :: behind) =
      ((s.takePauses p f before).takePause p (quantaFor f c) c).takePauses p f behind := List.foldl_append ..
  rw [hfold, State.takePauses_other _ p f hbehind, ← s.takePauses_ns p f before, ← s.takePauses_quantaNs p f before]
  exact State.takePause_same ..

end TakePauses

theorem pauseClasses_nodup (f : PauseFrame) : (pauseClasses f).Nodup := by
  unfold pauseClasses bitsOf
  split
  · exact List.nodup_range.filter _
  · exact List.nodup_range

theorem mem_pauseClasses {f : PauseFrame} {c : Nat} : c ∈ pauseClasses f ↔ c < 8 ∧ (f.pfc = false ∨ tb f.classes.toNat c = true) := by
  unfold pauseClasses bitsOf
  split
  next h => simp [h]
  next h => simp [h]

/-- A frame at a port that is UP is counted, its pauses are taken, and a release lets the port decide. -/
theorem State.pauseFrame_taken {s : State} {p : Nat} (hp : (s.port p).ph = .up) (f : PauseFrame) : s.pauseFrame p f =
    let u := (s.bumpU bPRT (p + 1) (if f.pfc then 8 else 7) 1).takePauses p f (pauseClasses f)
    if (pauseClasses f).any (fun c => decide (quantaFor f c = 0)) then u.txDecide p else u := by
  rw [State.pauseFrame]
  exact if_neg fun h => h hp

/-! ### A pause's end, and the storm watchdog (R277, R293) -/

section Pause

variable {s : State} {p c : Nat} {x : PauseSt} (hx : Tbl.find (s.port p).pauses c = some x)
include hx

theorem State.pauseExpire_due (ht : x.ends ≤ s.ns) : s.pauseExpire p c = (s.endPause p c).txDecide p := by
  simp [State.pauseExpire, hx, ht]

theorem State.pauseExpire_early (ht : s.ns < x.ends) : s.pauseExpire p c = s := by
  simp [State.pauseExpire, hx, Nat.not_le.2 ht]

/-- The watchdog rests where it is disabled, and before its time. -/
theorem State.pauseStorm_rests (h : tb s.pswCfg 31 = false ∨ s.ns < x.since + x.limitMs * ms) : s.pauseStorm p c = s := by
  rcases h with h | h
  · simp [State.pauseStorm, hx, h]
  · simp [State.pauseStorm, hx, Nat.not_le.2 h]

end Pause

/-- The pause `x` of a class ignored: marked, counted and reported (R277). -/
def State.ignorePause (s : State) (p c : Nat) (x : PauseSt) : State :=
  let s := (s.setPort p { s.port p with pauses := Tbl.put (s.port p).pauses c { x with ignored := true } }).bump bSWC 6
  State.event { s with swc := { s.swc with evstat := setBit s.swc.evstat 0 } } .swcPauseStorm p (p + c * 2 ^ 16)

/-- A pause that has held its class for its limit is ignored, and the port decides. -/
theorem State.pauseStorm_ignores {s : State} {p c : Nat} {x : PauseSt} (hx : Tbl.find (s.port p).pauses c = some x)
    (he : tb s.pswCfg 31 = true) (hi : x.ignored = false) (hn : s.ns < x.ends) (ht : x.since + x.limitMs * ms ≤ s.ns) :
    s.pauseStorm p c = (s.ignorePause p c x).txDecide p := by
  rw [State.pauseStorm, hx]
  exact if_pos (by simp [he, hi, hn, ht])

section Ignored

variable (s : State) (p c : Nat) (x : PauseSt)

theorem State.ignorePause_pauseOf : (s.ignorePause p c x).pauseOf p c = some { x with ignored := true } := by
  rw [State.pauseOf, State.port, State.ignorePause, State.event_prt]
  exact (congrArg (fun y : Port => Tbl.find y.pauses c) (s.setPort_same p _)).trans (Tbl.find_put_same ..)

/-- A pause that is ignored holds nothing. -/
theorem State.ignorePause_paused : (s.ignorePause p c x).paused p c = false := by
  have h : Tbl.find ((s.ignorePause p c x).port p).pauses c = some { x with ignored := true } := s.ignorePause_pauseOf p c x
  simp [State.paused, h]

theorem State.ignorePause_evstat : tb (s.ignorePause p c x).swc.evstat 0 = true := by
  rw [State.ignorePause, State.event_swc]
  exact tb_setBit _ 0

theorem State.ignorePause_counts : (s.ignorePause p c x).cntOf bSWC 0 6 = (s.cntOf bSWC 0 6 + 1) % 2 ^ 48 := by
  rw [State.ignorePause, State.cntOf_event _ _ _ _ _ _ _ (by decide)]
  exact Tbl.get_put_same ..

end Ignored

/-! ### The watchdog's register (R277, R287) -/

/-- TIME_MS after `v` is written over `old`: that of `v` where it is in range. -/
def pswTime (old v : Nat) : Nat := if 10 ≤ fld v 0 10 ∧ fld v 0 10 ≤ 1000 then fld v 0 10 else fld old 0 10

theorem pswTime_lt (old v : Nat) : pswTime old v < 2 ^ 10 := by
  unfold pswTime
  split <;> exact fld_lt ..

/-- SWC_PSW_CFG after `v` is written over `old`: EN and TIME_MS. -/
def pswWord (old v : Nat) : Nat := b2n (tb v 31) * 2 ^ 31 + pswTime old v

theorem pswWord_fields (old v : Nat) :
    pswWord old v < 2 ^ 32 ∧ tb (pswWord old v) 31 = tb v 31 ∧ fld (pswWord old v) 0 10 = pswTime old v := by
  have ht := pswTime_lt old v
  rw [pswWord]
  generalize pswTime old v = t at ht ⊢
  cases tb v 31 <;> simp [tb, fld, b2n] <;> omega

/-- The pauses of a port at a write of the watchdog's register: EN = 1 times them from now, EN = 0 ignores none (R277). -/
def State.retimePauses (en : Bool) (s : State) (p : Nat) : State :=
  s.setPort p { s.port p with pauses := (s.port p).pauses.map (fun e =>
    (e.1, if en then { e.2 with since := s.ns } else { e.2 with ignored := false })) }

/-- No pause of port `p` is ignored. -/
def State.ignoresNone (s : State) (p : Nat) : Prop := ∀ e ∈ (s.port p).pauses, e.2.ignored = false

theorem State.retimePauses_ignoresNone (s : State) (p : Nat) : (s.retimePauses false p).ignoresNone p := by
  intro e he
  rw [State.retimePauses, State.setPort_same] at he
  obtain ⟨y, -, rfl⟩ := List.mem_map.1 he
  rfl

theorem State.retimePauses_keepsNone {s : State} {p : Nat} (h : s.ignoresNone p) (q : Nat) :
    (s.retimePauses false q).ignoresNone p := by
  by_cases hq : p = q
  · subst hq
    exact s.retimePauses_ignoresNone p
  · rw [State.ignoresNone, State.retimePauses, State.setPort_other _ _ _ _ hq]
    exact h

/-- Once every listed port was treated, none of them ignores a pause. -/
theorem State.foldl_retimePauses_ignoresNone {p : Nat} (l : List Nat) : ∀ s : State, p ∈ l ∨ s.ignoresNone p →
    (l.foldl (State.retimePauses false) s).ignoresNone p := by
  induction l with
  | nil => exact fun s h => h.resolve_left (List.not_mem_nil)
  | cons q r ih =>
    refine fun s h => ih _ ?_
    rcases h with h | h
    · rcases List.mem_cons.1 h with rfl | h
      · exact .inr (s.retimePauses_ignoresNone _)
      · exact .inl h
    · exact .inr (State.retimePauses_keepsNone h q)

/-- A port that the table does not list has no pauses. -/
theorem State.ignoresNone_of_unlisted {s : State} {p : Nat} (h : p ∉ Tbl.keys s.prt.ports) : s.ignoresNone p := by
  have hnone : Tbl.find s.prt.ports p = none :=
    Option.eq_none_iff_forall_ne_some.2 fun x hx => h (List.mem_map.2 ⟨(p, x), Tbl.mem_of_find hx, rfl⟩)
  rw [State.ignoresNone, State.port, Tbl.get, hnone]
  exact fun e he => absurd he List.not_mem_nil

theorem State.pswWrite_ports (s : State) (v : W32) : s.pswWrite v = (Tbl.keys s.prt.ports).foldl (State.retimePauses (tb v.toNat 31))
    { s with regs := Tbl.put s.regs 0x900058 (w32 (pswWord s.pswCfg v.toNat)) } := rfl

/-- The register then holds EN as it was written, and TIME_MS. -/
theorem State.pswWrite_fields (s : State) (v : W32) :
    tb (s.pswWrite v).pswCfg 31 = tb v.toNat 31 ∧ fld (s.pswWrite v).pswCfg 0 10 = pswTime s.pswCfg v.toNat := by
  have hregs := foldl_keeps State.regs (State.retimePauses (tb v.toNat 31)) (fun _ _ => rfl) (Tbl.keys s.prt.ports)
    { s with regs := Tbl.put s.regs 0x900058 (w32 (pswWord s.pswCfg v.toNat)) }
  obtain ⟨hlt, hfields⟩ := pswWord_fields s.pswCfg v.toNat
  have hword : (s.pswWrite v).pswCfg = pswWord s.pswCfg v.toNat := by
    rw [State.pswCfg, State.pswWrite_ports, hregs, Tbl.get_put_same, w32_toNat_of_lt hlt]
  rw [hword]
  exact hfields

/-- EN = 0 ends all ignoring. -/
theorem State.pswWrite_ignoresNone (s : State) {v : W32} (hv : tb v.toNat 31 = false) (p : Nat) : (s.pswWrite v).ignoresNone p := by
  rw [State.pswWrite_ports, hv]
  refine State.foldl_retimePauses_ignoresNone _ _ ?_
  by_cases hp : p ∈ Tbl.keys s.prt.ports
  · exact .inl hp
  · exact .inr (State.ignoresNone_of_unlisted (s := s) hp)

/-! ### The request repeated (R317) -/

theorem State.pfcRefreshOp_due {s : State} {p : Nat} (hp : (s.port p).ph = .up) (hx : (s.port p).xoff ≠ 0) (ht : (s.port p).pfcDue ≤ s.ns) :
    s.pfcRefreshOp p = ((s.setPort p { s.port p with pfcDue := s.ns + s.quantaNs p (s.quanta p / 2) }).emit
      (.pause p (decide (s.pfcEn p ≠ 0)) (s.port p).xoff (s.quanta p))).bumpU bPRT (p + 1) 9 1 := by
  rw [State.pfcRefreshOp]
  exact if_pos (by simp [hp, hx, ht])

/-! ### Commands -/

theorem exec_pswCfgWrite {s : State} (hw : s.barTakes 0x900058 = true) (v : W32) :
    exec (.pswCfgWrite v) s = .next (s.after (s.pswWrite v)) := by
  show execPswCfgWrite v s = _
  exact act_of hw _ s

section Commands

variable {s : State} (hw : s.live = true) (p : PortId)
include hw

theorem exec_pauseFrameReceived (f : PauseFrame) : exec (.pauseFrameReceived p f) s = .next (s.after (s.pauseFrame p.val f)) := by
  show execPauseFrameReceived p f s = _
  exact act_of hw _ s

theorem exec_pauseExpire (c : ClassId) : exec (.pauseExpire p c) s = .next (s.after (s.pauseExpire p.val c.val)) := by
  show execPauseExpire p c s = _
  exact act_of hw _ s

theorem exec_pauseStorm (c : ClassId) : exec (.pauseStorm p c) s = .next (s.after (s.pauseStorm p.val c.val)) := by
  show execPauseStorm p c s = _
  exact act_of hw _ s

theorem exec_pfcRefresh : exec (.pfcRefresh p) s = .next (s.after (s.pfcRefreshOp p.val)) := by
  show execPfcRefresh p s = _
  exact act_of hw _ s

end Commands

/-- Settles O27: a frame's classes taken one after another, a pause by its end and its limit, the watchdog's register by what is written,
and the request at its time. -/
theorem pausesAnswer : Obligations.PausesAnswer := by
  unfold Obligations.PausesAnswer
  refine ⟨fun p f s hw hp => ?frame, fun p c x s hw hx => ⟨fun ht => ?ended, fun ht => ?lasts, fun he hi hn ht => ?storm, fun h => ?rests⟩,
    fun v s hw => ?register, fun p s hw hp hx ht => ?repeated⟩
  case frame =>
    rw [exec_pauseFrameReceived hw, State.pauseFrame_taken hp]
    refine ⟨_, rfl, fun c hc => State.takePauses_named _ p f (pauseClasses_nodup f) (mem_pauseClasses.2 ⟨c.isLt, hc⟩),
      fun c hf hc => State.takePauses_other _ p f fun hm => ?_⟩
    simpa [hf, hc] using (mem_pauseClasses.1 hm).2
  case ended => rw [exec_pauseExpire hw, State.pauseExpire_due hx ht]
  case lasts => rw [exec_pauseExpire hw, State.pauseExpire_early hx ht]
  case storm =>
    rw [exec_pauseStorm hw, State.pauseStorm_ignores hx he hi hn ht]
    exact ⟨_, rfl, s.ignorePause_paused p.val c.val x, s.ignorePause_evstat p.val c.val x, s.ignorePause_counts p.val c.val x⟩
  case rests => rw [exec_pauseStorm hw, State.pauseStorm_rests hx h]
  case register =>
    rw [exec_pswCfgWrite hw]
    obtain ⟨hen, htime⟩ := s.pswWrite_fields v
    refine ⟨_, rfl, hen, fun h10 h1000 => ?_, fun h => ?_, fun hv p c x hx => s.pswWrite_ignoresNone hv p _ (Tbl.mem_of_find hx)⟩
    · rw [htime, pswTime, if_pos ⟨h10, h1000⟩]
    · rw [htime, pswTime, if_neg (by omega)]
  case repeated => rw [exec_pfcRefresh hw, State.pfcRefreshOp_due hp hx ht]

end Sys2Proof.Machine
end

section
/-! SUPPORT. The transmit decision and the timers of the traffic manager (R294, R300 to R302, R305): the queue that is chosen, what the start of a
frame leaves of its port, the timers by their times, and the credit of a bucket. -/

namespace Sys2Proof.Machine

open Sys2Proof

/-! ### The least member of a list -/

theorem leastBy_eq_none {α : Type} {f : α → Nat} {l : List α} (h : leastBy f l = none) : l = [] := by
  cases l with
  | nil => rfl
  | cons a r =>
    rw [leastBy] at h
    cases hr : leastBy f r with
    | none => simp [hr] at h
    | some b =>
      rw [hr] at h
      dsimp only at h
      split at h <;> simp at h

/-- The least member is one of the list's, and no other is less. -/
theorem leastBy_some {α : Type} {f : α → Nat} {l : List α} {a : α} (h : leastBy f l = some a) : a ∈ l ∧ ∀ b ∈ l, f a ≤ f b := by
  induction l generalizing a with
  | nil => simp [leastBy] at h
  | cons x r ih =>
    rw [leastBy] at h
    cases hr : leastBy f r with
    | none =>
      obtain rfl : x = a := by simpa [hr] using h
      simp [leastBy_eq_none hr]
    | some y =>
      obtain ⟨hmem, hmin⟩ := ih hr
      rw [hr] at h
      dsimp only at h
      split at h <;> obtain rfl := Option.some.inj h
      next hxy => simpa using fun b hb => Nat.le_trans hxy (hmin b hb)
      next hxy => exact ⟨List.mem_cons_of_mem _ hmem, by simpa using ⟨by omega, hmin⟩⟩

/-! ### The queue of class 7 that comes first (R302, R305) -/

@[simp] theorem mem_rotateAfter {last q : Nat} {l : List Nat} : q ∈ rotateAfter last l ↔ q ∈ l := by
  have h : last < q ∨ q ≤ last := Nat.lt_or_ge last q
  simp [rotateAfter, ← and_or_left, h]

/-- The class-7 queue that the decision of port `p` takes: the next after the last one served that its shaper leaves eligible. -/
def State.next7 (s : State) (p : Nat) : Option Nat :=
  if s.paused p 7 then none
  else (rotateAfter (s.port p).last7 (s.portQueues p (· == 7))).find? (fun q => s.shaperOk q)

theorem State.next7_of_eligible {s : State} {p : Nat} (hp : s.paused p 7 = false)
    (hq : ∃ q, q ∈ s.portQueues p (· == 7) ∧ s.shaperOk q = true) :
    ∃ q, q ∈ s.portQueues p (· == 7) ∧ s.shaperOk q = true ∧ s.next7 p = some q := by
  rw [State.next7, hp]
  obtain ⟨r, hr, hok⟩ := hq
  obtain ⟨q, hfind⟩ := Option.isSome_iff_exists.1 (List.find?_isSome.2 ⟨r, mem_rotateAfter.2 hr, hok⟩)
  exact ⟨q, mem_rotateAfter.1 (List.mem_of_find?_eq_some hfind), List.find?_some hfind, hfind⟩

theorem State.next7_none {s : State} {p : Nat} (h : s.paused p 7 = true ∨ ∀ r ∈ s.portQueues p (· == 7), s.shaperOk r = false) :
    s.next7 p = none := by
  unfold State.next7
  split
  next => rfl
  next hp =>
    rw [List.find?_eq_none]
    intro r hr
    simp [h.resolve_left hp r (mem_rotateAfter.1 hr)]

/-! ### The decision (R294, R305) -/

theorem State.txDecide_busy {s : State} {p : Nat} (hi : s.portIdle p = false) : s.txDecide p = s := by
  simp [State.txDecide, hi]

section Idle

variable {s : State} {p q : Nat} (hi : s.portIdle p = true)
include hi

theorem State.txDecide_class7 (h7 : s.next7 p = some q) :
    s.txDecide p = (s.setPort p { s.port p with last7 := q }).startFrame p q := by
  rw [State.next7] at h7
  simp [State.txDecide, hi, h7]

/-- Without a class-7 queue, the earliest milestone of class 6 starts once it is open. -/
theorem State.txDecide_class6 (h7 : s.next7 p = none) (h6 : s.paused p 6 = false) (hq : s.gateQueue p = some q)
    (ht : s.openTime p (s.headOf q).milestone ≤ s.ns) : s.txDecide p = s.startFrame p q := by
  rw [State.next7] at h7
  simp [State.txDecide, hi, h7, State.openLimit, h6, hq, ht]

end Idle

/-! ### The frame in transmission, through the operations of the switch core -/

theorem State.bufOnly.prt {s t : State} (h : s.bufOnly t) : t.prt = s.prt := by rw [h]

theorem State.bufOnly_foldl {α : Type} {f : State → α → State} (h : ∀ (t : State) (a : α), t.bufOnly (f t a)) (l : List α) (t : State) :
    t.bufOnly (l.foldl f t) := by
  induction l generalizing t with
  | nil => rfl
  | cons a r ih => exact State.bufOnly_trans (h t a) (ih _)

theorem State.bufOnly_decRefs (a : Nat) (l : List W32) (t : State) : t.bufOnly (l.foldl (fun s h => s.decRef a h) t) :=
  State.bufOnly_foldl (fun t h => by simp) l t

theorem State.bufOnly_incAll (l done : List W32) (t : State) : t.bufOnly (t.incAll done l).1 := by
  induction l generalizing t done with
  | nil => rfl
  | cons h r ih =>
    have hinc : t.bufOnly (t.incRef false h).1 := by simp
    rw [State.incAll]
    dsimp only
    split
    · exact State.bufOnly_trans hinc (ih _ _)
    · exact State.bufOnly_trans hinc (State.bufOnly_decRefs aRepl done _)

/-- The frame in transmission on port `p`. -/
def State.sending (s : State) (p : Nat) : Option TxSt := (s.port p).tx

theorem State.sending_of_prt {s t : State} (h : t.prt = s.prt) (p : Nat) : t.sending p = s.sending p := by
  rw [State.sending, State.port, h]
  rfl

@[simp] theorem State.sending_emit (s : State) (o : Output) (p : Nat) : (s.emit o).sending p = s.sending p := rfl
@[simp] theorem State.sending_bumpU (s : State) (b u n k p : Nat) : (s.bumpU b u n k).sending p = s.sending p := rfl
@[simp] theorem State.sending_bump (s : State) (b n p : Nat) : (s.bump b n).sending p = s.sending p := rfl
@[simp] theorem State.sending_swc (s : State) (x : SwcSt) (p : Nat) : { s with swc := x }.sending p = s.sending p := rfl
@[simp] theorem State.sending_setCopy (s : State) (i : Nat) (c : Copy) (p : Nat) : (s.setCopy i c).sending p = s.sending p := rfl
@[simp] theorem State.sending_setQueue (s : State) (q : Nat) (x : QDesc) (p : Nat) : (s.setQueue q x).sending p = s.sending p := rfl
@[simp] theorem State.sending_setHeld (s : State) (k : Nat) (h : Held) (p : Nat) : (s.setHeld k h).sending p = s.sending p := rfl
@[simp] theorem State.sending_newCopy (s : State) (c : Copy) (p : Nat) : (s.newCopy c).1.sending p = s.sending p := rfl
@[simp] theorem State.sending_addAcct (s : State) (d c a b p : Nat) : (s.addAcct d c a b).sending p = s.sending p := rfl
@[simp] theorem State.sending_subIng (s : State) (q c n p : Nat) : (s.subIng q c n).sending p = s.sending p := rfl
@[simp] theorem State.sending_mirDrop (s : State) (m p : Nat) : (s.mirDrop m).sending p = s.sending p := rfl

/-- A port rewritten with its transmission as it was. -/
@[simp] theorem State.sending_setPort (s : State) (q : Nat) (x : Port) (p : Nat) (hx : x.tx = (s.port q).tx) :
    (s.setPort q x).sending p = s.sending p := by
  unfold State.sending
  by_cases h : p = q
  · rw [h, State.setPort_same, hx]
  · rw [State.setPort_other _ _ _ _ h]

@[simp] theorem State.sending_dropAcct (s : State) (c : Copy) (p : Nat) : (s.dropAcct c).sending p = s.sending p := by
  unfold State.dropAcct
  split <;> rfl

@[simp] theorem State.sending_decRefs (s : State) (a : Nat) (l : List W32) (p : Nat) :
    (l.foldl (fun s h => s.decRef a h) s).sending p = s.sending p :=
  State.sending_of_prt (State.bufOnly_decRefs a l s).prt p

@[simp] theorem State.sending_returnCredit (s : State) (c : Copy) (p : Nat) : (s.returnCredit c).sending p = s.sending p := by
  obtain ⟨x, hx⟩ := s.returnCredit_credits c
  rw [hx]
  rfl

@[simp] theorem State.sending_dropCopy (s : State) (i p : Nat) : (s.dropCopy i).sending p = s.sending p := by
  unfold State.dropCopy State.releaseCells
  dsimp only
  split <;> simp

/-- A request to a port's partner leaves the frame in transmission. -/
@[simp] theorem State.sending_pfcSync (s : State) (q p : Nat) : (s.pfcSync q).sending p = s.sending p := by
  unfold State.pfcSync
  dsimp only
  repeat' split
  all_goals simp

@[simp] theorem State.sending_join (s : State) (i : Nat) (a : Bool × Nat × Nat) (p : Nat) : (s.join i a).sending p = s.sending p := by
  unfold State.join
  dsimp only
  split <;> split <;> simp

/-! ### Mirror copies (R286) -/

@[simp] theorem State.sending_mirror (s : State) (m : Nat) (c : Copy) (p : Nat) : (s.mirror m c).sending p = s.sending p := by
  unfold State.mirror
  dsimp only
  have hinc : ∀ l : List W32, (s.incAll [] l).1.sending p = s.sending p :=
    fun l => State.sending_of_prt (State.bufOnly_incAll l [] s).prt p
  have halloc : ∀ u : State, (u.alloc aRepl 0 1 false).1.sending p = u.sending p :=
    fun u => State.sending_of_prt (State.bufOnly.prt (s := u) (by simp)) p
  repeat' split
  all_goals simp [hinc, halloc]

@[simp] theorem State.sending_mirrorAll (s : State) (e : Bool) (f : Option Nat) (q : Nat) (c : Copy) (p : Nat) :
    (s.mirrorAll e f q c).sending p = s.sending p := by
  refine foldl_keeps (fun s => s.sending p) _ (fun s m => ?_) _ s
  dsimp only
  repeat' split
  all_goals simp

/-! ### The start of a frame (R294, R302) -/

/-- What the line time of a frame rests on: the ports, the registers and module time. -/
def State.line (s : State) : PrtSt × Tbl W32 × Nat := (s.prt, s.regs, s.time)

theorem State.bitNs_of_line {s t : State} (h : t.line = s.line) (p n : Nat) : t.ns = s.ns ∧ t.bitNs p n = s.bitNs p n := by
  obtain ⟨hprt, hregs, htime⟩ : t.prt = s.prt ∧ t.regs = s.regs ∧ t.time = s.time := by simpa [State.line] using h
  have hcfg : t.prtCfg p = s.prtCfg p := by rw [State.prtCfg, hregs, State.prtCfg]
  have hport : t.port p = s.port p := by rw [State.port, hprt, State.port]
  refine ⟨by rw [State.ns, htime, State.ns], ?_⟩
  rw [State.bitNs, State.rate, hcfg, hport, State.bitNs, State.rate]

@[simp] theorem State.line_bump (s : State) (b n : Nat) : (s.bump b n).line = s.line := rfl
@[simp] theorem State.line_swc (s : State) (x : SwcSt) : { s with swc := x }.line = s.line := rfl
@[simp] theorem State.line_setCopy (s : State) (i : Nat) (c : Copy) : (s.setCopy i c).line = s.line := rfl
@[simp] theorem State.line_setQueue (s : State) (q : Nat) (x : QDesc) : (s.setQueue q x).line = s.line := rfl
@[simp] theorem State.line_setCf (s : State) (r off n v : Nat) : (s.setCf r off n v).line = s.line := rfl
@[simp] theorem State.line_incCf (s : State) (r off n k : Nat) : (s.incCf r off n k).line = s.line := rfl
@[simp] theorem State.line_ite (c : Prop) [Decidable c] (a b : State) : (if c then a else b).line = if c then a.line else b.line :=
  apply_ite State.line c a b

/-- A late row counted in the record of its session `r` and in TMG, and noted for the overload measures (R296). -/
def State.countLateRow (s : State) (p r : Nat) (c : Copy) : State :=
  let lateness := (s.ns - c.milestone) / us
  let s := (s.incCf r 0x78 8 1).setCf r 0x80 4 (min (max (s.cf r 0x80 4) lateness) 0xFFFFFFFF)
  let s := s.bump bTMG 4
  let atPort := decide (c.joined ≤ s.openTime p c.milestone)
  { s with swc := { s.swc with lateRows := s.swc.lateRows ++ [(s.ns, atPort, if atPort then p else c.lane)] } }

/-- A row judged by its first frame (R296). -/
def State.judgeRow (s : State) (p : Nat) (c : Copy) (late : Bool) : State :=
  match c.sess with
  | some r => if late then (s.incCf r 0x70 8 1).countLateRow p r c else s.incCf r 0x70 8 1
  | none => s

/-- A frame that is not sent again is late as its row is, and the row's first frame judges the row. -/
theorem State.markLate_row {s : State} {i : Nat} (hr : (s.copy i).rtx = false) (p q : Nat) : s.markLate p q i =
    let c := s.copy i
    let x := s.queue q
    let late := if x.fresh then decide (c.milestone < s.ns) else x.rowLate
    let t := (s.setQueue q { x with fresh := c.rowEnd, rowOpen := !c.rowEnd, rowLate := late }).setCopy i { c with late := late }
    let t := if late then t.bump bTMG 3 else t
    if x.fresh then t.judgeRow p c late else t := by
  rw [State.markLate]
  exact if_neg (by simp [hr])

@[simp] theorem State.line_countLateRow (s : State) (p r : Nat) (c : Copy) : (s.countLateRow p r c).line = s.line := by
  rw [State.countLateRow]
  exact (State.line_swc (State.bump _ bTMG 4) _).trans (by simp)

@[simp] theorem State.line_judgeRow (s : State) (p : Nat) (c : Copy) (late : Bool) : (s.judgeRow p c late).line = s.line := by
  unfold State.judgeRow
  split <;> simp

@[simp] theorem State.line_markLate (s : State) (p q i : Nat) : (s.markLate p q i).line = s.line := by
  cases hr : (s.copy i).rtx with
  | true => simp [State.markLate, hr]
  | false => simp [State.markLate_row hr]

/-- The head `i` of queue `q` has left the queue's list, and the shapers are charged. -/
def State.takeHead (s : State) (p q i : Nat) (rest : List Nat) : State :=
  let x := s.queue q
  let c := s.copy i
  let s := s.setQueue q { x with copies := rest, cells := x.cells - c.n, fitAt := none }
  let s := if c.cls = 6 then s.markLate p q i else s
  let s := s.setCopy i { s.copy i with place := .tx }
  let n := s.counted p c.len
  let s := if s.bkEn (pshAddr p) then { s with tmg := { s.tmg with psh := Tbl.put s.tmg.psh p ((s.psh p).charge n) } } else s
  let sh := (s.queue q).shaper
  if c.cls ≠ 6 ∧ sh ≠ 0xFFFF ∧ s.bkEn (qshAddr sh) then
    { s with tmg := { s.tmg with qsh := Tbl.put s.tmg.qsh sh ((s.qsh sh).charge n) } } else s

/-- Copy `i`, with the frame `c`, goes out on port `p`: the cache's view, its stamps, its bytes and its mirrors. -/
def State.sendOut (s : State) (p i : Nat) (c : Copy) : State :=
  let s := match s.heldOf c with
    | some (k, h) => s.setHeld k { h with again := false }
    | none => s
  let s := if c.stampTx then { s with swc := { s.swc with stamps := Tbl.put s.swc.stamps i (s.egressStamp p) } } else s
  let whole := decide (c.kind = .host) || decide (c.kind = .forward)
  let s := if whole then match ptpReport c.data with
      | some q => s.emit (.ptpStamp p i q (s.egressStamp p))
      | none => s
    else s
  let s := s.emit (.frame p i c.cls c.len (if whole then ptpWire c.data (s.egressStamp p) else (s.copy i).wire))
  match c.kind with
  | .mirror _ => s
  | _ => s.mirrorAll true none p (s.copy i)

@[simp] theorem State.line_takeHead (s : State) (p q i : Nat) (rest : List Nat) : (s.takeHead p q i rest).line = s.line := by
  have hmark (t : State) : (if (s.copy i).cls = 6 then t.markLate p q i else t).line = t.line := by split <;> simp
  have hpsh (t : State) (c : Prop) [Decidable c] (x : TmgSt) : (if c then { t with tmg := x } else t).line = t.line := by split <;> rfl
  rw [State.takeHead]
  exact (hpsh ..).trans ((hpsh ..).trans (hmark _))

@[simp] theorem State.sending_sendOut (s : State) (p i : Nat) (c : Copy) (r : Nat) : (s.sendOut p i c).sending r = s.sending r := by
  unfold State.sendOut
  dsimp only
  repeat' split
  all_goals simp

/-- The record of copy `i`, with the frame `c`, in transmission from now. -/
def State.txRecord (s : State) (p i : Nat) (c : Copy) : TxSt :=
  { copy := i, start := s.ns, ends := s.ns + s.bitNs p ((c.len + 20) * 8), cells := c.head ++ c.body, readBytes := 0 }

/-- The start of a frame: its head is taken, the port has it in transmission, and it goes out. -/
theorem State.startFrame_head {s : State} {q i : Nat} {rest : List Nat} (hq : (s.queue q).copies = i :: rest) (p : Nat) :
    s.startFrame p q =
      let t := s.takeHead p q i rest
      (t.setPort p { t.port p with tx := some (t.txRecord p i (s.copy i)) }).sendOut p i (s.copy i) := by
  rw [State.startFrame, hq]
  rfl

theorem State.startFrame_sending {s : State} {q i : Nat} {rest : List Nat} (hq : (s.queue q).copies = i :: rest) (p : Nat) :
    (s.startFrame p q).sending p = some (s.txRecord p i (s.copy i)) := by
  obtain ⟨hns, hbit⟩ := State.bitNs_of_line (s.line_takeHead p q i rest) p (((s.copy i).len + 20) * 8)
  rw [State.startFrame_head hq, State.sending_sendOut, State.sending, State.setPort_same]
  simp only [State.txRecord, hns, hbit]

/-- Settles O24: the decision by the queue it chooses, the least milestone of class 6, and the record that the start of a frame leaves. -/
theorem transmitDecisionOrder : Obligations.TransmitDecisionOrder := by
  unfold Obligations.TransmitDecisionOrder
  refine ⟨fun s p hi => State.txDecide_busy hi, fun s p hi hp hq => ?class7,
    fun s p q hi h7 h6 hq ht => State.txDecide_class6 hi (State.next7_none h7) h6 hq ht,
    fun s p q hq => leastBy_some hq, fun s p q i rest hq => ⟨_, State.startFrame_sending hq p, rfl, rfl, rfl, rfl⟩⟩
  obtain ⟨q, hmem, hok, h7⟩ := State.next7_of_eligible hp hq
  exact ⟨q, hmem, hok, State.txDecide_class7 hi h7⟩

/-! ### Timers (R294, R300, R305) -/

theorem State.gateOpen_limit {s : State} {p t : Nat} (h : s.openLimit p = some t) :
    s.gateOpen p = if t ≤ s.ns then s.txDecide p else s := by
  rw [State.gateOpen, h]

theorem State.txEnd_sending {s : State} {p : Nat} {t : TxSt} (h : (s.port p).tx = some t) :
    s.txEnd p = if t.ends ≤ s.ns then (s.endFrame p t).txDecide p else s := by
  rw [State.txEnd, h]

theorem State.fitExpire_refused {s : State} {q t : Nat} (h : (s.queue q).fitAt = some t) :
    s.fitExpire q = if t ≤ s.ns then s.txDecide (s.queue q).dest else s := by
  simp [State.fitExpire, State.forced, h]

/-! ### Buckets (R301, R303) -/

/-- A credit at most fills the bucket, and takes nothing from one that is not over its burst. -/
theorem State.creditBk_bounds {s : State} {a : Nat} {b : Bucket} (h : b.tokens ≤ Int.ofNat (s.bkBurst a * 2 ^ 16)) :
    (s.creditBk a b).tokens ≤ Int.ofNat (s.bkBurst a * 2 ^ 16) ∧ b.tokens ≤ (s.creditBk a b).tokens :=
  ⟨Int.min_le_right _ _, Int.le_min.2 ⟨Int.le_add_of_nonneg_right (Int.natCast_nonneg _), h⟩⟩

/-- Where one policer's bucket is the only one, it alone is credited. -/
theorem State.creditAll_policer {s : State} {f : Nat} {b : Bucket} (hpsh : s.tmg.psh = []) (hqsh : s.tmg.qsh = [])
    (hpol : s.tmg.pol = [(f, b)]) (ha : b.asks = []) : s.creditAll =
    if s.bkEn (polAddr f) then { s with tmg := { s.tmg with pol := Tbl.put s.tmg.pol f (s.creditBk (polAddr f) b) } } else s := by
  have hb : s.pol f = b := by simp [State.pol, hpol, Tbl.get, Tbl.find]
  have hasks : (s.creditBk (polAddr f) b).asks = [] := ha
  simp [State.creditAll, hpsh, hqsh, hpol, hb, hasks]

/-! ### Commands -/

section Commands

variable {s : State} (hw : s.works bTMG = true)
include hw

theorem exec_gateOpen (p : PortId) : exec (.gateOpen p) s = .next (s.after (s.gateOpen p.val)) := by
  show execGateOpen p s = _
  exact act_of hw _ s

theorem exec_fitMaxExpire (q : QueueId) : exec (.fitMaxExpire q) s = .next (s.after (s.fitExpire q.val)) := by
  show execFitMaxExpire q s = _
  exact act_of hw _ s

theorem exec_tokenCredit : exec .tokenCredit s = .next (s.after s.tokenCredit) := by
  show execTokenCredit s = _
  exact act_of hw _ s

end Commands

theorem exec_frameTxEnd {s : State} (hw : s.live = true) (p : PortId) : exec (.frameTxEnd p) s = .next (s.after (s.txEnd p.val)) := by
  show execFrameTxEnd p s = _
  exact act_of hw _ s

/-- Settles O25: each timer by its time, and a credit by its bounds. -/
theorem trafficCommandsAnswer : Obligations.TrafficCommandsAnswer := by
  unfold Obligations.TrafficCommandsAnswer
  refine ⟨fun p t0 s hw hg => ?gate, fun p t s hw ht => ?frameEnd, fun q t0 s hw hf => ?fit, fun s hw ht => ?credit,
    fun s f b hpsh hqsh hpol ha => ?policer, fun s a b h => State.creditBk_bounds h⟩
  case gate =>
    rw [exec_gateOpen hw, State.gateOpen_limit hg]
    exact ⟨fun ht => by rw [if_pos ht], fun ht => by rw [if_neg (Nat.not_le.2 ht)]⟩
  case frameEnd =>
    rw [exec_frameTxEnd hw, State.txEnd_sending ht]
    exact ⟨fun ht => by rw [if_pos ht], fun ht => by rw [if_neg (Nat.not_le.2 ht)]⟩
  case fit =>
    rw [exec_fitMaxExpire hw, State.fitExpire_refused hf]
    exact ⟨fun ht => by rw [if_pos ht], fun ht => by rw [if_neg (Nat.not_le.2 ht)]⟩
  case credit => rw [exec_tokenCredit hw, State.tokenCredit, if_pos ht]
  case policer =>
    rw [State.creditAll_policer hpsh hqsh hpol ha]
    refine ⟨fun he => ?_, fun he => by simp [he]⟩
    rw [if_pos he]
    exact Tbl.get_put_same ..

end Sys2Proof.Machine
end

section
/-! SUPPORT. Received frames (R276, R286, R303, R314, R386): a frame by the first check that it fails, and one that passes them by its flow. -/

namespace Sys2Proof.Machine

open Sys2Proof

/-- A good frame counted, before it is classified (R314). -/
def State.countRx (s : State) (p : Nat) (f : RxFrame) : State := (s.bumpU bPRT (p + 1) 0 1).bumpU bPRT (p + 1) 1 f.length

/-- The copy of a frame that its mirrors take (R286). -/
def mirroredFrame (f : RxFrame) : Copy := { kind := .forward, len := f.length, data := f.bytes }

/-- A frame of flow `r` after its policer's answer: written in its class, in class 0, or not at all (R303). -/
def State.takePoliced (p r cls : Nat) (f : RxFrame) : State × Policed → State
  | (s, .drop) => s
  | (s, .pass) => (s.mirrorAll false (some r) p (mirroredFrame f)).writeFlow p r cls f.length f.bytes
  | (s, .mark) => (s.mirrorAll false (some r) p (mirroredFrame f)).writeFlow p r 0 f.length f.bytes

/-- A good frame inside the headroom: for a handler, for the exception ring, or for its flow. -/
def State.acceptFrame (s : State) (p cls : Nat) (f : RxFrame) : State :=
  let m := s.mirrorAll false none p (mirroredFrame f)
  if f.erelm then m.ptpRx p f.bytes
  else match s.flowOf p f with
    | none => m.exception p cls f
    | some r => State.takePoliced p r cls f (m.police (r - m.partBase 2) f.length p cls)

section Accept

variable (s : State) (p cls : Nat) {f : RxFrame}

theorem State.acceptFrame_handler (he : f.erelm = true) :
    s.acceptFrame p cls f = (s.mirrorAll false none p (mirroredFrame f)).ptpRx p f.bytes := if_pos he

theorem State.acceptFrame_exception (he : f.erelm = false) (hr : s.flowOf p f = none) :
    s.acceptFrame p cls f = (s.mirrorAll false none p (mirroredFrame f)).exception p cls f := by
  simp [State.acceptFrame, he, hr]

theorem State.acceptFrame_flow (he : f.erelm = false) {r : Nat} (hr : s.flowOf p f = some r) {v : State} {x : Policed}
    (hx : (s.mirrorAll false none p (mirroredFrame f)).police (r - (s.mirrorAll false none p (mirroredFrame f)).partBase 2)
      f.length p cls = (v, x)) : s.acceptFrame p cls f = State.takePoliced p r cls f (v, x) := by
  simp [State.acceptFrame, he, hr, hx]

end Accept

section Checks

variable {s : State} {p : Nat} {f : RxFrame}

theorem State.frameRx_down (hp : (s.port p).ph ≠ .up) : s.frameRx p f = s := if_pos hp

variable (hp : (s.port p).ph = .up)
include hp

theorem State.frameRx_badFcs (hf : f.fcsOk = false) : s.frameRx p f = s.bumpU bPRT (p + 1) 4 1 := by
  simp [State.frameRx, hp, hf]

variable (hf : f.fcsOk = true)
include hf

theorem State.frameRx_short (hl : f.length < 64) : s.frameRx p f = s.bumpU bPRT (p + 1) 5 1 := by
  simp [State.frameRx, hp, hf, hl]

variable (hmin : 64 ≤ f.length)
include hmin

theorem State.frameRx_long (hl : fld (s.prtCfg p) 0 14 < f.length) : s.frameRx p f = s.bumpU bPRT (p + 1) 6 1 := by
  simp [State.frameRx, hp, hf, Nat.not_lt.2 hmin, hl]

variable (hmax : f.length ≤ fld (s.prtCfg p) 0 14)
include hmax

/-- A frame that passes every check is counted, and discarded where it goes beyond the headroom (R276). -/
theorem State.frameRx_good : s.frameRx p f =
    let u := s.countRx p f
    if u.beyondHeadroom p (u.ingressClass p f) (cellsFor f.length) then u.headroomDiscard p
    else u.acceptFrame p (u.ingressClass p f) f := by
  unfold State.frameRx
  rw [if_neg (Classical.not_not.2 hp), if_neg (by simp [hf]), if_neg (Nat.not_lt.2 hmin), if_neg (Nat.not_lt.2 hmax)]
  rfl

theorem State.frameRx_late
    (hl : (s.countRx p f).beyondHeadroom p ((s.countRx p f).ingressClass p f) (cellsFor f.length) = true) :
    s.frameRx p f = (s.countRx p f).headroomDiscard p :=
  (State.frameRx_good hp hf hmin hmax).trans (if_pos hl)

theorem State.frameRx_accepted
    (hl : (s.countRx p f).beyondHeadroom p ((s.countRx p f).ingressClass p f) (cellsFor f.length) = false) :
    s.frameRx p f = (s.countRx p f).acceptFrame p ((s.countRx p f).ingressClass p f) f :=
  (State.frameRx_good hp hf hmin hmax).trans (if_neg (Bool.not_eq_true _ ▸ hl))

end Checks

theorem exec_frameReceived {s : State} (hw : s.live = true) (p : PortId) (f : RxFrame) :
    exec (.frameReceived p f) s = .next (s.after (s.frameRx p.val f)) := by
  show execFrameReceived p f s = _
  exact act_of hw _ s

/-- Settles O26: the checks in their order, and a good frame by its handler, its flow and its policer. -/
theorem frameReceptionAnswers : Obligations.FrameReceptionAnswers := by
  unfold Obligations.FrameReceptionAnswers
  intro p f s hw
  rw [exec_frameReceived hw]
  refine ⟨fun hp => ?down, fun hp hf => ?badFcs, fun hp hf hl => ?short, fun hp hf hmin hl => ?long,
    fun hp ⟨hf, hmin, hmax⟩ hl => ?late, fun hp ⟨hf, hmin, hmax⟩ hl he => ?handler,
    fun hp ⟨hf, hmin, hmax⟩ hl he hr => ?exception, fun r v x hp ⟨hf, hmin, hmax⟩ hl he hr hx => ?flow⟩
  case down => rw [State.frameRx_down hp]
  case badFcs => rw [State.frameRx_badFcs hp hf]
  case short => rw [State.frameRx_short hp hf hl]
  case long => rw [State.frameRx_long hp hf hmin hl]
  case late =>
    rw [State.frameRx_late hp hf hmin hmax hl]
    rfl
  case handler =>
    rw [State.frameRx_accepted hp hf hmin hmax hl, State.acceptFrame_handler _ _ _ he]
    rfl
  case exception =>
    rw [State.frameRx_accepted hp hf hmin hmax hl, State.acceptFrame_exception (s.countRx p.val f) _ _ he hr]
    rfl
  case flow =>
    rw [State.frameRx_accepted hp hf hmin hmax hl,
      State.acceptFrame_flow (s.countRx p.val f) p.val ((s.countRx p.val f).ingressClass p.val f) he hr hx]
    cases x <;> rfl

end Sys2Proof.Machine
end

section
/-! SUPPORT. The whole module (R430, R434, R440, R454, R478): a module without supply, the safe state, and what every step leaves of the queue. -/

namespace Sys2Proof.Machine

open Sys2Proof

/-- A command whose part does not work changes nothing: `act_false` under the condition as a hypothesis. -/
theorem act_idle {ok : Bool} (h : ok = false) (f : State → State) (s : State) : act ok f s = .next s := by
  rw [h, act_false]

/-! ### Without supply no part works -/

section Unsupplied

variable {s : State} (hu : s.plt.up = false)
include hu

theorem State.live_unsupplied : s.live = false := by simp [State.live, hu]
theorem State.pcie_unsupplied : s.pcie = false := by simp [State.pcie, hu]
theorem State.cmdsRun_unsupplied : s.cmdsRun = false := by simp [State.cmdsRun, State.live_unsupplied hu]
theorem State.works_unsupplied (b : Nat) : s.works b = false := by simp [State.works, State.live_unsupplied hu]
theorem State.mscWorks_unsupplied : s.mscWorks = false := by simp [State.mscWorks, State.works_unsupplied hu]
theorem State.spWorks_unsupplied (d : Nat) : s.spWorks d = false := by simp [State.spWorks, State.live_unsupplied hu]
theorem State.memAwake_unsupplied : s.memAwake = false := by simp [State.memAwake, State.live_unsupplied hu]
theorem State.barServes_unsupplied (a : Nat) : s.barServes a = false := by simp [State.barServes, hu]
theorem State.barTakes_unsupplied (a : Nat) : s.barTakes a = false := by simp [State.barTakes, State.barServes_unsupplied hu]
theorem State.hdrTakes_unsupplied (u : UnitId) : s.hdrTakes u = false := by simp [State.hdrTakes, State.barTakes_unsupplied hu]
theorem State.dmaMay_unsupplied (c : Nat) : s.dmaMay c = false := by
  simp [State.dmaMay, State.live_unsupplied hu, State.barTakes_unsupplied hu]

/-- Every command but the four that a module without supply can still take (R430, R434, R440, R478) finds nothing that takes it. -/
theorem exec_unsupplied {c : Instr} (hv : ∀ b, c = .vinRise b → s.plt.thermal = true)
    (ht : ∀ b, c = .thermalRestart b → s.plt.thermal = false)
    (ho : (c = .vinLockout ∨ ∃ n b, c = .wakeN n b) → s.plt.cur ≠ 4) : exec c s = .next s := by
  cases c <;> simp only [exec]
  case vinRise b => exact act_idle (by simp [hv b rfl]) _ s
  case thermalRestart b => exact act_idle (ht b rfl) _ s
  case vinLockout => exact act_idle (by simp [hu, ho (.inl rfl)]) _ s
  case wakeN n b => exact act_idle (by simp [hu, ho (.inr ⟨n, b, rfl⟩)]) _ s
  case hello h b =>
    refine act_idle ?_ _ s
    cases s.helloSess h <;> simp [State.spWorks_unsupplied hu, State.live_unsupplied hu]
  all_goals
    exact act_idle (by simp [hu, State.live_unsupplied, State.pcie_unsupplied, State.cmdsRun_unsupplied, State.works_unsupplied,
      State.mscWorks_unsupplied, State.spWorks_unsupplied, State.memAwake_unsupplied, State.barServes_unsupplied,
      State.barTakes_unsupplied, State.hdrTakes_unsupplied, State.dmaMay_unsupplied]) _ s

end Unsupplied

/-! ### In the safe state nothing of the host's is taken (R454) -/

section Safe

variable {s : State} (hs : s.flt.safe = true)
include hs

theorem State.cmdsRun_safe : s.cmdsRun = false := by simp [State.cmdsRun, hs]
theorem State.barTakes_safe (a : Nat) : s.barTakes a = false := by simp [State.barTakes, hs]
theorem State.hdrTakes_safe (u : UnitId) : s.hdrTakes u = false := by simp [State.hdrTakes, State.barTakes_safe hs]

theorem exec_safe {c : Instr} (hc : fromHost c = true) : exec c s = .next s := by
  cases c <;> simp only [exec]
  case complete t v => exact act_idle (by simp [Nat.not_lt.2 (of_decide_eq_true hc), State.barTakes_safe hs]) _ s
  case thaw t v => exact act_idle (by simp [Nat.not_lt.2 (of_decide_eq_true hc), State.barTakes_safe hs]) _ s
  case dmaGo c v => exact act_idle (by simp [State.dmaMay, Nat.not_lt.2 (of_decide_eq_true hc), State.barTakes_safe hs]) _ s
  case dmaResume c v => exact act_idle (by simp [State.dmaMay, Nat.not_lt.2 (of_decide_eq_true hc), State.barTakes_safe hs]) _ s
  all_goals first
    | exact absurd hc Bool.false_ne_true
    | exact act_idle (by simp [State.cmdsRun_safe hs, State.barTakes_safe hs, State.hdrTakes_safe hs]) _ s

end Safe

/-- Settles O58: no part works without supply, and none takes a command of the host's in the safe state. -/
theorem unsuppliedOrSafeModuleIsInert : Obligations.UnsuppliedOrSafeModuleIsInert :=
  ⟨fun _ _ hu => exec_unsupplied hu, fun _ _ hs hc => exec_safe hs hc⟩

/-! ### The queue -/

theorem State.after_pending (s t : State) : (s.after t).pending = s.pending := by
  simp only [State.after]

/-- No command touches the queue. -/
theorem exec_pending (c : Instr) (s : State) : ∃ t : State, exec c s = .next t ∧ t.pending = s.pending := by
  obtain h | ⟨u, h⟩ := exec_form c s
  · exact ⟨s, h, rfl⟩
  · exact ⟨s.after u, h, State.after_pending s u⟩

theorem step_pending (s : State) : ∃ t : State, step s = .next t ∧ t.pending = s.pending.tail := by
  unfold step
  split
  next hp => exact ⟨_, rfl, by simp [hp]⟩
  next c rest hp =>
    obtain ⟨t, ht, hq⟩ := exec_pending c { s with pending := rest }
    exact ⟨t, ht, by simp [hq, hp]⟩

/-- Settles O60: no command touches the queue, and a part of a well-formed queue is well formed. -/
theorem stepTakesTheFrontAndKeepsTheRest : Obligations.StepTakesTheFrontAndKeepsTheRest := by
  intro s hw
  obtain ⟨t, ht, hp⟩ := step_pending s
  refine ⟨t, ht, hp, ?_⟩
  rw [State.queueWf, List.all_eq_true] at hw ⊢
  exact fun c hc => hw c (List.mem_of_mem_tail (hp ▸ hc))

/-- Settles O2: a quiet state is settled. -/
theorem settledStateStands : Obligations.SettledStateStands := by
  intro c s t he hq
  rw [he, State.after, quiet_ended hq]

/-- Settles O59: each conjunct is a field of the unpowered state. -/
theorem resetIsWithoutSupply : Obligations.ResetIsWithoutSupply := by
  refine ⟨rfl, rfl, ?_, rfl, rfl, rfl, rfl⟩
  exact (State.memoryWf_iff _).2 ⟨rfl, rfl, rfl⟩

end Sys2Proof.Machine
end

section
/-! SUPPORT. Counters (R69), and what a raise leaves of its source and of the records that wait for the fault log (R449 to R451, R457). -/

namespace Sys2Proof.Machine

open Sys2Proof

/-! ### Counters (R69) -/

/-- A raised counter wraps at 48 bits. -/
@[simp] theorem State.cntOf_bumpU_same (s : State) (b u n k : Nat) : (s.bumpU b u n k).cntOf b u n = (s.cntOf b u n + k) % 2 ^ 48 :=
  Tbl.get_put_same ..

@[simp] theorem State.cntOf_bump_same (s : State) (b n : Nat) : (s.bump b n).cntOf b 0 n = (s.cntOf b 0 n + 1) % 2 ^ 48 :=
  Tbl.get_put_same ..

theorem State.cntOf_bumpU_other (s : State) {b u n k c v m : Nat} (h : cntKey c v m ≠ cntKey b u n) :
    (s.bumpU b u n k).cntOf c v m = s.cntOf c v m :=
  Tbl.get_put_other 0 s.cnt _ h

theorem State.cntOf_of_cnt {s t : State} (h : t.cnt = s.cnt) (b u n : Nat) : t.cntOf b u n = s.cntOf b u n := by
  rw [State.cntOf, State.cntOf, h]

/-- A counter of another block than HQE and EVC reads as before where those alone have counted. -/
theorem State.cntKept.cntOf {s t : State} (h : s.cntKept t) {b u n : Nat} (hk : cntKey b u n < 131072 ∨ 196608 ≤ cntKey b u n) :
    t.cntOf b u n = s.cntOf b u n :=
  h _ hk

/-! ### The source of a raise (R451) -/

/-- A source of FLT but for its contact. -/
def State.fltBare (s : State) (n : Nat) : FltSrc := { s.fltSrc n with pinLatch := false }

theorem State.fltBare_of_srcs {s t : State} (h : t.flt.srcs = s.flt.srcs) (n : Nat) : t.fltBare n = s.fltBare n := by
  simp only [State.fltBare, State.fltSrc, h]

@[simp] theorem State.fltBare_ite (a b : State) (n : Nat) (c : Prop) [Decidable c] :
    (if c then a else b).fltBare n = if c then a.fltBare n else b.fltBare n := apply_ite (fun s => s.fltBare n) c a b
@[simp] theorem State.fltBare_logFault (s : State) (a b c d e n : Nat) : (s.logFault a b c d e).fltBare n = s.fltBare n :=
  State.fltBare_of_srcs rfl n
@[simp] theorem State.fltBare_event (s : State) (e : Ev) (c d n : Nat) : (s.event e c d).fltBare n = s.fltBare n :=
  State.fltBare_of_srcs (by simp) n
@[simp] theorem State.fltBare_emit (s : State) (o : Output) (n : Nat) : (s.emit o).fltBare n = s.fltBare n :=
  State.fltBare_of_srcs rfl n
@[simp] theorem State.fltBare_assertReplace (s : State) (n : Nat) : s.assertReplace.fltBare n = s.fltBare n :=
  State.fltBare_of_srcs rfl n
@[simp] theorem State.fltBare_unitResets (s : State) (l : List Nat) (n : Nat) :
    ({ s with flt := { s.flt with unitResets := l } } : State).fltBare n = s.fltBare n := State.fltBare_of_srcs rfl n
@[simp] theorem State.fltBare_resetReq (s : State) (b : Bool) (n : Nat) :
    ({ s with flt := { s.flt with resetReq := b } } : State).fltBare n = s.fltBare n := State.fltBare_of_srcs rfl n
@[simp] theorem State.fltBare_setFltSrc (s : State) (n : Nat) (x : FltSrc) :
    (s.setFltSrc n x).fltBare n = { x with pinLatch := false } := by
  rw [State.fltBare, State.setFltSrc_same]
@[simp] theorem State.fltBare_latched (s : State) (n : Nat) :
    (s.setFltSrc n { s.fltSrc n with pinLatch := true }).fltBare n = s.fltBare n := by
  rw [State.fltBare_setFltSrc]
  rfl

@[simp] theorem State.fltBare_react (s : State) (n unit cfg : Nat) : (s.react n unit cfg).fltBare n = s.fltBare n := by
  unfold State.react
  dsimp only
  rw [State.fltBare_ite, State.fltBare_latched]
  simp

/-- The source after a raise: sticky, counted, with the outcome and the detail of the raise (R449, R451). -/
theorem State.raiseWith_bare (s : State) (n unit part : Nat) (forced : Bool) :
    (s.raiseWith n unit part forced).fltBare n =
      { s.fltBare n with
        sticky := true, forced := forced, outcome := raiseOutcome n, count := min ((s.fltSrc n).count + 1) 0xFFFF
        detail := w32 (if forced then 0xFFFFFFFF else fld unit 0 16 + fld part 0 16 * 2 ^ 16) } := by
  unfold State.raiseWith
  dsimp only
  cases fltEvent n unit <;> simp <;> exact ⟨rfl, rfl⟩

section Fields

variable (s : State) (n unit part : Nat) (forced : Bool)

theorem State.raiseWith_sticky : ((s.raiseWith n unit part forced).fltSrc n).sticky = true :=
  congrArg FltSrc.sticky (s.raiseWith_bare n unit part forced)
theorem State.raiseWith_forced : ((s.raiseWith n unit part forced).fltSrc n).forced = forced :=
  congrArg FltSrc.forced (s.raiseWith_bare n unit part forced)
theorem State.raiseWith_count : ((s.raiseWith n unit part forced).fltSrc n).count = min ((s.fltSrc n).count + 1) 0xFFFF :=
  congrArg FltSrc.count (s.raiseWith_bare n unit part forced)
theorem State.raiseWith_outcome : ((s.raiseWith n unit part forced).fltSrc n).outcome = raiseOutcome n :=
  congrArg FltSrc.outcome (s.raiseWith_bare n unit part forced)
theorem State.raiseWith_detail : ((s.raiseWith n unit part forced).fltSrc n).detail =
    w32 (if forced then 0xFFFFFFFF else fld unit 0 16 + fld part 0 16 * 2 ^ 16) :=
  congrArg FltSrc.detail (s.raiseWith_bare n unit part forced)

end Fields

/-! ### The records of a raise (R457) -/

/-- The records that wait for the fault log, through a condition. -/
theorem pendingLog_ite (a b : State) (c : Prop) [Decidable c] :
    (if c then a else b).flt.pendingLog = if c then a.flt.pendingLog else b.flt.pendingLog :=
  apply_ite (fun s => s.flt.pendingLog) c a b

@[simp] theorem State.react_pendingLog (s : State) (n unit cfg : Nat) : (s.react n unit cfg).flt.pendingLog = s.flt.pendingLog := by
  unfold State.react
  simp only [pendingLog_ite, State.setFltSrc, ite_self]

@[simp] theorem State.assertReplace_pendingLog (s : State) : s.assertReplace.flt.pendingLog = s.flt.pendingLog := rfl

/-- The record that a raise writes first: the source, with its outcome not yet decided. -/
def State.raiseRec (s : State) (n unit part : Nat) (forced : Bool) : LogRec :=
  { seq := s.flt.nextSeq, boot := s.bootCount, time := s.ns, source := n, outcome := 0, flags := b2n forced
    detail := if forced then 0xFFFFFFFF else fld unit 0 16 + fld part 0 16 * 2 ^ 16 }

/-- The record that a raise writes next where it is lasting at once (R450). -/
def State.lastingRec (s : State) (n unit part : Nat) (forced : Bool) : LogRec :=
  { s.raiseRec n unit part forced with
    seq := wrapAdd s.flt.nextSeq 1 32, outcome := 2, flags := logFlags n (s.fltCfg n) forced true }

theorem State.raiseWith_pendingLog (s : State) (n unit part : Nat) (forced : Bool) :
    (s.raiseWith n unit part forced).flt.pendingLog = s.flt.pendingLog ++
      s.raiseRec n unit part forced :: (if raiseOutcome n = .lasting then [s.lastingRec n unit part forced] else []) := by
  unfold State.raiseWith
  dsimp only
  by_cases hl : raiseOutcome n = .lasting
  · cases fltEvent n unit <;> simp [pendingLog_ite, hl, State.emit] <;> exact List.append_assoc _ [_] [_]
  · cases fltEvent n unit <;> simp [pendingLog_ite, hl, State.emit] <;> rfl

end Sys2Proof.Machine
end

section
/-! SUPPORT. References to buffers (R342, R343, R348 to R351): what a rejected operation leaves as it was, each operation by the outcome of its
checks, the buffer that is freed, and BPM's registers. -/

namespace Sys2Proof.Machine

open Sys2Proof

/-! ### Rejected operations (R348 to R350) -/

@[simp] theorem State.bpmLogAdd_bufs (s : State) (k o a : Nat) (h : W32) : (s.bpmLogAdd k o a h).bpm.bufs = s.bpm.bufs := by
  unfold State.bpmLogAdd
  dsimp only
  split <;> rfl

@[simp] theorem State.bpmLogAdd_pools (s : State) (k o a : Nat) (h : W32) : (s.bpmLogAdd k o a h).bpm.pools = s.bpm.pools := by
  unfold State.bpmLogAdd
  dsimp only
  split <;> rfl

@[simp] theorem State.bpmLogAdd_frames (s : State) (k o a : Nat) (h : W32) : (s.bpmLogAdd k o a h).bpm.frames = s.bpm.frames := by
  unfold State.bpmLogAdd
  dsimp only
  split <;> rfl

@[simp] theorem State.bpmLogAdd_cnt (s : State) (k o a : Nat) (h : W32) : (s.bpmLogAdd k o a h).cnt = s.cnt := by
  unfold State.bpmLogAdd
  dsimp only
  split <;> rfl

@[simp] theorem State.bpmLogAdd_flt (s : State) (k o a : Nat) (h : W32) : (s.bpmLogAdd k o a h).flt = s.flt := by
  unfold State.bpmLogAdd
  dsimp only
  split <;> rfl

/-- A double free changes the log, a counter, and what a raise changes. -/
@[simp] theorem State.doubleFree_bpm (s : State) (o a : Nat) (h : W32) : (s.doubleFree o a h).bpm = (s.bpmLogAdd 1 o a h).bpm := by
  rw [State.doubleFree, State.raise_bpm]
  rfl

@[simp] theorem State.wrongOwner_bpm (s : State) (o a : Nat) (h : W32) : (s.wrongOwner o a h).bpm = (s.bpmLogAdd 2 o a h).bpm := by
  rw [State.wrongOwner, State.raise_bpm]
  rfl

theorem State.wrongOwner_buf (s : State) (o a k : Nat) (h : W32) : (s.wrongOwner o a h).buf k = s.buf k := by
  simp [State.buf]

theorem State.doubleFree_buf (s : State) (o a k : Nat) (h : W32) : (s.doubleFree o a h).buf k = s.buf k := by
  simp [State.buf]

/-- The log takes a rejected operation while it has room. -/
theorem State.bpmLogAdd_room {s : State} (hr : s.bpm.log.length < 64) (k o a : Nat) (h : W32) :
    ∃ e : BpmLog, (s.bpmLogAdd k o a h).bpm.log = s.bpm.log ++ [e] ∧ e.kind = k ∧ e.op = o ∧ e.agent = a ∧ e.handle = h ∧
      e.seq = (s.bpm.logSeq + 1) % 256 := by
  unfold State.bpmLogAdd
  rw [if_pos hr]
  exact ⟨_, rfl, rfl, rfl, rfl, rfl, rfl⟩

/-- A full log loses it, counts the loss, and advances its sequence. -/
theorem State.bpmLogAdd_full {s : State} (hr : 64 ≤ s.bpm.log.length) (k o a : Nat) (h : W32) :
    (s.bpmLogAdd k o a h).bpm = { s.bpm with logLost := min (s.bpm.logLost + 1) 0xFFFF, logSeq := (s.bpm.logSeq + 1) % 256 } := by
  unfold State.bpmLogAdd
  rw [if_neg (Nat.not_lt.2 hr)]
  rfl

theorem State.doubleFree_cntOf (s : State) (o a : Nat) (h : W32) :
    (s.doubleFree o a h).cntOf bBPM 0 3 = (s.cntOf bBPM 0 3 + 1) % 2 ^ 48 := by
  rw [State.doubleFree, State.cntOf_raise _ _ _ _ _ _ _ (.inr (by decide)), State.cntOf_bump_same,
    State.cntOf_of_cnt (State.bpmLogAdd_cnt s 1 o a h)]

theorem State.doubleFree_count (s : State) (o a : Nat) (h : W32) :
    ((s.doubleFree o a h).fltSrc fBpmDoubleFree).count = min ((s.fltSrc fBpmDoubleFree).count + 1) 0xFFFF := by
  rw [State.doubleFree, State.raise, State.raiseWith_count, State.fltSrc, State.fltSrc]
  change min ((Tbl.get {} (s.bpmLogAdd 1 o a h).flt.srcs fBpmDoubleFree).count + 1) 0xFFFF = _
  rw [State.bpmLogAdd_flt]

/-! ### Operations by their checks (R342, R343, R348, R349) -/

section Refs

variable {s : State} {h : W32} {a : Nat}

theorem State.incRef_refused {p : Bool}
    (hx : s.stale h = true ∨ (s.buf (hKey h)).alloc = false ∨ 1023 ≤ (s.buf (hKey h)).count ∨ (p = true ∧ (s.buf (hKey h)).count = 0)) :
    s.incRef p h = (s.bump bBPM (if p then 6 else 5), false) := by
  unfold State.incRef
  refine if_pos ?_
  simpa [or_assoc] using hx

/-- A buffer that is free, a stale handle, or a buffer of another type than FRAME without a reference: a double free. -/
theorem State.isDouble_of
    (hx : (s.buf (hKey h)).alloc = false ∨ s.stale h = true ∨ (s.isFrame h = false ∧ (s.buf (hKey h)).count = 0)) :
    s.isDouble h = true := by
  rcases hx with hx | hx | ⟨hf, hc⟩ <;> simp [State.isDouble, *]

/-- A double free frees nothing, so no picture that the buffer stands for loses its reference. -/
theorem State.freeing_doubleFree (s : State) (h : W32) (o a b : Nat) :
    s.freeing (s.doubleFree o a h) b h = s.doubleFree o a h := by
  unfold State.freeing State.aliasGone
  rw [State.doubleFree_buf]
  cases (s.buf (hKey h)).alloc <;> rfl

theorem State.decRefA_double (hd : s.isDouble h = true) : s.decRefA a h = s.doubleFree oDEC a h := by
  rw [State.decRefA, State.decRef, hd, Bool.true_or, if_pos rfl, State.freeing_doubleFree]

theorem State.freeRefA_double (hd : s.isDouble h = true) : s.freeRefA a h = s.doubleFree oFREE a h := by
  rw [State.freeRefA, State.freeRef, if_pos hd, State.freeing_doubleFree]

theorem State.clrMarkA_double {m : Nat} (hd : s.isDouble h = true ∨ (s.isFrame h = true ∧ tb (s.buf (hKey h)).marks m = false)) :
    s.clrMarkA a h m = s.doubleFree oCLRMARK a h := by
  have hc : s.clrMark a h m = s.doubleFree oCLRMARK a h := by
    unfold State.clrMark
    refine if_pos ?_
    simpa using hd
  rw [State.clrMarkA, hc, State.freeing_doubleFree]

section Held

variable (hs : s.stale h = false) (ha : (s.buf (hKey h)).alloc = true)
include hs ha

theorem State.incRef_adds (hc : (s.buf (hKey h)).count < 1023) {p : Bool} (hp : p = true → 0 < (s.buf (hKey h)).count) :
    s.incRef p h = (s.setBuf (hKey h) { s.buf (hKey h) with count := (s.buf (hKey h)).count + 1 }, true) := by
  simpa [State.incRef, hs, ha, hc] using fun e => Nat.ne_of_gt (hp e)

theorem State.xferRef_moves (ho : (s.buf (hKey h)).owner = a) (b : Nat) :
    s.xferRef a h b = s.setBuf (hKey h) { s.buf (hKey h) with owner := b } := by
  simp [State.xferRef, hs, ha, ho]

variable (hc : 0 < (s.buf (hKey h)).count)
include hc

theorem State.isDouble_held : s.isDouble h = false := by simp [State.isDouble, hs, ha, Nat.ne_of_gt hc]

/-- The DEC of a buffer with a reference releases it. -/
theorem State.decRef_drops : s.decRef a h = s.dropRef h := by
  simp [State.decRef, State.isDouble_held hs ha hc, Nat.ne_of_gt hc]

/-- So does its owner's FREE. -/
theorem State.freeRef_drops (ho : (s.buf (hKey h)).owner = a) : s.freeRef a h = s.dropRef h := by
  simp [State.freeRef, State.isDouble_held hs ha hc, ho, Nat.ne_of_gt hc]

theorem State.freeRefA_wrongOwner (ho : (s.buf (hKey h)).owner ≠ a) : s.freeRefA a h = s.wrongOwner oFREE a h := by
  rw [State.freeRefA, State.freeRef, State.isDouble_held hs ha hc, if_neg Bool.false_ne_true, if_pos ho,
    State.freeing_plain (.inl (by rwa [State.wrongOwner_buf]))]

end Held

theorem State.xferRef_wrongOwner (hx : s.stale h = true ∨ (s.buf (hKey h)).alloc = false ∨ (s.buf (hKey h)).owner ≠ a) (b : Nat) :
    s.xferRef a h b = s.wrongOwner oXFER a h := by
  unfold State.xferRef
  refine if_pos ?_
  simpa [or_assoc] using hx

/-- A reference released on a buffer that another reference or a mark holds. -/
theorem State.dropRef_keeps (hk : 1 < (s.buf (hKey h)).count ∨ ((s.buf (hKey h)).count = 1 ∧ (s.buf (hKey h)).marks ≠ 0)) :
    s.dropRef h = s.setBuf (hKey h) { s.buf (hKey h) with count := (s.buf (hKey h)).count - 1 } := by
  unfold State.dropRef
  refine if_neg ?_
  simp only [Bool.and_eq_true, decide_eq_true_eq, beq_iff_eq]
  omega

/-- The last reference released on a buffer without a mark frees it. -/
theorem State.dropRef_frees (hc : (s.buf (hKey h)).count = 1) (hm : (s.buf (hKey h)).marks = 0) :
    s.dropRef h = (s.setBuf (hKey h) { s.buf (hKey h) with count := 0 }).freeBuf h := by
  simp [State.dropRef, hc, hm]

/-- A reference released on a buffer that stays allocated, and so keeps the picture it stands for. -/
theorem State.freeing_dropRef_keeps (ha : (s.buf (hKey h)).alloc = true)
    (hk : 1 < (s.buf (hKey h)).count ∨ ((s.buf (hKey h)).count = 1 ∧ (s.buf (hKey h)).marks ≠ 0)) (b : Nat) :
    s.freeing (s.dropRef h) b h = s.setBuf (hKey h) { s.buf (hKey h) with count := (s.buf (hKey h)).count - 1 } := by
  rw [State.dropRef_keeps hk, State.freeing_plain (.inl (by rwa [State.setBuf_same]))]

theorem State.freeing_dropRef_frees (hc : (s.buf (hKey h)).count = 1) (hm : (s.buf (hKey h)).marks = 0)
    (hattr : tb (s.frame h).attr 0 = false) (b : Nat) :
    s.freeing (s.dropRef h) b h = (s.setBuf (hKey h) { s.buf (hKey h) with count := 0 }).freeBuf h := by
  rw [State.dropRef_frees hc hm, State.freeing_plain (.inr (by rwa [State.freeBuf_frame]))]

end Refs

/-! ### The buffer freed (R342, R343) -/

@[simp] theorem State.cntKept_setPool (s t : State) (p : Nat) (x : Pool) : s.cntKept (t.setPool p x) ↔ s.cntKept t :=
  State.cntKept_iff (fun _ _ => rfl)

@[simp] theorem State.cntKept_poolLevels (s t : State) : s.cntKept t.poolLevels ↔ s.cntKept t := by
  unfold State.poolLevels
  simp

@[simp] theorem State.cntKept_thresholds (s t : State) (p : Nat) : s.cntKept (t.thresholds p) ↔ s.cntKept t := by
  refine State.cntKept_iff ?_
  unfold State.thresholds
  simp

section Freed

variable {s : State} {h : W32} (hw : (s.buf (hKey h)).withheld = false)
include hw

/-- The buffer that no retired page withholds goes back to its pool. -/
theorem State.freeBuf_returns :
    s.freeBuf h =
      let b := s.buf (hKey h)
      let t := (s.setBuf (hKey h) { b with alloc := false, owner := 0, count := 0, marks := 0, gen := (b.gen + 1) % 128 }).bump bBPM 1
      (t.setPool (hPool h) { s.pool (hPool h) with free := (s.pool (hPool h)).free + 1 }).thresholds (hPool h) := by
  unfold State.freeBuf
  simp only [hw, Bool.false_eq_true, if_false]
  rfl

theorem State.freeBuf_buf_same : (s.freeBuf h).buf (hKey h) =
    { s.buf (hKey h) with alloc := false, owner := 0, count := 0, marks := 0, gen := ((s.buf (hKey h)).gen + 1) % 128 } := by
  rw [State.freeBuf_returns hw, State.thresholds_buf]
  exact State.setBuf_same ..

theorem State.freeBuf_buf_other {k : Nat} (hk : k ≠ hKey h) : (s.freeBuf h).buf k = s.buf k := by
  rw [State.freeBuf_returns hw, State.thresholds_buf]
  exact State.setBuf_other _ _ _ _ hk

theorem State.freeBuf_poolFree : ((s.freeBuf h).pool (hPool h)).free = (s.pool (hPool h)).free + 1 := by
  rw [State.freeBuf_returns hw, State.thresholds_poolFree, State.setPool_same]

theorem State.freeBuf_frees : (s.freeBuf h).cntOf bBPM 0 1 = (s.cntOf bBPM 0 1 + 1) % 2 ^ 48 := by
  rw [State.freeBuf_returns hw, State.cntKept.cntOf ((State.cntKept_thresholds _ _ _).2 ((State.cntKept_self _).2 trivial)) (.inr (by decide))]
  exact State.cntOf_bump_same ..

/-- The handle that freed the buffer carries the generation before (R340). -/
theorem State.freeBuf_stale (hs : s.stale h = false) : (s.freeBuf h).stale h = true := by
  have hg : (s.buf (hKey h)).gen = hGen h := by simpa using (Bool.or_eq_false_iff.1 hs).1
  have hlt : hGen h < 128 := fld_lt _ _ _
  rw [State.stale, State.freeBuf_buf_same hw, hg]
  simp only [ne_eq, Bool.or_eq_true, decide_eq_true_eq]
  exact .inl (by omega)

end Freed

/-- Settles O34: the buffer as its freeing leaves it, and its generation one higher than its handle's. -/
theorem freedBufferReturnsOnce : Obligations.FreedBufferReturnsOnce := by
  intro s h hw hs
  have hstale := State.freeBuf_stale hw hs
  refine ⟨State.freeBuf_buf_same hw, State.freeBuf_poolFree hw, State.freeBuf_frees hw, hstale, State.isDouble_of (.inr (.inl hstale)), ?_,
    fun k hk => State.freeBuf_buf_other hw hk⟩
  rw [State.incRef_refused (.inl hstale)]

/-! ### Commands -/

section Commands

variable {s : State} (hl : s.live = true) (a : Byte) (h : W32)
include hl

theorem exec_inc : exec (.inc a h) s = .next (s.after (s.incRef false h).1) := by
  show execInc a h s = _
  exact act_of hl _ s

theorem exec_pin : exec (.pin a h) s = .next (s.after (s.incRef true h).1) := by
  show execPin a h s = _
  exact act_of hl _ s

theorem exec_dec : exec (.dec a h) s = .next (s.after (s.decRefA a.toNat h)) := by
  show execDec a h s = _
  exact act_of hl _ s

theorem exec_free : exec (.free a h) s = .next (s.after (s.freeRefA a.toNat h)) := by
  show execFree a h s = _
  exact act_of hl _ s

theorem exec_xfer (b : Byte) : exec (.xfer a h b) s = .next (s.after (s.xferRef a.toNat h b.toNat)) := by
  show execXfer a h b s = _
  exact act_of hl _ s

end Commands

/-- Settles O35: each cause is a double free by the operation's own check; the log, the counter and the raise are those of `State.doubleFree`. -/
theorem doubleFreeIsRejected : Obligations.DoubleFreeIsRejected := by
  intro a h s hl
  refine ⟨fun hx => ?causes, fun m hf hm => ?clear, fun op => ?effects⟩
  case causes =>
    have hd := State.isDouble_of hx
    refine ⟨?_, ?_, fun m => ?_⟩
    · rw [exec_dec hl, State.decRefA_double hd]
    · rw [exec_free hl, State.freeRefA_double hd]
    · rw [exec_clrmark hl, State.clrMarkA_double (.inl hd)]
  case clear => rw [exec_clrmark hl, State.clrMarkA_double (.inr ⟨hf, hm⟩)]
  case effects =>
    refine ⟨by simp, by simp, by simp, State.doubleFree_cntOf .., fun hr => ?_, fun hr => ?_, State.raise_sticky .., State.doubleFree_count ..⟩
    · rw [State.doubleFree_bpm]
      exact State.bpmLogAdd_room hr 1 op a.toNat h
    · rw [State.doubleFree_bpm, State.bpmLogAdd_full hr]
      exact ⟨rfl, rfl, rfl⟩

/-- Settles O33: each operation by the outcome of its checks. -/
theorem bufferReferencesAnswer : Obligations.BufferReferencesAnswer := by
  intro a h s hl
  refine ⟨fun hs ha hc => ?inc, fun hx => ?incRefused, fun hs ha h0 hc => ?pin, fun hx => ?pinRefused, fun hs ha hk => ⟨?dec, fun ho => ?free⟩,
    fun hs ha hc hm hattr => ⟨?decLast, fun ho => ?freeLast⟩, fun hs ha h0 ho => ?wrong, fun b hs ha ho => ?xfer, fun b hx => ?xferWrong⟩
  case inc => rw [exec_inc hl, State.incRef_adds hs ha hc (fun e => absurd e Bool.false_ne_true)]
  case incRefused =>
    rw [exec_inc hl, State.incRef_refused (hx.imp_right (Or.imp_right .inl))]
    rfl
  case pin => rw [exec_pin hl, State.incRef_adds hs ha hc (fun _ => h0)]
  case pinRefused =>
    rw [exec_pin hl, State.incRef_refused (hx.imp_right (Or.imp_right (Or.imp_right fun e => ⟨rfl, e⟩)))]
    rfl
  case dec =>
    rw [exec_dec hl, State.decRefA, State.decRef_drops hs ha (by omega), State.freeing_dropRef_keeps ha hk]
  case free =>
    rw [exec_free hl, State.freeRefA, State.freeRef_drops hs ha (by omega) ho, State.freeing_dropRef_keeps ha hk]
  case decLast =>
    rw [exec_dec hl, State.decRefA, State.decRef_drops hs ha (by omega), State.freeing_dropRef_frees hc hm hattr]
  case freeLast =>
    rw [exec_free hl, State.freeRefA, State.freeRef_drops hs ha (by omega) ho, State.freeing_dropRef_frees hc hm hattr]
  case wrong => rw [exec_free hl, State.freeRefA_wrongOwner hs ha h0 ho]
  case xfer => rw [exec_xfer hl, State.xferRef_moves hs ha ho]
  case xferWrong => rw [exec_xfer hl, State.xferRef_wrongOwner hx]

/-! ### BPM's registers (R350, R351) -/

section Registers

variable {s : State}

theorem exec_bpmQuery (hb : s.barTakes 0x800040 = true) (v : W32) : exec (.bpmQuery v) s = .next (s.after (s.query v)) := by
  show execBpmQuery v s = _
  exact act_of hb _ s

theorem exec_bpmLogPop (hb : s.barServes 0x800000 = true) : exec .bpmLogPop s = .next (s.after s.bpmPop) := by
  show execBpmLogPop s = _
  exact act_of hb _ s

theorem exec_bpmLogClr (hb : s.barTakes 0x800064 = true) (v : W32) : exec (.bpmLogClr v) s = .next (s.after (s.logClear v.toNat)) := by
  show execBpmLogClr v s = _
  exact act_of hb _ s

end Registers

/-- Settles O37: a read of the log by whether an entry waits, and each write as its operation. -/
theorem bpmRegistersAnswer : Obligations.BpmRegistersAnswer := by
  refine ⟨fun v s hb => ?query, fun s hb he => ?empty, fun s e r hb he => ?pop, fun v s hb hv => ?clear⟩
  case query => rw [exec_bpmQuery hb, State.query]
  case empty => rw [exec_bpmLogPop hb, State.bpmPop, he]
  case pop =>
    rw [exec_bpmLogPop hb, State.bpmPop, he]
    rfl
  case clear => rw [exec_bpmLogClr hb, State.logClear, if_pos hv]

end Sys2Proof.Machine
end

section
/-! SUPPORT. The address map of module memory (R354), and bytes stored (R357, R364): the bytes, the poison of the blocks they touch, and all that a
store leaves as it was. -/

namespace Sys2Proof.Machine

open Sys2Proof

/-! ### The address map (R354) -/

theorem nthChan_injective {x i j : Nat} (h : nthChan x i = nthChan x j) : i = j := by
  unfold nthChan at h
  split at h <;> split at h <;> omega

/-- In both interleaves an address is found again from its channel and its offset there. -/
theorem State.chan_off_injective {s : State} {a b : Nat} (hc : s.chanOf a = s.chanOf b) (ho : s.chanOff a = s.chanOff b) : a = b := by
  unfold State.chanOf at hc
  unfold State.chanOff at ho
  cases hd : s.mem.degraded <;> simp only [hd] at hc ho
  case none =>
    have hhigh : fld a 12 4 = fld b 12 4 := by
      unfold fld
      omega
    have hlow : fld a 8 4 = fld b 8 4 := by
      rw [hhigh] at hc
      exact Nat.xor_left_inj.1 hc
    unfold fld at hlow
    omega
  case some x =>
    have := nthChan_injective hc
    omega

/-! ### A store and the poison (R364) -/

/-- What a store of `n` bytes at `a` does at block `k`: a poisoned block stored whole is clean, and one stored in part reads zero elsewhere. -/
def poisonAt (a n : Nat) (m : MemSt) (k : Nat) : MemSt :=
  if (Tbl.find m.poison k).isSome then
    if a ≤ 32 * k ∧ 32 * k + 32 ≤ a + n then { m with poison := Tbl.del m.poison k }
    else { m with dram := memPut m.dram (32 * k) (zeros 32) }
  else m

theorem poisonWrite_eq (m : MemSt) (a n : Nat) : poisonWrite m a n = (blocksOf a n).foldl (poisonAt a n) m := rfl

/-- A store changes bytes and poison alone, and how it does depends on nothing else. -/
theorem poisonAt_form (a n k : Nat) (m : MemSt) : poisonAt a n m k =
    { m with dram := (poisonAt a n { dram := m.dram, poison := m.poison } k).dram
             poison := (poisonAt a n { dram := m.dram, poison := m.poison } k).poison } := by
  unfold poisonAt
  by_cases hp : (Tbl.find m.poison k).isSome = true
  · by_cases hw : a ≤ 32 * k ∧ 32 * k + 32 ≤ a + n <;> simp only [hp, hw, and_self, if_true, if_false]
  · simp only [hp, Bool.false_eq_true, if_false]

theorem poisonWrite_form (m : MemSt) (a n : Nat) : poisonWrite m a n =
    { m with dram := (poisonWrite { dram := m.dram, poison := m.poison } a n).dram
             poison := (poisonWrite { dram := m.dram, poison := m.poison } a n).poison } := by
  rw [poisonWrite_eq, poisonWrite_eq]
  induction blocksOf a n generalizing m with
  | nil => rfl
  | cons k r ih =>
    rw [List.foldl_cons, List.foldl_cons, ih, poisonAt_form a n k m]
    rw [ih (poisonAt a n { dram := m.dram, poison := m.poison } k)]

/-- Where no block that it touches is poisoned, a store leaves the poison and every other byte. -/
theorem poisonWrite_clean {m : MemSt} {a n : Nat} (h : ∀ k ∈ blocksOf a n, Tbl.find m.poison k = none) : poisonWrite m a n = m := by
  rw [poisonWrite_eq]
  generalize blocksOf a n = l at h
  induction l with
  | nil => rfl
  | cons k r ih =>
    have hk : poisonAt a n m k = m := by simp [poisonAt, h k List.mem_cons_self]
    rw [List.foldl_cons, hk, ih (fun j hj => h j (List.mem_cons_of_mem k hj))]

theorem poisonAt_keeps_clean {m : MemSt} {k : Nat} (h : Tbl.find m.poison k = none) (a n j : Nat) :
    Tbl.find (poisonAt a n m j).poison k = none := by
  unfold poisonAt
  split
  · split
    · by_cases hj : k = j
      · rw [hj]
        exact Tbl.find_del_same ..
      · rw [Tbl.find_del_other _ hj, h]
    · exact h
  · exact h

theorem poisonAt_clears {a n k : Nat} (ha : a ≤ 32 * k) (hn : 32 * k + 32 ≤ a + n) (m : MemSt) :
    Tbl.find (poisonAt a n m k).poison k = none := by
  unfold poisonAt
  split
  · rw [if_pos ⟨ha, hn⟩]
    exact Tbl.find_del_same ..
  next h => exact Option.not_isSome_iff_eq_none.1 h

/-- A block stored whole is clean. -/
theorem poisonWrite_clears {a n k : Nat} (ha : a ≤ 32 * k) (hn : 32 * k + 32 ≤ a + n) (m : MemSt) :
    Tbl.find (poisonWrite m a n).poison k = none := by
  have hmem : k ∈ blocksOf a n := List.mem_map.2 ⟨k - a / 32, List.mem_range.2 (by omega), by omega⟩
  have hkeep : ∀ (l : List Nat) (m : MemSt), Tbl.find m.poison k = none → Tbl.find (l.foldl (poisonAt a n) m).poison k = none := by
    intro l
    induction l with
    | nil => exact fun m h => h
    | cons j r ih => exact fun m h => ih _ (poisonAt_keeps_clean h a n j)
  obtain ⟨before, behind, hl⟩ := List.append_of_mem hmem
  rw [poisonWrite_eq, hl, List.foldl_append, List.foldl_cons]
  exact hkeep behind _ (poisonAt_clears ha hn _)

/-! ### Stored bytes -/

theorem State.dram_store_same (s : State) (a : Nat) (b : Bytes) : (s.store a b).dram a b.length = b :=
  memGet_memPut b _ a

theorem State.dram_store_other {s : State} {a i : Nat} {b : Bytes} (h : ∀ k ∈ blocksOf a b.length, Tbl.find s.mem.poison k = none)
    (hi : i < a ∨ a + b.length ≤ i) : (s.store a b).dram i 1 = s.dram i 1 := by
  simp only [State.dram, State.store, poisonWrite_clean h, memGet]
  rw [memPut_other b s.mem.dram a i hi]

/-- Settles O38: an address from its channel and offset, and the bytes and the poison that a store leaves. -/
theorem storedBytesReadBack : Obligations.StoredBytesReadBack :=
  ⟨fun _ _ _ hc ho => State.chan_off_injective hc ho, fun s a b =>
    ⟨State.dram_store_same s a b, fun h _ hi => State.dram_store_other h hi, fun _ ha hn => poisonWrite_clears ha hn s.mem⟩⟩

/-- A store leaves every other part of the module memory. -/
theorem State.store_form (s : State) (a : Nat) (b : Bytes) : (s.store a b).mem =
    { s.mem with dram := (s.store a b).mem.dram, poison := (s.store a b).mem.poison } := by
  unfold State.store
  dsimp only
  rw [poisonWrite_form]

/-- What a store leaves of bytes and poison depends on these alone. -/
theorem State.store_of_same {s t : State} (hd : t.mem.dram = s.mem.dram) (hp : t.mem.poison = s.mem.poison) (a : Nat) (b : Bytes) :
    (t.store a b).mem.dram = (s.store a b).mem.dram ∧ (t.store a b).mem.poison = (s.store a b).mem.poison := by
  unfold State.store
  dsimp only
  rw [poisonWrite_form t.mem, poisonWrite_form s.mem, hd, hp]
  exact ⟨rfl, rfl⟩

end Sys2Proof.Machine
end

section
/-! SUPPORT. The order of requests (R356, R357): the oldest of a list, the request that a channel chooses, and one command slot of a channel with a
single request. -/

namespace Sys2Proof.Machine

open Sys2Proof

/-! ### The oldest request -/

/-- Of two candidates the older, the first where they are of one age. -/
def olderReq (a : Option (Nat × MemReq)) (e : Nat × MemReq) : Option (Nat × MemReq) :=
  match a with
  | some m => if e.2.at_ < m.2.at_ then some e else some m
  | none => some e

theorem oldestReq_eq (l : List (Nat × MemReq)) : oldestReq l = l.foldl olderReq none := rfl

/-- A search that holds a candidate ends with a candidate, none older. -/
theorem olderReq_fold (l : List (Nat × MemReq)) (m : Nat × MemReq) :
    ∃ r, l.foldl olderReq (some m) = some r ∧ r ∈ m :: l ∧ ∀ e ∈ m :: l, r.2.at_ ≤ e.2.at_ := by
  induction l generalizing m with
  | nil => exact ⟨m, rfl, by simp, by simp⟩
  | cons x l ih =>
    rw [List.foldl_cons, olderReq]
    split
    next hlt =>
      obtain ⟨r, hr, hmem, hmin⟩ := ih x
      have := hmin x List.mem_cons_self
      exact ⟨r, hr, List.mem_cons_of_mem m hmem, List.forall_mem_cons.2 ⟨by omega, hmin⟩⟩
    next hge =>
      obtain ⟨r, hr, hmem, hmin⟩ := ih m
      obtain ⟨hm, hl⟩ := List.forall_mem_cons.1 hmin
      refine ⟨r, hr, ?_, List.forall_mem_cons.2 ⟨hm, List.forall_mem_cons.2 ⟨by omega, hl⟩⟩⟩
      rcases List.mem_cons.1 hmem with rfl | hin
      · exact List.mem_cons_self
      · exact List.mem_cons_of_mem m (List.mem_cons_of_mem x hin)

/-- The oldest is one of the list's, and no other is older. -/
theorem oldestReq_some {l : List (Nat × MemReq)} {r : Nat × MemReq} (h : oldestReq l = some r) :
    r ∈ l ∧ ∀ e ∈ l, r.2.at_ ≤ e.2.at_ := by
  cases l with
  | nil => simp [oldestReq] at h
  | cons x l =>
    obtain ⟨m, hm, hmem, hmin⟩ := olderReq_fold l x
    obtain rfl : m = r := Option.some.inj (hm.symm.trans h)
    exact ⟨hmem, hmin⟩

theorem oldestReq_eq_none {l : List (Nat × MemReq)} (h : oldestReq l = none) : l = [] := by
  cases l with
  | nil => rfl
  | cons x l =>
    obtain ⟨m, hm, -, -⟩ := olderReq_fold l x
    exact absurd (hm.symm.trans h) (by simp)

@[simp] theorem oldestReq_single (e : Nat × MemReq) : oldestReq [e] = some e := rfl

/-! ### The choice (R356) -/

/-- A request older than 2 us. -/
def State.overdue (s : State) (e : Nat × MemReq) : Bool := decide (e.2.at_ + 2 * us < s.ns)

/-- The next bank to activate, in rotating order, with its oldest request. -/
def State.nextMiss (s : State) (c : Nat) : Option (Nat × MemReq) :=
  (List.range 16).findSome? (fun i => oldestReq (((s.reqsOf c).filter (fun e => !(s.rowHit c e.1 e.2))).filter
    (fun e => decide (e.1 = ((s.chan c).lastBank + 1 + i) % 16))))

/-- How a request comes to be chosen: an overdue one; a hit in the current direction; one that needs an activate; a hit of the other direction. -/
theorem State.chooseReq_eq (s : State) (c : Nat) : s.chooseReq c =
    (oldestReq ((s.reqsOf c).filter s.overdue)).orElse (fun _ =>
      (oldestReq (((s.reqsOf c).filter (fun e => s.rowHit c e.1 e.2)).filter (fun e => decide (e.2.writes = (s.chan c).writing)))).orElse (fun _ =>
        (if (s.chan c).mayActivate s.ns then s.nextMiss c else none).orElse (fun _ =>
          oldestReq ((s.reqsOf c).filter (fun e => s.rowHit c e.1 e.2))))) := rfl

theorem State.nextMiss_some {s : State} {c : Nat} {e : Nat × MemReq} (h : s.nextMiss c = some e) :
    e ∈ s.reqsOf c ∧ s.rowHit c e.1 e.2 = false := by
  obtain ⟨i, -, hi⟩ := List.exists_of_findSome?_eq_some h
  have hmem := List.mem_of_mem_filter (oldestReq_some hi).1
  simpa using List.mem_filter.1 hmem

/-- A hit is found as one of the channel's requests. -/
theorem State.hit_mem {s : State} {c : Nat} {e : Nat × MemReq} (h : e ∈ (s.reqsOf c).filter (fun e => s.rowHit c e.1 e.2)) :
    e ∈ s.reqsOf c ∧ s.rowHit c e.1 e.2 = true := by
  simpa using List.mem_filter.1 h

/-- The four ways of R356, of which the first that finds a request gives the choice. -/
theorem State.chooseReq_cases {s : State} {c : Nat} {e : Nat × MemReq} (h : s.chooseReq c = some e) :
    oldestReq ((s.reqsOf c).filter s.overdue) = some e ∨
    (((s.reqsOf c).any s.overdue = false) ∧
      (oldestReq (((s.reqsOf c).filter (fun e => s.rowHit c e.1 e.2)).filter (fun e => decide (e.2.writes = (s.chan c).writing))) = some e ∨
      (((s.reqsOf c).any (fun e => s.rowHit c e.1 e.2 && decide (e.2.writes = (s.chan c).writing)) = false) ∧
        (((s.chan c).mayActivate s.ns = true ∧ s.nextMiss c = some e) ∨
          oldestReq ((s.reqsOf c).filter (fun e => s.rowHit c e.1 e.2)) = some e)))) := by
  rw [State.chooseReq_eq] at h
  cases hold : oldestReq ((s.reqsOf c).filter s.overdue) with
  | some x => exact .inl (by simpa [hold] using h)
  | none =>
    refine .inr ⟨by simpa using List.filter_eq_nil_iff.1 (oldestReq_eq_none hold), ?_⟩
    rw [hold, Option.orElse] at h
    cases hhit : oldestReq (((s.reqsOf c).filter (fun e => s.rowHit c e.1 e.2)).filter
        (fun e => decide (e.2.writes = (s.chan c).writing))) with
    | some x =>
      rw [hhit] at h
      exact .inl h
    | none =>
      have hnone := List.filter_eq_nil_iff.1 (oldestReq_eq_none hhit)
      refine .inr ⟨List.any_eq_false.2 fun x hx => ?_, ?_⟩
      · rw [Bool.and_eq_true]
        exact fun ⟨hrow, hdir⟩ => hnone x (List.mem_filter.2 ⟨hx, hrow⟩) hdir
      rw [hhit, Option.orElse] at h
      split at h
      next hact =>
        cases hnext : s.nextMiss c with
        | some x => exact .inl ⟨hact, by simpa [hnext] using h⟩
        | none => exact .inr (by simpa [hnext] using h)
      next => exact .inr (by simpa using h)

section Chosen

variable {s : State} {c : Nat} {e : Nat × MemReq} (h : s.chooseReq c = some e)
include h

theorem State.chooseReq_mem : e ∈ s.reqsOf c := by
  rcases State.chooseReq_cases h with ho | ⟨-, hh | ⟨-, ⟨-, hm⟩ | hh⟩⟩
  · exact List.mem_of_mem_filter (oldestReq_some ho).1
  · exact (State.hit_mem (List.mem_of_mem_filter (oldestReq_some hh).1)).1
  · exact (State.nextMiss_some hm).1
  · exact (State.hit_mem (oldestReq_some hh).1).1

/-- With an overdue request the oldest of them is chosen. -/
theorem State.chooseReq_overdue (ha : (s.reqsOf c).any s.overdue = true) :
    s.overdue e = true ∧ ∀ x ∈ s.reqsOf c, s.overdue x = true → e.2.at_ ≤ x.2.at_ := by
  rcases State.chooseReq_cases h with ho | ⟨hn, -⟩
  · obtain ⟨hmem, hmin⟩ := oldestReq_some ho
    exact ⟨(List.mem_filter.1 hmem).2, fun x hx hox => hmin x (List.mem_filter.2 ⟨hx, hox⟩)⟩
  · exact absurd (ha.symm.trans hn) (by simp)

/-- Without one, a hit in the current direction. -/
theorem State.chooseReq_hit (hn : (s.reqsOf c).any s.overdue = false)
    (ha : (s.reqsOf c).any (fun x => s.rowHit c x.1 x.2 && decide (x.2.writes = (s.chan c).writing)) = true) :
    s.rowHit c e.1 e.2 = true ∧ e.2.writes = (s.chan c).writing := by
  rcases State.chooseReq_cases h with ho | ⟨-, hh | ⟨hn', -⟩⟩
  · obtain ⟨hmem, hold⟩ := List.mem_filter.1 (oldestReq_some ho).1
    exact absurd (List.any_eq_true.2 ⟨e, hmem, hold⟩) (by simp [hn])
  · obtain ⟨hmem, hdir⟩ := List.mem_filter.1 (oldestReq_some hh).1
    exact ⟨(State.hit_mem hmem).2, of_decide_eq_true hdir⟩
  · exact absurd (ha.symm.trans hn') (by simp)

/-- A miss is chosen when it is overdue, or an activate is allowed. -/
theorem State.chooseReq_miss (hm : s.rowHit c e.1 e.2 = false) :
    (s.reqsOf c).any s.overdue = true ∨ (s.chan c).mayActivate s.ns = true := by
  rcases State.chooseReq_cases h with ho | ⟨-, hh | ⟨-, ⟨hact, -⟩ | hh⟩⟩
  · obtain ⟨hmem, hold⟩ := List.mem_filter.1 (oldestReq_some ho).1
    exact .inl (List.any_eq_true.2 ⟨e, hmem, hold⟩)
  · exact absurd ((State.hit_mem (List.mem_of_mem_filter (oldestReq_some hh).1)).2.symm.trans hm) (by simp)
  · exact .inr hact
  · exact absurd ((State.hit_mem (oldestReq_some hh).1).2.symm.trans hm) (by simp)

end Chosen

/-- The only request of a channel is chosen, where its row is open or may be opened. -/
theorem State.chooseReq_single {s : State} {c b : Nat} {q : MemReq} (hl : s.reqsOf c = [(b, q)]) (hb : b < 16)
    (hg : (s.chan c).mayActivate s.ns = true ∨ s.rowHit c b q = true) : s.chooseReq c = some (b, q) := by
  have hsome : ∃ e, s.chooseReq c = some e := by
    refine Option.isSome_iff_exists.1 ?_
    cases hh : s.rowHit c b q with
    | true =>
      rw [State.chooseReq_eq]
      simp [hl, hh]
    | false =>
      have hact := hg.resolve_right (by simp [hh])
      have hnext : s.nextMiss c ≠ none := by
        intro hnone
        have hi := List.findSome?_eq_none_iff.1 hnone ((b + 31 - (s.chan c).lastBank % 16) % 16) (List.mem_range.2 (Nat.mod_lt _ (by omega)))
        have heq : b = ((s.chan c).lastBank + 1 + (b + 31 - (s.chan c).lastBank % 16) % 16) % 16 := by omega
        rw [hl] at hi
        simp [hh, ← heq] at hi
      obtain ⟨x, hx⟩ := Option.ne_none_iff_exists'.1 hnext
      rw [State.chooseReq_eq]
      simp [hact, hx]
  obtain ⟨e, he⟩ := hsome
  have := State.chooseReq_mem he
  rw [hl, List.mem_singleton] at this
  rw [he, this]

end Sys2Proof.Machine
end

section
/-! SUPPORT. Reads and writes of module memory (R354 to R358, R364): what a lane that asked leaves of the memory, a write's way into its channel's
queue, and a channel's slot with a single request. -/

namespace Sys2Proof.Machine

open Sys2Proof

/-! ### What a lane that asked does leaves the memory as it was (R111, R113, R365) -/

@[simp] theorem State.mem_ite (a b : State) (c : Prop) [Decidable c] : (if c then a else b).mem = if c then a.mem else b.mem :=
  apply_ite State.mem c a b

@[simp] theorem State.assertReplace_mem (s : State) : s.assertReplace.mem = s.mem := rfl

theorem State.pmcOverflow_mem (s : State) (l n : Nat) : (s.pmcOverflow l n).mem = s.mem := by
  unfold State.pmcOverflow
  simp

theorem State.pmcAdd_mem (l n k fuel : Nat) (s : State) : (s.pmcAdd l n k fuel).mem = s.mem := by
  induction fuel generalizing s n k with
  | zero => rfl
  | succ fuel ih =>
    unfold State.pmcAdd
    dsimp only
    split
    · rfl
    · split
      · rw [ih, State.pmcOverflow_mem]
        rfl
      · rw [State.pmcOverflow_mem]
        rfl

@[simp] theorem State.pmcEvent_mem (s : State) (l c : Nat) : (s.pmcEvent l c).mem = s.mem := by
  unfold State.pmcEvent State.pmcSpan
  refine foldl_keeps State.mem _ (fun s n => ?_) _ s
  dsimp only
  rw [State.mem_ite, State.pmcAdd_mem, ite_self]

@[simp] theorem State.sliceStall_mem (s : State) (l : Nat) : (s.sliceStall l).mem = s.mem := by
  simp [State.sliceStall]

@[simp] theorem State.takeTrap_mem (s : State) (l c : Nat) (b : Bool) : (s.takeTrap l c b).mem = s.mem := by
  simp [State.takeTrap]

@[simp] theorem State.servePending_mem (s : State) (l : Nat) (b : Bool) : (s.servePending l b).mem = s.mem := by
  unfold State.servePending
  dsimp only
  split
  · rw [State.mem_ite, State.takeTrap_mem, ite_self]
  · rfl

@[simp] theorem State.readFails_mem (s : State) (g : Nat) : (s.readFails g).mem = s.mem := by
  simp [State.readFails, State.trapOp]

@[simp] theorem State.readAnswered_mem (s : State) (g : Nat) : (s.readAnswered g).mem = s.mem := by
  simp [State.readAnswered]

@[simp] theorem State.readAnswered_flt (s : State) (g : Nat) : (s.readAnswered g).flt = s.flt := by
  unfold State.readAnswered
  split <;> rfl

@[simp] theorem State.restartRefresh_mem (s : State) (r : Nat) : (s.restartRefresh r).mem = s.mem :=
  foldl_keeps State.mem (fun s t => s.setEnc t { s.enc t with restartNext := true }) (fun _ _ => rfl) _ s

@[simp] theorem State.restartRefresh_flt (s : State) (r : Nat) : (s.restartRefresh r).flt = s.flt :=
  foldl_keeps State.flt (fun s t => s.setEnc t { s.enc t with restartNext := true }) (fun _ _ => rfl) _ s

@[simp] theorem State.lanePoison_mem (s : State) (g : Nat) : (s.lanePoison g).mem = s.mem := by
  unfold State.lanePoison
  dsimp only
  repeat' split
  all_goals first | rfl | exact State.restartRefresh_mem ..

@[simp] theorem State.lanePoison_flt (s : State) (g : Nat) : (s.lanePoison g).flt = s.flt := by
  unfold State.lanePoison
  dsimp only
  repeat' split
  all_goals first | rfl | exact State.restartRefresh_flt ..

/-! ### Writes (R357, R364) -/

@[simp] theorem State.bumpChan_mem (s : State) (c n : Nat) : (s.bumpChan c n).mem = s.mem := rfl

theorem State.chan_of_mem {s t : State} (h : t.mem = s.mem) (c : Nat) : t.chan c = s.chan c := by
  rw [State.chan, State.chan, h]

@[simp] theorem State.store_chan (s : State) (a c : Nat) (b : Bytes) : (s.store a b).chan c = s.chan c := by
  rw [State.chan, State.store_form]
  rfl

/-- Writes issued to their banks leave the bytes, the poison, the counters, and of the write queue what was not issued. -/
theorem State.issued_keeps (c : Nat) (l : List MemWr) (s : State) :
    let t := l.foldl (fun s w => s.enqueueReq c { agent := w.agent, addr := w.addr, at_ := s.ns, kind := .write }) s
    t.mem.dram = s.mem.dram ∧ t.mem.poison = s.mem.poison ∧ t.cnt = s.cnt ∧ (t.chan c).writes = (s.chan c).writes := by
  induction l generalizing s with
  | nil => exact ⟨rfl, rfl, rfl, rfl⟩
  | cons w r ih =>
    obtain ⟨hd, hp, hc, hw⟩ := ih (s.enqueueReq c { agent := w.agent, addr := w.addr, at_ := s.ns, kind := .write })
    refine ⟨hd, hp, hc, hw.trans ?_⟩
    rw [State.enqueueReq, State.setChan_same]

theorem State.issueWrites_keeps (s : State) (c : Nat) :
    (s.issueWrites c).mem.dram = s.mem.dram ∧ (s.issueWrites c).mem.poison = s.mem.poison ∧ (s.issueWrites c).cnt = s.cnt := by
  unfold State.issueWrites
  dsimp only
  split
  · obtain ⟨hd, hp, hc, -⟩ := State.issued_keeps c ((s.chan c).writes.take ((s.chan c).writes.length - 16))
      (s.setChan c { s.chan c with writes := (s.chan c).writes.drop ((s.chan c).writes.length - 16) })
    exact ⟨hd, hp, hc⟩
  · exact ⟨rfl, rfl, rfl⟩

/-- Fewer writes than a batch wait; with no read waiting, as many as a batch leaves (R357). -/
theorem State.issueWrites_waits {s : State} {c : Nat} (h : (s.chan c).writes.length < 48)
    (hr : (s.chan c).reading = true ∨ (s.chan c).writes.length ≤ 16) : s.issueWrites c = s := by
  unfold State.issueWrites
  refine if_neg ?_
  simp only [Bool.or_eq_true, Bool.and_eq_true, decide_eq_true_eq, Bool.not_eq_true']
  rintro (h48 | ⟨hn, h16⟩)
  · omega
  · rcases hr with hr | hr
    · exact absurd hr (by simp [hn])
    · omega

/-- From 48 waiting writes on, 16 are left (R357). -/
theorem State.issueWrites_batch {s : State} {c : Nat} (h : 48 ≤ (s.chan c).writes.length) :
    ((s.issueWrites c).chan c).writes.length = 16 := by
  unfold State.issueWrites
  dsimp only
  rw [if_pos (by simp [h])]
  obtain ⟨-, -, -, hw⟩ := State.issued_keeps c ((s.chan c).writes.take ((s.chan c).writes.length - 16))
    (s.setChan c { s.chan c with writes := (s.chan c).writes.drop ((s.chan c).writes.length - 16) })
  rw [hw, State.setChan_same, List.length_drop]
  omega

section Write

variable {s : State} {g : Byte} {a : Nat} {d : Bytes}

theorem State.memWrite_range (h : s.memEnd < a + d.length) : s.memWrite g a d = s.raise fMemRange g.toNat 0 := by
  rw [State.memWrite, if_pos h]

variable (hr : a + d.length ≤ s.memEnd) (hf : (s.chan (s.chanOf a)).inflight < 256)
include hr hf

/-- The write joins its channel's queue, and is stored. -/
def State.written (s : State) (g : Byte) (a : Nat) (d : Bytes) : State :=
  let c := s.chanOf a
  ((s.setChan c { s.chan c with writes := (s.chan c).writes ++ [{ agent := g, addr := a, data := d }] }).store a d).bump bMEM 1

theorem State.memWrite_eq : s.memWrite g a d = (s.written g a d).issueWrites (s.chanOf a) := by
  rw [State.memWrite, if_neg (Nat.not_lt.2 hr)]
  dsimp only
  rw [if_neg (Nat.not_le.2 hf), State.written]

omit hr hf in
theorem State.written_writes : ((s.written g a d).chan (s.chanOf a)).writes =
    (s.chan (s.chanOf a)).writes ++ [{ agent := g, addr := a, data := d }] := by
  unfold State.written
  rw [State.chan_of_mem (State.bump_mem ..), State.store_chan, State.setChan_same]

theorem State.memWrite_stores : (s.memWrite g a d).mem.dram = (s.store a d).mem.dram ∧
    (s.memWrite g a d).mem.poison = (s.store a d).mem.poison ∧
    (s.memWrite g a d).cntOf bMEM 0 1 = (s.cntOf bMEM 0 1 + 1) % 2 ^ 48 := by
  obtain ⟨hd, hp, hc⟩ := State.issueWrites_keeps (s.written g a d) (s.chanOf a)
  rw [State.memWrite_eq hr hf, hd, hp, State.cntOf_of_cnt hc]
  obtain ⟨hd', hp'⟩ := State.store_of_same (s := s)
    (t := s.setChan (s.chanOf a) { s.chan (s.chanOf a) with
      writes := (s.chan (s.chanOf a)).writes ++ [{ agent := g, addr := a, data := d }] }) rfl rfl a d
  exact ⟨hd', hp', State.cntOf_bump_same ..⟩

theorem State.memWrite_queued (h : (s.chan (s.chanOf a)).writes.length < 16) :
    ((s.memWrite g a d).chan (s.chanOf a)).writes = (s.chan (s.chanOf a)).writes ++ [{ agent := g, addr := a, data := d }] := by
  have hlen : ((s.written g a d).chan (s.chanOf a)).writes.length = (s.chan (s.chanOf a)).writes.length + 1 := by
    rw [State.written_writes, List.length_append, List.length_singleton]
  rw [State.memWrite_eq hr hf, State.issueWrites_waits (by omega) (.inr (by omega)), State.written_writes]

theorem State.memWrite_issued (h : 47 ≤ (s.chan (s.chanOf a)).writes.length) :
    ((s.memWrite g a d).chan (s.chanOf a)).writes.length = 16 := by
  rw [State.memWrite_eq hr hf, State.issueWrites_batch]
  rw [State.written_writes, List.length_append, List.length_singleton]
  omega

end Write

/-! ### What touches the channels alone -/

/-- `t` is `s` but for its memory channels and counters. -/
def State.chanOnly (s t : State) : Prop := t = { s with mem := { s.mem with chans := t.mem.chans }, cnt := t.cnt }

theorem State.chanOnly.trans {s t u : State} (h : s.chanOnly t) (k : t.chanOnly u) : s.chanOnly u := by
  unfold State.chanOnly at *
  rw [k, h]

theorem State.chanOnly_setChan (s : State) (c : Nat) (x : Chan) : s.chanOnly (s.setChan c x) := rfl

/-- An access to a row changes the open rows of its channel, and counts an activate (R358). -/
theorem State.touchRow_form (s : State) (c o : Nat) :
    ∃ rows cnt, s.touchRow c o = { s.setChan c { s.chan c with rows := rows } with cnt := cnt } := by
  unfold State.touchRow
  dsimp only
  split <;> split <;> exact ⟨_, _, rfl⟩

theorem State.touchRow_keeps (s : State) (c o : Nat) : s.chanOnly (s.touchRow c o) ∧
    ((s.touchRow c o).chan c).banks = (s.chan c).banks ∧ ((s.touchRow c o).chan c).retry = (s.chan c).retry := by
  obtain ⟨rows, cnt, h⟩ := s.touchRow_form c o
  have hc : (s.touchRow c o).chan c = { s.chan c with rows := rows } := by
    rw [h]
    exact State.setChan_same ..
  rw [hc, h]
  exact ⟨rfl, rfl, rfl⟩

/-- A request taken leaves its bank's queue, which goes when it is empty. -/
theorem State.takeReq_keeps (s : State) (c b : Nat) (r : MemReq) : s.chanOnly (s.takeReq c b r) ∧
    ((s.takeReq c b r).chan c).banks =
      (if ((Tbl.get [] (s.chan c).banks b).erase r).isEmpty then Tbl.del (s.chan c).banks b
        else Tbl.put (s.chan c).banks b ((Tbl.get [] (s.chan c).banks b).erase r)) ∧
    ((s.takeReq c b r).chan c).retry = (s.chan c).retry := by
  unfold State.takeReq
  dsimp only
  split
  all_goals
    obtain ⟨ho, hb, hr⟩ := State.touchRow_keeps (s.setChan c _) c (s.chanOff r.addr)
    refine ⟨(State.chanOnly_setChan ..).trans ho, hb.trans ?_, hr.trans ?_⟩ <;> rw [State.setChan_same]

/-! ### A request that enters an empty channel (R356) -/

section Slot

variable {s : State} {c : Nat} {q : MemReq} (hq : q.kind ≠ .write) (hw : (s.chan c).writes.length < 48)
include hq hw

/-- A read that waits holds back the writes (R357). -/
theorem State.issueWrites_reading : (s.enqueueReq c q).issueWrites c = s.enqueueReq c q := by
  have hread : ((s.enqueueReq c q).chan c).reading = true := by
    rw [State.enqueueReq, State.setChan_same, Chan.reading]
    refine List.any_eq_true.2 ⟨_, Tbl.mem_of_find (Tbl.find_put_same ..), ?_⟩
    simp [hq]
  refine State.issueWrites_waits ?_ (.inl hread)
  rwa [State.enqueueReq, State.setChan_same]

/-- While no channel executes requests, it waits in its bank's queue (R359, R362). -/
theorem State.memStep_stalled (hs : s.memStalls = true) : (s.enqueueReq c q).memStep c = s.enqueueReq c q := by
  have hslot : (s.enqueueReq c q).memSlot c = (s.enqueueReq c q, none) := by
    unfold State.memSlot
    rw [State.issueWrites_reading hq hw]
    exact if_pos (by rw [show (s.enqueueReq c q).memStalls = true from hs]; rfl)
  rw [State.memStep, hslot]

variable (hb : (s.chan c).banks = [])
include hb

/-- The bank that a request waits in. -/
def State.bankOf (s : State) (r : MemReq) : Nat := Config.dramBank (s.chanOff r.addr) % 16

omit hq hw hb in
theorem State.enqueueReq_eq (s : State) (c : Nat) (q : MemReq) : s.enqueueReq c q =
    s.setChan c { s.chan c with banks := Tbl.put (s.chan c).banks (s.bankOf q) (Tbl.get [] (s.chan c).banks (s.bankOf q) ++ [q]) } := rfl

omit hq hw in
theorem State.enqueueReq_chan : (s.enqueueReq c q).chan c = { s.chan c with banks := [(s.bankOf q, [q])] } := by
  rw [State.enqueueReq_eq, State.setChan_same, hb]
  rfl

omit hq hw in
theorem State.reqsOf_single : (s.enqueueReq c q).reqsOf c = [(s.bankOf q, q)] := by
  rw [State.reqsOf, State.enqueueReq_chan hb]
  rfl

/-- The request leaves its queue, and the channel is empty again; its bytes, its poison and its retries are as they were (R356, R358). -/
def State.served (s : State) (c : Nat) (q : MemReq) : State := (s.enqueueReq c q).takeReq c (s.bankOf q) q

omit hq hw in
theorem State.served_keeps : s.chanOnly (s.served c q) ∧ ((s.served c q).chan c).banks = [] ∧
    ((s.served c q).chan c).retry = (s.chan c).retry := by
  obtain ⟨hto, htb, htr⟩ := State.takeReq_keeps (s.enqueueReq c q) c (s.bankOf q) q
  refine ⟨(State.chanOnly_setChan ..).trans hto, htb.trans ?_, htr.trans ?_⟩
  · rw [State.enqueueReq_chan hb]
    simp [Tbl.get, Tbl.find, Tbl.del]
  · rw [State.enqueueReq_chan hb]

variable (hs : s.memStalls = false) (ht : (s.chan c).slot ≤ s.memSlotNow) (hp : (s.chan c).ph ≠ .selfRefresh)
  (hg : (s.chan c).mayActivate s.ns = true ∨ s.rowHit c (s.bankOf q) q = true)
include hs ht hp hg

omit hq hw in
/-- A channel without another request executes it in this slot (R356). -/
theorem State.memSlot_chooses : (s.enqueueReq c q).memStalls = false ∧ ¬ (s.enqueueReq c q).memSlotNow < ((s.enqueueReq c q).chan c).slot ∧
    ((s.enqueueReq c q).chan c).ph ≠ .selfRefresh ∧ (s.enqueueReq c q).chooseReq c = some (s.bankOf q, q) := by
  have hc := State.enqueueReq_chan (q := q) hb
  refine ⟨hs, ?_, ?_, State.chooseReq_single (State.reqsOf_single hb) (Nat.mod_lt _ (by omega)) ?_⟩
  · rw [hc]
    exact Nat.not_lt.2 ht
  · rwa [hc]
  · refine hg.imp (fun h => ?_) (fun h => ?_)
    · rw [hc]
      exact h
    · rw [State.rowHit, hc]
      exact h

theorem State.memSlot_read {e : EccResult} {bad scrub : Bool} (hk : q.kind = .read e bad scrub) : (s.enqueueReq c q).memSlot c =
    (((s.served c q).firstRead c q e bad scrub).1, some (q, ((s.served c q).firstRead c q e bad scrub).2)) := by
  obtain ⟨h1, h2, h3, h4⟩ := State.memSlot_chooses hb hs ht hp hg
  unfold State.memSlot
  simp only [State.issueWrites_reading hq hw, h1, h2, h3, h4, hk, decide_false, Bool.or_false, Bool.false_eq_true, if_false]
  rfl

theorem State.memSlot_again {ok scrub : Bool} (hk : q.kind = .again ok scrub) : (s.enqueueReq c q).memSlot c =
    (((s.served c q).secondRead c q ok).1, some (q, ((s.served c q).secondRead c q ok).2)) := by
  obtain ⟨h1, h2, h3, h4⟩ := State.memSlot_chooses hb hs ht hp hg
  unfold State.memSlot
  simp only [State.issueWrites_reading hq hw, h1, h2, h3, h4, hk, decide_false, Bool.or_false, Bool.false_eq_true, if_false]
  rfl

end Slot

/-! ### How a read ends (R364) -/

/-- What the end of a slot means to the lane that asked leaves the memory as the slot left it. -/
theorem State.memStep_mem {s t : State} {c : Nat} {r : MemReq} {o : ReadEnd} (h : s.memSlot c = (t, some (r, o))) :
    (s.memStep c).mem = t.mem := by
  unfold State.memStep
  rw [h]
  cases o <;> simp

/-- A block delivered leaves the fault collector too. -/
theorem State.memStep_flt {s t : State} {c : Nat} {r : MemReq} {o : ReadEnd} (h : s.memSlot c = (t, some (r, o))) (ho : o ≠ .retry) :
    (s.memStep c).flt = t.flt := by
  unfold State.memStep
  rw [h]
  cases o
  case retry => exact absurd rfl ho
  all_goals simp

section FirstRead

variable (s : State) (c : Nat) (q : MemReq) (e : EccResult) (scrub : Bool)

/-- A block already poisoned is returned as zeros (R364). -/
theorem State.firstRead_poisoned : (s.firstRead c q e true scrub).1.mem = { s.mem with lastRead := zeros 32, lastPoisoned := true } := rfl

/-- A clean or corrected block is returned. -/
theorem State.firstRead_good (he : e ≠ .uncorrectable) :
    (s.firstRead c q e false scrub).1.mem = { s.mem with lastRead := q.data, lastPoisoned := false } := by
  cases e
  case clean => rfl
  case single => cases scrub <;> rfl
  case uncorrectable => exact absurd rfl he

/-- An uncorrectable block waits for its second attempt. -/
theorem State.firstRead_retry : (s.firstRead c q .uncorrectable false scrub).1.mem = (s.setChan c { s.chan c with
    retry := (s.chan c).retry ++ [{ agent := q.agent, addr := q.addr, scrub := scrub, data := q.data }] }).mem := rfl

end FirstRead

/-! ### The second read of a block (R364 to R367) -/

theorem State.sticky_setFltSrc_other (s : State) {n m : Nat} (x : FltSrc) (h : m ≠ n) : (s.setFltSrc n x).sticky m = s.sticky m := by
  rw [State.sticky, State.sticky, State.setFltSrc_other _ _ _ _ h]

theorem State.sticky_react_other (s : State) {n m : Nat} (h : m ≠ n) (unit cfg : Nat) : (s.react n unit cfg).sticky m = s.sticky m := by
  unfold State.react
  cases tb cfg 0
  · cases tb cfg 1 <;> cases tb cfg 2 <;> rfl
  · refine (State.sticky_setFltSrc_other _ _ h).trans ?_
    cases tb cfg 1 <;> cases tb cfg 2 <;> rfl

/-- A raise clears no source's sticky bit. -/
theorem State.sticky_raise {s : State} {m : Nat} (h : s.sticky m = true) (n unit part : Nat) : (s.raise n unit part).sticky m = true := by
  by_cases hm : m = n
  · subst hm
    exact s.raise_sticky ..
  · unfold State.raise State.raiseWith
    dsimp only
    cases fltEvent n unit <;> simp [State.sticky_setFltSrc_other _ _ hm, State.sticky_react_other _ hm, h]

@[simp] theorem State.withhold_mem (s : State) (pg : Nat) : (s.withhold pg).mem = s.mem := by
  unfold State.withhold
  refine foldl_keeps State.mem _ (fun s e => ?_) _ s
  dsimp only
  split
  · rfl
  · split
    · rfl
    · refine foldl_keeps State.mem _ (fun s j => ?_) _ s
      repeat' split
      all_goals rfl

@[simp] theorem State.withhold_flt (s : State) (pg : Nat) : (s.withhold pg).flt = s.flt := by
  unfold State.withhold
  refine foldl_keeps State.flt _ (fun s e => ?_) _ s
  dsimp only
  split
  · rfl
  · split
    · rfl
    · refine foldl_keeps State.flt _ (fun s j => ?_) _ s
      repeat' split
      all_goals rfl

theorem State.chanFail_poison (s : State) (c : Nat) : (s.chanFail c).mem.poison = s.mem.poison := by
  unfold State.chanFail
  split
  · rfl
  · simp [State.setChan]

theorem State.sticky_chanFail {s : State} {m : Nat} (h : s.sticky m = true) (c : Nat) : (s.chanFail c).sticky m = true := by
  unfold State.chanFail
  split
  · exact h
  · exact State.sticky_raise (s := { s.setChan c { s.chan c with failed := true } with
      flash := { s.flash with chanFailed := s.flash.chanFailed ++ [c] } }) h fMemChanFail c 0

end Sys2Proof.Machine
end

section
/-! SUPPORT. The page of a poisoned block retired (R366), the second read of a block (R364), and what reads and writes of module memory answer. -/

namespace Sys2Proof.Machine

open Sys2Proof

/-! ### A page retired, and the second read (R364 to R367) -/

theorem State.setChan_poison (s : State) (c : Nat) (x : Chan) : (s.setChan c x).mem.poison = s.mem.poison := rfl
@[simp] theorem State.bumpChan_flt (s : State) (c n : Nat) : (s.bumpChan c n).flt = s.flt := rfl

theorem State.sticky_of_flt {s t : State} (h : t.flt = s.flt) (n : Nat) : t.sticky n = s.sticky n := by
  rw [State.sticky, State.sticky, State.fltSrc, State.fltSrc, h]

/-- The page joins the list, and the buffers that overlap it are withheld: what a retirement does before it asks for a replacement (R366). -/
def State.pageListed (s : State) (a : Nat) : State :=
  let c := s.chanOf a
  let e : RetEntry := { chan := c, granule := s.chanOff a / 256,
                        time := if s.clk.src = .free then 0 else s.ns / oneSec % 2 ^ 32 }
  let l := s.mem.retire ++ [e]
  let s := { s with mem := { s.mem with retire := l }, flash := { s.flash with retire := l } }
  let s := { s with glb := { s.glb with cntPages := l.length } }
  let s := (s.setHealth hDRAMPAGE).event .memRetire noCtx a
  let s := (s.setChan c { s.chan c with retired := (s.chan c).retired + 1 }).bumpChan c 4
  s.withhold (a / 4096)

theorem State.pageListed_poison (s : State) (a : Nat) : (s.pageListed a).mem.poison = s.mem.poison := by
  unfold State.pageListed
  dsimp only
  rw [State.withhold_mem, State.bumpChan_mem, State.setChan_poison, State.event_mem]
  rfl

theorem State.pageListed_sticky (s : State) (a n : Nat) : (s.pageListed a).sticky n = s.sticky n := by
  refine State.sticky_of_flt ?_ n
  unfold State.pageListed
  dsimp only
  rw [State.withhold_flt, State.bumpChan_flt, State.setChan_flt, State.event_flt]
  rfl

/-- A retirement listed, with the replacement it may ask for. -/
def State.pageReplaced (s : State) (a : Nat) : State :=
  if (s.pageListed a).replacePages ≤ s.mem.retire.length + 1 then (s.pageListed a).assertReplace else s.pageListed a

theorem State.retirePage_eq (s : State) (a : Nat) : s.retirePage a =
    if s.mem.retire.any (fun r => decide (s.pageOf r = some (a / 4096))) then s
    else if 512 ≤ s.mem.retire.length then
      if s.mem.retireFull then s
      else ({ s with mem := { s.mem with retireFull := true } } : State).event .memRetireFull noCtx a
    else if 64 < ((s.pageReplaced a).chan (s.chanOf a)).retired then (s.pageReplaced a).chanFail (s.chanOf a)
    else s.pageReplaced a := by
  unfold State.retirePage State.pageReplaced State.pageListed
  simp only [List.length_append, List.length_singleton]

theorem State.pageReplaced_poison (s : State) (a : Nat) : (s.pageReplaced a).mem.poison = s.mem.poison := by
  unfold State.pageReplaced
  split <;> exact s.pageListed_poison a

theorem State.pageReplaced_sticky (s : State) (a n : Nat) : (s.pageReplaced a).sticky n = s.sticky n := by
  unfold State.pageReplaced
  split <;> exact s.pageListed_sticky a n

/-- A retirement leaves the poison, and clears no source's sticky bit. -/
theorem State.retirePage_keeps (s : State) (a : Nat) : (s.retirePage a).mem.poison = s.mem.poison ∧
    ∀ n, s.sticky n = true → (s.retirePage a).sticky n = true := by
  rw [State.retirePage_eq]
  split
  · exact ⟨rfl, fun _ hn => hn⟩
  split
  · split
    · exact ⟨rfl, fun _ hn => hn⟩
    · exact ⟨by rw [State.event_mem], fun n hn => (State.sticky_of_flt (State.event_flt ..) n).trans hn⟩
  have hs := fun n (hn : s.sticky n = true) => (s.pageReplaced_sticky a n).trans hn
  split
  · exact ⟨(State.chanFail_poison ..).trans (s.pageReplaced_poison a), fun n hn => State.sticky_chanFail (hs n hn) _⟩
  · exact ⟨s.pageReplaced_poison a, hs⟩

theorem State.secondRead_good (s : State) (c : Nat) (q : MemReq) :
    (s.secondRead c q true).1.mem = { s.mem with lastRead := q.data, lastPoisoned := false } := rfl

/-- The block poisoned, and MEM_UE raised. -/
def State.blockPoisoned (s : State) (c : Nat) (q : MemReq) : State :=
  (State.bump { s with mem := { s.mem with poison := setPoison s.mem.poison (q.addr / 32) } } bMEM 4).raise fMemUe c q.agent.toNat

theorem State.secondRead_fails (s : State) (c : Nat) (q : MemReq) :
    s.secondRead c q false = ((((s.blockPoisoned c q).retirePage q.addr).answer q.data true), .poisoned) :=
  if_neg (by simp)

theorem State.blockPoisoned_find (s : State) (c : Nat) (q : MemReq) :
    Tbl.find (s.blockPoisoned c q).mem.poison (q.addr / 32) = some () := by
  rw [State.blockPoisoned, State.raise_mem]
  exact Tbl.find_put_same ..

/-- A second read that fails poisons the block, and raises MEM_UE. -/
theorem State.secondRead_bad (s : State) (c : Nat) (q : MemReq) :
    (s.secondRead c q false).1.mem.lastPoisoned = true ∧
    Tbl.find (s.secondRead c q false).1.mem.poison (q.addr / 32) = some () ∧
    (s.secondRead c q false).1.sticky fMemUe = true := by
  obtain ⟨hp, hs⟩ := (s.blockPoisoned c q).retirePage_keeps q.addr
  have hue : (s.blockPoisoned c q).sticky fMemUe = true := State.raise_sticky ..
  rw [State.secondRead_fails]
  exact ⟨rfl, (congrArg (Tbl.find · (q.addr / 32)) hp).trans (s.blockPoisoned_find c q), hs fMemUe hue⟩

/-! ### The commands (R354 to R358, R364) -/

theorem exec_memWrite {s : State} (hl : s.live = true) (g : Byte) (a : W64) (d : Bytes) :
    exec (.memWrite g a d) s = .next (s.after (s.memWrite g a.toNat d)) := by
  show execMemWrite g a d s = _
  exact act_of hl _ s

theorem exec_memRetryRead {s : State} (hl : s.live = true) (c : ChanId) (ok : Bool) :
    exec (.memRetryRead c ok) s = .next (s.after ((s.memRetry c.val ok).memStep c.val)) := by
  show execMemRetryRead c ok s = _
  exact act_of hl _ s

section Read

variable {s : State} {g : Byte} {a : W64} {r : EccResult} (hl : s.live = true)
include hl

theorem exec_memRead_beyond (h : s.memEnd ≤ a.toNat) : exec (.memRead g a r) s = .next (s.after
    (((s.raise fMemRange g.toNat 0).answer (zeros 32) true).lanePoison g.toNat)) := by
  show execMemRead g a r s = _
  refine (act_of hl _ s).trans ?_
  dsimp only
  rw [if_pos h, State.memRead, if_pos h]

theorem exec_memRead_queued (h : a.toNat < s.memEnd) (hq : s.queuedAt a.toNat = true) :
    exec (.memRead g a r) s = .next (s.after ((s.bump bMEM 0).answer (s.dram (a.toNat / 32 * 32) 32) false)) := by
  show execMemRead g a r s = _
  refine (act_of hl _ s).trans ?_
  dsimp only
  rw [if_neg (Nat.not_le.2 h), if_pos hq, State.memRead, if_neg (Nat.not_le.2 h)]
  dsimp only
  rw [if_pos hq]

/-- The request that a read of the block at `a` makes. -/
def State.readReq (s : State) (g : Byte) (a : W64) (r : EccResult) : MemReq :=
  { agent := g, addr := a.toNat, at_ := s.ns, kind := .read r (s.poisoned a.toNat 1) false, data := s.dram (a.toNat / 32 * 32) 32 }

theorem exec_memRead_waits (h : a.toNat < s.memEnd) (hq : s.queuedAt a.toNat = false) (hf : (s.chan (s.chanOf a.toNat)).inflight < 256) :
    exec (.memRead g a r) s = .next (s.after
      ((s.enqueueReq (s.chanOf a.toNat) (s.readReq g a r)).memStep (s.chanOf a.toNat))) := by
  show execMemRead g a r s = _
  refine (act_of hl _ s).trans ?_
  dsimp only
  rw [if_neg (Nat.not_le.2 h), if_neg (by simp [hq]), State.memRead, if_neg (Nat.not_le.2 h)]
  dsimp only
  rw [if_neg (by simp [hq]), if_neg (Nat.not_le.2 hf)]
  rfl

end Read

/-- A request served, whose end leaves of the memory what it was. -/
theorem State.served_mem {s : State} {c : Nat} {q : MemReq} (hb : (s.chan c).banks = []) :
    (s.served c q).mem.dram = s.mem.dram ∧ (s.served c q).mem.poison = s.mem.poison := by
  obtain ⟨ho, -, -⟩ := State.served_keeps (q := q) hb
  rw [ho]
  exact ⟨rfl, rfl⟩

/-- A first read leaves the bytes, the poison, and the requests that wait. -/
theorem State.firstRead_keeps (s : State) (c : Nat) (q : MemReq) (e : EccResult) (bad scrub : Bool) :
    (s.firstRead c q e bad scrub).1.mem.dram = s.mem.dram ∧ (s.firstRead c q e bad scrub).1.mem.poison = s.mem.poison ∧
    ((s.firstRead c q e bad scrub).1.chan c).banks = (s.chan c).banks := by
  cases bad with
  | true => exact ⟨rfl, rfl, rfl⟩
  | false =>
    by_cases he : e = .uncorrectable
    · subst he
      rw [State.chan_of_mem (State.firstRead_retry ..), State.setChan_same, State.firstRead_retry]
      exact ⟨rfl, rfl, rfl⟩
    · rw [State.chan, State.firstRead_good s c q e scrub he]
      exact ⟨rfl, rfl, rfl⟩

section ReadNow

variable {s : State} {c : Nat} {q : MemReq} {r : EccResult} {bad : Bool} (hk : q.kind = .read r bad false)
  (hw : (s.chan c).writes.length < 48)
  (hb : (s.chan c).banks = []) (hs : s.memStalls = false) (ht : (s.chan c).slot ≤ s.memSlotNow) (hp : (s.chan c).ph ≠ .selfRefresh)
  (hg : (s.chan c).mayActivate s.ns = true ∨ s.rowHit c (s.bankOf q) q = true)
include hk hw hb hs ht hp hg

/-- The memory after a read that its channel executes at once. -/
theorem State.memStep_read : ((s.enqueueReq c q).memStep c).mem = ((s.served c q).firstRead c q r bad false).1.mem :=
  State.memStep_mem (State.memSlot_read (by simp [hk]) hw hb hs ht hp hg hk)

theorem State.memStep_read_keeps : ((s.enqueueReq c q).memStep c).mem.dram = s.mem.dram ∧
    ((s.enqueueReq c q).memStep c).mem.poison = s.mem.poison ∧ (((s.enqueueReq c q).memStep c).chan c).banks = [] := by
  obtain ⟨hd, hpo⟩ := State.served_mem (q := q) hb
  obtain ⟨-, hbanks, -⟩ := State.served_keeps (q := q) hb
  have hm := State.memStep_read hk hw hb hs ht hp hg
  rw [State.chan_of_mem hm, hm]
  obtain ⟨hd', hpo', hbanks'⟩ := (s.served c q).firstRead_keeps c q r bad false
  exact ⟨hd'.trans hd, hpo'.trans hpo, hbanks'.trans hbanks⟩

end ReadNow

section Again

variable {s : State} {c : Nat} {e : MemRetry} {l : List MemRetry} (hr : (s.chan c).retry = e :: l)

/-- A second read asked for. -/
def State.againReq (s : State) (e : MemRetry) (ok : Bool) : MemReq :=
  { agent := e.agent, addr := e.addr, at_ := s.ns, kind := .again ok e.scrub, data := e.data }

/-- The channel whose oldest retry is asked for, without it. -/
def State.retryTaken (s : State) (c : Nat) (l : List MemRetry) : State := s.setChan c { s.chan c with retry := l }

include hr in
theorem State.memRetry_eq (ok : Bool) : s.memRetry c ok = (s.retryTaken c l).enqueueReq c (s.againReq e ok) := by
  unfold State.memRetry
  dsimp only
  rw [hr]
  rfl

theorem State.retryTaken_chan : (s.retryTaken c l).chan c = { s.chan c with retry := l } := State.setChan_same ..

theorem State.retryTaken_stalls : (s.retryTaken c l).memStalls = s.memStalls := rfl
theorem State.retryTaken_slotNow : (s.retryTaken c l).memSlotNow = s.memSlotNow := rfl

variable (hw : (s.chan c).writes.length < 48) (hb : (s.chan c).banks = []) (hs : s.memStalls = false)
  (ht : (s.chan c).slot ≤ s.memSlotNow) (hp : (s.chan c).ph ≠ .selfRefresh) (hg : (s.chan c).mayActivate s.ns = true)
include hr hw hb hs ht hp hg

theorem State.memSlot_retry (ok : Bool) : (s.memRetry c ok).memSlot c =
    ((((s.retryTaken c l).served c (s.againReq e ok)).secondRead c (s.againReq e ok) ok).1,
      some (s.againReq e ok, (((s.retryTaken c l).served c (s.againReq e ok)).secondRead c (s.againReq e ok) ok).2)) := by
  rw [State.memRetry_eq hr]
  have hc := State.retryTaken_chan (s := s) (c := c) (l := l)
  refine State.memSlot_again (by simp [State.againReq]) (by rwa [hc]) (by rwa [hc]) (State.retryTaken_stalls.trans hs)
    (by rw [hc, State.retryTaken_slotNow]; exact ht) (by rwa [hc])
    (.inl ?_) rfl
  rw [hc]
  exact hg

end Again

/-- Settles O39: a write's way into its queue, and a read's single request executed in an empty channel's slot. -/
theorem memoryCommandsAnswer : Obligations.MemoryCommandsAnswer := by
  unfold Obligations.MemoryCommandsAnswer
  refine ⟨fun g a d s hl => ?_, fun g a r s hl => ?_, fun c e q s hl hr hw hb hs ht hp hg => ?_⟩
  · refine ⟨fun hend hf => ?_, fun hend => ?_⟩
    · obtain ⟨hd, hpo, hcnt⟩ := State.memWrite_stores (g := g) hend hf
      exact ⟨_, exec_memWrite hl .., hd, hpo, hcnt, State.memWrite_queued hend hf, State.memWrite_issued hend hf⟩
    · rw [exec_memWrite hl, State.memWrite_range hend]
  · refine ⟨exec_memRead_beyond hl, exec_memRead_queued hl, fun hend hq hf hw hs => ?_,
      fun hend hq hf hw hb hs ht hp hg => ⟨_, exec_memRead_waits hl hend hq hf, ?_⟩⟩
    · rw [exec_memRead_waits hl hend hq hf, State.memStep_stalled (by simp [State.readReq]) hw hs]
      rfl
    · have hm := State.memStep_read (q := s.readReq g a r) rfl hw hb hs ht hp hg
      obtain ⟨hd, hpo, hbanks⟩ := State.memStep_read_keeps (q := s.readReq g a r) rfl hw hb hs ht hp hg
      refine ⟨hd, hpo, hbanks, fun hbad => ?_, fun hgood he => ?_, fun hgood he => ?_⟩
      · rw [hm, hbad, State.firstRead_poisoned]
        exact ⟨rfl, rfl⟩
      · rw [hm, hgood, State.firstRead_good _ _ _ _ _ he]
        exact ⟨rfl, rfl⟩
      · subst he
        obtain ⟨-, -, hretry⟩ := State.served_keeps (q := s.readReq g a .uncorrectable) hb
        rw [State.chan_of_mem hm, hgood, State.chan_of_mem (State.firstRead_retry ..), State.setChan_same]
        exact congrArg (· ++ _) hretry
  · refine ⟨⟨_, exec_memRetryRead hl c true, ?_⟩, ⟨_, exec_memRetryRead hl c false, ?_⟩⟩
    · have hc := State.retryTaken_chan (s := s) (c := c.val) (l := q)
      have hb' : ((s.retryTaken c.val q).chan c.val).banks = [] := by rw [hc]; exact hb
      have hm := (State.memStep_mem (State.memSlot_retry hr hw hb hs ht hp hg true)).trans (State.secondRead_good ..)
      obtain ⟨-, hpo⟩ := State.served_mem (q := s.againReq e true) hb'
      obtain ⟨-, -, hretry⟩ := State.served_keeps (q := s.againReq e true) hb'
      rw [State.chan, hm]
      refine ⟨rfl, rfl, hretry.trans ?_, hpo⟩
      rw [hc]
    · obtain ⟨h1, h2, h3⟩ := ((s.retryTaken c.val q).served c.val (s.againReq e false)).secondRead_bad c.val (s.againReq e false)
      have hslot := State.memSlot_retry hr hw hb hs ht hp hg false
      have hm := State.memStep_mem hslot
      have hf := State.memStep_flt hslot (by simp [State.secondRead])
      rw [hm]
      exact ⟨h1, h2, (State.sticky_of_flt hf fMemUe).trans h3⟩

end Sys2Proof.Machine
end

section
/-! SUPPORT. The schedule of module memory (R356, R358 to R363, R368): refresh windows, readouts, retrains and the patrol. -/

namespace Sys2Proof.Machine

open Sys2Proof

/-! ### Refresh (R359, R360) -/

theorem State.refresh_unannounced {s : State} (h : s.mem.nextWindow ≤ s.ns) (hc : s.mem.change = none) :
    s.refresh = { s.bump bMEM 8 with mem := { s.closeRows.mem with nextWindow := s.mem.nextWindow + s.mem.trefi } } := by
  have hc' : (s.bump bMEM 8).closeRows.mem.change = none := hc
  rw [State.refresh, if_pos h]
  dsimp only
  rw [hc']
  rfl

/-- The announced interval takes effect at this window. -/
theorem State.refresh_announced {s : State} {hot : Bool} (h : s.mem.nextWindow ≤ s.ns) (hc : s.mem.change = some (hot, 0)) :
    s.refresh.mem.hot = hot ∧ s.refresh.mem.trefi = (if hot then 1952 else 3904) ∧ s.refresh.mem.change = none ∧
    s.refresh.mem.nextWindow = s.mem.nextWindow + (if hot then 1952 else 3904) ∧ s.refresh.flt.capChanged = true := by
  have hc' : (s.bump bMEM 8).closeRows.mem.change = some (hot, 0) := hc
  rw [State.refresh, if_pos h]
  dsimp only
  rw [hc']
  simp only [State.event_mem, State.event_flt]
  exact ⟨trivial, trivial, trivial, rfl, trivial⟩

/-! ### Rows and readouts (R358, R360, R362) -/

theorem State.rowIdle_due {s : State} {c b r due : Nat} (h : Tbl.find (s.chan c).rows b = some (r, due)) (hd : due ≤ s.ns) :
    s.rowIdle c b = s.setChan c { s.chan c with rows := Tbl.del (s.chan c).rows b } := by
  rw [State.rowIdle, h]
  exact if_pos hd

/-- A die above 85 degrees, or a device that asks, announces the short interval. -/
theorem State.tempRead_hot {s : State} {die : Int} {fast : Bool} (h : 850 < die ∨ fast = true) (hh : s.mem.hot = false)
    (hc : s.mem.change = none) : s.tempRead die fast = { s with mem := { s.mem with
      dieC := die, coolSince := (if die ≤ 820 then some (s.mem.coolSince.getD s.ns) else none), change := some (true, 1) } } := by
  have hw : (decide (850 < die) || fast) = true := by
    rcases h with h | h <;> simp [h]
  simp [State.tempRead, hw, hh, hc]

/-- A die that has been at 82 degrees or below for 1 s announces the nominal interval. -/
theorem State.tempRead_cool {s : State} {die : Int} {t0 : Nat} (h : die ≤ 820) (hh : s.mem.hot = true) (hc : s.mem.change = none)
    (ht : s.mem.coolSince = some t0) (hd : t0 + oneSec ≤ s.ns) :
    s.tempRead die false = { s with mem := { s.mem with dieC := die, change := some (false, 1) } } := by
  have hw : ¬ 850 < die := by omega
  simp [State.tempRead, hw, h, hh, hc, ht]
  exact hd

/-- One channel's part of the oscillator readout. -/
def State.oscStep (d : List Nat) (s : State) (c : Nat) : State :=
  let v := getAt 0 d c
  if (s.chan c).ph = .excluded then s
  else
    let s := s.setChan c { s.chan c with drift := v }
    if s.driftMax < v && !(s.mem.retrainQ.any (fun e => decide (e.1 = c))) then
      { s with mem := { s.mem with retrainQ := s.mem.retrainQ ++ [(c, s.ns)] } }
    else s

theorem State.oscRead_eq (s : State) (d : List Nat) : s.oscRead d = (List.range 16).foldl (State.oscStep d) s := rfl

theorem State.oscStep_driftMax (s : State) (d : List Nat) (c : Nat) : (s.oscStep d c).driftMax = s.driftMax := by
  unfold State.oscStep
  dsimp only
  split
  · rfl
  · split <;> rfl

theorem State.oscStep_queue (s : State) (d : List Nat) (c : Nat) : ∀ e ∈ s.mem.retrainQ, e ∈ (s.oscStep d c).mem.retrainQ := by
  intro e he
  unfold State.oscStep
  dsimp only
  split
  · exact he
  · split
    · exact List.mem_append_left _ he
    · exact he

theorem State.oscStep_other (s : State) (d : List Nat) {c k : Nat} (h : k ≠ c) : (s.oscStep d c).chan k = s.chan k := by
  unfold State.oscStep
  dsimp only
  split
  · rfl
  · split <;> exact State.setChan_other _ _ _ _ h

theorem State.oscStep_same {s : State} {d : List Nat} {c : Nat} (h : (s.chan c).ph ≠ .excluded) :
    (s.oscStep d c).chan c = { s.chan c with drift := getAt 0 d c } := by
  unfold State.oscStep
  dsimp only
  rw [if_neg h]
  split <;> exact State.setChan_same ..

/-- A drift above its maximum leaves the channel scheduled. -/
theorem State.oscStep_scheduled {s : State} {d : List Nat} {c : Nat} (h : (s.chan c).ph ≠ .excluded) (hd : s.driftMax < getAt 0 d c) :
    ∃ e ∈ (s.oscStep d c).mem.retrainQ, e.1 = c := by
  have hd' : (s.setChan c { s.chan c with drift := getAt 0 d c }).driftMax < getAt 0 d c := hd
  unfold State.oscStep
  dsimp only
  rw [if_neg h]
  split
  next => exact ⟨_, List.mem_append_right _ (List.mem_singleton_self _), rfl⟩
  next hn =>
    simp only [hd', decide_true, Bool.true_and, Bool.not_eq_true', Bool.not_eq_false, List.any_eq_true, decide_eq_true_eq] at hn
    exact hn

/-- What the readout of the channels of `l` leaves: a channel read keeps its drift, and stays scheduled. -/
theorem State.oscFold_keeps (d : List Nat) (c : Nat) (l : List Nat) (s : State) (h : (s.chan c).ph ≠ .excluded)
    (hdone : c ∉ l → (s.chan c).drift = getAt 0 d c ∧ (s.driftMax < getAt 0 d c → ∃ e ∈ s.mem.retrainQ, e.1 = c)) :
    ((l.foldl (State.oscStep d) s).chan c).drift = getAt 0 d c ∧
    (s.driftMax < getAt 0 d c → ∃ e ∈ (l.foldl (State.oscStep d) s).mem.retrainQ, e.1 = c) := by
  induction l generalizing s with
  | nil => exact hdone (by simp)
  | cons k l ih =>
    have hstep := ih (s.oscStep d k)
    rw [State.oscStep_driftMax] at hstep
    by_cases hk : c = k
    · subst hk
      have hsame := State.oscStep_same (d := d) h
      refine hstep (by rwa [hsame]) fun _ => ⟨by rw [hsame], State.oscStep_scheduled h⟩
    · have hother := s.oscStep_other d hk
      refine hstep (by rwa [hother]) fun hl => ?_
      obtain ⟨hdr, hq⟩ := hdone (by simp [hk, hl])
      rw [hother]
      refine ⟨hdr, fun hm => ?_⟩
      obtain ⟨e, he, hec⟩ := hq hm
      exact ⟨e, s.oscStep_queue d k e he, hec⟩

/-- What the readout leaves of a channel in use. -/
theorem State.oscRead_keeps {s : State} (d : List Nat) {c : Nat} (hc : c < 16) (h : (s.chan c).ph ≠ .excluded) :
    ((s.oscRead d).chan c).drift = getAt 0 d c ∧
    (s.driftMax < getAt 0 d c → ∃ e ∈ (s.oscRead d).mem.retrainQ, e.1 = c) := by
  rw [State.oscRead_eq]
  exact State.oscFold_keeps d c _ s h fun hn => absurd (List.mem_range.2 hc) hn

/-! ### Retrains (R362, R363) -/

@[simp] theorem State.chanFail_retrainQ (s : State) (c : Nat) : (s.chanFail c).mem.retrainQ = s.mem.retrainQ := by
  unfold State.chanFail
  split
  · rfl
  · simp [State.setChan]

@[simp] theorem State.chanFail_lastRetrain (s : State) (c : Nat) : (s.chanFail c).mem.lastRetrain = s.mem.lastRetrain := by
  unfold State.chanFail
  split
  · rfl
  · simp [State.setChan]

theorem State.chanFail_failed (s : State) (c : Nat) : ((s.chanFail c).chan c).failed = true := by
  unfold State.chanFail
  split
  next h => exact h
  next =>
    rw [State.chan_of_mem (State.setHealth_mem ..), State.chan_of_mem (State.raise_mem ..)]
    exact congrArg Chan.failed (State.setChan_same s c { s.chan c with failed := true })

/-- The retrain begins: it leaves the schedule, and its end is drawn. -/
def State.retrainBegun (s : State) (q : List (Nat × Nat)) : State :=
  { s with mem := { s.mem with retrainQ := q, lastRetrain := some s.ns, retrainEnd := s.ns + min (2 * us) (Config.retrainNs s.free) } }.draw

section Retrain

variable {s : State} {c at_ : Nat} {q : List (Nat × Nat)} (h : s.mem.retrainQ = (c, at_) :: q) (hd : at_ + ms ≤ s.ns)
  (hl : ∀ t0, s.mem.lastRetrain = some t0 → t0 + 10 * ms ≤ s.ns)
include h hd hl

/-- A retrain at its time. -/
theorem State.retrain_due (p : Bool) : s.retrain p =
    if p then (((s.retrainBegun q).setChan c { s.chan c with retrainFails := 0 }).bump bMEM 6).bumpChan c 2
    else if 1 ≤ (s.chan c).retrainFails then ((s.retrainBegun q).setChan c { s.chan c with retrainFails := 0 }).chanFail c
    else { (s.retrainBegun q).setChan c { s.chan c with retrainFails := 1 } with mem :=
      { ((s.retrainBegun q).setChan c { s.chan c with retrainFails := 1 }).mem with retrainQ := (c, at_) :: q } } := by
  have hfree : (match s.mem.lastRetrain with
      | none => true
      | some t => decide (t + 10 * ms ≤ s.ns)) = true := by
    cases hr : s.mem.lastRetrain with
    | none => rfl
    | some t0 => simpa using hl t0 hr
  unfold State.retrain
  rw [h]
  dsimp only
  rw [if_pos (by rw [decide_eq_true hd, Bool.true_and]; exact hfree)]
  rfl

theorem State.retrain_passed : (s.retrain true).mem.lastRetrain = some s.ns ∧ (s.retrain true).mem.retrainQ = q ∧
    ((s.retrain true).chan c).retrainFails = 0 ∧ (s.retrain true).cntOf bMEM 0 6 = (s.cntOf bMEM 0 6 + 1) % 2 ^ 48 := by
  rw [State.retrain_due h hd hl, if_pos rfl]
  refine ⟨rfl, rfl, congrArg Chan.retrainFails (State.setChan_same (s.retrainBegun q) c { s.chan c with retrainFails := 0 }), ?_⟩
  rw [State.bumpChan, State.cntOf_bumpU_other _ (by unfold cntKey; omega), State.cntOf_bump_same]
  rfl

theorem State.retrain_fails_once (hf : (s.chan c).retrainFails = 0) : (s.retrain false).mem.lastRetrain = some s.ns ∧
    (s.retrain false).mem.retrainQ = (c, at_) :: q ∧ ((s.retrain false).chan c).retrainFails = 1 := by
  rw [State.retrain_due h hd hl, if_neg (by simp), if_neg (by omega)]
  exact ⟨rfl, rfl, congrArg Chan.retrainFails (State.setChan_same (s.retrainBegun q) c { s.chan c with retrainFails := 1 })⟩

theorem State.retrain_fails_again (hf : 1 ≤ (s.chan c).retrainFails) : (s.retrain false).mem.lastRetrain = some s.ns ∧
    (s.retrain false).mem.retrainQ = q ∧ ((s.retrain false).chan c).failed = true := by
  rw [State.retrain_due h hd hl, if_neg (by simp), if_pos hf, State.chanFail_lastRetrain, State.chanFail_retrainQ]
  exact ⟨rfl, rfl, State.chanFail_failed ..⟩

end Retrain

/-! ### The patrol (R368) -/

theorem State.touchRow_memEnd (s : State) (c o : Nat) : (s.touchRow c o).memEnd = s.memEnd := by
  obtain ⟨rows, cnt, h⟩ := s.touchRow_form c o
  rw [h]
  rfl

theorem State.firstRead_memEnd (s : State) (c : Nat) (q : MemReq) (e : EccResult) (bad scrub : Bool) :
    (s.firstRead c q e bad scrub).1.memEnd = s.memEnd := by
  cases bad with
  | true => rfl
  | false => cases e <;> cases scrub <;> rfl

/-- The patrol reads a block in a slot that no request wants, and goes to the next, or to the first after the last. -/
theorem State.scrub_next {s : State} (r : EccResult) (ht : tb s.memCfg 23 = true) (hi : (s.chan (s.chanOf s.mem.scrubPos)).inflight < 256)
    (hw : (s.chan (s.chanOf s.mem.scrubPos)).wanted = false) (hs : (s.chan (s.chanOf s.mem.scrubPos)).slot ≤ s.memSlotNow)
    (hm : s.memStalls = false) :
    (s.scrub r).mem.scrubPos = if s.memEnd ≤ s.mem.scrubPos + 32 then 0 else s.mem.scrubPos + 32 := by
  unfold State.scrub
  dsimp only
  rw [if_pos (by simp [ht, hi, hw, hs, hm])]
  dsimp only
  rw [State.firstRead_memEnd, State.touchRow_memEnd]
  rfl

/-- Settles O40: the choice among a channel's requests is `State.chooseReq_cases`'; the readout goes channel by channel. -/
theorem memoryScheduleAnswers : Obligations.MemoryScheduleAnswers := by
  unfold Obligations.MemoryScheduleAnswers
  refine ⟨fun s c b r h => ?_, fun s ha hn hc => ?_, fun s hot ha hn hc => ⟨s.refresh, ?_, State.refresh_announced hn hc⟩,
    fun c b r due s hl hr hd => ?_, fun die fast s hl hw hh hc => ?_, fun die t0 s hl hd hh hc ht hn => ?_, fun d c s ha hp => ?_,
    fun p c at_ q s ha hq hd hl => ⟨s.retrain p, ?_, ?_⟩, fun r s ha ht => fun hi hw hs hm => ⟨s.scrub r, ?_, State.scrub_next r ht hi hw hs hm⟩⟩
  · exact ⟨State.chooseReq_mem h, State.chooseReq_overdue h, State.chooseReq_hit h, State.chooseReq_miss h⟩
  · show execRefreshWindow s = _
    rw [← State.refresh_unannounced hn hc]
    exact act_of ha _ s
  · show execRefreshWindow s = _
    exact act_of ha _ s
  · show execRowIdleTimeout c b s = _
    rw [← State.rowIdle_due hr hd]
    exact act_of hl _ s
  · show execTempReadout die fast s = _
    rw [← State.tempRead_hot hw hh hc]
    exact act_of hl _ s
  · show execTempReadout die false s = _
    rw [← State.tempRead_cool hd hh hc ht hn]
    exact act_of hl _ s
  · refine ⟨s.oscRead (d.map (·.toNat)), ?_, State.oscRead_keeps _ c.isLt hp⟩
    show execOscReadout d s = _
    exact act_of ha _ s
  · show execChannelRetrain p s = _
    exact act_of ha _ s
  · cases p with
    | true =>
      obtain ⟨hlast, h⟩ := State.retrain_passed hq hd hl
      exact ⟨hlast, fun _ => h, nofun, nofun⟩
    | false =>
      by_cases hf : (s.chan c).retrainFails = 0
      · obtain ⟨hlast, h⟩ := State.retrain_fails_once hq hd hl hf
        exact ⟨hlast, nofun, fun _ _ => h, fun _ h1 => by omega⟩
      · obtain ⟨hlast, h⟩ := State.retrain_fails_again hq hd hl (by omega)
        exact ⟨hlast, nofun, fun _ h0 => absurd h0 hf, fun _ _ => h⟩
  · show execScrubRead r s = _
    exact act_of ha _ s

end Sys2Proof.Machine
end

section
/-! SUPPORT. What a port that leaves UP keeps (R282, R310), its receiver's margin (R323 to R325), MDIO and the pulse per second (R319, R322). -/

namespace Sys2Proof.Machine

open Sys2Proof

/-! ### What the copies of a destination leave when they are discarded (R282) -/

/-- `t` is `s` but for what a discarded copy changes: the switch, its queues, the retransmit cache, and what freed buffers change. -/
def State.copyOnly (s t : State) : Prop :=
  t = { s with evc := t.evc, hqe := t.hqe, cnt := t.cnt, out := t.out, free := t.free, flt := t.flt, glb := t.glb, bpm := t.bpm,
               swc := t.swc, asm := t.asm, tmg := t.tmg }

theorem State.copyOnly.trans {s t u : State} (h : s.copyOnly t) (k : t.copyOnly u) : s.copyOnly u := by
  unfold State.copyOnly at *
  rw [k, h]

theorem State.copyOnly_foldl {α : Type} {f : State → α → State} (h : ∀ (t : State) (a : α), t.copyOnly (f t a)) (l : List α) (t : State) :
    t.copyOnly (l.foldl f t) := by
  induction l generalizing t with
  | nil => rfl
  | cons a r ih => exact (h t a).trans (ih _)

theorem State.copyOnly_of_bufOnly {s t : State} (h : s.bufOnly t) : s.copyOnly t := by
  unfold State.bufOnly at h
  unfold State.copyOnly
  rw [h]

theorem State.copyOnly.prt {s t : State} (h : s.copyOnly t) : t.prt = s.prt := by rw [h]
theorem State.copyOnly.time {s t : State} (h : s.copyOnly t) : t.time = s.time := by rw [h]

theorem State.copyOnly_returnCredit (s : State) (c : Copy) : s.copyOnly (s.returnCredit c) := by
  obtain ⟨x, hx⟩ := s.returnCredit_credits c
  rw [hx]
  rfl

theorem State.copyOnly_dropAcct (s : State) (c : Copy) : s.copyOnly (s.dropAcct c) := by
  unfold State.dropAcct
  split <;> rfl

theorem State.copyOnly_dropCopy (s : State) (i : Nat) : s.copyOnly (s.dropCopy i) := by
  have hrelease : ∀ (t : State) (c : Copy), s.copyOnly t → s.copyOnly ((t.dropAcct c).releaseCells c) := fun t c h =>
    (h.trans (t.copyOnly_dropAcct c)).trans (State.copyOnly_of_bufOnly (State.bufOnly_decRefs ..))
  unfold State.dropCopy
  dsimp only
  split <;> exact hrelease _ _ rfl

theorem State.copyOnly_discardCopy (s : State) (i : Nat) : s.copyOnly (s.discardCopy i) := by
  unfold State.discardCopy
  dsimp only
  have hdrop : ∀ (t : State) (c : Copy), s.copyOnly t → s.copyOnly ((t.returnCredit c).dropCopy i) := fun t c h =>
    (h.trans (t.copyOnly_returnCredit c)).trans (State.copyOnly_dropCopy ..)
  split <;> exact hdrop _ _ rfl

theorem State.copyOnly_discardDown (s : State) (i : Nat) : s.copyOnly (s.discardDown i) := by
  have h := s.copyOnly_discardCopy i
  unfold State.discardDown
  dsimp only
  split <;> exact h.trans rfl

/-- The copies that wait for a destination, discarded. -/
def State.waitingDropped (s : State) (d : Nat) : State :=
  let s := (s.queuesOf d).foldl (fun s q =>
    let l := (s.queue q).copies
    let s := s.setQueue q { s.queue q with copies := [], cells := 0, rowOpen := false, rowLate := false, fresh := true,
                                           deficit := 0, fitAt := none }
    l.foldl (fun s i => s.discardDown i) s) s
  (List.range 8).foldl (fun s c =>
    (s.laybyOf d c).foldl (fun s i => (s.leaveLayby d c i).discardDown i) s) s

theorem State.copyOnly_waitingDropped (s : State) (d : Nat) : s.copyOnly (s.waitingDropped d) := by
  unfold State.waitingDropped
  dsimp only
  refine State.copyOnly.trans (State.copyOnly_foldl (fun t q => ?_) _ _) (State.copyOnly_foldl (fun t c => ?_) _ _)
  · refine State.copyOnly.trans ?_ (State.copyOnly_foldl (fun t i => t.copyOnly_discardDown i) _ _)
    rfl
  · refine State.copyOnly_foldl (fun t i => State.copyOnly.trans ?_ (State.copyOnly_discardDown ..)) _ _
    rfl

theorem State.port_of_prt {s t : State} (h : t.prt = s.prt) (p : Nat) : t.port p = s.port p := by
  rw [State.port, State.port, h]

/-- A port whose frame in transmission is aborted. -/
def State.txAborted (s : State) (d : Nat) (t : TxSt) : State :=
  ((s.setPort d { s.port d with tx := none }).discardDown t.copy).emit (.aborted d t.copy)

/-- A flush drops what waits, and aborts a port's frame in transmission. -/
theorem State.flushDest_cases (s : State) (d : Nat) : s.flushDest d = s.waitingDropped d ∨
    d < 256 ∧ ∃ t, s.flushDest d = (s.waitingDropped d).txAborted d t := by
  unfold State.flushDest State.txAborted
  dsimp only
  generalize hw : List.foldl _ _ (List.range 8) = w
  have hw' : s.waitingDropped d = w := hw
  rw [hw']
  split
  next hd =>
    split
    next t _ => exact .inr ⟨hd, t, rfl⟩
    next => exact .inl rfl
  next => exact .inl rfl

theorem State.txAborted_port (s : State) (d : Nat) (t : TxSt) : (s.txAborted d t).time = s.time ∧
    (s.txAborted d t).port d = { s.port d with tx := none } := by
  have hd := (s.setPort d { s.port d with tx := none }).copyOnly_discardDown t.copy
  exact ⟨hd.time, (State.port_of_prt hd.prt d).trans (State.setPort_same ..)⟩

/-- A port's flush changes the port's transmission alone. -/
theorem State.flushDest_port (s : State) (d : Nat) : (s.flushDest d).time = s.time ∧
    ∃ x, (s.flushDest d).port d = { s.port d with tx := x } := by
  have hw := s.copyOnly_waitingDropped d
  have hport := State.port_of_prt hw.prt d
  rcases s.flushDest_cases d with hf | ⟨-, t, hf⟩ <;> rw [hf]
  · exact ⟨hw.time, _, hport⟩
  · obtain ⟨ht, hp⟩ := (s.waitingDropped d).txAborted_port d t
    exact ⟨ht.trans hw.time, none, by rw [hp, hport]⟩

/-! ### A port that leaves UP (R282, R293, R310) -/

/-- What a port keeps of its receiver and of its place when it leaves UP. -/
def Port.kept (x : Port) : Port := { x with ph := .down, lossAt := none, pauses := [], released := [], xoff := 0, tx := none }

/-- The port as it goes down, before its copies are discarded. -/
def State.portDropped (s : State) (p : Nat) : State := s.setPort p { s.port p with ph := .down, pauses := [], released := [], xoff := 0 }

theorem State.leaveUp_of_up {s : State} {p : Nat} (h : (s.port p).ph = .up) :
    s.leaveUp p = (((s.portDropped p).flushDest p).bumpU bPRT (p + 1) 11 1).event (.portLink p false) p p := if_pos h

theorem State.leaveUp_port (s : State) (p : Nat) : (s.leaveUp p).time = s.time ∧ ((s.leaveUp p).port p).kept = (s.port p).kept := by
  by_cases h : (s.port p).ph = .up
  · obtain ⟨ht, x, hx⟩ := (s.portDropped p).flushDest_port p
    rw [State.leaveUp_of_up h, State.event_time, State.port_of_prt (State.event_prt ..)]
    refine ⟨ht, (congrArg Port.kept hx).trans ?_⟩
    rw [State.portDropped, State.setPort_same]
    rfl
  · rw [State.leaveUp, if_neg h]
    exact ⟨rfl, rfl⟩

/-- The port in its new phase, otherwise what it kept. -/
theorem State.toPhase_port (s : State) (p : Nat) (ph : LinkPh) : (s.toPhase p ph).time = s.time ∧
    ((s.toPhase p ph).port p).ph = ph ∧ ((s.toPhase p ph).port p).failAt = (s.port p).failAt ∧
    ((s.toPhase p ph).port p).rank = (s.port p).rank := by
  obtain ⟨ht, hk⟩ := s.leaveUp_port p
  unfold State.toPhase
  dsimp only
  rw [State.setPort_same]
  have hf := congrArg Port.failAt hk
  have hr := congrArg Port.rank hk
  exact ⟨ht, rfl, hf, hr⟩

theorem State.beginRetrain_port (s : State) (p : Nat) : ((s.beginRetrain p).port p).ph = .retrain ∧
    ((s.beginRetrain p).port p).retrainDue = some (s.ns + 500 * ms) ∧ ((s.beginRetrain p).port p).failAt = (s.port p).failAt ∧
    ((s.beginRetrain p).port p).rank = (s.port p).rank + 1 := by
  obtain ⟨ht, hph, hf, hr⟩ := s.toPhase_port p .retrain
  unfold State.beginRetrain
  dsimp only
  rw [State.setPort_same, State.ns, ht]
  exact ⟨hph, rfl, hf, congrArg (· + 1) hr⟩

theorem State.degradePort_port (s : State) (p : Nat) : ((s.degradePort p).port p).ph = .degraded ∧
    ((s.degradePort p).port p).mapped = true ∧ ((s.degradePort p).fltSrc fPrtDegraded).sticky = true := by
  obtain ⟨-, hph, -⟩ := s.toPhase_port p .degraded
  have hport : (s.degradePort p).port p = { (s.toPhase p .degraded).port p with
      mapped := true, retrainDue := none, failAt := none, rank := 0 } := by
    unfold State.degradePort
    dsimp only
    rw [State.port, State.raise_prt]
    exact State.setPort_same ..
  rw [hport]
  exact ⟨hph, rfl, State.raise_sticky ..⟩

/-! ### The receiver's margin (R323 to R325) -/

/-- A first failure, or one 60 s after the last, retrains the port. -/
theorem State.portFailure_first {s : State} {p : Nat} (h : ∀ t0, (s.port p).failAt = some t0 → t0 + 60 * oneSec ≤ s.ns) :
    s.portFailure p = ((s.setPort p { s.port p with failAt := some s.ns, rank := 0 }).event (.portRetrain p) p p).beginRetrain p := by
  unfold State.portFailure
  cases hf : (s.port p).failAt with
  | none => rfl
  | some t0 => exact if_neg (Nat.not_lt.2 (h t0 hf))

/-- A second within 60 s degrades it. -/
theorem State.portFailure_second {s : State} {p t0 : Nat} (hf : (s.port p).failAt = some t0) (h : s.ns < t0 + 60 * oneSec) :
    s.portFailure p = s.degradePort p := by
  unfold State.portFailure
  rw [hf]
  exact if_pos h

/-- A measurement kept. -/
def State.marginKept (s : State) (p m : Nat) : State :=
  let warn := fld (Tbl.get 12 s.regs (prtAddr p 0x28)).toNat 0 6
  let fail := fld (Tbl.get 6 s.regs (prtAddr p 0x2C)).toNat 0 6
  let x := s.port p
  let t := s.setPort p { x with margin := m, lowCount := if m < fail then x.lowCount + 1 else 0,
                                lowRaised := decide (m < warn) || (x.lowRaised && decide (m < warn + 2)) }
  if decide (m < warn) && !x.lowRaised then t.event (.portMargin p) p m else t

section Eye

variable {s : State} {p m : Nat}

theorem State.eye_eq (h : (s.port p).ph = .up) : s.eye p m =
    if 2 ≤ (if m < fld (Tbl.get 6 s.regs (prtAddr p 0x2C)).toNat 0 6 then (s.port p).lowCount + 1 else 0) then (s.marginKept p m).portFailure p
    else s.marginKept p m := by
  rw [State.eye, if_neg (by simp [h])]
  rfl

theorem State.marginKept_port : (s.marginKept p m).time = s.time ∧ ((s.marginKept p m).port p).margin = m ∧
    ((s.marginKept p m).port p).lowCount =
      (if m < fld (Tbl.get 6 s.regs (prtAddr p 0x2C)).toNat 0 6 then (s.port p).lowCount + 1 else 0) ∧
    ((s.marginKept p m).port p).ph = (s.port p).ph ∧ ((s.marginKept p m).port p).failAt = (s.port p).failAt := by
  unfold State.marginKept
  dsimp only
  split
  · rw [State.port_of_prt (State.event_prt ..), State.event_time, State.setPort_same]
    exact ⟨rfl, rfl, rfl, rfl, rfl⟩
  · rw [State.setPort_same]
    exact ⟨rfl, rfl, rfl, rfl, rfl⟩

/-- At WARN + 2 or above, the margin is good. -/
theorem State.eye_good (h : (s.port p).ph = .up) (hw : fld (Tbl.get 12 s.regs (prtAddr p 0x28)).toNat 0 6 + 2 ≤ m)
    (hf : fld (Tbl.get 6 s.regs (prtAddr p 0x2C)).toNat 0 6 ≤ m) :
    s.eye p m = s.setPort p { s.port p with margin := m, lowCount := 0, lowRaised := false } := by
  have hw1 : ¬ m < fld (Tbl.get 12 s.regs (prtAddr p 0x28)).toNat 0 6 := by omega
  have hw2 : ¬ m < fld (Tbl.get 12 s.regs (prtAddr p 0x28)).toNat 0 6 + 2 := by omega
  rw [State.eye_eq h, if_neg (Nat.not_lt.2 hf), if_neg (by omega), State.marginKept]
  simp only [hw1, hw2, Nat.not_lt.2 hf, decide_false, Bool.false_and, Bool.and_false, Bool.or_false, if_false, Bool.false_eq_true]

/-- Below WARN it is reported, once. -/
theorem State.eye_warns (h : (s.port p).ph = .up) (hw : m < fld (Tbl.get 12 s.regs (prtAddr p 0x28)).toNat 0 6)
    (hf : fld (Tbl.get 6 s.regs (prtAddr p 0x2C)).toNat 0 6 ≤ m) (hr : (s.port p).lowRaised = false) :
    s.eye p m = (s.setPort p { s.port p with margin := m, lowCount := 0, lowRaised := true }).event (.portMargin p) p m := by
  rw [State.eye_eq h, if_neg (Nat.not_lt.2 hf), if_neg (by omega), State.marginKept]
  simp only [hw, hr, Nat.not_lt.2 hf, decide_true, Bool.true_or, Bool.not_false, Bool.and_self, if_false, if_true]

/-- Below FAIL for the first time. -/
theorem State.eye_low (h : (s.port p).ph = .up) (hl : (s.port p).lowCount = 0)
    (hf : m < fld (Tbl.get 6 s.regs (prtAddr p 0x2C)).toNat 0 6) : s.eye p m = s.marginKept p m := by
  rw [State.eye_eq h, if_pos hf, if_neg (by omega)]

/-- Below FAIL for the second time in a row. -/
theorem State.eye_fails (h : (s.port p).ph = .up) (hl : 1 ≤ (s.port p).lowCount)
    (hf : m < fld (Tbl.get 6 s.regs (prtAddr p 0x2C)).toNat 0 6) : s.eye p m = (s.marginKept p m).portFailure p := by
  rw [State.eye_eq h, if_pos hf, if_pos (by omega)]

/-- A first failure leaves the port retraining for at most 500 ms. -/
theorem State.eye_retrains (h : (s.port p).ph = .up) (hl : 1 ≤ (s.port p).lowCount)
    (hf : m < fld (Tbl.get 6 s.regs (prtAddr p 0x2C)).toNat 0 6)
    (ht : ∀ t0, (s.port p).failAt = some t0 → t0 + 60 * oneSec ≤ s.ns) : ((s.eye p m).port p).ph = .retrain ∧
    ((s.eye p m).port p).retrainDue = some (s.ns + 500 * ms) ∧ ((s.eye p m).port p).failAt = some s.ns ∧ ((s.eye p m).port p).rank = 1 := by
  obtain ⟨htime, -, -, -, hfail⟩ := State.marginKept_port (s := s) (p := p) (m := m)
  have hns : (s.marginKept p m).ns = s.ns := by rw [State.ns, htime, State.ns]
  rw [State.eye_fails h hl hf, State.portFailure_first (by rw [hfail, hns]; exact ht)]
  obtain ⟨hph, hdue, hfa, hra⟩ := State.beginRetrain_port (((s.marginKept p m).setPort p { (s.marginKept p m).port p with
    failAt := some (s.marginKept p m).ns, rank := 0 }).event (.portRetrain p) p p) p
  rw [State.port_of_prt (State.event_prt ..), State.setPort_same] at hfa hra
  refine ⟨hph, hdue.trans ?_, hfa.trans (congrArg some hns), hra⟩
  rw [State.ns, State.event_time, ← hns]
  rfl

/-- A second one degrades it. -/
theorem State.eye_degrades {t0 : Nat} (h : (s.port p).ph = .up) (hl : 1 ≤ (s.port p).lowCount)
    (hf : m < fld (Tbl.get 6 s.regs (prtAddr p 0x2C)).toNat 0 6) (ht : (s.port p).failAt = some t0) (hn : s.ns < t0 + 60 * oneSec) :
    s.eye p m = (s.marginKept p m).degradePort p := by
  obtain ⟨htime, -, -, -, hfail⟩ := State.marginKept_port (s := s) (p := p) (m := m)
  rw [State.eye_fails h hl hf, State.portFailure_second (hfail.trans ht)]
  rw [State.ns, htime]
  exact hn

end Eye

theorem exec_eyeMeasurement {s : State} (hl : s.live = true) (p : PortId) (m : BitVec 6) :
    exec (.eyeMeasurement p m) s = .next (s.after (s.eye p.val m.toNat)) := by
  show execEyeMeasurement p m s = _
  exact act_of hl _ s

theorem exec_retrainTimeout {s : State} (hl : s.live = true) (p : PortId) :
    exec (.retrainTimeout p) s = .next (s.after (s.retrainTimeout p.val)) := by
  show execRetrainTimeout p s = _
  exact act_of hl _ s

theorem exec_retrainWindowExpire {s : State} (hl : s.live = true) (p : PortId) :
    exec (.retrainWindowExpire p) s = .next (s.after (s.windowExpire p.val)) := by
  show execRetrainWindowExpire p s = _
  exact act_of hl _ s

/-- A retrain whose time has passed is followed by another, or is lasting. -/
theorem State.retrainTimeout_due {s : State} {p t0 : Nat} (hd : (s.port p).retrainDue = some t0) (ht : t0 ≤ s.ns) (hp : (s.port p).ph ≠ .up) :
    s.retrainTimeout p = if 2 ≤ (s.port p).rank then s.degradePort p else s.beginRetrain p := by
  rw [State.retrainTimeout, hd]
  exact if_pos ⟨ht, hp⟩

/-- Settles O29: a measurement is kept first, and its second failure in a row is a failure of the port. -/
theorem receiverMarginAnswers : Obligations.ReceiverMarginAnswers := by
  unfold Obligations.ReceiverMarginAnswers
  refine ⟨fun p m s hl hp => ?_, fun p t0 s hl hd ht hp => ?_, fun p t0 s hl hf ht hp => ?_⟩
  · dsimp only
    simp only [exec_eyeMeasurement hl]
    obtain ⟨-, hmargin, hlow, hph, -⟩ := State.marginKept_port (s := s) (p := p.val) (m := m.toNat)
    refine ⟨fun hw hf => by rw [State.eye_good hp hw hf], fun hw hf hr => by rw [State.eye_warns hp hw hf hr],
      fun hf hz => ⟨_, rfl, ?_⟩, fun hf hz ht => ⟨_, rfl, State.eye_retrains hp hz hf ht⟩,
      fun t0 hf hz ht hn => ⟨_, rfl, ?_⟩⟩
    · rw [State.eye_low hp hz hf, hmargin, hlow, hph, if_pos hf, hz]
      exact ⟨rfl, rfl, hp⟩
    · rw [State.eye_degrades hp hz hf ht hn]
      exact State.degradePort_port ..
  · rw [exec_retrainTimeout hl, State.retrainTimeout_due hd ht hp]
    exact ⟨fun hr => by rw [if_neg (by omega)], fun hr => by rw [if_pos hr]⟩
  · rw [exec_retrainWindowExpire hl, State.windowExpire, hf]
    dsimp only
    rw [if_pos ⟨ht, hp⟩]

/-! ### MDIO (R319) -/

section Mdio

variable {s : State} {b : Nat} {v : W32} {c45 : Bool} {op : Nat}

/-- GO on an idle bus starts the frame of the word's clause and operation. -/
theorem State.mdioGo_starts (hg : tb v.toNat 31 = true) (hb : (s.mdio b).busy = false) (hc : tb v.toNat 28 = c45)
    (ho : fld v.toNat 26 2 = op) : s.mdioGo b v c45 op =
    (s.setMdio b { busy := true, err := false, word := w32 (fld v.toNat 0 29) }).emit (.mdio b v) := by
  rw [State.mdioGo, if_neg (by simp [hg, hb, hc, ho])]

theorem State.mdioGo_busy (hb : (s.mdio b).busy = true) : s.mdioGo b v c45 op = s := by
  rw [State.mdioGo, if_pos (.inl hb)]

theorem State.mdioDone_write (hb : (s.mdio b).busy = true) (h : fld (s.mdio b).word.toNat 26 2 < 2) (r : Option W16) :
    s.mdioDone b r = s.setMdio b { s.mdio b with busy := false } := by
  have h2 : ¬ 2 ≤ fld (s.mdio b).word.toNat 26 2 := by omega
  have h3 : fld (s.mdio b).word.toNat 26 2 ≠ 3 := by omega
  simp [State.mdioDone, hb, h2, h3]

/-- The frame in progress is a read. -/
theorem State.mdio_reads (h : fld (s.mdio b).word.toNat 26 2 = 3 ∨
    (tb (s.mdio b).word.toNat 28 = true ∧ fld (s.mdio b).word.toNat 26 2 = 2)) :
    (if tb (s.mdio b).word.toNat 28 then decide (2 ≤ fld (s.mdio b).word.toNat 26 2)
      else decide (fld (s.mdio b).word.toNat 26 2 = 3)) = true := by
  rcases h with h | ⟨h28, h⟩
  · simp [h]
  · simp [h28, h]

section Read

variable (hb : (s.mdio b).busy = true)
  (h : fld (s.mdio b).word.toNat 26 2 = 3 ∨ (tb (s.mdio b).word.toNat 28 = true ∧ fld (s.mdio b).word.toNat 26 2 = 2))
include hb h

/-- A read takes what answers it. -/
theorem State.mdioDone_answered (d : W16) : s.mdioDone b (some d) =
    s.setMdio b { busy := false, err := false, word := w32 (setFld (s.mdio b).word.toNat 0 16 d.toNat) } := by
  simp only [State.mdioDone, hb, State.mdio_reads h, Bool.not_true, Bool.false_eq_true, if_false, if_true]

/-- Without an answer it reads all ones, and sets ERR. -/
theorem State.mdioDone_unanswered : s.mdioDone b none =
    s.setMdio b { busy := false, err := true, word := w32 (setFld (s.mdio b).word.toNat 0 16 0xFFFF) } := by
  simp only [State.mdioDone, hb, State.mdio_reads h, Bool.not_true, Bool.false_eq_true, if_false, if_true]

end Read

end Mdio

/-! ### The pulse per second (R322, R474) -/

theorem exec_ppsInEdge {s : State} (hl : s.live = true) : exec .ppsInEdge s = .next (s.after (s.ppsEdge s.plt.cascId)) := by
  show execPpsInEdge s = _
  exact act_of hl _ s

theorem State.ppsEdge_first {s : State} (hs : s.clk.src = .pps) (h : s.clk.ppsAt = none) :
    s.ppsEdge 0 = { s with clk := { s.clk with ppsAt := some s.ns } } := by
  rw [State.ppsEdge, if_neg (by simp [hs]), h]

theorem State.ppsEdge_next {s : State} {t0 : Nat} (hs : s.clk.src = .pps) (h : s.clk.ppsAt = some t0) :
    s.ppsEdge 0 = if (Int.ofNat s.ns - Int.ofNat (t0 + oneSec)).natAbs ≤ ms then
      { s with clk := { s.clk with ppsAt := some s.ns, slew := Config.servo (Int.ofNat s.ns - Int.ofNat (t0 + oneSec)) } } else s := by
  rw [State.ppsEdge, if_neg (by simp [hs]), h]

/-- Settles O30: each write asks for the one frame that its word names. -/
theorem mdioAndPpsAnswer : Obligations.MdioAndPpsAnswer := by
  unfold Obligations.MdioAndPpsAnswer
  refine ⟨fun b v s hr hg hb => ?_, fun b v s hr hb => ?_, fun b s hl hb => ?_, fun s hl hs hc => ?_⟩
  · have hgo : ∀ {c45 : Bool} {op : Nat}, tb v.toNat 28 = c45 → fld v.toNat 26 2 = op →
        act (s.barTakes 0xB00040) (fun s => s.mdioGo b.val v c45 op) s = .next (s.after
          ((s.setMdio b.val { busy := true, err := false, word := w32 (fld v.toNat 0 29) }).emit (.mdio b.val v))) := by
      intro c45 op hc ho
      rw [act_of hr, State.mdioGo_starts hg hb hc ho]
    exact ⟨hgo, hgo, hgo, hgo, hgo, hgo⟩
  · have hgo : ∀ op : Nat, act (s.barTakes 0xB00040) (fun s => s.mdioGo b.val v false op) s = .next (s.after s) := by
      intro op
      rw [act_of hr, State.mdioGo_busy hb]
    exact ⟨hgo 3, hgo 1⟩
  · have hdone : ∀ r : Option W16, exec (.mdioFrameComplete b r) s = .next (s.after (s.mdioDone b.val r)) := by
      intro r
      show execMdioFrameComplete b r s = _
      exact act_of hl _ s
    refine ⟨fun hread => ⟨fun d => ?_, ?_⟩, fun r hw => ?_⟩
    · rw [hdone, State.mdioDone_answered hb hread]
    · rw [hdone, State.mdioDone_unanswered hb hread]
    · rw [hdone, State.mdioDone_write hb hw]
  · rw [exec_ppsInEdge hl, hc]
    refine ⟨fun h => by rw [State.ppsEdge_first hs h], fun t0 h => ?_⟩
    rw [State.ppsEdge_next hs h]
    exact ⟨fun hoff => by rw [if_pos hoff], fun hoff => by rw [if_neg (Nat.not_le.2 hoff)]⟩

end Sys2Proof.Machine
end

section
/-! SUPPORT. What a link keeps while the frames that it received go through the switch: the number that it expects, and its count of frames
received (R328 to R330). -/

namespace Sys2Proof.Machine

open Sys2Proof

/-- In `t` every link expects the number that it did in `s`, and has counted as many frames received. -/
def State.rxKept (s t : State) : Prop :=
  (∀ l, (t.link l).expect = (s.link l).expect) ∧ ∀ u, t.cntOf bCAS u 1 = s.cntOf bCAS u 1

theorem State.rxKept.trans {s t u : State} (h : s.rxKept t) (k : t.rxKept u) : s.rxKept u :=
  ⟨fun l => (k.1 l).trans (h.1 l), fun n => (k.2 n).trans (h.2 n)⟩

theorem State.rxKept_iff {s t u : State} (h : t.rxKept u) : s.rxKept u ↔ s.rxKept t :=
  ⟨fun k => ⟨fun l => (h.1 l).symm.trans (k.1 l), fun n => (h.2 n).symm.trans (k.2 n)⟩, fun k => k.trans h⟩

theorem State.rxKept_of {t u : State} (hc : u.cas = t.cas) (hn : u.cnt = t.cnt) : t.rxKept u :=
  ⟨fun l => by rw [State.link, hc, State.link], fun n => State.cntOf_of_cnt hn bCAS n 1⟩

theorem State.rxKept_foldl {α : Type} {f : State → α → State} (h : ∀ t a, State.rxKept t (f t a)) (l : List α) (t : State) :
    t.rxKept (l.foldl f t) := by
  induction l generalizing t with
  | nil => exact State.rxKept_of rfl rfl
  | cons a r ih => exact (h t a).trans (ih _)

@[simp] theorem State.rxKept_self (s : State) : s.rxKept s ↔ True := ⟨fun _ => trivial, fun _ => State.rxKept_of rfl rfl⟩
@[simp] theorem State.rxKept_ite (s a b : State) (c : Prop) [Decidable c] :
    s.rxKept (if c then a else b) ↔ if c then s.rxKept a else s.rxKept b := by split <;> rfl

/-! ### Updates -/

@[simp] theorem State.rxKept_draw (s t : State) : s.rxKept t.draw ↔ s.rxKept t := State.rxKept_iff (State.rxKept_of rfl rfl)
@[simp] theorem State.rxKept_emit (s t : State) (o : Output) : s.rxKept (t.emit o) ↔ s.rxKept t := State.rxKept_iff (State.rxKept_of rfl rfl)
@[simp] theorem State.rxKept_bpm (s t : State) (x : BpmSt) : s.rxKept { t with bpm := x } ↔ s.rxKept t :=
  State.rxKept_iff (State.rxKept_of rfl rfl)
@[simp] theorem State.rxKept_swc (s t : State) (x : SwcSt) : s.rxKept { t with swc := x } ↔ s.rxKept t :=
  State.rxKept_iff (State.rxKept_of rfl rfl)
@[simp] theorem State.rxKept_setBuf (s t : State) (k : Nat) (x : Buf) : s.rxKept (t.setBuf k x) ↔ s.rxKept t :=
  State.rxKept_iff (State.rxKept_of rfl rfl)
@[simp] theorem State.rxKept_setPool (s t : State) (k : Nat) (x : Pool) : s.rxKept (t.setPool k x) ↔ s.rxKept t :=
  State.rxKept_iff (State.rxKept_of rfl rfl)
@[simp] theorem State.rxKept_setCopy (s t : State) (k : Nat) (x : Copy) : s.rxKept (t.setCopy k x) ↔ s.rxKept t :=
  State.rxKept_iff (State.rxKept_of rfl rfl)
@[simp] theorem State.rxKept_newCopy (s t : State) (x : Copy) : s.rxKept (t.newCopy x).1 ↔ s.rxKept t :=
  State.rxKept_iff (State.rxKept_of rfl rfl)
@[simp] theorem State.rxKept_setQueue (s t : State) (k : Nat) (x : QDesc) : s.rxKept (t.setQueue k x) ↔ s.rxKept t :=
  State.rxKept_iff (State.rxKept_of rfl rfl)
@[simp] theorem State.rxKept_setLayby (s t : State) (d c : Nat) (x : List Nat) : s.rxKept (t.setLayby d c x) ↔ s.rxKept t :=
  State.rxKept_iff (State.rxKept_of rfl rfl)
@[simp] theorem State.rxKept_setRsq (s t : State) (k : Nat) (x : Rsq) : s.rxKept (t.setRsq k x) ↔ s.rxKept t :=
  State.rxKept_iff (State.rxKept_of rfl rfl)
@[simp] theorem State.rxKept_setHeld (s t : State) (k : Nat) (x : Held) : s.rxKept (t.setHeld k x) ↔ s.rxKept t :=
  State.rxKept_iff (State.rxKept_of rfl rfl)
@[simp] theorem State.rxKept_setPort (s t : State) (k : Nat) (x : Port) : s.rxKept (t.setPort k x) ↔ s.rxKept t :=
  State.rxKept_iff (State.rxKept_of rfl rfl)
@[simp] theorem State.rxKept_subIng (s t : State) (p c n : Nat) : s.rxKept (t.subIng p c n) ↔ s.rxKept t :=
  State.rxKept_iff (State.rxKept_of rfl rfl)
@[simp] theorem State.rxKept_addAcct (s t : State) (d c a b : Nat) : s.rxKept (t.addAcct d c a b) ↔ s.rxKept t :=
  State.rxKept_iff (State.rxKept_of rfl rfl)
@[simp] theorem State.rxKept_inbox (s t : State) (x : List (Nat × Bytes)) :
    s.rxKept { t with cas := { t.cas with inbox := x } } ↔ s.rxKept t :=
  State.rxKept_iff ⟨fun _ => rfl, fun _ => rfl⟩

/-- A link rewritten with the number that it expected. -/
@[simp] theorem State.rxKept_setLink (s t : State) (k : Nat) (x : CasLink) (h : x.expect = (t.link k).expect) :
    s.rxKept (t.setLink k x) ↔ s.rxKept t := by
  refine State.rxKept_iff ⟨fun l => ?_, fun _ => rfl⟩
  by_cases hl : l = k
  · rw [hl, State.setLink_same, h]
  · exact congrArg CasLink.expect (Tbl.get_put_other _ _ x hl)

theorem State.rxKept_bumpU (s t : State) (b u n k : Nat) (h : ∀ v, cntKey bCAS v 1 ≠ cntKey b u n) :
    s.rxKept (t.bumpU b u n k) ↔ s.rxKept t :=
  State.rxKept_iff ⟨fun _ => rfl, fun v => State.cntOf_bumpU_other t (h v)⟩

@[simp] theorem State.rxKept_bumpBpm (s t : State) (n : Nat) (h : n < 64) : s.rxKept (t.bump bBPM n) ↔ s.rxKept t :=
  State.rxKept_bumpU _ _ _ _ _ _ fun v => by unfold cntKey bCAS bBPM; omega
@[simp] theorem State.rxKept_bumpSwc (s t : State) (n : Nat) (h : n < 64) : s.rxKept (t.bump bSWC n) ↔ s.rxKept t :=
  State.rxKept_bumpU _ _ _ _ _ _ fun v => by unfold cntKey bCAS bSWC; omega
@[simp] theorem State.rxKept_bumpTmg (s t : State) (n : Nat) (h : n < 64) : s.rxKept (t.bump bTMG n) ↔ s.rxKept t :=
  State.rxKept_bumpU _ _ _ _ _ _ fun v => by unfold cntKey bCAS bTMG; omega
@[simp] theorem State.rxKept_cellsIn (s t : State) (k : Nat) : s.rxKept (t.bumpU bSWC 0 0 k) ↔ s.rxKept t :=
  State.rxKept_bumpU _ _ _ _ _ _ fun v => by unfold cntKey bCAS bSWC; omega
@[simp] theorem State.rxKept_pausesOut (s t : State) (p k : Nat) : s.rxKept (t.bumpU bPRT p 9 k) ↔ s.rxKept t :=
  State.rxKept_bumpU _ _ _ _ _ _ fun v => by unfold cntKey bCAS bPRT; omega
/-- A link's other counters. -/
@[simp] theorem State.rxKept_casOther (s t : State) (u n k : Nat) (h : n ≠ 1) (hn : n < 64) : s.rxKept (t.bumpU bCAS u n k) ↔ s.rxKept t :=
  State.rxKept_bumpU _ _ _ _ _ _ fun v => by unfold cntKey bCAS; omega

theorem State.rxKept_of_cntKept {t u : State} (hc : u.cas = t.cas) (hn : t.cntKept u) : t.rxKept u :=
  ⟨fun l => by rw [State.link, hc, State.link], fun v => hn.cntOf (.inr (by unfold cntKey bCAS; omega))⟩

@[simp] theorem State.rxKept_event (s t : State) (e : Ev) (c d : Nat) : s.rxKept (t.event e c d) ↔ s.rxKept t :=
  State.rxKept_iff (State.rxKept_of_cntKept (by simp) (by simp))
@[simp] theorem State.rxKept_raise (s t : State) (a b c : Nat) : s.rxKept (t.raise a b c) ↔ s.rxKept t :=
  State.rxKept_iff (State.rxKept_of_cntKept (by simp) (by simp))

/-! ### Buffers -/

@[simp] theorem State.rxKept_thresholds (s t : State) (p : Nat) : s.rxKept (t.thresholds p) ↔ s.rxKept t := by
  have hbuf : t.bufOnly (t.thresholds p) := by simp
  exact State.rxKept_iff (State.rxKept_of_cntKept (by rw [hbuf]) (by simp))

@[simp] theorem State.rxKept_bpmLogAdd (s t : State) (k o a : Nat) (h : W32) : s.rxKept (t.bpmLogAdd k o a h) ↔ s.rxKept t := by
  unfold State.bpmLogAdd
  simp

@[simp] theorem State.rxKept_doubleFree (s t : State) (o a : Nat) (h : W32) : s.rxKept (t.doubleFree o a h) ↔ s.rxKept t := by
  simp [State.doubleFree]

@[simp] theorem State.rxKept_freeBuf (s t : State) (h : W32) : s.rxKept (t.freeBuf h) ↔ s.rxKept t := by
  refine State.rxKept_iff ?_
  unfold State.freeBuf
  simp

@[simp] theorem State.rxKept_decRef (s t : State) (a : Nat) (h : W32) : s.rxKept (t.decRef a h) ↔ s.rxKept t := by
  refine State.rxKept_iff ?_
  unfold State.decRef State.dropRef
  simp

@[simp] theorem State.rxKept_alloc (s t : State) (a p n : Nat) (b : Bool) : s.rxKept (t.alloc a p n b).1 ↔ s.rxKept t := by
  refine State.rxKept_iff ?_
  unfold State.alloc
  dsimp only
  split
  · simp
  · split <;> simp

theorem State.rxKept_takeMany (a p c : Nat) (b : Bool) (n : Nat) (t : State) : t.rxKept (t.takeMany a p c b n).1 := by
  induction n generalizing t with
  | zero => exact State.rxKept_of rfl rfl
  | succ n ih =>
    have h : t.rxKept (t.alloc a p c b).1 := by simp
    unfold State.takeMany
    dsimp only
    split
    · exact h
    · exact h.trans (ih _)

@[simp] theorem State.rxKept_allocMany (s t : State) (a p c : Nat) (b : Bool) (n : Nat) :
    s.rxKept (t.allocMany a p c b n).1 ↔ s.rxKept t := by
  refine State.rxKept_iff ?_
  unfold State.allocMany
  dsimp only
  split
  · exact State.rxKept_takeMany a p c b n t
  · simp [State.nullReturn]

@[simp] theorem State.rxKept_writeCells (s t : State) (n : Nat) (h b : List W32) (k : Bool) :
    s.rxKept (t.writeCells n h b k) ↔ s.rxKept t := by
  simp [State.writeCells]

/-! ### Copies -/

@[simp] theorem State.rxKept_returnCredit (s t : State) (c : Copy) : s.rxKept (t.returnCredit c) ↔ s.rxKept t := by
  obtain ⟨x, hx⟩ := t.returnCredit_credits c
  rw [hx]
  exact State.rxKept_swc ..

@[simp] theorem State.rxKept_dropAcct (s t : State) (c : Copy) : s.rxKept (t.dropAcct c) ↔ s.rxKept t := by
  simp [State.dropAcct]

@[simp] theorem State.rxKept_releaseCells (s t : State) (c : Copy) : s.rxKept (t.releaseCells c) ↔ s.rxKept t :=
  State.rxKept_iff (State.rxKept_foldl (fun t h => by simp) _ t)

@[simp] theorem State.rxKept_dropCopy (s t : State) (i : Nat) : s.rxKept (t.dropCopy i) ↔ s.rxKept t := by
  refine State.rxKept_iff ?_
  unfold State.dropCopy
  dsimp only
  split <;> simp

@[simp] theorem State.rxKept_discardCopy (s t : State) (i : Nat) : s.rxKept (t.discardCopy i) ↔ s.rxKept t := by
  refine State.rxKept_iff ?_
  unfold State.discardCopy
  dsimp only
  split <;> simp

@[simp] theorem State.rxKept_discardDown (s t : State) (i : Nat) : s.rxKept (t.discardDown i) ↔ s.rxKept t := by
  refine State.rxKept_iff ?_
  unfold State.discardDown
  dsimp only
  split
  · simp
  · exact (State.rxKept_swc ..).2 (by simp)

@[simp] theorem State.rxKept_pfcSync (s t : State) (p : Nat) : s.rxKept (t.pfcSync p) ↔ s.rxKept t := by
  refine State.rxKept_iff ?_
  unfold State.pfcSync
  dsimp only
  repeat' split
  all_goals simp

@[simp] theorem State.rxKept_join (s t : State) (i : Nat) (a : Bool × Nat × Nat) : s.rxKept (t.join i a) ↔ s.rxKept t := by
  refine State.rxKept_iff ?_
  unfold State.join
  dsimp only
  split <;> split <;> simp

@[simp] theorem State.rxKept_arrive (s t : State) (i : Nat) : s.rxKept (t.arrive i).1 ↔ s.rxKept t := by
  refine State.rxKept_iff ?_
  unfold State.arrive
  dsimp only
  split
  · simp
  split
  · simp
  split
  · simp
  split
  · simp
  · split <;> split <;> simp

/-! ### The resequencer (R283 to R285) -/

@[simp] theorem State.rxKept_rsqDiscard (s t : State) (k i : Nat) : s.rxKept (t.rsqDiscard k i) ↔ s.rxKept t := by
  simp [State.rsqDiscard]

@[simp] theorem State.rxKept_rsqTimer (s t : State) (k : Nat) : s.rxKept (t.rsqTimer k) ↔ s.rxKept t := by
  simp [State.rsqTimer]

@[simp] theorem State.rxKept_rsqPass (s t : State) (k : Nat) (c : SeqCell) : s.rxKept (t.rsqPass k c) ↔ s.rxKept t := by
  refine State.rxKept_iff ?_
  unfold State.rsqPass
  dsimp only
  split
  · split <;> simp
  · simp

theorem State.rxKept_rsqDrain (k fuel : Nat) (t : State) : t.rxKept (t.rsqDrain k fuel) := by
  induction fuel generalizing t with
  | zero => exact State.rxKept_of rfl rfl
  | succ fuel ih =>
    unfold State.rsqDrain
    dsimp only
    split
    · refine State.rxKept.trans ?_ (ih _)
      simp
    · exact State.rxKept_of rfl rfl

@[simp] theorem State.rxKept_rsqDeclare (s t : State) (k e : Nat) : s.rxKept (t.rsqDeclare k e) ↔ s.rxKept t := by
  refine State.rxKept_iff ?_
  unfold State.rsqDeclare
  dsimp only
  refine State.rxKept.trans ?_ (State.rxKept_foldl (fun t i => ?_) _ _)
  · simp
  · split <;> simp

@[simp] theorem State.rxKept_rsqGap (s t : State) (k : Nat) : s.rxKept (t.rsqGap k) ↔ s.rxKept t := by
  refine State.rxKept_iff ?_
  unfold State.rsqGap
  dsimp only
  split
  · simp
  · rw [State.rxKept_rsqTimer]
    refine State.rxKept.trans ?_ (State.rxKept_rsqDrain ..)
    simp

theorem State.rxKept_rsqTreat (k : Nat) (c : SeqCell) (fuel : Nat) (t : State) : t.rxKept (t.rsqTreat k c fuel) := by
  induction fuel generalizing t with
  | zero => exact State.rxKept_of rfl rfl
  | succ fuel ih =>
    unfold State.rsqTreat
    dsimp only
    split
    · rw [State.rxKept_rsqTimer]
      refine State.rxKept.trans ?_ (State.rxKept_rsqDrain ..)
      simp
    split
    · simp
    split
    · split
      · refine State.rxKept.trans ?_ (ih _)
        simp
      · refine State.rxKept.trans ?_ (ih _)
        simp
    · simp

@[simp] theorem State.rxKept_rsqCell (s t : State) (c : SeqCell) : s.rxKept (t.rsqCell c) ↔ s.rxKept t :=
  State.rxKept_iff (State.rxKept_rsqTreat ..)

/-! ### A payload taken (R25, R330) -/

theorem State.rxKept_mediaCopy {s t : State} {l i : Nat} {m : MediaCell} (h : s.mediaCopy l m = some (t, i)) : s.rxKept t := by
  unfold State.mediaCopy at h
  dsimp only at h
  split at h
  · cases h
    exact State.rxKept_of rfl rfl
  · split at h
    · cases h
    · cases h
      simp

theorem State.rxKept_mediaRx {s t : State} {l : Nat} {m : MediaCell} (h : s.mediaRx l m = some t) : s.rxKept t := by
  unfold State.mediaRx at h
  split at h
  · cases h
  next u i hcopy =>
    cases h
    refine (State.rxKept_mediaCopy hcopy).trans ?_
    rw [State.rxKept_rsqCell, State.rxKept_ite]
    simp

theorem State.rxKept_mediaTake (l fuel : Nat) (s : State) : s.rxKept (s.mediaTake l fuel) := by
  induction fuel generalizing s with
  | zero => exact State.rxKept_of rfl rfl
  | succ fuel ih =>
    unfold State.mediaTake
    split
    · exact State.rxKept_of rfl rfl
    · split
      · exact State.rxKept_of rfl rfl
      next u hrx =>
        refine ((State.rxKept_mediaRx hrx).trans ?_).trans (ih _)
        simp

@[simp] theorem State.rxKept_linkTake (s t : State) (l vc : Nat) (b : Bytes) : s.rxKept (t.linkTake l vc b) ↔ s.rxKept t := by
  refine State.rxKept_iff ?_
  unfold State.linkTake State.nullReturn
  dsimp only
  split
  · have h : t.rxKept (((t.setLink l { t.link l with rxq := (t.link l).rxq ++ [b] }).mediaTake l
        ((t.setLink l { t.link l with rxq := (t.link l).rxq ++ [b] }).link l).rxq.length)) := by
      refine State.rxKept.trans ?_ (State.rxKept_mediaTake ..)
      simp
    split
    · exact h
    · exact (State.rxKept_bumpBpm _ _ _ (by omega)).2 h
  · simp

/-! ### Credits and answers (R328 to R330) -/

@[simp] theorem State.rxKept_credited (s t : State) (l : Nat) : s.rxKept (t.credited l) ↔ s.rxKept t := by
  simp [State.credited]

@[simp] theorem State.rxKept_linkAck (s t : State) (l : Nat) (n : Bool) : s.rxKept (t.linkAck l n) ↔ s.rxKept t := by
  simp [State.linkAck]

@[simp] theorem State.rxKept_linkFreed (s t : State) (l vc : Nat) : s.rxKept (t.linkFreed l vc) ↔ s.rxKept t := by
  refine State.rxKept_iff ?_
  unfold State.linkFreed State.mediaFreed
  dsimp only
  split
  · split <;> simp
  · simp

@[simp] theorem State.rxKept_linkAcked (s t : State) (l n : Nat) : s.rxKept (t.linkAcked l n) ↔ s.rxKept t := by
  simp [State.linkAcked, State.bumpLink]

theorem State.rxKept_linkPump (l fuel : Nat) (s : State) : s.rxKept (s.linkPump l fuel) := by
  induction fuel generalizing s with
  | zero => exact State.rxKept_of rfl rfl
  | succ fuel ih =>
    unfold State.linkPump
    dsimp only
    split
    · exact State.rxKept_of rfl rfl
    · split
      · exact State.rxKept_of rfl rfl
      · refine State.rxKept.trans ?_ (ih _)
        simp [State.bumpLink]

end Sys2Proof.Machine
end

section
/-! SUPPORT. A link frame received, and the replay of what a link keeps (R328 to R330). -/

namespace Sys2Proof.Machine

open Sys2Proof

/-! ### The link after each step -/

theorem State.linkAcked_link (s : State) (l n : Nat) :
    (s.linkAcked l n).link l = { s.link l with replay := (s.link l).replay.filter (fun f => !seq12le f.seq n) } :=
  State.setLink_same ..

theorem State.credited_link (s : State) (l : Nat) : (s.credited l).link l =
    { s.link l with
      returns := setAt (s.link l).returns (s.link l).creditVc (getAt 0 (s.link l).returns (s.link l).creditVc - (s.link l).creditCount) } :=
  State.setLink_same ..

theorem State.linkAck_txq (s : State) (l : Nat) (nak : Bool) : ((s.linkAck l nak).link l).txq = (s.link l).txq := by
  have h := congrArg CasLink.txq (s.credited_link l)
  exact h

/-- With nothing to send, the pump sends nothing. -/
theorem State.linkPump_idle {s : State} {l : Nat} (h : (s.link l).txq = []) : s.linkPump l (s.link l).txq.length = s := by
  rw [h]
  rfl

theorem State.resend_link (s : State) (l : Nat) : (s.resend l).link l =
    { s.link l with replay := (s.link l).replay.map (fun f => { f with sends := f.sends + 1, at_ := s.ns }) } := by
  have hns : ∀ (x : List ReplayFrame) (e : Nat), (x.foldl (fun s f => s.emit (.linkFrame l f.vc false f.seq e 0 0 f.payload)) s).ns = s.ns :=
    fun x e => foldl_keeps State.ns (fun s f => s.emit (.linkFrame l f.vc false f.seq e 0 0 f.payload)) (fun _ _ => rfl) x s
  unfold State.resend
  dsimp only
  rw [State.setLink_same, hns]

theorem State.linkRetrain_link (s : State) (l : Nat) : (s.linkRetrain l).link l =
    { s.link l with ph := .retrain, step := 1, inUse := fld (15 - (s.link l).out) 0 4, retrainDue := some (s.ns + 100 * ms) } :=
  State.setLink_same ..

/-- A replay resends every frame, or retrains once one has failed four times. -/
theorem State.replayOp_link (s : State) (l : Nat) : (s.replayOp l).link l =
    if (s.link l).replay.any (fun f => decide (4 ≤ f.sends)) then
      { s.link l with ph := .retrain, step := 1, inUse := fld (15 - (s.link l).out) 0 4, retrainDue := some (s.ns + 100 * ms) }
    else { s.link l with replay := (s.link l).replay.map (fun f => { f with sends := f.sends + 1, at_ := s.ns }) } := by
  have hlink : ((s.bumpLink l 3 1).event .casReplayFail l l).link l = s.link l := by
    rw [State.link, State.event_cas]
    rfl
  have hns : ((s.bumpLink l 3 1).event .casReplayFail l l).ns = s.ns := by
    rw [State.ns, State.event_time]
    rfl
  unfold State.replayOp
  split
  · rw [State.linkRetrain_link, hlink, hns]
  · exact s.resend_link l

theorem State.replayOp_txq (s : State) (l : Nat) : ((s.replayOp l).link l).txq = (s.link l).txq := by
  rw [State.replayOp_link]
  split <;> rfl

/-! ### A frame received (R328 to R330) -/

/-- What a good frame acknowledges, or refuses, with the credits that it returns. -/
def State.frameAcked (s : State) (l : Nat) (f : LinkFrame) : State :=
  let s := s.linkAcked l (if f.nak then (f.ack.toNat + 4095) % 4096 else f.ack.toNat)
  s.setLink l { s.link l with credits := setAt (s.link l).credits f.crVc.toNat (getAt 0 (s.link l).credits f.crVc.toNat + f.crCount.toNat) }

/-- What a payload does, by its number: in order, received before, or after a gap. -/
def State.frameTaken (s : State) (l : Nat) (f : LinkFrame) : State :=
  if f.payload.isEmpty then s
  else if f.seq.toNat = (s.link l).expect then
    ((((s.setLink l { s.link l with expect := ((s.link l).expect + 1) % 4096 }).bumpLink l 1 1).linkTake l f.vc.toNat f.payload).linkFreed l
      f.vc.toNat).linkAck l false
  else if seq12le f.seq.toNat (s.link l).expect then s.linkAck l false
  else s.linkAck l true

section Frame

variable {s : State} {l : Nat} {f : LinkFrame}

theorem State.linkFrameRx_damaged (hu : (s.link l).ph = .up) (hc : f.crcOk = false) : s.linkFrameRx l f = (s.bumpLink l 5 1).linkAck l true := by
  rw [State.linkFrameRx]
  dsimp only
  rw [if_neg (by simp [hu]), if_pos (by simp [hc])]

theorem State.linkFrameRx_good (hu : (s.link l).ph = .up) (hc : f.crcOk = true) : s.linkFrameRx l f =
    let t := (if f.nak then (s.frameAcked l f).replayOp l else s.frameAcked l f).frameTaken l f
    t.linkPump l (t.link l).txq.length := by
  unfold State.linkFrameRx State.frameAcked State.frameTaken
  dsimp only
  rw [if_neg (by simp [hu]), if_neg (by simp [hc])]
  cases f.nak <;> rfl

theorem State.frameAcked_link : ((s.frameAcked l f).link l).expect = (s.link l).expect ∧ ((s.frameAcked l f).link l).txq = (s.link l).txq := by
  unfold State.frameAcked
  dsimp only
  rw [State.setLink_same, State.linkAcked_link]
  exact ⟨rfl, rfl⟩

theorem State.rxKept_frameAcked : s.rxKept (s.frameAcked l f) := by
  simp [State.frameAcked]

/-- A frame in order is counted, and the next is expected. -/
theorem State.frameTaken_inOrder (hp : f.payload ≠ []) (hs : f.seq.toNat = (s.link l).expect) :
    ((s.frameTaken l f).link l).expect = ((s.link l).expect + 1) % 4096 ∧
    (s.frameTaken l f).cntOf bCAS (l + 1) 1 = (s.cntOf bCAS (l + 1) 1 + 1) % 2 ^ 48 := by
  have hk : ((s.setLink l { s.link l with expect := ((s.link l).expect + 1) % 4096 }).bumpLink l 1 1).rxKept (s.frameTaken l f) := by
    rw [State.frameTaken, if_neg (by simpa using hp), if_pos hs]
    simp
  refine ⟨(hk.1 l).trans ?_, (hk.2 (l + 1)).trans ?_⟩
  · exact congrArg CasLink.expect (State.setLink_same s l { s.link l with expect := ((s.link l).expect + 1) % 4096 })
  · exact State.cntOf_bumpU_same ..

/-- One received before is acknowledged again; one after a gap is answered with a nak. -/
theorem State.frameTaken_outOfOrder (hp : f.payload ≠ []) (hs : f.seq.toNat ≠ (s.link l).expect) :
    s.frameTaken l f = s.linkAck l (!seq12le f.seq.toNat (s.link l).expect) := by
  rw [State.frameTaken, if_neg (by simpa using hp), if_neg hs]
  cases seq12le f.seq.toNat (s.link l).expect <;> rfl

theorem State.frameTaken_empty (hp : f.payload = []) : s.frameTaken l f = s := by
  rw [State.frameTaken, if_pos (by simp [hp])]

section Answer

variable (hu : (s.link l).ph = .up) (hc : f.crcOk = true)
include hu hc

theorem State.linkFrameRx_inOrder (hn : f.nak = false) (hp : f.payload ≠ []) (hs : f.seq.toNat = (s.link l).expect) :
    ((s.linkFrameRx l f).link l).expect = ((s.link l).expect + 1) % 4096 ∧
    (s.linkFrameRx l f).cntOf bCAS (l + 1) 1 = (s.cntOf bCAS (l + 1) 1 + 1) % 2 ^ 48 := by
  have hx := (State.frameAcked_link (s := s) (l := l) (f := f)).1
  have hcnt := (State.rxKept_frameAcked (s := s) (l := l) (f := f)).2 (l + 1)
  obtain ⟨he, hr⟩ := State.frameTaken_inOrder (s := s.frameAcked l f) (l := l) hp (hs.trans hx.symm)
  have hk := State.rxKept_linkPump l (((s.frameAcked l f).frameTaken l f).link l).txq.length ((s.frameAcked l f).frameTaken l f)
  rw [State.linkFrameRx_good hu hc, hn]
  refine ⟨(hk.1 l).trans (he.trans (by rw [hx])), (hk.2 (l + 1)).trans (hr.trans (by rw [hcnt]))⟩

variable (ht : (s.link l).txq = [])
include ht

theorem State.linkFrameRx_ack (hn : f.nak = false) (hp : f.payload = []) : s.linkFrameRx l f = s.frameAcked l f := by
  rw [State.linkFrameRx_good hu hc, hn, if_neg (by simp)]
  dsimp only
  rw [State.frameTaken_empty hp, State.linkPump_idle (State.frameAcked_link.2.trans ht)]

theorem State.linkFrameRx_again (hn : f.nak = false) (hp : f.payload ≠ []) (hs : f.seq.toNat ≠ (s.link l).expect) :
    s.linkFrameRx l f = (s.frameAcked l f).linkAck l (!seq12le f.seq.toNat (s.link l).expect) := by
  obtain ⟨hx, htx⟩ := State.frameAcked_link (s := s) (l := l) (f := f)
  rw [State.linkFrameRx_good hu hc, hn, if_neg (by simp)]
  dsimp only
  rw [State.frameTaken_outOfOrder hp (by rwa [hx]), hx, State.linkPump_idle ((State.linkAck_txq ..).trans (htx.trans ht))]

theorem State.linkFrameRx_nak (hn : f.nak = true) (hp : f.payload = []) : s.linkFrameRx l f = (s.frameAcked l f).replayOp l := by
  rw [State.linkFrameRx_good hu hc, hn, if_pos rfl]
  dsimp only
  rw [State.frameTaken_empty hp, State.linkPump_idle ((State.replayOp_txq ..).trans (State.frameAcked_link.2.trans ht))]

end Answer

/-- An answer to a good frame, with the credits that have fallen due. -/
theorem State.frameAcked_linkAck (hn : f.nak = false) (nak : Bool) :
    (s.frameAcked l f).linkAck l nak = ((s.frameAcked l f).credited l).emit (.linkFrame l 0 nak 0
      (if nak then (s.link l).expect else ((s.link l).expect + 4095) % 4096)
      ((s.linkAcked l f.ack.toNat).link l).creditVc ((s.linkAcked l f.ack.toNat).link l).creditCount []) := by
  have hlink : (s.frameAcked l f).link l = { (s.linkAcked l f.ack.toNat).link l with
      credits := setAt ((s.linkAcked l f.ack.toNat).link l).credits f.crVc.toNat
        (getAt 0 ((s.linkAcked l f.ack.toNat).link l).credits f.crVc.toNat + f.crCount.toNat) } := by
    rw [State.frameAcked, hn]
    exact State.setLink_same ..
  rw [State.linkAck, hlink, State.linkAcked_link]
  rfl

end Frame

/-! ### The replay's time (R329) -/

theorem exec_replayTimeout {s : State} (hl : s.live = true) (l : LinkId) : exec (.replayTimeout l) s = .next (s.after (s.replayTimeout l.val)) := by
  show execReplayTimeout l s = _
  exact act_of hl _ s

theorem exec_linkFrameReceived {s : State} (hl : s.live = true) (l : LinkId) (f : LinkFrame) :
    exec (.linkFrameReceived l f) s = .next (s.after (s.linkFrameRx l.val f)) := by
  show execLinkFrameReceived l f s = _
  exact act_of hl _ s

theorem State.replayTimeout_eq {s : State} {l : Nat} {g : ReplayFrame} {q : List ReplayFrame} (h : (s.link l).replay = g :: q)
    (hu : (s.link l).ph = .up) : s.replayTimeout l = if g.at_ + 2 * us ≤ s.ns then s.replayOp l else s := by
  rw [State.replayTimeout, h]
  simp [hu]

/-- Settles O32: a good frame acknowledges first; its payload is then taken by its number. -/
theorem linkFramesAnswer : Obligations.LinkFramesAnswer := by
  unfold Obligations.LinkFramesAnswer
  refine ⟨fun l f s hl => ?_, fun l g q s hl hr hu => ?_⟩
  · dsimp only
    simp only [exec_linkFrameReceived hl]
    refine ⟨fun hu => ?_, fun hu hc => ?_, fun hu hc hn ht => ⟨fun hp => ?_, fun hp hs => ?_, fun hp hs hb => ?_, fun hp hs hb => ?_⟩,
      fun hu hc hn hp ht => ?_, fun g hg => ?_⟩
    · rw [State.linkFrameRx, if_pos hu]
    · rw [State.linkFrameRx_damaged hu hc]
      rfl
    · rw [State.linkFrameRx_ack hu hc ht hn hp, State.frameAcked, hn]
      rfl
    · exact ⟨_, rfl, State.linkFrameRx_inOrder hu hc hn hp hs⟩
    · rw [State.linkFrameRx_again hu hc ht hn hp hs, hb, State.frameAcked_linkAck hn, State.frameAcked, hn]
      rfl
    · rw [State.linkFrameRx_again hu hc ht hn hp hs, hb, State.frameAcked_linkAck hn, State.frameAcked, hn]
      rfl
    · rw [State.linkFrameRx_nak hu hc ht hn hp, State.frameAcked, hn]
      rfl
    · rw [State.linkAcked_link] at hg
      obtain ⟨hmem, hno⟩ := List.mem_filter.1 hg
      exact ⟨hmem, by simpa using hno⟩
  · rw [exec_replayTimeout hl, State.replayTimeout_eq hr hu]
    refine ⟨fun hd => ?_, fun hd hs => ⟨_, rfl, ?_⟩, fun hd hs => ⟨_, rfl, ?_⟩⟩
    · rw [if_neg (by omega)]
    · have hany : (s.link l.val).replay.any (fun f => decide (4 ≤ f.sends)) = false := by
        rw [hr, List.any_eq_false]
        intro e he
        have := hs e he
        simp only [decide_eq_true_eq]
        omega
      rw [if_pos hd, State.replayOp_link, hany, hr]
      exact ⟨hu, rfl⟩
    · obtain ⟨e, he, h4⟩ := hs
      have hany : (s.link l.val).replay.any (fun f => decide (4 ≤ f.sends)) = true := by
        rw [hr]
        exact List.any_eq_true.2 ⟨e, he, decide_eq_true h4⟩
      rw [if_pos hd, State.replayOp_link, hany, hr]
      exact ⟨rfl, rfl, hr, rfl⟩

end Sys2Proof.Machine
end

section
/-! SUPPORT. What an event posted leaves of the host interface (R381, R382, R398), and rings and event queues that are HELD (R374, R387). -/

namespace Sys2Proof.Machine

open Sys2Proof

/-! ### The host interface after an event: its rings, and what its queues are -/

/-- The host interface of `t` is that of `s` but for records posted and, while the host is detached, events lost: each queue has the phase
that it had. -/
def State.postOnly (s t : State) : Prop :=
  t.hqe = { s.hqe with eqs := t.hqe.eqs, lostDetached := t.hqe.lostDetached } ∧ (∀ q, (t.eq q).ph = (s.eq q).ph) ∧
    (s.hqe.attached = true → t.hqe.lostDetached = s.hqe.lostDetached)

theorem State.postOnly.attached {s t : State} (h : s.postOnly t) : t.hqe.attached = s.hqe.attached := by rw [h.1]

theorem State.postOnly.trans {s t u : State} (h : s.postOnly t) (k : t.postOnly u) : s.postOnly u := by
  obtain ⟨hh, hq, hl⟩ := h
  obtain ⟨kh, kq, kl⟩ := k
  refine ⟨by rw [kh, hh], fun q => (kq q).trans (hq q), fun ha => (kl ?_).trans (hl ha)⟩
  rw [hh]
  exact ha

theorem State.postOnly_symm {s t : State} (h : s.postOnly t) : t.postOnly s := by
  obtain ⟨hh, hq, hl⟩ := h
  refine ⟨by rw [hh], fun q => (hq q).symm, fun ha => (hl ?_).symm⟩
  rw [hh] at ha
  exact ha

theorem State.postOnly_iff {s t u : State} (h : t.postOnly u) : s.postOnly u ↔ s.postOnly t :=
  ⟨fun k => k.trans (State.postOnly_symm h), fun k => k.trans h⟩

theorem State.postOnly_of_hqe {s t : State} (h : t.hqe = s.hqe) : s.postOnly t :=
  ⟨by rw [h], fun q => by rw [State.eq, h, State.eq], fun _ => by rw [h]⟩

@[simp] theorem State.postOnly_self (s : State) : s.postOnly s ↔ True := ⟨fun _ => trivial, fun _ => State.postOnly_of_hqe rfl⟩
@[simp] theorem State.postOnly_ite (s a b : State) (c : Prop) [Decidable c] :
    s.postOnly (if c then a else b) ↔ if c then s.postOnly a else s.postOnly b := by split <;> rfl

@[simp] theorem State.postOnly_emit (s t : State) (o : Output) : s.postOnly (t.emit o) ↔ s.postOnly t :=
  State.postOnly_iff (State.postOnly_of_hqe rfl)
@[simp] theorem State.postOnly_draw (s t : State) : s.postOnly t.draw ↔ s.postOnly t := State.postOnly_iff (State.postOnly_of_hqe rfl)
@[simp] theorem State.postOnly_bump (s t : State) (b n : Nat) : s.postOnly (t.bump b n) ↔ s.postOnly t :=
  State.postOnly_iff (State.postOnly_of_hqe rfl)
@[simp] theorem State.postOnly_setSrc (s t : State) (n : Nat) (e : EvSrc) : s.postOnly (t.setSrc n e) ↔ s.postOnly t :=
  State.postOnly_iff (State.postOnly_of_hqe rfl)
@[simp] theorem State.postOnly_setFltSrc (s t : State) (n : Nat) (x : FltSrc) : s.postOnly (t.setFltSrc n x) ↔ s.postOnly t :=
  State.postOnly_iff (State.postOnly_of_hqe rfl)
@[simp] theorem State.postOnly_logFault (s t : State) (a b c d e : Nat) : s.postOnly (t.logFault a b c d e) ↔ s.postOnly t :=
  State.postOnly_iff (State.postOnly_of_hqe rfl)
@[simp] theorem State.postOnly_assertReplace (s t : State) : s.postOnly t.assertReplace ↔ s.postOnly t :=
  State.postOnly_iff (State.postOnly_of_hqe rfl)
@[simp] theorem State.postOnly_setHealth (s t : State) (n : Nat) : s.postOnly (t.setHealth n) ↔ s.postOnly t :=
  State.postOnly_iff (State.postOnly_of_hqe rfl)
@[simp] theorem State.postOnly_flt (s t : State) (x : FltSt) : s.postOnly { t with flt := x } ↔ s.postOnly t :=
  State.postOnly_iff (State.postOnly_of_hqe rfl)
theorem State.postOnly_lostDetached (s t : State) (n : Nat) (h : t.hqe.attached = false) :
    s.postOnly { t with hqe := { t.hqe with lostDetached := n } } ↔ s.postOnly t :=
  State.postOnly_iff ⟨rfl, fun _ => rfl, fun ha => absurd (ha.symm.trans h) (by simp)⟩

/-- A queue rewritten in the phase that it had. -/
@[simp] theorem State.postOnly_setEq (s t : State) (k : Nat) (x : EvQ) (h : x.ph = (t.eq k).ph) : s.postOnly (t.setEq k x) ↔ s.postOnly t := by
  refine State.postOnly_iff ⟨rfl, fun q => ?_, fun _ => rfl⟩
  by_cases hq : q = k
  · rw [hq, State.setEq_same, h]
  · rw [State.setEq_other _ _ _ _ hq]

@[simp] theorem State.postOnly_toHost (s t : State) (a : Nat) (b : Bytes) : s.postOnly (t.toHost a b) ↔ s.postOnly t := by
  refine State.postOnly_iff ?_
  simp [State.toHost]

@[simp] theorem State.postOnly_msix (s t : State) (v : Nat) : s.postOnly (t.msix v) ↔ s.postOnly t := by
  refine State.postOnly_iff ?_
  simp [State.msix]

@[simp] theorem State.postOnly_eqStat (s t : State) (q : Nat) : s.postOnly (t.eqStat q) ↔ s.postOnly t := by
  refine State.postOnly_iff ?_
  simp [State.eqStat]

@[simp] theorem State.postOnly_eqSignal (s t : State) (q : Nat) : s.postOnly (t.eqSignal q) ↔ s.postOnly t := by
  refine State.postOnly_iff ?_
  simp [State.eqSignal]

@[simp] theorem State.postOnly_eqLose (s t : State) (q : Nat) : s.postOnly (t.eqLose q) ↔ s.postOnly t := by
  refine State.postOnly_iff ?_
  unfold State.eqLose
  dsimp only
  rw [State.postOnly_eqStat]
  split
  · simp
  next h => exact (State.postOnly_lostDetached _ _ _ (by simpa using h)).2 (by simp)

@[simp] theorem State.postOnly_eqWrite (s t : State) (q src code context time detail : Nat) :
    s.postOnly (t.eqWrite q src code context time detail) ↔ s.postOnly t := by
  refine State.postOnly_iff ?_
  unfold State.eqWrite
  dsimp only
  rw [State.postOnly_eqStat, State.postOnly_bump, State.postOnly_setEq, State.postOnly_toHost, State.postOnly_self]
  · trivial
  · unfold State.toHost
    split <;> rfl

@[simp] theorem State.postOnly_eqOverflowRec (s t : State) (q : Nat) : s.postOnly (t.eqOverflowRec q) ↔ s.postOnly t := by
  refine State.postOnly_iff ?_
  simp [State.eqOverflowRec]

@[simp] theorem State.postOnly_eqPost (s t : State) (q src code context time detail : Nat) :
    s.postOnly (t.eqPost q src code context time detail) ↔ s.postOnly t := by
  refine State.postOnly_iff ?_
  unfold State.eqPost
  have hlost : t.postOnly (if (t.bump bHQE 3).hqe.attached then t.bump bHQE 3
      else { t.bump bHQE 3 with hqe := { (t.bump bHQE 3).hqe with lostDetached := (t.bump bHQE 3).hqe.lostDetached + 1 } }) := by
    split
    · simp
    next h => exact (State.postOnly_lostDetached _ _ _ (by simpa using h)).2 (by simp)
  split
  · simp
  · simp
  · exact hlost
  · exact hlost

@[simp] theorem State.postOnly_deliver (s t : State) (k n : Nat) : s.postOnly (t.deliver k n) ↔ s.postOnly t := by
  refine State.postOnly_iff ?_
  simp [State.deliver, State.signalNew]

@[simp] theorem State.postOnly_assign (s t : State) (n : Nat) : s.postOnly (t.assign n) ↔ s.postOnly t := by
  refine State.postOnly_iff ?_
  unfold State.assign
  split <;> simp

@[simp] theorem State.postOnly_makePending (s t : State) (n c x d : Nat) : s.postOnly (t.makePending n c x d) ↔ s.postOnly t := by
  simp [State.makePending]

@[simp] theorem State.postOnly_mergeEdge (s t : State) (n c x d : Nat) : s.postOnly (t.mergeEdge n c x d) ↔ s.postOnly t := by
  simp [State.mergeEdge]

@[simp] theorem State.postOnly_assertSrc (s t : State) (n c x d : Nat) : s.postOnly (t.assertSrc n c x d) ↔ s.postOnly t := by
  refine State.postOnly_iff ?_
  unfold State.assertSrc
  dsimp only
  repeat' split
  all_goals simp

@[simp] theorem State.postOnly_event (s t : State) (e : Ev) (c d : Nat) : s.postOnly (t.event e c d) ↔ s.postOnly t := by
  simp [State.event]

@[simp] theorem State.postOnly_react (s t : State) (n u c : Nat) : s.postOnly (t.react n u c) ↔ s.postOnly t := by
  refine State.postOnly_iff ?_
  unfold State.react
  dsimp only
  repeat' split
  all_goals simp

@[simp] theorem State.postOnly_raise (s t : State) (a b c : Nat) : s.postOnly (t.raise a b c) ↔ s.postOnly t := by
  refine State.postOnly_iff ?_
  unfold State.raise State.raiseWith
  dsimp only
  cases fltEvent a b <;> simp

/-! ### Status records (R380, R381) -/

theorem State.ringStat_form (s : State) (r : Nat) : ∃ u t o, s.ringStat r = { s.setRing r { s.ring r with updates := u, time := t } with out := o } ∨
    s.ringStat r = s := by
  unfold State.ringStat State.toHost
  dsimp only
  split
  next h => exact ⟨_, _, _, .inl (if_pos h)⟩
  next => exact ⟨0, 0, [], .inr rfl⟩

theorem State.ringStat_other (s : State) {r j : Nat} (h : j ≠ r) : (s.ringStat r).ring j = s.ring j := by
  obtain ⟨u, t, o, hs | hs⟩ := s.ringStat_form r <;> rw [hs]
  exact State.setRing_other _ _ _ _ h

/-- A status record changes no more of its ring than its own count and time. -/
theorem State.ringStat_same (s : State) (r : Nat) : ∃ u t, (s.ringStat r).ring r = { s.ring r with updates := u, time := t } := by
  obtain ⟨u, t, o, hs | hs⟩ := s.ringStat_form r <;> rw [hs]
  · exact ⟨u, t, State.setRing_same ..⟩
  · exact ⟨_, _, rfl⟩

theorem State.ringStat_ph (s : State) (r j : Nat) : ((s.ringStat r).ring j).ph = (s.ring j).ph := by
  by_cases h : j = r
  · obtain ⟨u, t, hs⟩ := s.ringStat_same r
    rw [h, hs]
  · rw [s.ringStat_other h]

theorem State.ringStat_eq (s : State) (r q : Nat) : (s.ringStat r).eq q = s.eq q := by
  obtain ⟨u, t, o, hs | hs⟩ := s.ringStat_form r <;> rw [hs]
  rfl

theorem State.eqStat_ring (s : State) (q r : Nat) : (s.eqStat q).ring r = s.ring r := by
  unfold State.eqStat State.toHost
  dsimp only
  split
  · split <;> rfl
  · rfl

/-! ### HELD (R374, R387) -/

/-- `t` is `s` but for its rings, its event queues, and what it has sent. -/
def State.hostOnly (s t : State) : Prop :=
  t = { s with hqe := { s.hqe with rings := t.hqe.rings, eqs := t.hqe.eqs }, out := t.out }

theorem State.hostOnly.trans {s t u : State} (h : s.hostOnly t) (k : t.hostOnly u) : s.hostOnly u := by
  unfold State.hostOnly at *
  rw [k, h]

theorem State.hostOnly_ringStat (s : State) (r : Nat) : s.hostOnly (s.ringStat r) := by
  obtain ⟨u, t, o, hs | hs⟩ := s.ringStat_form r <;> rw [hs] <;> rfl

theorem State.hostOnly_eqStat (s : State) (q : Nat) : s.hostOnly (s.eqStat q) := by
  unfold State.eqStat State.toHost
  dsimp only
  split
  · split <;> rfl
  · rfl

/-- The ring of a table's entry held. -/
def State.holdRing (s : State) (e : Nat × Ring) : State :=
  if e.1 = 0 ∨ e.2.ph = .free then s
  else (s.setRing e.1 { s.ring e.1 with ph := .held, waiting := [] }).ringStat e.1

/-- The event queue of a table's entry held. -/
def State.holdEq (s : State) (e : Nat × EvQ) : State :=
  if e.2.ph = .free then s else (s.setEq e.1 { s.eq e.1 with ph := .held }).eqStat e.1

theorem State.holdRings_eq (s : State) : s.holdRings =
    (s.hqe.rings.foldl State.holdRing s).hqe.eqs.foldl State.holdEq (s.hqe.rings.foldl State.holdRing s) := rfl

theorem State.holdRing_keeps (s : State) (e : Nat × Ring) : s.hostOnly (s.holdRing e) ∧ (s.holdRing e).ring 0 = s.ring 0 ∧
    (∀ r, (s.ring r).ph = .held → ((s.holdRing e).ring r).ph = .held) ∧ ∀ q, (s.holdRing e).eq q = s.eq q := by
  unfold State.holdRing
  split
  · exact ⟨rfl, rfl, fun _ h => h, fun _ => rfl⟩
  next h =>
    refine ⟨State.hostOnly.trans (by rfl) (State.hostOnly_ringStat ..), ?_, fun r hr => ?_, fun q => State.ringStat_eq ..⟩
    · have h0 : 0 ≠ e.1 := fun h0 => h (.inl h0.symm)
      rw [State.ringStat_other _ h0, State.setRing_other _ _ _ _ h0]
    · rw [State.ringStat_ph]
      by_cases hk : r = e.1
      · rw [hk, State.setRing_same]
      · rwa [State.setRing_other _ _ _ _ hk]

theorem State.holdRing_held {s : State} {e : Nat × Ring} (h0 : e.1 ≠ 0) (hf : e.2.ph ≠ .free) : ((s.holdRing e).ring e.1).ph = .held := by
  rw [State.holdRing, if_neg (by simp [h0, hf]), State.ringStat_ph, State.setRing_same]

theorem State.holdEq_keeps (s : State) (e : Nat × EvQ) : s.hostOnly (s.holdEq e) ∧ (∀ r, (s.holdEq e).ring r = s.ring r) ∧
    ∀ q, (s.eq q).ph = .held → ((s.holdEq e).eq q).ph = .held := by
  unfold State.holdEq
  split
  · exact ⟨rfl, fun _ => rfl, fun _ h => h⟩
  · refine ⟨State.hostOnly.trans (by rfl) (State.hostOnly_eqStat ..), fun r => State.eqStat_ring .., fun q hq => ?_⟩
    rw [((State.postOnly_eqStat _ _ e.1).2 ((State.postOnly_self _).2 trivial)).2.1 q]
    by_cases hk : q = e.1
    · rw [hk, State.setEq_same]
    · rwa [State.setEq_other _ _ _ _ hk]

theorem State.holdEq_held {s : State} {e : Nat × EvQ} (hf : e.2.ph ≠ .free) : ((s.holdEq e).eq e.1).ph = .held := by
  rw [State.holdEq, if_neg hf, ((State.postOnly_eqStat _ _ e.1).2 ((State.postOnly_self _).2 trivial)).2.1 e.1, State.setEq_same]

/-- The rings of a table's entries held, all but ring 0. -/
theorem State.holdRingFold_keeps (l : List (Nat × Ring)) (s : State) : s.hostOnly (l.foldl State.holdRing s) ∧
    (l.foldl State.holdRing s).ring 0 = s.ring 0 ∧ (∀ q, (l.foldl State.holdRing s).eq q = s.eq q) ∧
    ∀ r, ((s.ring r).ph = .held ∨ r ≠ 0 ∧ ∃ e ∈ l, e.1 = r ∧ e.2.ph ≠ .free) → ((l.foldl State.holdRing s).ring r).ph = .held := by
  induction l generalizing s with
  | nil => exact ⟨rfl, rfl, fun _ => rfl, fun r h => h.resolve_right (by simp)⟩
  | cons a l ih =>
    obtain ⟨ho, h0, hh, hq⟩ := s.holdRing_keeps a
    obtain ⟨ho', h0', hq', hh'⟩ := ih (s.holdRing a)
    refine ⟨ho.trans ho', h0'.trans h0, fun q => (hq' q).trans (hq q), fun r hr => hh' r ?_⟩
    rcases hr with hr | ⟨hr0, e, he, rfl, hf⟩
    · exact .inl (hh r hr)
    · rcases List.mem_cons.1 he with rfl | he
      · exact .inl (State.holdRing_held hr0 hf)
      · exact .inr ⟨hr0, e, he, rfl, hf⟩

theorem State.holdEqFold_keeps (l : List (Nat × EvQ)) (s : State) : s.hostOnly (l.foldl State.holdEq s) ∧
    (∀ r, (l.foldl State.holdEq s).ring r = s.ring r) ∧
    ∀ q, ((s.eq q).ph = .held ∨ ∃ e ∈ l, e.1 = q ∧ e.2.ph ≠ .free) → ((l.foldl State.holdEq s).eq q).ph = .held := by
  induction l generalizing s with
  | nil => exact ⟨rfl, fun _ => rfl, fun q h => h.resolve_right (by simp)⟩
  | cons a l ih =>
    obtain ⟨ho, hr, hh⟩ := s.holdEq_keeps a
    obtain ⟨ho', hr', hh'⟩ := ih (s.holdEq a)
    refine ⟨ho.trans ho', fun r => (hr' r).trans (hr r), fun q hq => hh' q ?_⟩
    rcases hq with hq | ⟨e, he, rfl, hf⟩
    · exact .inl (hh q hq)
    · rcases List.mem_cons.1 he with rfl | he
      · exact .inl (State.holdEq_held hf)
      · exact .inr ⟨e, he, rfl, hf⟩

/-- A ring that is not free has an entry in the table. -/
theorem State.ring_entry {s : State} {r : Nat} (h : (s.ring r).ph ≠ .free) : ∃ e ∈ s.hqe.rings, e.1 = r ∧ e.2.ph ≠ .free := by
  rw [State.ring, Tbl.get] at h
  cases hf : Tbl.find s.hqe.rings r with
  | none => rw [hf] at h; exact absurd rfl h
  | some x => rw [hf] at h; exact ⟨(r, x), Tbl.mem_of_find hf, rfl, h⟩

theorem State.eq_entry {s : State} {q : Nat} (h : (s.eq q).ph ≠ .free) : ∃ e ∈ s.hqe.eqs, e.1 = q ∧ e.2.ph ≠ .free := by
  rw [State.eq, Tbl.get] at h
  cases hf : Tbl.find s.hqe.eqs q with
  | none => rw [hf] at h; exact absurd rfl h
  | some x => rw [hf] at h; exact ⟨(q, x), Tbl.mem_of_find hf, rfl, h⟩

/-- Every ring but ring 0 and every event queue that is not free is HELD, and ring 0 is as it was. -/
theorem State.holdRings_holds (s : State) : s.hostOnly s.holdRings ∧ s.holdRings.ring 0 = s.ring 0 ∧
    (∀ r, r ≠ 0 → (s.ring r).ph ≠ .free → (s.holdRings.ring r).ph = .held) ∧
    ∀ q, (s.eq q).ph ≠ .free → (s.holdRings.eq q).ph = .held := by
  obtain ⟨ho, h0, hq, hr⟩ := State.holdRingFold_keeps s.hqe.rings s
  obtain ⟨ho', hr', hq'⟩ := State.holdEqFold_keeps (s.hqe.rings.foldl State.holdRing s).hqe.eqs (s.hqe.rings.foldl State.holdRing s)
  rw [State.holdRings_eq]
  refine ⟨ho.trans ho', (hr' 0).trans h0, fun r h hf => ?_, fun q hf => hq' q (.inr (State.eq_entry ?_))⟩
  · rw [hr']
    exact hr r (.inr ⟨h, State.ring_entry hf⟩)
  · rwa [hq]

end Sys2Proof.Machine
end

section
/-! SUPPORT. The host detached, and the resets of the host's function (R374, R387); doorbells and the watchdog (R377, R379, R382, R387). -/

namespace Sys2Proof.Machine

open Sys2Proof

/-! ### Detachment (R374, R387) -/

/-- Detachment's health, counter and rings, before its fault is raised. -/
def State.detaching (s : State) : State :=
  ((State.setHealth { s with hqe := { s.hqe with attached := false } } hDETACHED).bump bHQE 7).holdRings

theorem State.detach_of_attached {s : State} (h : s.hqe.attached = true) : s.detach = s.detaching.raise fHqeDetached 0 0 := if_pos h

theorem State.detach_of_detached {s : State} (h : s.hqe.attached = false) : s.detach = s := if_neg (by simp [h])

/-- A host that was attached is detached, with every ring but ring 0 and every event queue HELD. -/
theorem State.detach_holds {s : State} (h : s.hqe.attached = true) : s.fltOnly s.detach ∧ s.detach.hqe.attached = false ∧
    s.detach.hqe.bme = s.hqe.bme ∧ s.detach.ring 0 = s.ring 0 ∧ (∀ r, r ≠ 0 → (s.ring r).ph ≠ .free → (s.detach.ring r).ph = .held) ∧
    ∀ q, (s.eq q).ph ≠ .free → (s.detach.eq q).ph = .held := by
  obtain ⟨ho, h0, hr, hq⟩ := ((State.setHealth { s with hqe := { s.hqe with attached := false } } hDETACHED).bump bHQE 7).holdRings_holds
  have hpost : s.detaching.postOnly s.detach := by
    rw [State.detach_of_attached h]
    simp
  obtain ⟨hhqe, hph, -⟩ := hpost
  have hhold : s.detaching.hqe.attached = false ∧ s.detaching.hqe.bme = s.hqe.bme := by
    rw [State.detaching, ho]
    exact ⟨rfl, rfl⟩
  have hring : ∀ r, s.detach.ring r = s.detaching.ring r := fun r => by rw [State.ring, hhqe, State.ring]
  refine ⟨?_, ?_, ?_, (hring 0).trans h0, fun r h1 h2 => ?_, fun q hf => (hph q).trans (hq q hf)⟩
  · rw [State.detach_of_attached h, State.fltOnly_raise, State.detaching, ho]
    rfl
  · rw [hhqe]
    exact hhold.1
  · rw [hhqe]
    exact hhold.2
  · rw [hring]
    exact hr r h1 h2

/-- Whether it was attached or not, what is HELD stays so. -/
theorem State.detach_keeps (s : State) : s.fltOnly s.detach ∧ s.detach.hqe.attached = false ∧ s.detach.hqe.bme = s.hqe.bme ∧
    s.detach.ring 0 = s.ring 0 ∧ (∀ r, r ≠ 0 → (s.ring r).ph = .held → (s.detach.ring r).ph = .held) ∧
    ∀ q, (s.eq q).ph = .held → (s.detach.eq q).ph = .held := by
  cases h : s.hqe.attached with
  | true =>
    obtain ⟨ho, ha, hb, h0, hr, hq⟩ := State.detach_holds h
    exact ⟨ho, ha, hb, h0, fun r h1 h2 => hr r h1 (by simp [h2]), fun q h2 => hq q (by simp [h2])⟩
  | false =>
    rw [State.detach_of_detached h]
    exact ⟨rfl, h, rfl, rfl, fun _ _ h => h, fun _ h => h⟩

/-! ### Resets of the host's function (R374) -/

/-- Bus Master Enable, the MSI-X table and HQE's header, reset. -/
def State.hostCleared (s : State) : State :=
  let s := { s with hqe := { s.hqe with bme := false }, regs := s.regs.filter (fun e => !isMsix e.1) }
  s.setUnit bHQE { s.unit bHQE with en := false, enPending := false, running := false }

theorem State.hostReset_eq (s : State) : s.hostReset = s.hostCleared.holdRings.detach := rfl

theorem State.hostCleared_bme (s : State) : s.hostCleared.hqe.bme = false ∧ (s.hostCleared.unit bHQE).en = false :=
  ⟨rfl, by rw [State.hostCleared, State.setUnit_same]⟩

/-- A reset of the host's function clears Bus Master Enable and HQE's EN, and holds the rings and queues. -/
theorem State.hostReset_holds (s : State) : s.hostCleared.fltOnly s.hostReset ∧ s.hostReset.hqe.bme = false ∧
    (s.hostReset.unit bHQE).en = false ∧ s.hostReset.hqe.attached = false ∧ s.hostReset.ring 0 = s.ring 0 ∧
    (∀ r, r ≠ 0 → (s.ring r).ph ≠ .free → (s.hostReset.ring r).ph = .held) ∧
    ∀ q, (s.eq q).ph ≠ .free → (s.hostReset.eq q).ph = .held := by
  obtain ⟨ho, h0, hr, hq⟩ := s.hostCleared.holdRings_holds
  obtain ⟨ho', ha', hb', h0', hr', hq'⟩ := s.hostCleared.holdRings.detach_keeps
  have hf : s.hostCleared.fltOnly s.hostReset := State.fltOnly_trans (by rw [ho]; rfl) ho'
  refine ⟨hf, ?_, ?_, ha', h0'.trans h0, fun r h1 h2 => hr' r h1 (hr r h1 h2), fun q h2 => hq' q (hq q h2)⟩
  · rw [State.hostReset_eq, hb', ho]
    rfl
  · rw [State.unit, hf]
    exact s.hostCleared_bme.2

theorem State.configReq_write {s : State} {b : Bool} (hl : s.hqe.linkUp = true) (hr : s.hqe.readyAt ≤ s.ns) :
    s.configReq (some b) = { s.emit .answered with hqe := { s.hqe with bme := b } } := by
  rw [State.configReq, if_neg (by simp [hl]), if_neg (Nat.not_lt.2 hr)]
  exact Eq.refl _

theorem State.configReq_read {s : State} (hl : s.hqe.linkUp = true) (hr : s.hqe.readyAt ≤ s.ns) : s.configReq none = s.emit .answered := by
  rw [State.configReq, if_neg (by simp [hl]), if_neg (Nat.not_lt.2 hr)]

theorem State.configReq_early {s : State} {bm : Option Bool} (hl : s.hqe.linkUp = true) (hr : s.ns < s.hqe.readyAt) :
    s.configReq bm = State.emit { s with hqe := { s.hqe with crs := s.hqe.crs + 1 } } .crs := by
  rw [State.configReq, if_neg (by simp [hl]), if_pos hr]

theorem exec_configRequest {s : State} (hp : s.pcie = true) (bm : Option Bool) :
    exec (.configRequest bm) s = .next (s.after (s.configReq bm)) := by
  show execConfigRequest bm s = _
  exact act_of hp _ s

/-- Settles O41: the four resets share `State.hostReset`, which leaves every media function. -/
theorem hostResetsAnswer : Obligations.HostResetsAnswer := by
  unfold Obligations.HostResetsAnswer
  refine ⟨fun s hp => ⟨s.hostReset, ?_, ?_, ?_, ?_, ?_⟩, fun c g w s hp hlow => ?_, fun b s hp hl => ⟨fun hr => ⟨?_, ?_⟩, fun hr => ?_⟩⟩
  · show execFunctionLevelReset s = _
    exact act_of hp _ s
  · show execHotReset s = _
    exact act_of hp _ s
  · show execPcieLinkLoss s = _
    exact act_of hp _ s
  · show execPerstAssert s = _
    exact act_of hp _ s
  · obtain ⟨hf, hbme, hen, hatt, h0, hr, hq⟩ := s.hostReset_holds
    refine ⟨hbme, hen, hatt, h0, hr, hq, ?_⟩
    rw [hf]
    exact ⟨rfl, rfl, rfl, rfl, rfl, rfl, rfl, rfl, rfl, rfl, rfl, rfl, rfl⟩
  · show execPerstDeassert c g w s = _
    refine (act_of hp _ s).trans ?_
    rw [State.perstHigh, if_pos hlow]
  · rw [exec_configRequest hp, State.configReq_write hl hr]
  · rw [exec_configRequest hp, State.configReq_read hl hr]
  · rw [exec_configRequest hp, State.configReq_early hl hr]

end Sys2Proof.Machine
end

section
/-! SUPPORT. Doorbells, the event queues' signals and the watchdog (R377, R379, R382, R387). -/

namespace Sys2Proof.Machine

open Sys2Proof

section Doorbell

variable {s : State} (hc : s.cmdsRun = true) (hr : s.running bHQE = true)
include hc hr

/-- A doorbell restarts the watchdog, and acts. -/
theorem act_doorbell (f : State → State) : act s.cmdsRun (fun s => s.doorbell f) s = .next (s.after (f s.restartWatchdog)) := by
  have hr' : s.restartWatchdog.running bHQE = true := hr
  rw [act_of hc, State.doorbell, if_pos hr']

theorem exec_sqTail (r : RingId) (v : W32) (l : List SubEntry) :
    exec (.sqTail r v l) s = .next (s.after (s.restartWatchdog.sqTail r.val v l)) := by
  show execSqTail r v l s = _
  exact act_doorbell hc hr _

theorem exec_cqHead (r : RingId) (v : W32) : exec (.cqHead r v) s = .next (s.after (s.restartWatchdog.cqHead r.val v)) := by
  show execCqHead r v s = _
  exact act_doorbell hc hr _

theorem exec_eqDb (q : EqId) (v : W32) : exec (.eqDb q v) s = .next (s.after (s.restartWatchdog.eqDbOp q.val v)) := by
  show execEqDb q v s = _
  exact act_doorbell hc hr _

end Doorbell

section Ring

variable {s : State} {r : Nat} {v : W32} {l : List SubEntry}

theorem State.sqTail_ignored (h : (s.ring r).ph ≠ .run) : s.sqTail r v l = s.bump bHQE 4 := by
  rw [State.sqTail]
  exact if_pos h

theorem State.cqHead_ignored (h : (s.ring r).ph ≠ .run) : s.cqHead r v = s.bump bHQE 4 := by
  rw [State.cqHead]
  exact if_pos h

variable (h : (s.ring r).ph = .run)
include h

/-- A tail that names nothing new. -/
theorem State.sqTail_same (hv : v = (s.ring r).consumed) : s.sqTail r v l = s := by
  rw [State.sqTail, if_neg (by simp [h])]
  exact if_pos hv

/-- New entries, at most as many as the ring holds. -/
theorem State.sqTail_fresh (hv : v ≠ (s.ring r).consumed) (hn : serial32 v.toNat (s.ring r).consumed.toNat ≤ (s.ring r).size) :
    s.sqTail r v l = ((s.setRing r { s.ring r with
      tailSeen := v
      waiting := s.readEntries (serial32 v.toNat (s.ring r).consumed.toNat) l }).ringStat r).pump r := by
  rw [State.sqTail, if_neg (by simp [h])]
  dsimp only
  rw [if_neg hv, if_pos hn]

/-- More than the ring holds stop it. -/
theorem State.sqTail_over (hv : v ≠ (s.ring r).consumed) (hn : (s.ring r).size < serial32 v.toNat (s.ring r).consumed.toNat) :
    s.sqTail r v l = s.stopRing r 1 := by
  rw [State.sqTail, if_neg (by simp [h])]
  dsimp only
  rw [if_neg hv, if_neg (Nat.not_le.2 hn)]

theorem State.cqHead_moves (h0 : 0 < serial32 v.toNat (s.ring r).headSeen.toNat)
    (hn : serial32 v.toNat (s.ring r).headSeen.toNat ≤ serial32 (s.ring r).produced.toNat (s.ring r).headSeen.toNat) :
    s.cqHead r v = ((s.setRing r { s.ring r with headSeen := v }).ringStat r).pump r := by
  rw [State.cqHead, if_neg (by simp [h])]
  exact if_pos ⟨h0, hn⟩

theorem State.cqHead_outside (hn : serial32 v.toNat (s.ring r).headSeen.toNat = 0 ∨
    serial32 (s.ring r).produced.toNat (s.ring r).headSeen.toNat < serial32 v.toNat (s.ring r).headSeen.toNat) :
    s.cqHead r v = s.bump bHQE 4 := by
  rw [State.cqHead, if_neg (by simp [h])]
  exact if_neg (by omega)

end Ring

section Queue

variable {s : State} {q : Nat} {v : W32}

theorem State.eqDbOp_ignored (h : (s.eq q).ph ≠ .run ∨
    serial32 (s.eq q).posted.toNat (s.eq q).db.toNat < serial32 v.toNat (s.eq q).db.toNat) : s.eqDbOp q v = s.bump bHQE 4 := by
  rw [State.eqDbOp]
  by_cases hp : (s.eq q).ph = .run
  · have hn := h.resolve_left (by simp [hp])
    rw [if_neg (by simp [hp])]
    exact if_neg (Nat.not_le.2 hn)
  · exact if_pos hp

/-- The queue after an accepted doorbell: armed, its consumed point moved, its coalescing values taken. -/
def State.eqRearmed (s : State) (q : Nat) (v : W32) : State :=
  State.setEq { s with regs := Tbl.put s.regs (coalAddr q + 4) (w32 (fld (Tbl.get 1 s.regs (coalAddr q)).toNat 0 24)) } q
    { s.eq q with db := v, armed := true, firstAt := if serial32 (s.eq q).posted.toNat v.toNat = 0 then none else some s.ns }

theorem State.eqDbOp_rearms (h : (s.eq q).ph = .run)
    (hn : serial32 v.toNat (s.eq q).db.toNat ≤ serial32 (s.eq q).posted.toNat (s.eq q).db.toNat) :
    s.eqDbOp q v = (((s.eqRearmed q v).eqStat q).eqOverflowRec q).eqSignal q := by
  rw [State.eqDbOp, if_neg (by simp [h])]
  exact if_pos hn

theorem State.eqRearmed_eq : ((s.eqRearmed q v).eq q).db = v ∧ ((s.eqRearmed q v).eq q).armed = true ∧
    ((s.eqRearmed q v).eq q).posted = (s.eq q).posted := by
  rw [State.eqRearmed, State.setEq_same]
  exact ⟨rfl, rfl, rfl⟩

theorem State.eqRearmed_coal : (s.eqRearmed q v).coalAct q = fld (Tbl.get 1 s.regs (coalAddr q)).toNat 0 24 := by
  have hlt := fld_lt (Tbl.get 1 s.regs (coalAddr q)).toNat 0 24
  have hget : Tbl.get 1 (s.eqRearmed q v).regs (coalAddr q + 4) = w32 (fld (Tbl.get 1 s.regs (coalAddr q)).toNat 0 24) :=
    Tbl.get_put_same ..
  rw [State.coalAct, hget, w32_toNat_of_lt (by omega)]

/-- An armed queue signals once enough wait, or have waited long enough. -/
theorem State.eqSignal_due (ha : (s.eq q).armed = true) (hu : 0 < (s.eq q).unread)
    (hd : fld (s.coalAct q) 0 8 ≤ (s.eq q).unread ∨
      ∃ t0, (s.eq q).firstAt = some t0 ∧ t0 + fld (s.coalAct q) 8 16 * us ≤ s.ns) :
    s.eqSignal q = (s.setEq q { s.eq q with armed := false }).msix q := by
  rw [State.eqSignal]
  dsimp only
  refine if_pos ?_
  rcases hd with hd | ⟨t0, hf, hd⟩
  · simp [ha, hu, hd]
  · simp [ha, hu, hf, hd]

end Queue

theorem exec_eqCoalTimeout {s : State} (hl : s.live = true) {q : EqId} (h : (s.eq q.val).ph ≠ .free) :
    exec (.eqCoalTimeout q) s = .next (s.after (s.eqSignal q.val)) := by
  show execEqCoalTimeout q s = _
  exact act_of (by simp [hl, h]) _ s

theorem State.hbExpire_due {s : State} (ha : s.hqe.attached = true) (ht : s.hqe.hbTimeout ≠ 0) (hd : s.hqe.hbAt + s.hqe.hbTimeout * ms ≤ s.ns) :
    s.hbExpire = s.detach := if_pos ⟨ha, ht, hd⟩

/-- Settles O42: each doorbell acts on the state with its watchdog restarted. -/
theorem doorbellsAnswer : Obligations.DoorbellsAnswer := by
  unfold Obligations.DoorbellsAnswer
  refine ⟨fun r v l s hc hr => ?_, fun q v s hc hr => ?_, fun q s hl => ?_, fun v s hb => ?_, fun s hl ha ht hd => ?_⟩
  · dsimp only
    rw [exec_sqTail hc hr, exec_cqHead hc hr]
    refine ⟨fun h => ⟨?_, ?_⟩, fun h hv => ?_, fun h hv hn => ?_, fun h hv hn => ?_, fun h h0 hn => ?_, fun h hn => ?_⟩
    · rw [State.sqTail_ignored (s := s.restartWatchdog) h]
    · rw [State.cqHead_ignored (s := s.restartWatchdog) h]
    · rw [State.sqTail_same (s := s.restartWatchdog) h hv]
    · rw [State.sqTail_fresh (s := s.restartWatchdog) h hv hn]
      rfl
    · rw [State.sqTail_over (s := s.restartWatchdog) h hv hn]
    · rw [State.cqHead_moves (s := s.restartWatchdog) h h0 hn]
      rfl
    · rw [State.cqHead_outside (s := s.restartWatchdog) h hn]
  · dsimp only
    rw [exec_eqDb hc hr]
    refine ⟨fun h => ?_, fun h hn => ⟨s.restartWatchdog.eqRearmed q.val v, ?_, ?_⟩⟩
    · rw [State.eqDbOp_ignored (s := s.restartWatchdog) h]
    · rw [State.eqDbOp_rearms (s := s.restartWatchdog) h hn]
    · obtain ⟨hdb, harm, hpost⟩ := State.eqRearmed_eq (s := s.restartWatchdog) (q := q.val) (v := v)
      exact ⟨hdb, harm, hpost, State.eqRearmed_coal⟩
  · intro e hf ha hu hd
    rw [exec_eqCoalTimeout hl hf, State.eqSignal_due ha hu hd]
  · show execHeartbeat v s = _
    exact act_of hb _ s
  · obtain ⟨-, hatt, -, h0, hr, -⟩ := State.detach_holds ha
    refine ⟨s.detach, ?_, hatt, h0, hr⟩
    show execHeartbeatTimeout s = _
    exact (act_of hl _ s).trans (by rw [State.hbExpire_due ha ht hd])

end Sys2Proof.Machine
end

section
/-! SUPPORT. The completion slots of a ring, through the consumption and the completion of its submissions (R379). -/

namespace Sys2Proof.Machine

open Sys2Proof

/-- The completions not taken and the submissions in flight fit the ring (R379). -/
def Ring.fits (x : Ring) : Prop := serial32 x.produced.toNat x.headSeen.toNat + x.flight.length ≤ x.size

/-- One completion more is at most one more not taken. -/
theorem serial32_succ_le (p h : W32) : serial32 (p + 1).toNat h.toNat ≤ serial32 p.toNat h.toNat + 1 := by
  unfold serial32
  rw [BitVec.toNat_add]
  have := p.isLt
  have := h.isLt
  simp only [BitVec.ofNat_eq_ofNat, BitVec.toNat_ofNat]
  omega

/-- A submission that leaves the flight makes it shorter. -/
theorem length_filter_sseq_lt {l : List Flight} {n : W32} (h : ∃ f ∈ l, f.e.sseq = n) :
    (l.filter (fun f => decide (f.e.sseq ≠ n))).length < l.length := by
  obtain ⟨f, hf, hn⟩ := h
  exact List.length_filter_lt_length_iff_exists.2 ⟨f, hf, by simp [hn]⟩

/-- A status record keeps what decides whether the completions fit. -/
theorem State.fits_ringStat {s : State} {r : Nat} (h : (s.ring r).fits) : ((s.ringStat r).ring r).fits := by
  obtain ⟨u, t, hs⟩ := s.ringStat_same r
  rw [hs]
  exact h

theorem State.toHost_ring (s : State) (a : Nat) (b : Bytes) (r : Nat) : (s.toHost a b).ring r = s.ring r := by
  unfold State.toHost
  split <;> rfl

theorem State.eqPost_ring (s : State) (q src code c t d r : Nat) : (s.eqPost q src code c t d).ring r = s.ring r := by
  have h : s.postOnly (s.eqPost q src code c t d) := by simp
  rw [State.ring, h.1, State.ring]

theorem State.event_ring (s : State) (e : Ev) (c d r : Nat) : (s.event e c d).ring r = s.ring r := by
  have h : s.postOnly (s.event e c d) := by simp
  rw [State.ring, h.1, State.ring]

/-- A ring stopped keeps what decides whether the completions fit. -/
theorem State.fits_stopRing {s : State} {r : Nat} (h : (s.ring r).fits) (n : Nat) : ((s.stopRing r n).ring r).fits := by
  have hstat : (((s.setRing r { s.ring r with ph := .stopped, reason := n, waiting := [] }).ringStat r).ring r).fits :=
    State.fits_ringStat (by rw [State.setRing_same]; exact h)
  unfold State.stopRing
  dsimp only
  rw [State.event_ring]
  split
  · rwa [State.eqPost_ring]
  · exact hstat

/-- A completion takes the slot of the submission that leaves the flight. -/
theorem State.fits_complete0 {s : State} {r : Nat} {e : SubEntry} (h : (s.ring r).fits) (hf : ∃ f ∈ (s.ring r).flight, f.e.sseq = e.sseq)
    (st d : Nat) (b : Bytes) : ((s.complete0 r e st d b).ring r).fits := by
  unfold State.complete0
  dsimp only
  refine State.fits_ringStat ?_
  have hring : ∀ (u : State) (c : Cpl), ((u.writeCpl r c).bump bHQE 1).ring r = u.ring r := fun u c => State.toHost_ring u _ _ r
  rw [hring, State.setRing_same]
  have hlen := length_filter_sseq_lt hf
  have hsucc := serial32_succ_le (s.ring r).produced (s.ring r).headSeen
  unfold Ring.fits at *
  dsimp only
  omega

/-- An entry consumed: it is in flight. -/
def State.entryTaken (s : State) (r : Nat) (e : SubEntry) (rest : List (Option SubEntry)) : State :=
  (State.setRing { s with hqe := { s.hqe with nextOrd := s.hqe.nextOrd + 1 } } r
    { s.ring r with consumed := e.sseq, waiting := rest, flight := (s.ring r).flight ++ [{ ord := s.hqe.nextOrd, e := e }] }).bump bHQE 0

theorem State.entryTaken_ring (s : State) (r : Nat) (e : SubEntry) (rest : List (Option SubEntry)) : (s.entryTaken r e rest).ring r =
    { s.ring r with consumed := e.sseq, waiting := rest, flight := (s.ring r).flight ++ [{ ord := s.hqe.nextOrd, e := e }] } :=
  State.setRing_same ..

/-- Consumption takes a slot for each entry, and none without one. -/
theorem State.fits_pumpN (r fuel : Nat) (s : State) (h : (s.ring r).fits) : ((s.pumpN r fuel).ring r).fits := by
  induction fuel generalizing s with
  | zero => exact h
  | succ fuel ih =>
    unfold State.pumpN
    dsimp only
    split
    · exact h
    · split
      · exact h
      · exact State.fits_stopRing h 3
    next e rest _ =>
      split
      · exact h
      split
      · exact State.fits_stopRing h 2
      split
      · exact h
      next hslot =>
        have hs : (s.ring r).slot = true := by
          by_contra hno
          exact hslot (by simp [hno])
        have htaken : (((s.entryTaken r e rest).ringStat r).ring r).fits := by
          refine State.fits_ringStat ?_
          rw [State.entryTaken_ring]
          simpa [Ring.slot, Ring.fits, Nat.add_assoc] using hs
        have hflight : { ord := s.hqe.nextOrd, e := e } ∈ (((s.entryTaken r e rest).ringStat r).ring r).flight := by
          obtain ⟨u, t, hst⟩ := (s.entryTaken r e rest).ringStat_same r
          rw [hst, State.entryTaken_ring]
          simp
        refine ih _ ?_
        split
        · exact htaken
        · exact State.fits_complete0 htaken ⟨_, hflight, rfl⟩ ..

/-- Settles O43, by induction on the entries that wait. -/
theorem completionSlotsAreReserved : Obligations.CompletionSlotsAreReserved := by
  unfold Obligations.CompletionSlotsAreReserved
  exact ⟨fun s r n h => State.fits_pumpN r n s h, fun s r e st d b h hf => State.fits_pumpN r _ _ (State.fits_complete0 h hf st d b)⟩

end Sys2Proof.Machine
end

section
/-! SUPPORT. Commands on rings and event queues (R381, R383, R384, R388, R481). -/

namespace Sys2Proof.Machine

open Sys2Proof

section Answers

variable {s : State} {e : SubEntry}

/-! ### Rings -/

theorem State.ringCreateCmd_ok (ht : ringTarget e = true) (hk : e.param 0 1 ≤ 2) (hz : isPow2In (e.param 2 2) 16 4096 = true)
    (hp : placeOk e (e.param 2 2) = true) (hq : e.param 20 2 < 2048 ∨ e.param 20 2 = 0xFFFF)
    (hr : e.target.toNat < getAt 0 s.way.queueParts 2 / 2) (hf : (s.ring e.target.toNat).ph = .free) : s.ringCreateCmd e =
    ((s.setRing e.target.toNat {
        ph := .run, kind := e.param 0 1, size := e.param 2 2, sqBase := e.addr.toNat, cqBase := e.param 4 8, srBase := e.param 12 8,
        errEq := e.param 20 2 }).ringStat e.target.toNat, okRes []) := by
  have hq' : (decide (e.param 20 2 < 2048) || decide (e.param 20 2 = 0xFFFF)) = true := by simpa using hq
  have hbad : (!ringTarget e || decide (2 < e.param 0 1) || !isPow2In (e.param 2 2) 16 4096 || !placeOk e (e.param 2 2) ||
     !(decide (e.param 20 2 < 2048) || decide (e.param 20 2 = 0xFFFF))) = false := by
    rw [hq', ht, hz, hp, decide_eq_false (Nat.not_lt.2 hk)]
    rfl
  rw [State.ringCreateCmd]
  dsimp only
  rw [if_neg (by rw [hbad]; simp), if_neg (Nat.not_le.2 hr), if_neg (by simp [hf])]

theorem State.ringCreateCmd_bad (ht : ringTarget e = false) : s.ringCreateCmd e = (s, code cBAD_PARAM) := by
  rw [State.ringCreateCmd]
  dsimp only
  rw [if_pos (by simp [ht])]

/-- A ring deleted is free, and nothing of it is in flight. -/
theorem State.ringDeleteCmd_ok (ht : ringTarget e = true) (hf : (s.ring e.target.toNat).ph ≠ .free) :
    ∃ t, s.ringDeleteCmd e = (t, okRes []) ∧ (t.ring e.target.toNat).ph = .free ∧ (t.ring e.target.toNat).flight = [] := by
  have hfreed : ∀ u : State, let t := ((u.setRing e.target.toNat { u.ring e.target.toNat with
      ph := .free, flight := [], kept := [] }).ringStat e.target.toNat).forgetRing e.target.toNat
      (t.ring e.target.toNat).ph = .free ∧ (t.ring e.target.toNat).flight = [] := by
    intro u
    obtain ⟨n, t, hs⟩ := (u.setRing e.target.toNat { u.ring e.target.toNat with ph := .free, flight := [], kept := [] }).ringStat_same
      e.target.toNat
    rw [State.setRing_same] at hs
    refine ⟨(congrArg Ring.ph hs).trans rfl, (congrArg Ring.flight hs).trans rfl⟩
  rw [State.ringDeleteCmd]
  dsimp only
  rw [if_neg (by simp [ht]), if_neg hf]
  exact ⟨_, rfl, hfreed _⟩

/-- The sequence of the oldest completion kept, or of the next. -/
def Ring.oldest (x : Ring) : W32 :=
  match x.kept with
  | c :: _ => c.cseq
  | [] => x.produced + 1

/-- A ring moved runs at its new place, with its sequences. -/
theorem State.ringResyncCmd_ok (ht : ringTarget e = true) (hf : (s.ring e.target.toNat).ph ≠ .free)
    (hp : placeOk e (s.ring e.target.toNat).size = true) : ∃ t,
    s.ringResyncCmd e = (t, okRes (leBytes 4 (s.ring e.target.toNat).oldest.toNat)) ∧
    (t.ring e.target.toNat).ph = .run ∧ (t.ring e.target.toNat).waiting = [] ∧ (t.ring e.target.toNat).cqBase = e.param 4 8 ∧
    (t.ring e.target.toNat).consumed = (s.ring e.target.toNat).consumed ∧
    (t.ring e.target.toNat).produced = (s.ring e.target.toNat).produced := by
  have hwritten : ∀ (l : List Cpl) (u : State), ∃ n t, ((l.foldl (fun s c => s.writeCpl e.target.toNat c) u).ringStat e.target.toNat).ring
      e.target.toNat = { u.ring e.target.toNat with updates := n, time := t } := by
    intro l u
    obtain ⟨n, t, hs⟩ := (l.foldl (fun s c => s.writeCpl e.target.toNat c) u).ringStat_same e.target.toNat
    have hkeep : (l.foldl (fun s c => s.writeCpl e.target.toNat c) u).ring e.target.toNat = u.ring e.target.toNat :=
      foldl_keeps (fun s : State => s.ring e.target.toNat) _ (fun s c => State.toHost_ring ..) l u
    exact ⟨n, t, by rw [hs, hkeep]⟩
  obtain ⟨n, t, hring⟩ := hwritten ((s.ring e.target.toNat).kept.filter (fun c => decide (serial32 c.cseq.toNat (e.param 20 4) < 2 ^ 31)))
    (s.setRing e.target.toNat { s.ring e.target.toNat with ph := .run, reason := 0, waiting := [], sqBase := e.addr.toNat,
                                                           cqBase := e.param 4 8, srBase := e.param 12 8 })
  rw [State.setRing_same] at hring
  rw [State.ringResyncCmd]
  dsimp only
  rw [if_neg (by simp [ht]), if_neg hf, if_neg (by simp [hp])]
  refine ⟨_, rfl, ?_⟩
  rw [hring]
  exact ⟨rfl, rfl, rfl, rfl, rfl⟩

/-! ### Event queues -/

theorem State.eqCreateCmd_ok (ht : eqTarget e = true) (hp : eqPlaceOk e = true) (hc : s.eqCoalOk e = true)
    (hf : (s.eq e.target.toNat).ph = .free) : s.eqCreateCmd e = (((s.setCoal e.target.toNat e).setEq e.target.toNat {
      ph := .run, base := e.addr.toNat, size := e.param 0 4, srBase := e.param 4 8, armed := true }).eqStat e.target.toNat, okRes []) := by
  rw [State.eqCreateCmd]
  dsimp only
  rw [if_neg (by simp [ht, hp]), if_neg (by simp [hc]), if_neg (by simp [hf])]

theorem State.eqDeleteCmd_ok (ht : eqTarget e = true) (hf : (s.eq e.target.toNat).ph ≠ .free) : s.eqDeleteCmd e =
    ((s.setEq e.target.toNat { s.eq e.target.toNat with ph := .free, armed := false, firstAt := none }).eqStat e.target.toNat,
      okRes []) := by
  rw [State.eqDeleteCmd]
  dsimp only
  rw [if_neg (by simp [ht]), if_neg hf]

theorem State.eqResyncCmd_ok (ht : eqTarget e = true) (hp : eqPlaceOk e = true) (hc : s.eqCoalOk e = true)
    (hf : (s.eq e.target.toNat).ph ≠ .free) : s.eqResyncCmd e = (((s.setCoal e.target.toNat e).setEq e.target.toNat
      { s.eq e.target.toNat with
        ph := .run, base := e.addr.toNat, size := e.param 0 4, srBase := e.param 4 8, armed := true,
        db := (s.eq e.target.toNat).posted, firstAt := none }).eqStat e.target.toNat, okRes []) := by
  rw [State.eqResyncCmd]
  dsimp only
  rw [if_neg (by simp [ht, hp]), if_neg (by simp [hc]), if_neg hf]

end Answers

/-! ### The host attached (R387, R389) -/

/-- The host attached, with no event lost and its watchdog restarted: the record of it loses no event. -/
theorem State.attachCmd_attaches (s : State) : ∃ t, s.attachCmd = (t, okRes (leBytes 4 (s.hqe.lostDetached % 2 ^ 32))) ∧
    t.hqe.attached = true ∧ t.hqe.lostDetached = 0 ∧ t.hqe.hbAt = s.ns := by
  have hpost : (State.restartWatchdog { s with hqe := { s.hqe with attached := true, lostDetached := 0 } }).postOnly
      ((State.restartWatchdog { s with hqe := { s.hqe with attached := true, lostDetached := 0 } }).event .hqeAttached noCtx
        s.hqe.lostDetached) := by simp
  refine ⟨_, rfl, ?_⟩
  obtain ⟨hhqe, -, hlost⟩ := hpost
  refine ⟨?_, hlost rfl, ?_⟩ <;> rw [hhqe] <;> rfl

/-- Settles O44: each command completes with the answer of its function. -/
theorem ringAndQueueCommandsAnswer : Obligations.RingAndQueueCommandsAnswer := by
  unfold Obligations.RingAndQueueCommandsAnswer
  intro h e s hrun hs
  refine ⟨fun hc => ?_, fun hc ht hk hz hp hq hr hf => ?_, fun hc ht => ?_, fun hc ht hf => ?_, fun hc ht hf hp => ?_,
    fun hc ht hp hco hf => ?_, fun hc ht hf => ?_, fun hc ht hp hco hf => ?_, fun hc => ?_⟩
  · show execNop h s = _
    exact State.now_answers hrun hs hc rfl
  · show execRingCreate h s = _
    exact State.now_answers hrun hs hc (State.ringCreateCmd_ok ht hk hz hp hq hr hf)
  · show execRingCreate h s = _
    exact State.now_answers hrun hs hc (State.ringCreateCmd_bad ht)
  · obtain ⟨t, hcmd, hfree⟩ := State.ringDeleteCmd_ok ht hf
    refine ⟨t, ?_, hfree⟩
    show execRingDelete h s = _
    exact State.now_answers hrun hs hc hcmd
  · obtain ⟨t, hcmd, hrun'⟩ := State.ringResyncCmd_ok ht hf hp
    refine ⟨t, ?_, hrun'⟩
    show execRingResync h s = _
    exact State.now_answers hrun hs hc hcmd
  · show execEqCreate h s = _
    exact State.now_answers hrun hs hc (State.eqCreateCmd_ok ht hp hco hf)
  · show execEqDelete h s = _
    exact State.now_answers hrun hs hc (State.eqDeleteCmd_ok ht hf)
  · show execEqResync h s = _
    exact State.now_answers hrun hs hc (State.eqResyncCmd_ok ht hp hco hf)
  · obtain ⟨t, hcmd, hatt⟩ := s.attachCmd_attaches
    refine ⟨t, ?_, hatt⟩
    show execAttach h s = _
    exact State.now_answers hrun hs hc hcmd

end Sys2Proof.Machine
end

section
/-! SUPPORT. Frames of TX and RX rings (R375, R386). -/

namespace Sys2Proof.Machine

open Sys2Proof

theorem exec_txFrame {s : State} (hrun : s.cmdsRun = true) (h : CmdRef) (d : HostData) :
    exec (.txFrame h d) s = .next (s.after (s.txOp h d)) := by
  show execTxFrame h d s = _
  exact act_of hrun _ s

section Tx

variable {s : State} {h : CmdRef} {e : SubEntry} (hf : s.frontEntry h kTX 0x100 = some e) (ht : e.target.toNat < 262144)
  (hl : 0 < e.len.toNat) (hm : e.len.toNat + 4 ≤ 9216)
include hf ht hl hm

/-- A frame that host memory gave is written. -/
theorem State.txOp_read (hb : s.hqe.bme = true) (b : Bytes) : s.txOp h (some b) = s.txWrite h.ring.val e (padTo e.len.toNat b) := by
  rw [State.txOp, hf]
  dsimp only
  rw [if_neg (by omega), if_pos hb]

/-- One whose read failed completes HOST_DMA. -/
theorem State.txOp_failed : s.txOp h none = s.complete h.ring.val e cHOST_DMA 0 [] := by
  rw [State.txOp, hf]
  dsimp only
  rw [if_neg (by omega)]

end Tx

/-- A frame written takes its credit and its cells, becomes a copy for its queue, and completes. -/
theorem State.txWrite_copies {s : State} {r : Nat} {e : SubEntry} {b : Bytes} {n : Nat} {q : QDesc} (hq : s.queue e.target.toNat = q)
    (hn : cellsFor (max 64 (e.len.toNat + 4)) = n) (hc : s.hasCredit 4 (s.groupOf q.dest) q.cls n = true)
    (ha : (s.allocMany aHqe 0 1 false n).2.length = n) : s.txWrite r e b =
    ((((s.allocMany aHqe 0 1 false n).1.takeCredit 4 (s.groupOf q.dest) q.cls n).writeCells (max 64 (e.len.toNat + 4))
      (s.allocMany aHqe 0 1 false n).2 [] true).newCopy
        { kind := .host, dest := q.dest, cls := q.cls, queue := e.target.toNat, head := (s.allocMany aHqe 0 1 false n).2,
          len := max 64 (e.len.toNat + 4), src := 36, unit := some 4, data := b }).1.complete r e cOK 0 [] := by
  rw [State.txWrite]
  dsimp only
  rw [hq, hn, if_neg (by simp [hc]), if_neg (by omega)]

theorem State.rxOp_fills {s : State} {h : CmdRef} (hk : (s.ring h.ring.val).kind = kRX) (hf : (s.flightOf h).isSome = true)
    (he : tb s.excCfg 31 = true) (hr : fld s.excCfg 0 14 = h.ring.val) : s.rxOp h = s.excFill h.ring.val s.hqe.exc.length :=
  if_pos ⟨hk, hf, he, hr⟩

/-- Settles O45: an entry at the head of its ring is written with what its read returned. -/
theorem frameRingsAnswer : Obligations.FrameRingsAnswer := by
  unfold Obligations.FrameRingsAnswer
  refine ⟨fun h e b s hrun hf ht hl hm => ⟨fun hb hc ha => ?_, ?_⟩, fun h s hrun hk hf he hr => ?_, fun s hl => ⟨s.excTimeout, ?_, rfl, ?_⟩⟩
  · rw [exec_txFrame hrun, State.txOp_read hf ht hl hm hb, State.txWrite_copies rfl rfl hc ha]
  · rw [exec_txFrame hrun, State.txOp_failed hf ht hl hm]
  · show execRxBuffer h s = _
    refine (act_of hrun _ s).trans ?_
    rw [State.rxOp_fills hk hf he hr]
  · show execExcWaitTimeout s = _
    exact act_of hl _ s
  · exact State.cntOf_bumpU_same ..

end Sys2Proof.Machine
end

section
/-! SUPPORT. Sources that assert and de-assert (R396), and the choice of a claim (R400). -/

namespace Sys2Proof.Machine

open Sys2Proof

/-! ### Assertion (R396) -/

section Assert

variable {s : State} {n c x d : Nat}

theorem State.assertSrc_zero : s.assertSrc 0 c x d = s := if_pos rfl

/-- An edge at an idle source makes it pending. -/
theorem State.assertSrc_edge_idle (h0 : n ≠ 0) (hl : isLevel n = false) (hp : (s.src n).ph = .idle) :
    s.assertSrc n c x d = (s.bump bEVC 0).makePending n c x d := by
  have hp' : ((s.bump bEVC 0).src n).ph = .idle := hp
  rw [State.assertSrc, if_neg h0]
  dsimp only
  rw [if_neg (by simp [hl]), hp']

/-- An edge at a source that is pending, or to be asserted again, is merged. -/
theorem State.assertSrc_edge_merged (h0 : n ≠ 0) (hl : isLevel n = false)
    (hp : (s.src n).ph = .pending ∨ ((s.src n).ph = .inService ∧ (s.src n).again = true)) :
    s.assertSrc n c x d = (s.bump bEVC 0).mergeEdge n c x d := by
  rw [State.assertSrc, if_neg h0]
  dsimp only
  rw [if_neg (by simp [hl])]
  rcases hp with hp | ⟨hp, ha⟩
  · have hp' : ((s.bump bEVC 0).src n).ph = .pending := hp
    rw [hp']
  · have hp' : ((s.bump bEVC 0).src n).ph = .inService := hp
    have ha' : ((s.bump bEVC 0).src n).again = true := ha
    rw [hp']
    exact if_pos ha'

/-- An edge at a source in service will assert it again. -/
theorem State.assertSrc_edge_again (h0 : n ≠ 0) (hl : isLevel n = false) (hp : (s.src n).ph = .inService) (ha : (s.src n).again = false) :
    s.assertSrc n c x d = (s.bump bEVC 0).setSrc n { s.src n with again := true, code := c, context := x, detail := d, time := s.ns } := by
  have hp' : ((s.bump bEVC 0).src n).ph = .inService := hp
  have ha' : ((s.bump bEVC 0).src n).again = false := ha
  rw [State.assertSrc, if_neg h0]
  dsimp only
  rw [if_neg (by simp [hl]), if_neg (by simp [ha'])]
  split
  next h => exact absurd (hp'.symm.trans h) (by simp)
  next h => exact absurd (hp'.symm.trans h) (by simp)
  · rfl

/-- A level asserted, with its particulars. -/
def State.levelUp (s : State) (n c x d : Nat) : State :=
  (s.bump bEVC 0).setSrc n { s.src n with asserted := true, code := c, context := x, detail := d, time := s.ns }

theorem isLevel_ne_zero (hl : isLevel n = true) : n ≠ 0 := by
  rintro rfl
  simp [isLevel] at hl

theorem State.assertSrc_level_idle (hl : isLevel n = true) (ha : (s.src n).asserted = false) (hp : (s.src n).ph = .idle) :
    s.assertSrc n c x d = (s.levelUp n c x d).makePending n c x d := by
  have hp' : ((s.bump bEVC 0).src n).ph = .idle := hp
  have ha' : ((s.bump bEVC 0).src n).asserted = false := ha
  rw [State.assertSrc, if_neg (isLevel_ne_zero hl)]
  dsimp only
  rw [if_pos hl, if_neg (by simp [ha'])]
  split
  · rfl
  next h => exact absurd (hp'.symm.trans h) (by simp)
  next h => exact absurd (hp'.symm.trans h) (by simp)

/-- A level that was asserted, or is not idle, takes the particulars alone. -/
theorem State.assertSrc_level_other (hl : isLevel n = true) (h : (s.src n).asserted = true ∨ (s.src n).ph ≠ .idle) :
    s.assertSrc n c x d = s.levelUp n c x d := by
  rw [State.assertSrc, if_neg (isLevel_ne_zero hl)]
  dsimp only
  rw [if_pos hl]
  split
  · rfl
  next ha =>
    split
    next hp => exact absurd hp (h.resolve_left ha)
    · rfl
    · rfl

theorem State.deassertSrc_pending (hl : isLevel n = true) (hp : (s.src n).ph = .pending) :
    s.deassertSrc n = s.setSrc n { s.src n with asserted := false, ph := .idle, target := none, unrouted := false } := by
  rw [State.deassertSrc, if_pos hl]
  dsimp only
  rw [hp]

theorem State.deassertSrc_other (hl : isLevel n = true) (hp : (s.src n).ph ≠ .pending) :
    s.deassertSrc n = s.setSrc n { s.src n with asserted := false } := by
  rw [State.deassertSrc, if_pos hl]
  dsimp only
  split
  next h => exact absurd h hp
  · rfl
  · rfl

/-- A merged edge leaves the source where it was, and counts. -/
theorem State.mergeEdge_counts : ((s.mergeEdge n c x d).src n).ph = (s.src n).ph ∧ ((s.mergeEdge n c x d).src n).again = (s.src n).again ∧
    ((s.mergeEdge n c x d).src n).target = (s.src n).target ∧ ((s.mergeEdge n c x d).src n).merged = min ((s.src n).merged + 1) 0xFFFF ∧
    (s.mergeEdge n c x d).cntOf bEVC 0 1 = (s.cntOf bEVC 0 1 + 1) % 2 ^ 48 := by
  have hsrc : ∀ e : EvSrc, (((s.setSrc n e).draw).bump bEVC 1).src n = e := fun e => State.setSrc_same s n e
  have hcnt : ∀ e : EvSrc, (((s.setSrc n e).draw).bump bEVC 1).cntOf bEVC 0 1 = (s.cntOf bEVC 0 1 + 1) % 2 ^ 48 :=
    fun e => State.cntOf_bump_same ..
  unfold State.mergeEdge
  dsimp only
  rw [hcnt, hsrc]
  split <;> exact ⟨rfl, rfl, rfl, rfl, rfl⟩

end Assert

theorem exec_eventAssert {s : State} (hl : s.live = true) (n : SrcId) (c : W32) (d : W64) : exec (.eventAssert n c d) s =
    .next (s.after (s.assertSrc n.val (Config.eventCode (nameOf n.val)).toNat c.toNat d.toNat)) := by
  show execEventAssert n c d s = _
  exact act_of hl _ s

theorem exec_eventDeassert {s : State} (hl : s.live = true) (n : SrcId) : exec (.eventDeassert n) s = .next (s.after (s.deassertSrc n.val)) := by
  show execEventDeassert n s = _
  exact act_of hl _ s

/-- Settles O49: the phase of a source, and whether it is a level, decide what an assertion does. -/
theorem eventSourcesAnswer : Obligations.EventSourcesAnswer := by
  unfold Obligations.EventSourcesAnswer
  intro n c d s hl
  dsimp only
  rw [exec_eventAssert hl, exec_eventDeassert hl]
  refine ⟨fun h0 => ?_, fun h0 hv hp => ?_, fun h0 hv hp => ⟨_, rfl, ?_⟩, fun h0 hv hp ha => ?_, fun hv ha hp => ?_, fun hv h => ?_,
    fun hv hp => ?_, fun hv hp => ?_, fun hv => ?_⟩
  · rw [h0, State.assertSrc_zero]
  · rw [State.assertSrc_edge_idle h0 hv hp]
    rfl
  · rw [State.assertSrc_edge_merged h0 hv hp]
    obtain ⟨hph, hag, htg, hm, hc⟩ := State.mergeEdge_counts (s := s.bump bEVC 0) (n := n.val)
      (c := (Config.eventCode (nameOf n.val)).toNat) (x := c.toNat) (d := d.toNat)
    exact ⟨hph, hag, htg, hm, hc.trans (by rw [State.bump, State.cntOf_bumpU_other _ (by decide)])⟩
  · rw [State.assertSrc_edge_again h0 hv hp ha]
  · rw [State.assertSrc_level_idle hv ha hp]
    refine ⟨_, rfl, ?_⟩
    rw [State.setSrc_same, State.levelUp, State.setSrc_same]
    rfl
  · rw [State.assertSrc_level_other hv h]
    rfl
  · rw [State.deassertSrc_pending hv hp]
  · rw [State.deassertSrc_other hv hp]
  · rw [State.deassertSrc, if_neg (by simp [hv])]

/-! ### The choice of a claim (R400) -/

/-- One source compared with the best of those before it. -/
def State.better (s : State) (t : Nat) (b : Option Nat) (n : Nat) : Option Nat :=
  if s.eligible t n then
    match b with
    | none => some n
    | some m => if s.prio m < s.prio n then some n else some m
  else b

theorem State.best_eq (s : State) (t : Nat) : s.best t = s.evc.srcs.foldl (fun b e => s.better t b e.1) none := rfl

/-- `n` is the best of the sources that `p` names. -/
def State.bestOf (s : State) (t n : Nat) (p : Nat → Prop) : Prop :=
  s.eligible t n = true ∧ ∀ m, p m → s.eligible t m = true → s.prio m < s.prio n ∨ (s.prio m = s.prio n ∧ n ≤ m)

/-- `b` is the best of the sources that `p` names, or none where none of them is eligible. -/
def State.bestIn (s : State) (t : Nat) (p : Nat → Prop) : Option Nat → Prop
  | none => ∀ m, p m → s.eligible t m = false
  | some n => p n ∧ s.bestOf t n p

/-- A source that is not eligible changes nothing. -/
theorem State.bestIn_ineligible {s : State} {t k : Nat} {b : Option Nat} {p : Nat → Prop} (hb : s.bestIn t p b)
    (hk : s.eligible t k = false) : s.bestIn t (fun m => p m ∨ m = k) b := by
  cases b with
  | none =>
    rintro m (hm | rfl)
    · exact hb m hm
    · exact hk
  | some n =>
    obtain ⟨hpn, he, hmax⟩ := hb
    refine ⟨.inl hpn, he, ?_⟩
    rintro m (hm | rfl) hem
    · exact hmax m hm hem
    · exact absurd hem (by simp [hk])

/-- A source of a higher number than those before it is better only with a higher priority. -/
theorem State.bestIn_better {s : State} {t k : Nat} {b : Option Nat} {p : Nat → Prop} (hp : ∀ m, p m → m < k) (hb : s.bestIn t p b) :
    s.bestIn t (fun m => p m ∨ m = k) (s.better t b k) := by
  unfold State.better
  split
  next hk =>
    cases b with
    | none =>
      refine ⟨.inr rfl, hk, ?_⟩
      rintro m (hm | rfl) hem
      · exact absurd hem (by simp [hb m hm])
      · exact .inr ⟨rfl, le_refl _⟩
    | some j =>
      obtain ⟨hpj, hj, hmax⟩ := hb
      dsimp only
      split
      next hlt =>
        refine ⟨.inr rfl, hk, ?_⟩
        rintro m (hm | rfl) hem
        · rcases hmax m hm hem with h | ⟨h, -⟩ <;> exact .inl (by omega)
        · exact .inr ⟨rfl, le_refl _⟩
      next hle =>
        refine ⟨.inl hpj, hj, ?_⟩
        rintro m (hm | rfl) hem
        · exact hmax m hm hem
        · rcases Nat.lt_or_eq_of_le (Nat.not_lt.1 hle) with h | h
          · exact .inl h
          · exact .inr ⟨h, Nat.le_of_lt (hp _ hpj)⟩
  next hk => exact State.bestIn_ineligible hb (by simpa using hk)

/-- The best of a table whose keys rise, after the sources that `p` names: by induction on its entries. -/
theorem State.bestIn_fold {s : State} {t : Nat} (l : Tbl EvSrc) (a : Nat) (b : Option Nat) (p : Nat → Prop)
    (hl : Tbl.risesFrom l a = true) (hp : ∀ m, p m → m < a) (hb : s.bestIn t p b) :
    s.bestIn t (fun m => p m ∨ ∃ e ∈ l, e.1 = m) (l.foldl (fun b e => s.better t b e.1) b) := by
  induction l generalizing a b p with
  | nil =>
    have hnil : (fun m => p m ∨ ∃ e ∈ ([] : Tbl EvSrc), e.1 = m) = p := by
      funext m
      simp
    rw [hnil]
    exact hb
  | cons e l ih =>
    obtain ⟨k, x⟩ := e
    simp only [Tbl.risesFrom, Bool.and_eq_true, decide_eq_true_eq] at hl
    obtain ⟨hak, hl⟩ := hl
    have hstep := State.bestIn_better (k := k) (fun m hm => Nat.lt_of_lt_of_le (hp m hm) hak) hb
    have hrest := ih (k + 1) _ _ hl (fun m hm => by rcases hm with hm | rfl <;> [have := hp m hm; skip] <;> omega) hstep
    have hcons : (fun m => p m ∨ ∃ e ∈ ((k, x) :: l : Tbl EvSrc), e.1 = m) = fun m => (p m ∨ m = k) ∨ ∃ e ∈ l, e.1 = m := by
      funext m
      simp [or_assoc, eq_comm]
    rw [hcons]
    exact hrest

/-- A source that is eligible has an entry. -/
theorem State.eligible_entry {s : State} {t m : Nat} (h : s.eligible t m = true) : ∃ e ∈ s.evc.srcs, e.1 = m := by
  have hp : (s.src m).ph = .pending := by
    simp only [State.eligible, Bool.and_eq_true, decide_eq_true_eq] at h
    exact h.1.1
  rw [State.src, Tbl.get] at hp
  cases hf : Tbl.find s.evc.srcs m with
  | none => rw [hf] at hp; cases hp
  | some x => exact ⟨(m, x), Tbl.mem_of_find hf, rfl⟩

/-- Settles O51: the sources are compared in ascending number, by induction on the table. -/
theorem claimTakesTheHighestPriority : Obligations.ClaimTakesTheHighestPriority := by
  unfold Obligations.ClaimTakesTheHighestPriority
  intro s t n hwf h
  have hbest := State.bestIn_fold (s := s) (t := t) s.evc.srcs 0 none (fun _ => False) hwf (fun _ hm => hm.elim) (fun _ hm => hm.elim)
  rw [← State.best_eq, h] at hbest
  obtain ⟨-, he, hmax⟩ := hbest
  refine ⟨he, ?_, fun m hm => hmax m (.inr (State.eligible_entry hm)) hm⟩
  simp only [State.eligible, Bool.and_eq_true, decide_eq_true_eq] at he
  exact he.2

end Sys2Proof.Machine
end

section
/-! SUPPORT. What events leave of the targets (R397 to R399), and claim, complete and thaw (R400 to R402). -/

namespace Sys2Proof.Machine

open Sys2Proof

/-! ### The targets, and their order faults, after an event -/

/-- `t` has the targets of `s`, and has counted as many completion-order faults. -/
def State.tgtKept (s t : State) : Prop := t.evc.tgts = s.evc.tgts ∧ t.cntOf bEVC 0 5 = s.cntOf bEVC 0 5

theorem State.tgtKept.trans {s t u : State} (h : s.tgtKept t) (k : t.tgtKept u) : s.tgtKept u := ⟨k.1.trans h.1, k.2.trans h.2⟩

theorem State.tgtKept_iff {s t u : State} (h : t.tgtKept u) : s.tgtKept u ↔ s.tgtKept t :=
  ⟨fun k => ⟨h.1.symm.trans k.1, h.2.symm.trans k.2⟩, fun k => k.trans h⟩

theorem State.tgtKept_foldl {α : Type} {f : State → α → State} (h : ∀ t a, State.tgtKept t (f t a)) (l : List α) (t : State) :
    t.tgtKept (l.foldl f t) := by
  induction l generalizing t with
  | nil => exact ⟨rfl, rfl⟩
  | cons a r ih => exact (h t a).trans (ih _)

@[simp] theorem State.tgtKept_self (s : State) : s.tgtKept s ↔ True := ⟨fun _ => trivial, fun _ => ⟨rfl, rfl⟩⟩
@[simp] theorem State.tgtKept_ite (s a b : State) (c : Prop) [Decidable c] :
    s.tgtKept (if c then a else b) ↔ if c then s.tgtKept a else s.tgtKept b := by split <;> rfl
@[simp] theorem State.tgtKept_emit (s t : State) (o : Output) : s.tgtKept (t.emit o) ↔ s.tgtKept t := State.tgtKept_iff ⟨rfl, rfl⟩
@[simp] theorem State.tgtKept_draw (s t : State) : s.tgtKept t.draw ↔ s.tgtKept t := State.tgtKept_iff ⟨rfl, rfl⟩
@[simp] theorem State.tgtKept_setSrc (s t : State) (n : Nat) (e : EvSrc) : s.tgtKept (t.setSrc n e) ↔ s.tgtKept t :=
  State.tgtKept_iff ⟨rfl, rfl⟩
@[simp] theorem State.tgtKept_setEq (s t : State) (n : Nat) (e : EvQ) : s.tgtKept (t.setEq n e) ↔ s.tgtKept t :=
  State.tgtKept_iff ⟨rfl, rfl⟩
@[simp] theorem State.tgtKept_setFltSrc (s t : State) (n : Nat) (x : FltSrc) : s.tgtKept (t.setFltSrc n x) ↔ s.tgtKept t :=
  State.tgtKept_iff ⟨rfl, rfl⟩
@[simp] theorem State.tgtKept_logFault (s t : State) (a b c d e : Nat) : s.tgtKept (t.logFault a b c d e) ↔ s.tgtKept t :=
  State.tgtKept_iff ⟨rfl, rfl⟩
@[simp] theorem State.tgtKept_assertReplace (s t : State) : s.tgtKept t.assertReplace ↔ s.tgtKept t := State.tgtKept_iff ⟨rfl, rfl⟩
@[simp] theorem State.tgtKept_flt (s t : State) (x : FltSt) : s.tgtKept { t with flt := x } ↔ s.tgtKept t := State.tgtKept_iff ⟨rfl, rfl⟩
theorem State.tgtKept_hqe (s t : State) (x : HqeSt) : s.tgtKept { t with hqe := x } ↔ s.tgtKept t := State.tgtKept_iff ⟨rfl, rfl⟩
@[simp] theorem State.tgtKept_bumpHqe (s t : State) (n : Nat) (h : n < 64) : s.tgtKept (t.bump bHQE n) ↔ s.tgtKept t :=
  State.tgtKept_iff ⟨rfl, State.cntOf_bumpU_other t (by unfold cntKey bEVC bHQE; omega)⟩
@[simp] theorem State.tgtKept_bumpEvc (s t : State) (n : Nat) (h : n ≠ 5) : s.tgtKept (t.bump bEVC n) ↔ s.tgtKept t :=
  State.tgtKept_iff ⟨rfl, State.cntOf_bumpU_other t (by unfold cntKey bEVC; omega)⟩

@[simp] theorem State.tgtKept_toHost (s t : State) (a : Nat) (b : Bytes) : s.tgtKept (t.toHost a b) ↔ s.tgtKept t := by
  refine State.tgtKept_iff ?_
  simp [State.toHost]

@[simp] theorem State.tgtKept_msix (s t : State) (v : Nat) : s.tgtKept (t.msix v) ↔ s.tgtKept t := by
  refine State.tgtKept_iff ?_
  simp [State.msix]

@[simp] theorem State.tgtKept_eqStat (s t : State) (q : Nat) : s.tgtKept (t.eqStat q) ↔ s.tgtKept t := by
  refine State.tgtKept_iff ?_
  simp [State.eqStat]

@[simp] theorem State.tgtKept_eqSignal (s t : State) (q : Nat) : s.tgtKept (t.eqSignal q) ↔ s.tgtKept t := by
  refine State.tgtKept_iff ?_
  simp [State.eqSignal]

@[simp] theorem State.tgtKept_eqLose (s t : State) (q : Nat) : s.tgtKept (t.eqLose q) ↔ s.tgtKept t := by
  refine State.tgtKept_iff ?_
  unfold State.eqLose
  dsimp only
  rw [State.tgtKept_eqStat]
  split
  · simp
  · exact (State.tgtKept_hqe ..).2 (by simp)

@[simp] theorem State.tgtKept_eqWrite (s t : State) (q src code context time detail : Nat) :
    s.tgtKept (t.eqWrite q src code context time detail) ↔ s.tgtKept t := by
  simp [State.eqWrite]

@[simp] theorem State.tgtKept_eqOverflowRec (s t : State) (q : Nat) : s.tgtKept (t.eqOverflowRec q) ↔ s.tgtKept t := by
  refine State.tgtKept_iff ?_
  simp [State.eqOverflowRec]

@[simp] theorem State.tgtKept_eqPost (s t : State) (q src code context time detail : Nat) :
    s.tgtKept (t.eqPost q src code context time detail) ↔ s.tgtKept t := by
  refine State.tgtKept_iff ?_
  have hlost : t.tgtKept (if (t.bump bHQE 3).hqe.attached then t.bump bHQE 3
      else { t.bump bHQE 3 with hqe := { (t.bump bHQE 3).hqe with lostDetached := (t.bump bHQE 3).hqe.lostDetached + 1 } }) := by
    split
    · simp
    · exact (State.tgtKept_hqe ..).2 (by simp)
  unfold State.eqPost
  split
  · simp
  · simp
  · exact hlost
  · exact hlost

@[simp] theorem State.tgtKept_deliver (s t : State) (k n : Nat) : s.tgtKept (t.deliver k n) ↔ s.tgtKept t := by
  refine State.tgtKept_iff ?_
  simp [State.deliver, State.signalNew]

@[simp] theorem State.tgtKept_assign (s t : State) (n : Nat) : s.tgtKept (t.assign n) ↔ s.tgtKept t := by
  refine State.tgtKept_iff ?_
  unfold State.assign
  split <;> simp

@[simp] theorem State.tgtKept_assertSrc (s t : State) (n c x d : Nat) : s.tgtKept (t.assertSrc n c x d) ↔ s.tgtKept t := by
  refine State.tgtKept_iff ?_
  unfold State.assertSrc State.makePending State.mergeEdge
  dsimp only
  repeat' split
  all_goals simp

@[simp] theorem State.tgtKept_event (s t : State) (e : Ev) (c d : Nat) : s.tgtKept (t.event e c d) ↔ s.tgtKept t := by
  simp [State.event]

@[simp] theorem State.tgtKept_react (s t : State) (n u c : Nat) : s.tgtKept (t.react n u c) ↔ s.tgtKept t := by
  refine State.tgtKept_iff ?_
  unfold State.react
  dsimp only
  repeat' split
  all_goals simp

@[simp] theorem State.tgtKept_raise (s t : State) (a b c : Nat) : s.tgtKept (t.raise a b c) ↔ s.tgtKept t := by
  refine State.tgtKept_iff ?_
  unfold State.raise State.raiseWith
  dsimp only
  cases fltEvent a b <;> simp

@[simp] theorem State.tgtKept_reassign (s t : State) : s.tgtKept t.reassign ↔ s.tgtKept t := by
  refine State.tgtKept_iff (State.tgtKept_foldl (fun t n => ?_) _ _)
  split
  · split
    · simp
    · split
      · split <;> simp
      · simp
  · simp

theorem State.tgtKept.tgt {s t : State} (h : s.tgtKept t) (k : Nat) : t.tgt k = s.tgt k := by
  rw [State.tgt, State.tgt, h.1]

/-! ### Claim (R400) -/

section Claim

variable {s : State} {t : Nat}

theorem State.claimOp_closed (h : (s.tgt t).frozen = true ∨ s.tgtEn t = false ∨ s.tgtClaims t = false) :
    s.claimOp t = s.emit (.claimed t 0) := by
  have hno : ((s.tgt t).frozen || !s.tgtEn t || !s.tgtClaims t) = true := by
    rcases h with h | h | h <;> simp [h]
  rw [State.claimOp]
  exact if_pos hno

variable (hf : (s.tgt t).frozen = false) (he : s.tgtEn t = true) (hc : s.tgtClaims t = true)
include hf he hc

theorem State.claimOp_none (hb : s.best t = none) : s.claimOp t = (s.bump bEVC 3).emit (.claimed t 0) := by
  rw [State.claimOp]
  dsimp only
  rw [if_neg (by simp [hf, he, hc]), hb]

theorem State.claimOp_full {n : Nat} (hb : s.best t = some n) (hs : 8 ≤ (s.tgt t).stack.length) :
    s.claimOp t = ((s.setTgt t { s.tgt t with stackFull := true }).bump bEVC 4).emit (.claimed t 0) := by
  rw [State.claimOp]
  dsimp only
  rw [if_neg (by simp [hf, he, hc]), hb]
  exact if_pos hs

theorem State.claimOp_takes {n : Nat} (hb : s.best t = some n) (hs : (s.tgt t).stack.length < 8) : s.claimOp t =
    (((s.setTgt t { s.tgt t with stack := (n, s.tgtThr t) :: (s.tgt t).stack, thr := s.prio n }).setSrc n
      { s.src n with ph := .inService, again := false }).bump bEVC 2).emit (.claimed t n) := by
  rw [State.claimOp]
  dsimp only
  rw [if_neg (by simp [hf, he, hc]), hb]
  exact if_neg (Nat.not_le.2 hs)

end Claim

/-! ### Complete (R401) -/

section Complete

variable {s : State} {t n : Nat}

theorem State.completeOp_frozen (hf : (s.tgt t).frozen = true) : s.completeOp t n = s := by
  rw [State.completeOp]
  exact if_pos hf

theorem State.completeOp_top {m thr : Nat} {rest : List (Nat × Nat)} (hf : (s.tgt t).frozen = false)
    (hs : (s.tgt t).stack = (m, thr) :: rest) (hn : n = m) :
    s.completeOp t n = ((s.setTgt t { s.tgt t with stack := rest, thr := thr }).release m).signalLeft t := by
  subst hn
  rw [State.completeOp]
  dsimp only
  rw [if_neg (by simp [hf]), hs]
  exact if_pos rfl

/-- The completion-order fault of a target. -/
def State.orderFault (s : State) (t n : Nat) : State :=
  let s := (s.setTgt t { s.tgt t with frozen := true }).bump bEVC 5
  let s := if tb (s.fltCfg fEvcOrder) 4 then s else s.event .evcOrder t n
  s.raise fEvcOrder t n

/-- Any other source freezes the target. -/
theorem State.completeOp_order (hf : (s.tgt t).frozen = false) (hs : ∀ m thr rest, (s.tgt t).stack = (m, thr) :: rest → n ≠ m) :
    s.completeOp t n = s.orderFault t n := by
  rw [State.completeOp]
  dsimp only
  rw [if_neg (by simp [hf])]
  split
  next m thr rest h =>
    rw [if_neg (fun hm => hs m thr rest h hm.symm)]
    rfl
  · rfl

theorem State.orderFault_freezes : ((s.orderFault t n).tgt t).frozen = true ∧ ((s.orderFault t n).tgt t).stack = (s.tgt t).stack ∧
    (s.orderFault t n).cntOf bEVC 0 5 = (s.cntOf bEVC 0 5 + 1) % 2 ^ 48 := by
  have hk : ((s.setTgt t { s.tgt t with frozen := true }).bump bEVC 5).tgtKept (s.orderFault t n) := by
    simp [State.orderFault]
  have htgt : ((s.setTgt t { s.tgt t with frozen := true }).bump bEVC 5).tgt t = { s.tgt t with frozen := true } :=
    State.setTgt_same ..
  rw [hk.tgt, htgt, hk.2]
  exact ⟨rfl, rfl, State.cntOf_bump_same ..⟩

end Complete

/-! ### Thaw (R402) -/

theorem State.thawOp_thaws (s : State) (t : Nat) : ((s.thawOp t).tgt t).frozen = false ∧ ((s.thawOp t).tgt t).stack = [] := by
  have hk : (s.setTgt t { s.tgt t with frozen := false, stack := [], thr := 0 }).tgtKept (s.thawOp t) := by
    unfold State.thawOp
    dsimp only
    rw [State.tgtKept_reassign]
    refine State.tgtKept_foldl (fun u e => ?_) _ _
    split <;> simp
  rw [hk.tgt, State.setTgt_same]
  exact ⟨rfl, rfl⟩

/-! ### The commands -/

section Commands

variable {s : State} {t : TgtId} (h : if t.val < 5 then s.live = true else s.barTakes 0x501000 = true)
include h

theorem exec_claim : exec (.claim t) s = .next (s.after (s.claimOp t.val)) := by
  show execClaim t s = _
  refine act_of ?_ _ s
  split at h
  next ht => rw [if_pos ht]; exact h
  next ht => rw [if_neg ht]; exact State.barServes_of_takes h

/-- What the target's commands need. -/
theorem tgt_serves : (if t.val < 5 then s.live else s.barTakes 0x501000) = true := by
  split at h
  next ht => rw [if_pos ht]; exact h
  next ht => rw [if_neg ht]; exact h

theorem exec_complete (v : W32) : exec (.complete t v) s = .next (s.after (s.completeOp t.val (fld v.toNat 0 16))) := by
  show execComplete t v s = _
  exact act_of (tgt_serves h) _ s

theorem exec_thaw {v : W32} (hv : tb v.toNat 0 = true) : exec (.thaw t v) s = .next (s.after (s.thawOp t.val)) := by
  show execThaw t v s = _
  exact act_of (by rw [tgt_serves h, hv]; rfl) _ s

end Commands

/-- Settles O50: what the target is decides what each of its commands does. -/
theorem claimCompleteThawAnswer : Obligations.ClaimCompleteThawAnswer := by
  unfold Obligations.ClaimCompleteThawAnswer
  intro t v s h
  dsimp only
  rw [exec_claim h, exec_complete h]
  refine ⟨fun hx => ?_, fun hf he hc hb => ?_, fun n hf he hc hb => ⟨fun hs => ?_, fun hs => ?_⟩, fun hf => ?_, fun m thr rest hf hs hn => ?_,
    fun hf hs => ⟨_, rfl, ?_⟩, fun hv => ⟨_, exec_thaw h hv, s.thawOp_thaws t.val⟩⟩
  · rw [State.claimOp_closed hx]
  · rw [State.claimOp_none hf he hc hb]
  · rw [State.claimOp_full hf he hc hb hs]
  · rw [State.claimOp_takes hf he hc hb hs]
  · rw [State.completeOp_frozen hf]
  · rw [State.completeOp_top hf hs hn]
  · rw [State.completeOp_order hf hs]
    exact State.orderFault_freezes

end Sys2Proof.Machine
end

section
/-! SUPPORT. Session processors restarted and mapped out (R394): what completing their commands leaves. -/

namespace Sys2Proof.Machine

open Sys2Proof

/-! ### Commands completed change the host interface alone -/

theorem State.evOnly_ringStat (s t : State) (r : Nat) : s.evOnly (t.ringStat r) ↔ s.evOnly t := by
  refine State.evOnly_iff ?_
  obtain ⟨u, n, o, h | h⟩ := t.ringStat_form r <;> rw [h] <;> rfl

theorem State.evOnly_stopRing (s t : State) (r n : Nat) : s.evOnly (t.stopRing r n) ↔ s.evOnly t := by
  have hstat : ∀ x : Ring, t.evOnly ((t.setRing r x).ringStat r) := fun x => (State.evOnly_ringStat ..).2 rfl
  refine State.evOnly_iff ?_
  unfold State.stopRing
  dsimp only
  rw [State.evOnly_event]
  split
  · rw [State.evOnly_eqPost]
    exact hstat _
  · exact hstat _

theorem State.evOnly_complete0 (s t : State) (r : Nat) (e : SubEntry) (st d : Nat) (b : Bytes) :
    s.evOnly (t.complete0 r e st d b) ↔ s.evOnly t := by
  refine State.evOnly_iff ?_
  unfold State.complete0 State.writeCpl
  dsimp only
  rw [State.evOnly_ringStat, State.evOnly_bump, State.evOnly_toHost]
  rfl

theorem State.evOnly_pumpN (r fuel : Nat) (t : State) : t.evOnly (t.pumpN r fuel) := by
  induction fuel generalizing t with
  | zero => rfl
  | succ fuel ih =>
    unfold State.pumpN
    dsimp only
    split
    · rfl
    · split
      · rfl
      · exact (State.evOnly_stopRing ..).2 rfl
    next e rest _ =>
      split
      · rfl
      split
      · exact (State.evOnly_stopRing ..).2 rfl
      split
      · rfl
      next =>
        have htaken : t.evOnly ((t.entryTaken r e rest).ringStat r) := (State.evOnly_ringStat ..).2 rfl
        refine State.evOnly_trans ?_ (ih _)
        split
        · exact htaken
        · exact (State.evOnly_complete0 ..).2 htaken

theorem State.evOnly_complete (s t : State) (r : Nat) (e : SubEntry) (st d : Nat) (b : Bytes) :
    s.evOnly (t.complete r e st d b) ↔ s.evOnly t :=
  State.evOnly_iff (State.evOnly_trans ((State.evOnly_complete0 t t r e st d b).2 rfl) (State.evOnly_pumpN ..))

theorem State.evOnly_foldl {α : Type} {f : State → α → State} (h : ∀ t a, State.evOnly t (f t a)) (l : List α) (t : State) :
    t.evOnly (l.foldl f t) := by
  induction l generalizing t with
  | nil => rfl
  | cons a r ih => exact State.evOnly_trans (h t a) (ih _)

theorem State.evOnly_abortCommands (s : State) : s.evOnly s.abortCommands := by
  refine State.evOnly_foldl (fun t e => ?_) _ s
  split
  · exact State.evOnly_foldl (fun u f => (State.evOnly_complete u u _ _ _ _ _).2 rfl) _ _
  · rfl

theorem State.abortCommands_cpu (s : State) (p : Nat) : s.abortCommands.cpu p = s.cpu p := by
  rw [State.cpu, s.evOnly_abortCommands, State.cpu]

/-! ### Session processors (R394) -/

section Sp

variable {s : State} {sp : Nat}

/-- The processor's commands aborted, where it serves them. -/
def State.spAborted (s : State) (sp : Nat) : State := if tb (s.cpu (sp + 1)).services 0 then s.abortCommands else s

theorem State.spAborted_cpu : (s.spAborted sp).cpu (sp + 1) = s.cpu (sp + 1) := by
  unfold State.spAborted
  split
  · exact s.abortCommands_cpu _
  · rfl

/-- A report missed outside the window of an earlier restart restarts the processor. -/
theorem State.spMissed_restarts (hp : (s.cpu (sp + 1)).ph = .run) (hw : (s.cpu (sp + 1)).watched = false) :
    s.spMissed sp = (s.spAborted sp).setCpu (sp + 1) { s.cpu (sp + 1) with
      ph := .restarting, restarts := min ((s.cpu (sp + 1)).restarts + 1) 255, restartAt := some (s.spAborted sp).ns, watched := true } := by
  rw [State.spMissed]
  dsimp only
  rw [if_neg (by simp [hp]), if_neg (by simp [hw]), ← State.spAborted, State.spAborted_cpu]
  rfl

/-- One missed inside it maps the processor out. -/
theorem State.spMissed_mapsOut {r : Nat} (hp : (s.cpu (sp + 1)).ph = .run) (hw : (s.cpu (sp + 1)).watched = true)
    (hr : (s.cpu (sp + 1)).restartAt = some r) (hn : s.ns ≤ r + 60 * oneSec) (hs : tb (s.cpu (sp + 1)).services 0 = false) :
    s.spMissed sp = (((s.setCpu (sp + 1) { s.cpu (sp + 1) with ph := .mappedOut, watched := false }).moveServices (sp + 1)).setHealth
      hSP).raise fCpuSpLost (sp + 1) 0 := by
  rw [State.spMissed]
  dsimp only
  rw [if_neg (by simp [hp])]
  simp only [hs, hw, hr, hn, Bool.false_eq_true, if_false, if_true, decide_true, Bool.and_self]

theorem State.spRestarted_runs {r : Nat} (hp : (s.cpu (sp + 1)).ph = .restarting) (hr : (s.cpu (sp + 1)).restartAt = some r)
    (hn : r + 3 * ms ≤ s.ns) : s.spRestarted sp = s.setCpu (sp + 1) { s.cpu (sp + 1) with ph := .run } := by
  rw [State.spRestarted]
  dsimp only
  rw [hr]
  exact if_pos ⟨hp, hn⟩

theorem State.spHeld_ends {r : Nat} (hp : (s.cpu (sp + 1)).ph = .run) (hw : (s.cpu (sp + 1)).watched = true)
    (hr : (s.cpu (sp + 1)).restartAt = some r) (hn : r + 60 * oneSec ≤ s.ns) :
    s.spHeld sp = s.setCpu (sp + 1) { s.cpu (sp + 1) with watched := false } := by
  rw [State.spHeld]
  dsimp only
  rw [hr]
  exact if_pos ⟨hw, hp, hn⟩

end Sp

/-- Settles O52: the restart's window decides between a restart and the loss of the processor. -/
theorem processorSupervisionAnswers : Obligations.ProcessorSupervisionAnswers := by
  unfold Obligations.ProcessorSupervisionAnswers
  refine ⟨fun sp s hl => ?_, fun s hl => ?_⟩
  · have hmissed : exec (.spReportMissed sp) s = .next (s.after (s.spMissed sp.val)) := by
      show execSpReportMissed sp s = _
      exact act_of hl _ s
    refine ⟨fun hp hw => ⟨s.spAborted sp.val, ?_, fun hs => if_pos hs, fun hs => if_neg (by simp [hs])⟩, fun r hp hw hr hn hs => ?_,
      fun r hp hr hn => ?_, fun r hp hw hr hn => ?_⟩
    · rw [hmissed, State.spMissed_restarts hp hw]
    · rw [hmissed, State.spMissed_mapsOut hp hw hr hn hs]
    · rw [← State.spRestarted_runs hp hr hn]
      show execSpRestartComplete sp s = _
      exact act_of hl _ s
    · rw [← State.spHeld_ends hp hw hr hn]
      show execSpHoldExpire sp s = _
      exact act_of hl _ s
  · show execSvpWatchdogExpire s = _
    exact act_of hl _ s

end Sys2Proof.Machine
end

section
/-! SUPPORT. DMA channels: what starts, moves and stops them (R405 to R410). -/

namespace Sys2Proof.Machine

open Sys2Proof

theorem State.dmaCh_of_dma {s t : State} (h : t.dma = s.dma) (c : Nat) : t.dmaCh c = s.dmaCh c := by
  rw [State.dmaCh, State.dmaCh, h]

/-! ### GO (R406) -/

/-- XCTL written: the channel keeps its transfer. -/
theorem State.dmaXctl_keeps (s : State) (c : Nat) (v : W32) : ((s.dmaXctl c v).dmaCh c).busy = (s.dmaCh c).busy ∧
    ((s.dmaXctl c v).dmaCh c).remain = (s.dmaCh c).remain ∧ (s.dmaXctl c v).dmaCount c = s.dmaCount c := by
  have hreg : ∀ w : W32, State.dmaCount { s with regs := Tbl.put s.regs (dmaAddr c 0x24) w } c = s.dmaCount c := fun w => by
    unfold State.dmaCount State.dmaReg
    rw [Tbl.get_put_other _ _ _ (by unfold dmaAddr; omega)]
  have hdone : ∀ t : State, t.dmaCh c = s.dmaCh c → ((if tb v.toNat 28 then t.setDmaCh c { s.dmaCh c with done := false } else t).dmaCh c).busy =
      (s.dmaCh c).busy ∧ ((if tb v.toNat 28 then t.setDmaCh c { s.dmaCh c with done := false } else t).dmaCh c).remain = (s.dmaCh c).remain ∧
      (if tb v.toNat 28 then t.setDmaCh c { s.dmaCh c with done := false } else t).dmaCount c = t.dmaCount c := by
    intro t ht
    split
    · rw [State.setDmaCh_same]
      exact ⟨rfl, rfl, rfl⟩
    · rw [ht]
      exact ⟨rfl, rfl, rfl⟩
  unfold State.dmaXctl
  dsimp only
  by_cases hb : (s.dmaCh c).busy = true
  · rw [if_pos hb]
    exact hdone s rfl
  · rw [if_neg hb]
    obtain ⟨h1, h2, h3⟩ := hdone { s with regs := Tbl.put s.regs (dmaAddr c 0x24) (w32 (fld v.toNat 20 5 * 2 ^ 20)) } rfl
    exact ⟨h1, h2, h3.trans (hreg _)⟩

/-- The frame buffers held by a transfer do not change where it stands. -/
theorem State.dmaHold_keeps (s : State) (c : Nat) : ((s.dmaHold c).dmaCh c).busy = (s.dmaCh c).busy ∧
    ((s.dmaHold c).dmaCh c).err = (s.dmaCh c).err ∧ ((s.dmaHold c).dmaCh c).remain = (s.dmaCh c).remain := by
  have hstep : ∀ (t : State) (h : W32), ∃ l, (if (t.incRef false h).2 then (t.incRef false h).1.setDmaCh c
      { (t.incRef false h).1.dmaCh c with holds := ((t.incRef false h).1.dmaCh c).holds ++ [h] } else (t.incRef false h).1).dmaCh c =
      { t.dmaCh c with holds := l } := by
    intro t h
    have hbuf : t.bufOnly (t.incRef false h).1 := by simp
    have hdma : (t.incRef false h).1.dmaCh c = t.dmaCh c := State.dmaCh_of_dma (by rw [hbuf]) c
    split
    · rw [State.setDmaCh_same, hdma]
      exact ⟨_, rfl⟩
    · exact ⟨_, hdma⟩
  unfold State.dmaHold
  dsimp only
  refine foldl_keeps (fun t : State => ((t.dmaCh c).busy, (t.dmaCh c).err, (t.dmaCh c).remain)) _ (fun t h => ?_) _ s |> fun h =>
    ⟨congrArg (·.1) h, congrArg (·.2.1) h, congrArg (·.2.2) h⟩
  obtain ⟨l, hl⟩ := hstep t h
  rw [hl]

theorem State.dmaHold_counted (s : State) (c : Nat) (p : Prop) [Decidable p] :
    (((if p then s.bump bDMA 2 else s).dmaHold c).dmaCh c).busy = (s.dmaCh c).busy ∧
    (((if p then s.bump bDMA 2 else s).dmaHold c).dmaCh c).err = (s.dmaCh c).err ∧
    (((if p then s.bump bDMA 2 else s).dmaHold c).dmaCh c).remain = (s.dmaCh c).remain := by
  split
  · exact (s.bump bDMA 2).dmaHold_keeps c
  · exact s.dmaHold_keeps c

/-- A channel started has all to move, or what was left. -/
theorem State.dmaGo_accepted {s : State} {c : Nat} {v : W32} {resume : Bool} (he : (s.unit (dmaKey c)).en = true)
    (hb : (s.dmaCh c).busy = false) (hz : (s.dmaXctl c v).dmaErr c = 0) : ((s.dmaGo c v resume).dmaCh c).busy = true ∧
    ((s.dmaGo c v resume).dmaCh c).err = 0 ∧
    ((s.dmaGo c v resume).dmaCh c).remain = if resume then min (s.dmaCh c).remain (s.dmaCount c) else s.dmaCount c := by
  obtain ⟨-, hrem, hcount⟩ := s.dmaXctl_keeps c v
  rw [← hrem, ← hcount]
  unfold State.dmaGo
  dsimp only
  rw [if_neg (by simp [he, hb]), if_neg (by simp [hz])]
  refine ⟨(State.dmaHold_counted ..).1.trans ?_, (State.dmaHold_counted ..).2.1.trans ?_, (State.dmaHold_counted ..).2.2.trans ?_⟩ <;>
    rw [State.setDmaCh_same]

theorem State.dmaGo_ignored {s : State} {c : Nat} {v : W32} {resume : Bool} (h : (s.unit (dmaKey c)).en = false ∨ (s.dmaCh c).busy = true) :
    s.dmaGo c v resume = s.ignw (dmaKey c) := by
  rw [State.dmaGo]
  refine if_pos ?_
  rcases h with h | h <;> simp [h]

theorem State.dmaGo_refused {s : State} {c : Nat} {v : W32} {resume : Bool} (he : (s.unit (dmaKey c)).en = true)
    (hb : (s.dmaCh c).busy = false) (hz : (s.dmaXctl c v).dmaErr c ≠ 0) : s.dmaGo c v resume =
    (s.dmaXctl c v).setDmaCh c { (s.dmaXctl c v).dmaCh c with err := (s.dmaXctl c v).dmaErr c } := by
  rw [State.dmaGo]
  dsimp only
  rw [if_neg (by simp [he, hb]), if_pos hz]

/-! ### Data moved (R406) -/

theorem State.toHost_dma (s : State) (a : Nat) (b : Bytes) : (s.toHost a b).dma = s.dma := by
  unfold State.toHost
  split <;> rfl

/-- A channel's data moved leaves the other channels; its own has so much less left. -/
theorem State.dmaMove_form (s : State) (c n : Nat) (b : Bytes) :
    (s.dmaMove c n b).dma = (s.setDmaCh c { s.dmaCh c with remain := (s.dmaCh c).remain - n }).dma := by
  have hmove : ∀ t : State, t.dma = s.dma → ((t.setDmaCh c { s.dmaCh c with remain := (s.dmaCh c).remain - n }).bumpU bDMA 0 0 n).dma =
      (s.setDmaCh c { s.dmaCh c with remain := (s.dmaCh c).remain - n }).dma := fun t ht => by
    rw [State.bumpU_dma, State.setDmaCh, State.setDmaCh, ht]
  unfold State.dmaMove
  refine hmove _ ?_
  split
  · rfl
  · split
    · exact State.toHost_dma ..
    · rfl

/-- What a transfer held, released: its channel holds nothing, and no other changes. -/
theorem State.dmaRelease_form (s : State) (c : Nat) : (s.dmaRelease c).dma = (s.setDmaCh c { s.dmaCh c with holds := [] }).dma := by
  refine foldl_keeps State.dma (fun s h => s.decRefA aDma h) (fun t h => ?_) (s.dmaCh c).holds _
  have hbuf : t.bufOnly (t.decRefA aDma h) := by simp
  rw [hbuf]

/-- A channel's last data moved. -/
def State.dmaMoved (s : State) (c : Nat) (b : Bytes) : State :=
  let s := s.dmaMove c (s.dmaCh c).remain b
  ((s.setDmaCh c { s.dmaCh c with busy := false, done := true, wait := false, armed := false }).dmaRelease c).bump bDMA 1

theorem State.dmaMoved_done (s : State) (c : Nat) (b : Bytes) : ((s.dmaMoved c b).dmaCh c).busy = false ∧
    ((s.dmaMoved c b).dmaCh c).done = true ∧ ((s.dmaMoved c b).dmaCh c).remain = 0 := by
  have hmove : ((s.dmaMove c (s.dmaCh c).remain b).dmaCh c).remain = 0 := by
    rw [State.dmaCh_of_dma (State.dmaMove_form ..), State.setDmaCh_same, Nat.sub_self]
  unfold State.dmaMoved
  dsimp only
  rw [State.dmaCh_of_dma (State.bump_dma ..), State.dmaCh_of_dma (State.dmaRelease_form ..), State.setDmaCh_same, State.setDmaCh_same]
  exact ⟨rfl, rfl, hmove⟩

/-- A transfer from the host ends: its event changes no channel. -/
theorem State.dmaDone_ends {s : State} {c : Nat} (hr : s.dmaReady c = true) (hs : s.dmaSrcHost c = true) (b : Bytes) :
    ((s.dmaDone c b).dmaCh c).busy = false ∧ ((s.dmaDone c b).dmaCh c).done = true ∧ ((s.dmaDone c b).dmaCh c).remain = 0 := by
  have hdma : (s.dmaDone c b).dma = (s.dmaMoved c b).dma := by
    unfold State.dmaDone
    dsimp only
    rw [if_neg (by simp [hr]), if_neg (by simp [hs])]
    split
    · exact State.event_dma ..
    · rfl
  rw [State.dmaCh_of_dma hdma]
  exact s.dmaMoved_done c b

/-! ### A failed access (R409) -/

/-- A channel stopped: it is not busy, and no other channel changes. -/
theorem State.dmaStop_stops (s : State) (c err : Nat) : ((s.dmaStop c err).dmaCh c).busy = false ∧
    ∀ d, d ≠ c → (s.dmaStop c err).dmaCh d = s.dmaCh d := by
  unfold State.dmaStop
  dsimp only
  by_cases hb : (s.dmaCh c).busy = true
  · rw [if_neg (by simp [hb])]
    refine ⟨?_, fun d hd => ?_⟩
    · rw [State.dmaCh_of_dma (State.draw_dma _), State.dmaCh_of_dma (State.dmaRelease_form ..), State.setDmaCh_same, State.setDmaCh_same]
    · rw [State.dmaCh_of_dma (State.draw_dma _), State.dmaCh_of_dma (State.dmaRelease_form ..), State.setDmaCh_other _ _ _ _ hd,
        State.setDmaCh_other _ _ _ _ hd, State.dmaCh_of_dma (State.dmaMove_form ..), State.setDmaCh_other _ _ _ _ hd]
  · have hb' : (s.dmaCh c).busy = false := by simpa using hb
    rw [if_pos (by simp [hb'])]
    exact ⟨hb', fun _ _ => rfl⟩

/-- Channels stopped one after another: what is not busy stays so. -/
theorem State.dmaStops_stop (err : Nat) (l : List Nat) (s : State) (d : Nat) (h : d ∈ l ∨ (s.dmaCh d).busy = false) :
    ((l.foldl (fun s c => s.dmaStop c err) s).dmaCh d).busy = false := by
  induction l generalizing s with
  | nil => exact h.resolve_left (by simp)
  | cons c l ih =>
    obtain ⟨hs, ho⟩ := s.dmaStop_stops c err
    refine ih (s.dmaStop c err) ?_
    by_cases hd : d = c
    · rw [hd]
      exact .inr hs
    · rcases h with h | h
      · exact .inl ((List.mem_cons.1 h).resolve_left hd)
      · exact .inr (by rw [ho d hd]; exact h)

/-- Every channel stopped, before the error is latched. -/
def State.dmaStopped (s : State) : State := (List.range 32).foldl (fun s c => s.dmaStop c 4) s

theorem State.dmaStopped_stops (s : State) {c : Nat} (h : c < 32) : (s.dmaStopped.dmaCh c).busy = false := by
  unfold State.dmaStopped
  exact State.dmaStops_stop 4 _ s c (.inl (List.mem_range.2 h))

theorem State.dmaBusError_form {s : State} (h : s.dma.chans.any (fun e => e.2.busy) = true) (a : W64) (host write : Bool) :
    (s.dmaBusError a host write).dma = { s.dmaStopped.dma with buserr := true, errWrite := write, errHost := host, errAddr := a } := by
  unfold State.dmaBusError State.dmaStopped
  rw [if_pos h, State.raise_dma, State.bump_dma]

/-! ### The commands -/

section Commands

variable {s : State} {c : DmaId} {v : W32} (hm : s.dmaMay c.val = true) (hg : tb v.toNat 31 = true)
include hm hg

theorem exec_dmaGo (hr : tb v.toNat 30 = false) : exec (.dmaGo c v) s = .next (s.after (s.dmaGo c.val v false)) := by
  show execDmaGo c v s = _
  exact act_of (by rw [hm, hg, hr]; rfl) _ s

theorem exec_dmaResume (hr : tb v.toNat 30 = true) : exec (.dmaResume c v) s = .next (s.after (s.dmaGo c.val v true)) := by
  show execDmaResume c v s = _
  exact act_of (by rw [hm, hg, hr]; rfl) _ s

end Commands

/-- Settles O53: what a GO finds decides whether it is ignored, refused or accepted; a failed access stops channel after channel. -/
theorem dmaCommandsAnswer : Obligations.DmaCommandsAnswer := by
  unfold Obligations.DmaCommandsAnswer
  refine ⟨fun c v s hm hg => ⟨fun hr h => ?_, fun hr he hb hz => ?_, fun hr he hb hz => ⟨_, exec_dmaGo hm hg hr, ?_⟩,
    fun hr he hb hz => ⟨_, exec_dmaResume hm hg hr, ?_⟩⟩, fun c b s hl hr hs => ⟨_, ?_, State.dmaDone_ends hr hs b⟩,
    fun a sp w s hl hb => ⟨s.dmaBusError a (decide (sp = .host)) w, ?_, ?_⟩, fun v s hb hv => ?_⟩
  · rw [exec_dmaGo hm hg hr, State.dmaGo_ignored h]
  · rw [exec_dmaGo hm hg hr, State.dmaGo_refused he hb hz]
  · exact State.dmaGo_accepted he hb hz
  · obtain ⟨hbusy, -, hrem⟩ := State.dmaGo_accepted (resume := true) he hb hz
    exact ⟨hbusy, hrem⟩
  · show execDmaTransferDone c b s = _
    exact act_of hl _ s
  · show execDmaBusError a sp w s = _
    exact act_of hl _ s
  · have hdma := State.dmaBusError_form hb a (decide (sp = .host)) w
    refine ⟨by rw [hdma], by rw [hdma], by rw [hdma], by rw [hdma], fun c => ?_⟩
    have hstop := s.dmaStopped_stops c.isLt
    rw [State.dmaCh] at hstop
    rw [State.dmaCh, hdma]
    dsimp only
    exact hstop
  · show execDmaBuserrClear v s = _
    refine (act_of hb _ s).trans ?_
    rw [State.buserrClear, if_pos hv]

end Sys2Proof.Machine
end

section
/-! SUPPORT. Supply, reset and hold-up (R430, R432, R444 to R446, R469, R478). -/

namespace Sys2Proof.Machine

open Sys2Proof

/-! ### The commands where their part works -/

theorem exec_resetN {s : State} (hu : s.plt.up = true) (n : Nat) (b : BoardInputs) :
    exec (.resetN n b) s = .next (s.after (s.resetPin n b)) := by
  show execResetN n b s = _; exact act_of hu _ s

theorem exec_vinLockout {s : State} (hu : s.plt.up = true) : exec .vinLockout s = .next (s.after s.vinLockout) := by
  show execVinLockout s = _; exact act_of (by rw [hu, Bool.true_or]) _ s

theorem exec_thermalShutdown {s : State} (hu : s.plt.up = true) : exec .thermalShutdown s = .next (s.after s.thermalOff) := by
  show execThermalShutdown s = _; exact act_of hu _ s

theorem exec_holdupExhausted {s : State} (hu : s.plt.up = true) : exec .holdupExhausted s = .next (s.after s.holdupOut) := by
  show execHoldupExhausted s = _; exact act_of hu _ s

theorem exec_vinFall {s : State} (hu : s.plt.up = true) (vin hold : Nat) :
    exec (.vinFall vin hold) s = .next (s.after (s.vinFall vin hold)) := by
  show execVinFall vin hold s = _; exact act_of hu _ s

theorem exec_vinReturn {s : State} (hu : s.plt.up = true) (vin : Nat) :
    exec (.vinReturn vin) s = .next (s.after (s.vinReturn vin)) := by
  show execVinReturn vin s = _; exact act_of hu _ s

theorem exec_holdupChargeTimeout {s : State} (hu : s.plt.up = true) :
    exec .holdupChargeTimeout s = .next (s.after s.chargeTimeout) := by
  show execHoldupChargeTimeout s = _; exact act_of hu _ s

/-! ### Starts and resets (R430, R432, R478) -/

theorem exec_vinRise {s : State} (hu : s.plt.up = false) (ht : s.plt.thermal = false) (b : BoardInputs) :
    exec (.vinRise b) s = .next (s.after (s.coldStart b)) := by
  have hrise : s.vinRise b = s.coldStart b := if_neg (by simp [hu, ht])
  rw [← hrise]
  show execVinRise b s = _; exact act_of (by simp [hu, ht]) _ s

theorem exec_thermalRestart {s : State} (ht : s.plt.thermal = true) (b : BoardInputs) :
    exec (.thermalRestart b) s = .next (s.after (s.coldStart b)) := by
  have hon : s.thermalOn b = s.coldStart b := if_pos ht
  rw [← hon]
  show execThermalRestart b s = _; exact act_of ht _ s

theorem State.resetPin_long {s : State} (hu : s.plt.up = true) {n : Nat} (hn : 10 ≤ n) (b : BoardInputs) :
    s.resetPin n b = s.moduleReset b :=
  if_neg (by simp [hu, hn])

theorem State.resetPin_short (s : State) {n : Nat} (hn : n < 10) (b : BoardInputs) : s.resetPin n b = s :=
  if_pos (.inl hn)

/-! ### The supply lost (R469, R478) -/

section CutOff

variable (s : State) (thermal exhausted : Bool)

@[simp] theorem State.cutOff_up : (s.cutOff thermal exhausted).plt.up = false := rfl
@[simp] theorem State.cutOff_flash : (s.cutOff thermal exhausted).flash = s.flash := rfl
@[simp] theorem State.cutOff_thermal : (s.cutOff thermal exhausted).plt.thermal = thermal := rfl
@[simp] theorem State.cutOff_exhausted : (s.cutOff thermal exhausted).plt.exhausted = exhausted := rfl

end CutOff

/-! ### A fall of VIN (R444, R445) -/

/-- VIN below the threshold: PFAIL_N driven, counted and noted. -/
def State.pfailed (s : State) (vin hold : Nat) : State :=
  let s := (s.emit (.pin "PFAIL_N" true)).bump bPLT 3
  { s with
    plt := { s.plt with
      pfail := true, pfailAt := s.ns, chargeAt := none, vin := some (s.ns, vin), holdup := some (s.ns, hold)
      onHoldup := decide (vin < hold) } }

/-- A fall that asserts PFAIL_N: the event, and where HOLDUP carries the module its shedding and its flush. -/
theorem State.vinFall_below {s : State} {vin : Nat} (hu : s.plt.up = true) (hp : s.plt.pfail = false) (hv : vin < s.thresh) (hold : Nat) :
    s.vinFall vin hold = if vin < hold then
      (((s.pfailed vin hold).event .pltPfail noCtx vin).shed
        (fld ((s.pfailed vin hold).event .pltPfail noCtx vin).pfailCfg 0 2)).flushLog
      else (s.pfailed vin hold).event .pltPfail noCtx vin := by
  unfold State.vinFall
  rw [if_neg (by simp [hu, hp, hv])]
  simp only [decide_eq_true_eq]
  rfl

theorem State.vinFall_above {s : State} {vin : Nat} (hv : s.thresh ≤ vin) (hold : Nat) : s.vinFall vin hold = s :=
  if_pos (.inr (.inr hv))

theorem State.pfailed_counts (s : State) (vin hold : Nat) : (s.pfailed vin hold).cntOf bPLT 0 3 = (s.cntOf bPLT 0 3 + 1) % 2 ^ 48 :=
  State.cntOf_bump_same ..

/-- A fall asserts PFAIL_N once; what follows turns on whether HOLDUP stands above VIN. -/
theorem State.vinFall_asserts {s : State} {vin hold : Nat} (hu : s.plt.up = true) (hp : s.plt.pfail = false) (hv : vin < s.thresh) :
    ∃ u : State, u.plt.pfail = true ∧ u.plt.pfailAt = s.ns ∧ u.plt.chargeAt = none ∧ u.plt.onHoldup = decide (vin < hold) ∧
      u.plt.vin = some (s.ns, vin) ∧ u.plt.holdup = some (s.ns, hold) ∧ u.out = s.out ++ [.pin "PFAIL_N" true] ∧
      u.cntOf bPLT 0 3 = (s.cntOf bPLT 0 3 + 1) % 2 ^ 48 ∧
      (hold ≤ vin → exec (.vinFall vin hold) s = .next (s.after (u.event .pltPfail noCtx vin))) ∧
      (vin < hold →
        let w := u.event .pltPfail noCtx vin
        exec (.vinFall vin hold) s = .next (s.after ((w.shed (fld w.pfailCfg 0 2)).flushLog))) := by
  refine ⟨s.pfailed vin hold, rfl, rfl, rfl, rfl, rfl, rfl, rfl, s.pfailed_counts vin hold, fun h => ?_, fun h => ?_⟩
  · rw [exec_vinFall hu, State.vinFall_below hu hp hv, if_neg (Nat.not_lt.2 h)]
  · rw [exec_vinFall hu, State.vinFall_below hu hp hv, if_pos h]

/-! ### VIN returned (R446) -/

/-- The time on HOLDUP counted, in milliseconds. -/
def State.holdupCounted (s : State) : State :=
  if s.plt.onHoldup then s.bumpU bPLT 0 4 ((s.ns - s.plt.pfailAt) / ms) else s

theorem State.holdupCounted_keeps (s : State) : s.holdupCounted.out = s.out ∧ s.holdupCounted.ns = s.ns := by
  unfold State.holdupCounted
  split <;> exact ⟨rfl, rfl⟩

/-- The supply is back: PFAIL_N released, and HOLDUP charges again. -/
def State.pfailEnded (s : State) (vin : Nat) : State :=
  let s := s.holdupCounted
  State.emit { s with plt := { s.plt with pfail := false, onHoldup := false, vin := some (s.ns, vin), chargeAt := some s.ns } }
    (.pin "PFAIL_N" false)

theorem State.vinReturn_waits {s : State} {vin : Nat}
    (h : s.plt.pfail = false ∨ vin < s.thresh + 5 ∨ s.ns < s.plt.pfailAt + 10 * ms) : s.vinReturn vin = s :=
  if_pos (by simpa only [Bool.not_eq_true'] using h)

theorem State.vinReturn_ends {s : State} {vin : Nat} (hp : s.plt.pfail = true) (hv : s.thresh + 5 ≤ vin)
    (ht : s.plt.pfailAt + 10 * ms ≤ s.ns) : s.vinReturn vin = ((s.pfailEnded vin).event .pltPfailEnd noCtx vin).unshed := by
  have hn : ¬((!s.plt.pfail) = true ∨ vin < s.thresh + 5 ∨ s.ns < s.plt.pfailAt + 10 * ms) := by
    rw [hp]
    rintro (h | h | h)
    · exact absurd h Bool.false_ne_true
    · omega
    · omega
  exact if_neg hn

/-- The return ends the state that the fall began. -/
theorem State.vinReturn_charges {s : State} {vin : Nat} (hu : s.plt.up = true) (hp : s.plt.pfail = true) (hv : s.thresh + 5 ≤ vin)
    (ht : s.plt.pfailAt + 10 * ms ≤ s.ns) :
    ∃ u : State, u.plt.pfail = false ∧ u.plt.onHoldup = false ∧ u.plt.chargeAt = some s.ns ∧
      u.out = s.out ++ [.pin "PFAIL_N" false] ∧
      exec (.vinReturn vin) s = .next (s.after (u.event .pltPfailEnd noCtx vin).unshed) := by
  obtain ⟨hout, hns⟩ := s.holdupCounted_keeps
  exact ⟨s.pfailEnded vin, rfl, rfl, congrArg some hns, congrArg (· ++ [_]) hout, by rw [exec_vinReturn hu, State.vinReturn_ends hp hv ht]⟩

/-! ### Hold-up not charged in time (R444) -/

theorem State.chargeTimeout_late {s : State} {t0 : Nat} (hc : s.plt.chargeAt = some t0) (ht : t0 + 5 * oneSec ≤ s.ns) :
    s.chargeTimeout = State.raise { s with plt := { s.plt with chargeAt := none } } fPltHoldup 0 0 := by
  simp only [State.chargeTimeout, hc]
  exact if_pos ht

theorem State.chargeTimeout_early {s : State} {t0 : Nat} (hc : s.plt.chargeAt = some t0) (ht : s.ns < t0 + 5 * oneSec) :
    s.chargeTimeout = s := by
  simp only [State.chargeTimeout, hc]
  exact if_neg (Nat.not_le.2 ht)

/-- Settles O55: starts and losses of the supply by their own equations, a fall and a return of VIN by the state between the pin and
the event. -/
theorem supplyCommandsAnswer : Obligations.SupplyCommandsAnswer := by
  unfold Obligations.SupplyCommandsAnswer
  refine ⟨fun b s hu ht => exec_vinRise hu ht b, fun b s ht => exec_thermalRestart ht b, fun n b s hu => ⟨fun hn => ?_, fun hn => ?_⟩,
    fun s hu => ⟨fun hh => ?_, fun hh => ?_, ?_, fun hh => ?_, fun hh => ?_⟩, fun vin hold s hu hp => ⟨fun hv => ?_, State.vinFall_asserts hu hp⟩,
    fun vin s hu => ⟨fun h => ?_, State.vinReturn_charges hu⟩, fun t0 s hu hc => ⟨fun ht => ?_, fun ht => ?_⟩⟩
  · rw [exec_resetN hu, State.resetPin_long hu hn]
  · rw [exec_resetN hu, State.resetPin_short s hn]
  · rw [exec_vinLockout hu, State.vinLockout, if_pos hh]
  · refine ⟨_, exec_vinLockout hu, ?_⟩
    rw [State.vinLockout, if_neg (by simp [hh])]
    exact ⟨State.cutOff_up .., State.cutOff_flash .., State.cutOff_thermal ..⟩
  · refine ⟨_, exec_thermalShutdown hu, ?_⟩
    rw [State.thermalOff, if_pos hu]
    exact ⟨State.cutOff_up .., State.cutOff_flash .., State.cutOff_thermal ..⟩
  · refine ⟨_, exec_holdupExhausted hu, ?_⟩
    rw [State.holdupOut, if_pos hh]
    exact ⟨State.cutOff_up .., State.cutOff_flash .., State.cutOff_exhausted ..⟩
  · rw [exec_holdupExhausted hu, State.holdupOut, if_neg (by simp [hh])]
  · rw [exec_vinFall hu, State.vinFall_above hv]
  · rw [exec_vinReturn hu, State.vinReturn_waits h]
  · rw [exec_holdupChargeTimeout hu, State.chargeTimeout_late hc ht]
  · rw [exec_holdupChargeTimeout hu, State.chargeTimeout_early hc ht]

end Sys2Proof.Machine
end

section
/-! SUPPORT. Faults raised, forced, cleared and logged, the safe state, and recovery of the flash (R427, R428, R449 to R457). -/

namespace Sys2Proof.Machine

open Sys2Proof

/-! ### The commands where their part works -/

theorem exec_faultRaise {s : State} (hu : s.plt.up = true) (n : FltId) (u p : W16) :
    exec (.faultRaise n u p) s = .next (s.after (s.raiseWith n.val u.toNat p.toNat false)) := by
  show execFaultRaise n u p s = _; exact act_of hu _ s

theorem exec_fltSrcForce {s : State} (hb : s.barTakes 0x200000 = true) (n : FltId) (v : W32) :
    exec (.fltSrcForce n v) s = .next (s.after (s.force n.val v.toNat)) := by
  show execFltSrcForce n v s = _; exact act_of hb _ s

theorem exec_fltStickyClear {s : State} (hb : s.barTakes 0x200000 = true) (n : FltId) (v : W32) :
    exec (.fltStickyClear n v) s = .next (s.after (s.stickyClear n.val v.toNat)) := by
  show execFltStickyClear n v s = _; exact act_of hb _ s

theorem exec_selfchkInject {s : State} (hb : s.barTakes 0x200048 = true) (v : W32) :
    exec (.selfchkInject v) s = .next (s.after (s.inject v.toNat)) := by
  show execSelfchkInject v s = _; exact act_of hb _ s

theorem exec_selfcheckMismatch {s : State} (hu : s.plt.up = true) (hs : s.flt.safe = false) :
    exec .selfcheckMismatch s = .next (s.after s.enterSafe) := by
  show execSelfcheckMismatch s = _; exact act_of (by simp [hu, hs]) _ s

theorem exec_faultLogFlush {s : State} (hl : s.live = true) : exec .faultLogFlush s = .next (s.after s.flushLog) := by
  show execFaultLogFlush s = _; exact act_of hl _ s

theorem exec_recoveryProgram {v : W32} {s : State} (hb : s.barTakes 0x300080 = true) (hr : s.plt.recovery = true)
    (hg : tb v.toNat 31 = true) (ho : fld v.toNat 29 2 = 0) : exec (.recoveryProgram v) s = .next (s.after (s.recProgram v)) := by
  show execRecoveryProgram v s = _; exact act_of (by simp [hb, hr, hg, ho]) _ s

theorem exec_recoveryVerify {v : W32} {s : State} (hb : s.barTakes 0x300080 = true) (hr : s.plt.recovery = true)
    (hg : tb v.toNat 31 = true) (ho : fld v.toNat 29 2 = 1) : exec (.recoveryVerify v) s = .next (s.after (s.recVerify v)) := by
  show execRecoveryVerify v s = _; exact act_of (by simp [hb, hr, hg, ho]) _ s

theorem exec_recoveryProgramDone {s : State} (hu : s.plt.up = true) (hr : s.plt.recovery = true) (ok : Bool) :
    exec (.recoveryProgramDone ok) s = .next (s.after (s.recDone ok)) := by
  show execRecoveryProgramDone ok s = _; exact act_of (by simp [hu, hr]) _ s

/-- In the safe state BAR0 takes nothing (R454, item 3). -/
theorem State.safe_of_takes {s : State} {a : Nat} (h : s.barTakes a = true) : s.flt.safe = false := by
  simp only [State.barTakes, Bool.and_eq_true, Bool.not_eq_true'] at h
  exact h.2

/-! ### A raise and its record (R451, R457) -/

/-- The unit and the particulars of a raise are whole words of 16 bits. -/
theorem fld_w16 (u : W16) : fld u.toNat 0 16 = u.toNat := by
  rw [fld, Nat.pow_zero, Nat.div_one, Nat.mod_eq_of_lt u.isLt]

theorem State.raised_detail (s : State) (n : Nat) (u p : W16) :
    ((s.raiseWith n u.toNat p.toNat false).fltSrc n).detail = w32 (u.toNat + p.toNat * 2 ^ 16) := by
  rw [State.raiseWith_detail, if_neg Bool.false_ne_true, fld_w16, fld_w16]

/-! ### Contacts of a forced raise (R451, R456) -/

theorem replaceN_ite (a b : State) (c : Prop) [Decidable c] :
    (if c then a else b).flt.replaceN = if c then a.flt.replaceN else b.flt.replaceN :=
  apply_ite (fun s => s.flt.replaceN) c a b

@[simp] theorem State.logFault_replaceN (s : State) (a b c d e : Nat) : (s.logFault a b c d e).flt.replaceN = s.flt.replaceN := rfl

@[simp] theorem State.setFltSrc_replaceN (s : State) (n : Nat) (x : FltSrc) : (s.setFltSrc n x).flt.replaceN = s.flt.replaceN := rfl

@[simp] theorem State.react_replaceN (s : State) (n unit cfg : Nat) : (s.react n unit cfg).flt.replaceN = s.flt.replaceN := by
  unfold State.react
  simp only [replaceN_ite, State.setFltSrc_replaceN, ite_self]

/-- A forced raise never asks for the module's replacement. -/
theorem State.raiseWith_forced_replaceN (s : State) (n unit part : Nat) : (s.raiseWith n unit part true).flt.replaceN = s.flt.replaceN := by
  unfold State.raiseWith
  cases fltEvent n unit <;> simp [replaceN_ite, State.emit_flt]

theorem State.force_go {s : State} {v : Nat} (hv : tb v 0 = true) (hs : s.flt.safe = false) (n : Nat) :
    s.force n v = s.raiseWith n 0xFFFF 0xFFFF true :=
  if_pos (by simp [hv, hs])

/-- A forced raise is marked, its detail all ones. -/
theorem State.force_marks {s : State} {v : Nat} (hv : tb v 0 = true) (hs : s.flt.safe = false) (n : Nat) :
    ((s.force n v).fltSrc n).sticky = true ∧ ((s.force n v).fltSrc n).forced = true ∧
      ((s.force n v).fltSrc n).detail = 0xFFFFFFFF ∧ (s.force n v).flt.replaceN = s.flt.replaceN := by
  rw [State.force_go hv hs]
  exact ⟨State.raiseWith_sticky .., State.raiseWith_forced .., State.raiseWith_detail .., State.raiseWith_forced_replaceN ..⟩

/-! ### The safe state (R454) -/

theorem State.enterSafe_safe (s : State) :
    s.enterSafe.flt.safe = true ∧ tb s.enterSafe.glb.health hSAFE = true ∧ s.enterSafe.flt.srcs = s.flt.srcs :=
  ⟨rfl, tb_setBit _ _, rfl⟩

/-! ### The flush of the log (R457) -/

/-- A flush changes the log and the records that waited, and nothing else. -/
theorem State.flushLog_form (s : State) : ∃ l : List LogRec,
    l = (s.flash.log ++ s.flt.pendingLog).drop ((s.flash.log ++ s.flt.pendingLog).length - 131072) ∧
      s.flushLog = { s with flash := { s.flash with log := l }, flt := { s.flt with pendingLog := [], flushDue := none } } :=
  ⟨_, rfl, rfl⟩

/-- A flush leaves the last 131,072 of the log with the records that waited. -/
theorem State.flushLog_keeps (s : State) : s.flushLog.flt.pendingLog = [] ∧ s.flushLog.flash.log.length ≤ 131072 ∧
    (∃ l : List LogRec, l ++ s.flushLog.flash.log = s.flash.log ++ s.flt.pendingLog) ∧ s.flushLog.flash.data = s.flash.data := by
  obtain ⟨l, hl, hflush⟩ := s.flushLog_form
  rw [hflush]
  refine ⟨rfl, ?_, ?_, rfl⟩
  · show l.length ≤ 131072
    rw [hl, List.length_drop]
    omega
  · show ∃ k, k ++ l = _
    rw [hl]
    exact ⟨_, List.take_append_drop _ _⟩

/-! ### Recovery (R427, R428) -/

/-- A chunk below 384 is taken into SEC_RECOVERY. -/
theorem State.recWrite_chunk (s : State) {v : W32} (hc : fld v.toNat 0 10 ≤ 383) :
    fld (s.recWrite v).sec.recWord.toNat 0 10 = fld v.toNat 0 10 := by
  have hw : (s.recWrite v).sec.recWord =
      w32 (fld v.toNat 29 2 * 2 ^ 29 + fld v.toNat 27 1 * 2 ^ 27 + fld v.toNat 0 10) := by
    show w32 (_ + ite _ _ _) = _
    rw [if_pos hc]
  have hop : fld v.toNat 29 2 < 2 ^ 2 := fld_lt ..
  have hbank : fld v.toNat 27 1 < 2 ^ 1 := fld_lt ..
  have hlow : ∀ a b c : Nat, c ≤ 383 → fld (a * 2 ^ 29 + b * 2 ^ 27 + c) 0 10 = c := fun a b c h => by
    rw [fld]
    omega
  rw [hw, w32_toNat_of_lt (by omega), hlow _ _ _ hc]

/-- A write of SEC_RECOVERY changes its word, and nothing else. -/
theorem State.recWrite_form (s : State) (v : W32) : ∃ w, s.recWrite v = { s with sec := { s.sec with recWord := w } } :=
  ⟨_, rfl⟩

theorem State.recWrite_flt (s : State) (v : W32) : (s.recWrite v).flt = s.flt := by
  obtain ⟨w, hw⟩ := s.recWrite_form v
  rw [hw]

theorem State.recWrite_cntOf (s : State) (v : W32) (b u n : Nat) : (s.recWrite v).cntOf b u n = s.cntOf b u n := by
  obtain ⟨w, hw⟩ := s.recWrite_form v
  rw [hw]
  rfl

/-- GO starts the programming of the chunk that the word names. -/
theorem State.recProgram_starts {s : State} {v : W32} (hr : s.plt.recovery = true) (hg : tb v.toNat 31 = true)
    (hb : s.sec.recBusy = false) (ho : fld v.toNat 29 2 = 0) :
    s.recProgram v = { s.recWrite v with sec := { (s.recWrite v).sec with recBusy := true } } := by
  unfold State.recProgram
  rw [if_neg (by simp [hr])]
  exact if_pos (by simp [hg, hb, ho])

theorem State.recProgram_busy {s : State} {v : W32} (hr : s.plt.recovery = true) (hg : tb v.toNat 31 = true)
    (hb : s.sec.recBusy = false) (ho : fld v.toNat 29 2 = 0) :
    (s.recProgram v).sec.recBusy = true ∧ (s.recProgram v).sec.recWord = (s.recWrite v).sec.recWord := by
  have hbusy : ∀ r t : State, r = { t with sec := { t.sec with recBusy := true } } →
      r.sec.recBusy = true ∧ r.sec.recWord = t.sec.recWord := by
    rintro _ t rfl
    exact ⟨rfl, rfl⟩
  exact hbusy _ _ (State.recProgram_starts hr hg hb ho)

/-- The word written and the bank judged, counted under its outcome. -/
def State.recJudged (s : State) (v : W32) : State :=
  (s.recWrite v).verified (decide ((s.recWrite v).bankCode (s.recWrite v).recBank = 0))

theorem State.recVerify_judges {s : State} {v : W32} (hr : s.plt.recovery = true) (hg : tb v.toNat 31 = true)
    (hb : s.sec.recBusy = false) (ho : fld v.toNat 29 2 = 1) :
    s.recVerify v = if (s.recWrite v).bankCode (s.recWrite v).recBank = 0
      then { s.recJudged v with flt := { (s.recJudged v).flt with resetReq := true } }
      else { s.recJudged v with
        sec := { (s.recJudged v).sec with recResult := (s.recWrite v).bankCode (s.recWrite v).recBank } } := by
  unfold State.recVerify
  rw [if_neg (by simp [hr])]
  exact if_pos (by simp [hg, hb, ho])

theorem State.recJudged_flt (s : State) (v : W32) : (s.recJudged v).flt = s.flt := by
  rw [State.recJudged, State.verified, State.bump_flt, State.recWrite_flt]

/-- A bank that passes is counted among those verified. -/
theorem State.recJudged_counts {s : State} {v : W32} (hc : (s.recWrite v).bankCode (s.recWrite v).recBank = 0) :
    (s.recJudged v).cntOf bSEC 0 0 = (s.cntOf bSEC 0 0 + 1) % 2 ^ 48 := by
  rw [State.recJudged, decide_eq_true hc, ← s.recWrite_cntOf v bSEC 0 0]
  exact State.cntOf_bump_same ..

/-- A bank that passes asks for the module reset. -/
theorem State.recVerify_passes {s : State} {v : W32} (hr : s.plt.recovery = true) (hg : tb v.toNat 31 = true)
    (hb : s.sec.recBusy = false) (ho : fld v.toNat 29 2 = 1) (hc : (s.recWrite v).bankCode (s.recWrite v).recBank = 0) :
    (s.recVerify v).flt.resetReq = true ∧ (s.recVerify v).cntOf bSEC 0 0 = (s.cntOf bSEC 0 0 + 1) % 2 ^ 48 := by
  have hreset : ∀ r t : State, r = { t with flt := { t.flt with resetReq := true } } →
      r.flt.resetReq = true ∧ r.cntOf bSEC 0 0 = t.cntOf bSEC 0 0 := by
    rintro _ t rfl
    exact ⟨rfl, rfl⟩
  obtain ⟨hreq, hcnt⟩ := hreset _ _ ((State.recVerify_judges hr hg hb ho).trans (if_pos hc))
  exact ⟨hreq, hcnt.trans (State.recJudged_counts hc)⟩

/-- A bank that fails leaves its code as the result. -/
theorem State.recVerify_fails {s : State} {v : W32} (hr : s.plt.recovery = true) (hg : tb v.toNat 31 = true)
    (hb : s.sec.recBusy = false) (ho : fld v.toNat 29 2 = 1) (hc : (s.recWrite v).bankCode (s.recWrite v).recBank ≠ 0) :
    (s.recVerify v).flt.resetReq = s.flt.resetReq ∧
      (s.recVerify v).sec.recResult = (s.recWrite v).bankCode (s.recWrite v).recBank := by
  rw [State.recVerify_judges hr hg hb ho, if_neg hc, ← s.recJudged_flt v]
  generalize s.recJudged v = t
  exact ⟨rfl, rfl⟩

/-- A chunk programmed: SEC is free again, with the result. -/
theorem State.recDone_ends {s : State} (hb : s.sec.recBusy = true) (ok : Bool) :
    (s.recDone ok).sec.recBusy = false ∧ (s.recDone ok).sec.recResult = if ok then 0 else eFLASH := by
  unfold State.recDone
  rw [if_pos hb]
  exact ⟨rfl, rfl⟩

/-- Settles O57: the source and the record by the laws of a raise, the log by the length of what is dropped, recovery by the operation
that the word names. -/
theorem faultAndRecoveryCommandsAnswer : Obligations.FaultAndRecoveryCommandsAnswer := by
  unfold Obligations.FaultAndRecoveryCommandsAnswer
  refine ⟨fun n u p s hu => ?_, fun n v s hb => ⟨fun hv => ?_, fun hv => ?_, fun hv => ?_, fun hv => ?_⟩, fun v s hb hv => ?_,
    fun s hu hs => exec_selfcheckMismatch hu hs, State.enterSafe_safe, fun s hl => ⟨_, exec_faultLogFlush hl, s.flushLog_keeps⟩,
    fun v s hb hr hg hn => ⟨fun ho => ?_, fun ho hc => ?_, fun ho hc => ?_⟩, fun ok s hu hr hn => ?_⟩
  · exact ⟨_, exec_faultRaise hu n u p, State.raiseWith_sticky .., State.raiseWith_forced .., State.raiseWith_count ..,
      State.raiseWith_outcome .., State.raised_detail .., _, _, State.raiseWith_pendingLog .., rfl, rfl, rfl, rfl⟩
  · exact ⟨_, exec_fltSrcForce hb n v, State.force_marks hv (State.safe_of_takes hb) n.val⟩
  · rw [exec_fltSrcForce hb, State.force, if_neg (by simp [hv])]
  · rw [exec_fltStickyClear hb, State.stickyClear, if_pos hv]
  · rw [exec_fltStickyClear hb, State.stickyClear, if_neg (by simp [hv])]
  · rw [exec_selfchkInject hb, State.inject, if_pos (by simp [hv, State.safe_of_takes hb])]
  · refine ⟨_, exec_recoveryProgram hb hr hg ho, ?_⟩
    obtain ⟨hbusy, hword⟩ := State.recProgram_busy hr hg hn ho
    exact ⟨hbusy, fun hc => by rw [hword, s.recWrite_chunk hc]⟩
  · exact ⟨_, exec_recoveryVerify hb hr hg ho, State.recVerify_passes hr hg hn ho hc⟩
  · exact ⟨_, exec_recoveryVerify hb hr hg ho, State.recVerify_fails hr hg hn ho hc⟩
  · obtain ⟨hbusy, hres⟩ := State.recDone_ends hn ok
    exact ⟨_, exec_recoveryProgramDone hu hr ok, hbusy, fun h => by rw [hres, h]; rfl, fun h => by rw [hres, h]; rfl⟩

end Sys2Proof.Machine
end

section
/-! SUPPORT. The microsequencer (R103 to R113): the word that a lane fetches, what a nanoword's sequencer field leaves as it was, and what the
traps write of their lane. -/

namespace Sys2Proof.Machine

open Sys2Proof

/-! ### The word fetched (R103, R106) -/

/-- A word of the kind that is executed runs with its 24 bits. -/
theorem State.onWord_of_mword {s : State} {l k w : Nat} (h : s.mword l k = some w) (f : State → Nat → State) : s.onWord l k f = f s w := by
  unfold State.mword at h
  obtain ⟨⟨hf, hp, hk⟩, hw⟩ := Option.ite_none_right_eq_some.1 h
  cases hw
  simp [State.onWord, hf, hp, hk]

/-- A special word of the opcode that is executed runs with its operand. -/
theorem State.onSpecial_of_special {s : State} {l op v : Nat} (h : s.special l op = some v) (hop : op < 8) (f : State → Nat → State) :
    s.onSpecial l op f = f s v := by
  unfold State.special at h
  split at h
  next w hw =>
    obtain ⟨ho, hv⟩ := Option.ite_none_right_eq_some.1 h
    cases hv
    have hlow : ¬ 8 ≤ fld w 16 6 := by omega
    rw [State.onSpecial, State.onWord_of_mword hw, if_neg hlow, if_pos ho]
  next => cases h

theorem State.nextWord_lane (s : State) (l : Nat) : (s.nextWord l).lane l = { s.lane l with upc := ((s.lane l).upc + 1) % 8192 } :=
  State.setLane_same ..

/-! ### A nanoword issued (R104, R107) -/

/-- Where the lane stands in its microcode, what its stages hold, and whether it is in an atomic region. -/
def Lane.sequence (x : Lane) : Nat × Option Nat × List Nat × Bool := (x.upc, x.rep, x.stages, x.atomic)

/-- The next CTU enters stage 1: beside the pointer, what belongs to tagged sampling. -/
theorem State.advanceCtu_lane (s : State) (l : Nat) :
    ∃ v g n, (s.advanceCtu l).lane l = { s.lane l with ctu := (s.lane l).ctu + 1, lfsr := v, tags := g, tagLost := n } := by
  obtain ⟨v, g, n, h⟩ := (s.setLane l { s.lane l with ctu := (s.lane l).ctu + 1 }).tagCtu_lane l
  rw [State.setLane_same] at h
  exact ⟨v, g, n, h⟩

theorem State.advanceCtu_sequence (s : State) (l : Nat) : ((s.advanceCtu l).lane l).sequence = (s.lane l).sequence := by
  obtain ⟨v, g, n, h⟩ := s.advanceCtu_lane l
  rw [h]
  rfl

/-- The stage groups and the control byte of a nanoword at index `i`. -/
def State.nanoStaged (s : State) (l i nw : Nat) : State :=
  let t := s.setLane l { s.lane l with stages := stagesOf (s.lane l).stages nw, lastNano := some i, atomic := (s.lane l).atomic || tb nw 191 }
  if tb nw 189 then t.advanceCtu l else t

/-- The flags, loop counters and latches as the sequencer field of a nanoword leaves them. -/
def Lane.routed (x : Lane) (free nw imm : Nat) : Lane :=
  let a := fld nw 0 16 + imm * 2 ^ 16
  let routed := decide (fld nw 0 4 ≠ 0)
  let x := if fld nw 4 4 ≠ 0 || routed then { x with cflags := Config.seqFlags free a % 2 ^ 16 } else x
  let x := if fld nw 8 4 ≠ 0 || routed then
      { x with loop0 := Config.seqLoop0 free a % 2 ^ 15, loop1 := Config.seqLoop1 free a % 2 ^ 15 } else x
  if fld nw 12 4 ≠ 0 || routed then { x with latches := (List.range 4).map (fun k => Config.seqLatch free a k) } else x

theorem Lane.routed_sequence (x : Lane) (free nw imm : Nat) : (x.routed free nw imm).sequence = x.sequence := by
  unfold Lane.routed
  dsimp only
  split <;> split <;> split <;> rfl

theorem State.issueNano_eq (s : State) (l i nw imm : Nat) :
    s.issueNano l i nw imm = if fld nw 0 16 = 0 then s.nanoStaged l i nw
      else ((s.nanoStaged l i nw).setLane l (((s.nanoStaged l i nw).lane l).routed (s.nanoStaged l i nw).free nw imm)).draw := rfl

theorem State.nanoStaged_sequence (s : State) (l i nw : Nat) :
    ((s.nanoStaged l i nw).lane l).sequence =
      ((s.lane l).upc, (s.lane l).rep, stagesOf (s.lane l).stages nw, (s.lane l).atomic || tb nw 191) := by
  unfold State.nanoStaged
  dsimp only
  split
  · rw [State.advanceCtu_sequence, State.setLane_same]
    rfl
  · rw [State.setLane_same]
    rfl

/-- A nanoword issued moves no micro-PC, whatever its sequencer field replaces. -/
theorem State.issueNano_sequence (s : State) (l i nw imm : Nat) :
    ((s.issueNano l i nw imm).lane l).sequence =
      ((s.lane l).upc, (s.lane l).rep, stagesOf (s.lane l).stages nw, (s.lane l).atomic || tb nw 191) := by
  rw [State.issueNano_eq, ← s.nanoStaged_sequence l i nw]
  split
  · rfl
  · exact (congrArg Lane.sequence (State.setLane_same ..)).trans (Lane.routed_sequence ..)

/-- The nanoword at the index that the word names is issued once more: the word follows after the last issue (R103). -/
theorem State.issueOp_issues {s : State} {l w : Nat} {b : Bool} (hw : s.mword l 0 = some w) (hs : (s.lane l).waits = false)
    (hp : nanoSyndrome (Tbl.get 0 (s.lane l).nano (fld w 12 10)) = 0)
    (hb : tb (Tbl.get 0 (s.lane l).nano (fld w 12 10)) 190 = false ∨ b = true) :
    ((s.issueOp l b).lane l).sequence =
      (if (s.lane l).rep.getD (fld w 8 4 + 1) ≤ 1 then ((s.lane l).upc + 1) % 8192 else (s.lane l).upc,
       if (s.lane l).rep.getD (fld w 8 4 + 1) ≤ 1 then none else some ((s.lane l).rep.getD (fld w 8 4 + 1) - 1),
       stagesOf (s.lane l).stages (Tbl.get 0 (s.lane l).nano (fld w 12 10)),
       (s.lane l).atomic || tb (Tbl.get 0 (s.lane l).nano (fld w 12 10)) 191) := by
  have hgo : (tb (Tbl.get 0 (s.lane l).nano (fld w 12 10)) 190 && !b) = false := by
    rcases hb with h | h <;> simp [h]
  unfold State.issueOp
  rw [hs, if_neg Bool.false_ne_true, State.onWord_of_mword hw]
  dsimp only
  rw [if_neg (not_not_intro hp), hgo, if_neg Bool.false_ne_true]
  generalize Tbl.get 0 (s.lane l).nano (fld w 12 10) = nw
  generalize (s.lane l).rep.getD (fld w 8 4 + 1) = left
  have hn := (s.setLane l { s.lane l with rep := some (left - 1) }).issueNano_sequence l (fld w 12 10) nw (fld w 0 8)
  rw [State.setLane_same] at hn
  obtain ⟨hupc, hrest⟩ := Prod.mk.inj hn
  obtain ⟨hrep, hrest⟩ := Prod.mk.inj hrest
  obtain ⟨hst, hat⟩ := Prod.mk.inj hrest
  split
  · rw [State.nextWord_lane, State.setLane_same, Lane.sequence, hupc, hst, hat]
  · exact hn

/-- A lane whose stages wait, or whose nanoword waits for empty stages, issues nothing. -/
theorem State.issueOp_waits {s : State} {l w : Nat} {b : Bool} (hw : s.mword l 0 = some w)
    (h : (s.lane l).waits = true ∨ (nanoSyndrome (Tbl.get 0 (s.lane l).nano (fld w 12 10)) = 0 ∧
      tb (Tbl.get 0 (s.lane l).nano (fld w 12 10)) 190 = true ∧ b = false)) : s.issueOp l b = s := by
  unfold State.issueOp
  rcases h with h | ⟨hp, hb, rfl⟩
  · rw [if_pos h]
  · rw [State.onWord_of_mword hw]
    simp [hp, hb]

/-! ### Branches (R105) -/

/-- A condition reads every lane through `State.lane`. -/
theorem State.condition_setLane_self (s : State) (l c loop0 loop1 : Nat) (out : Bool) :
    (s.setLane l (s.lane l)).condition l c loop0 loop1 out = s.condition l c loop0 loop1 out := by
  have hlane : (s.setLane l (s.lane l)).lane = s.lane := by
    funext k
    by_cases h : k = l
    · rw [h, State.setLane_same]
    · exact State.setLane_other _ _ _ _ h
  have hready : (s.setLane l (s.lane l)).neighbourReady l out = s.neighbourReady l out := by
    unfold State.neighbourReady State.memberFor State.leadFor
    rw [hlane]
    rfl
  have hnext : (s.setLane l (s.lane l)).nextFor l = s.nextFor l := by
    unfold State.nextFor State.memberFor State.leadFor
    rw [hlane]
  unfold State.condition
  rw [hready, hnext, hlane]
  rfl

/-- The loop counter that a condition code reads counts down first. -/
def Lane.counted (x : Lane) (c : Nat) : Lane :=
  if c = 1 then { x with loop0 := (x.loop0 + 2 ^ 15 - 1) % 2 ^ 15 }
  else if c = 2 then { x with loop1 := (x.loop1 + 2 ^ 15 - 1) % 2 ^ 15 } else x

theorem Lane.counted_upc (x : Lane) (c : Nat) : (x.counted c).upc = x.upc := by
  unfold Lane.counted
  split
  · rfl
  · split <;> rfl

theorem State.branchOp_eq {s : State} {l w : Nat} (hw : s.mword l 1 = some w) (hc : fld w 16 6 < 0x20) (out : Bool) :
    s.branchOp l out =
      if (s.setLane l ((s.lane l).counted (fld w 16 6))).condition l (fld w 16 6) ((s.lane l).counted (fld w 16 6)).loop0
          ((s.lane l).counted (fld w 16 6)).loop1 out != tb w 15 then
        (s.setLane l ((s.lane l).counted (fld w 16 6))).setLane l { (s.lane l).counted (fld w 16 6) with upc := fld w 0 13 }
      else (s.setLane l ((s.lane l).counted (fld w 16 6))).nextWord l := by
  rw [State.branchOp, State.onWord_of_mword hw]
  exact if_neg (Nat.not_le.2 hc)

/-- A branch goes to its target when its condition differs from NEG (R105). -/
theorem State.branchOp_lane {s : State} {l w : Nat} (hw : s.mword l 1 = some w) (hc : fld w 16 6 < 0x20) (out : Bool) :
    (s.branchOp l out).lane l = { (s.lane l).counted (fld w 16 6) with
      upc := if (s.setLane l ((s.lane l).counted (fld w 16 6))).condition l (fld w 16 6) ((s.lane l).counted (fld w 16 6)).loop0
          ((s.lane l).counted (fld w 16 6)).loop1 out = tb w 15
        then ((s.lane l).upc + 1) % 8192 else fld w 0 13 } := by
  rw [State.branchOp_eq hw hc, ← (s.lane l).counted_upc (fld w 16 6)]
  generalize (s.lane l).counted (fld w 16 6) = y
  split
  next h => rw [State.setLane_same, if_neg (by simpa using h)]
  next h => rw [State.nextWord_lane, State.setLane_same, if_pos (by simpa using h)]

/-- Codes 1 and 2 ask whether their counter has reached 0. -/
theorem State.condition_loop (s : State) (l loop0 loop1 : Nat) (out : Bool) :
    s.condition l 1 loop0 loop1 out = decide (loop0 ≠ 0) ∧ s.condition l 2 loop0 loop1 out = decide (loop1 ≠ 0) := ⟨rfl, rfl⟩

/-- Codes from 3 on read no loop counter. -/
theorem State.branchOp_flag {s : State} {l w : Nat} (hw : s.mword l 1 = some w) (hc : fld w 16 6 < 0x20) (h3 : 3 ≤ fld w 16 6) (out : Bool) :
    (s.branchOp l out).lane l = { s.lane l with
      upc := if s.condition l (fld w 16 6) (s.lane l).loop0 (s.lane l).loop1 out = tb w 15
        then ((s.lane l).upc + 1) % 8192 else fld w 0 13 } := by
  have hx : (s.lane l).counted (fld w 16 6) = s.lane l := by
    rw [Lane.counted, if_neg (by omega), if_neg (by omega)]
  rw [State.branchOp_lane hw hc, hx, State.condition_setLane_self]

/-! ### A trap taken (R111, R112) -/

theorem State.pmcEvent_lane (s : State) (l c : Nat) : ∃ o, (s.pmcEvent l c).lane l = { s.lane l with pmcOvf := o } := by
  have h : { (s.pmcEvent l c).lane l with pmcOvf := 0 } = { s.lane l with pmcOvf := 0 } := congrArg Prod.fst (s.laneView_pmcEvent l l c)
  generalize (s.pmcEvent l c).lane l = x at h ⊢
  generalize s.lane l = y at h ⊢
  cases x
  cases y
  cases h
  exact ⟨_, rfl⟩

theorem State.lane_raise (s : State) (a b c l : Nat) : (s.raise a b c).lane l = s.lane l := by
  rw [State.lane, State.raise_lanes, State.lane]

theorem State.sliceStall_lane (s : State) (l : Nat) : ∃ a, (s.sliceStall l).lane l = { s.lane l with stallAt := a } := by
  unfold State.sliceStall
  split
  · exact ⟨_, rfl⟩
  · rw [State.lane_raise, State.setLane_same]
    exact ⟨_, rfl⟩

/-- The state that a trap of cause `c` interrupts (R112). -/
def Lane.frameOf (x : Lane) (c : Nat) (boundary : Bool) : TrapFrame :=
  { cause := c, upc := x.upc, rep := x.rep.getD 0, loop0 := x.loop0, loop1 := x.loop1, latches := x.latches,
    sp := x.stack.length, nano := if c = 0 then x.lastNano else none, boundary := boundary }

/-- The lane with its handler entered at the vector of cause `c`. -/
def Lane.trapped (x : Lane) (c : Nat) (boundary : Bool) : Lane :=
  { x with frames := x.frameOf c boundary :: x.frames, ms := .trap, upc := 0x80 + 16 * c, rep := none,
           trapActive := setBit x.trapActive c,
           trapPending := if tb x.trapPending c then x.trapPending - 2 ^ c else x.trapPending,
           trapTaken := satAdd x.trapTaken 1 0xFFFF,
           asked := x.asked || decide (c = 2),
           prefetch := if c = 3 then none else x.prefetch }

/-- Beside them a trap changes the counters' overflow bits and the stall that SLICE_EMPTY raises. -/
theorem State.takeTrap_lane (s : State) (l c : Nat) (boundary : Bool) :
    ∃ o a, (s.takeTrap l c boundary).lane l = { (s.lane l).trapped c boundary with pmcOvf := o, stallAt := a } := by
  obtain ⟨o, ho⟩ := (s.setLane l ((s.lane l).trapped c boundary)).pmcEvent_lane l 0x009
  rw [State.setLane_same] at ho
  show ∃ o a, (State.lane (if c = 1 then State.sliceStall ((s.setLane l ((s.lane l).trapped c boundary)).pmcEvent l 0x009) l
    else (s.setLane l ((s.lane l).trapped c boundary)).pmcEvent l 0x009) l) = _
  split
  · obtain ⟨a, ha⟩ := ((s.setLane l ((s.lane l).trapped c boundary)).pmcEvent l 0x009).sliceStall_lane l
    rw [ho] at ha
    exact ⟨o, a, ha⟩
  · exact ⟨o, _, ho⟩

/-- At a job's end the job is gone, and the atomic region with it (R106, R113). -/
theorem State.servePending_run (s : State) (l : Nat) (boundary : Bool) :
    ((s.servePending l boundary).lane l).run = (s.lane l).run ∧ ((s.servePending l boundary).lane l).atomic = (s.lane l).atomic := by
  unfold State.servePending
  dsimp only
  split
  next c _ =>
    split
    · exact ⟨rfl, rfl⟩
    · obtain ⟨o, a, h⟩ := s.takeTrap_lane l c boundary
      rw [h]
      exact ⟨rfl, rfl⟩
  next => exact ⟨rfl, rfl⟩

theorem State.jobBoundary_endRun (s : State) (l : Nat) :
    (((s.endRun l).jobBoundary l).lane l).run = none ∧ (((s.endRun l).jobBoundary l).lane l).atomic = false := by
  obtain ⟨hrun, hat⟩ := ((s.endRun l).setLane l { (s.endRun l).lane l with atomic := false }).servePending_run l true
  rw [State.setLane_same] at hrun hat
  rw [State.jobBoundary, hrun, hat, State.endRun, State.setLane_same]
  exact ⟨rfl, rfl⟩

/-! ### Each microword, where the module is live, is its operation -/

section Commands

variable {s : State} (hl : s.live = true) (l : LaneId)
include hl

theorem exec_issueMw (b : Bool) : exec (.issueMw l b) s = .next (s.after (s.issueOp l.val b)) := by
  show execIssueMw l b s = _
  exact act_of hl _ s

theorem exec_branchMw (out : Bool) : exec (.branchMw l out) s = .next (s.after (s.branchOp l.val out)) := by
  show execBranchMw l out s = _
  exact act_of hl _ s

theorem exec_callMw : exec (.callMw l) s = .next (s.after (s.callOp l.val)) := by
  show execCallMw l s = _
  exact act_of hl _ s

theorem exec_returnMw : exec (.returnMw l) s = .next (s.after (s.returnOp l.val)) := by
  show execReturnMw l s = _
  exact act_of hl _ s

theorem exec_endJob : exec (.endJob l) s = .next (s.after (s.endJobOp l.val)) := by
  show execEndJob l s = _
  exact act_of hl _ s

theorem exec_waitMw (out : Bool) : exec (.waitMw l out) s = .next (s.after (s.waitOp l.val out)) := by
  show execWaitMw l out s = _
  exact act_of hl _ s

theorem exec_loopLoad : exec (.loopLoad l) s = .next (s.after (s.loopLoadOp l.val)) := by
  show execLoopLoad l s = _
  exact act_of hl _ s

theorem exec_latchLoad : exec (.latchLoad l) s = .next (s.after (s.latchLoadOp l.val)) := by
  show execLatchLoad l s = _
  exact act_of hl _ s

theorem exec_postSummary : exec (.postSummary l) s = .next (s.after (s.postOp l.val)) := by
  show execPostSummary l s = _
  exact act_of hl _ s

theorem exec_nextCtu : exec (.nextCtu l) s = .next (s.after (s.nextCtuOp l.val)) := by
  show execNextCtu l s = _
  exact act_of hl _ s

theorem exec_drainMw (empty : Bool) : exec (.drainMw l empty) s = .next (s.after (s.drainOp l.val empty)) := by
  show execDrainMw l empty s = _
  exact act_of hl _ s

end Commands

/-- Settles O11: a word by its kind, and a special word by its opcode; an issue by whether it is the last, and a branch by its condition code. -/
theorem microwordsAnswer : Obligations.MicrowordsAnswer := by
  unfold Obligations.MicrowordsAnswer
  intro l w out s hl x go nw
  refine ⟨fun b hw h => ?_, fun b hw hs hp hb => ?issue, fun hw hc => ?branch, fun hw ht hn => ?_, fun a r hw ht hr => ?_, fun hw hq => ?_,
    fun hw hq => ?_, fun hw hc => ⟨fun h => ?_, fun h => ?_⟩, fun hw => ?loop, fun hw => ?_, fun hw => ?_, fun hw => ?ctu, fun hw => ⟨?_, ?_⟩⟩
  · rw [exec_issueMw hl, State.issueOp_waits hw h]
  case issue =>
    refine ⟨_, exec_issueMw hl l b, ?_⟩
    obtain ⟨hupc, hrest⟩ := Prod.mk.inj (State.issueOp_issues hw hs hp hb)
    obtain ⟨hrep, hrest⟩ := Prod.mk.inj hrest
    obtain ⟨hst, hat⟩ := Prod.mk.inj hrest
    exact ⟨fun h => ⟨hupc.trans (if_pos h), hrep.trans (if_pos h)⟩,
      fun h => ⟨hupc.trans (if_neg (Nat.not_le.2 h)), hrep.trans (if_neg (Nat.not_le.2 h))⟩, hst, hat⟩
  case branch =>
    have hlane := State.branchOp_lane hw hc out
    refine ⟨_, exec_branchMw hl l out, ?_, ?_, fun h => ?_, fun h => ?_, fun h => ?_, fun h => ?_⟩
    · rw [hlane]
      show ((s.lane l.val).counted (fld w 16 6)).loop0 = _
      unfold Lane.counted
      split
      · rfl
      · split <;> rfl
    · rw [hlane]
      show ((s.lane l.val).counted (fld w 16 6)).loop1 = _
      unfold Lane.counted
      split
      next h => rw [if_neg (by omega)]
      next => split <;> rfl
    · rw [State.branchOp_flag hw hc h]
    · rw [hlane, h]
      cases tb w 15 <;> rfl
    · rw [hlane, h, (State.condition_loop ..).1]
    · rw [hlane, h, (State.condition_loop ..).2]
  · rw [exec_callMw hl, State.callOp, State.onWord_of_mword hw]
    simp only [ht, Bool.false_eq_true, if_false]
    rw [if_neg (Nat.not_le.2 hn)]
  · rw [exec_returnMw hl, State.returnOp, State.onWord_of_mword hw]
    simp only [ht, Bool.not_true, Bool.false_eq_true, if_false]
    have hr' : (s.lane l.val).stack = a :: r := hr
    rw [hr']
  · rw [exec_endJob hl, State.endJobOp, State.onSpecial_of_special hw (by omega), if_neg (by simpa using hq)]
  · refine ⟨_, exec_endJob hl l, ?_⟩
    rw [State.endJobOp, State.onSpecial_of_special hw (by omega), if_pos hq]
    exact State.jobBoundary_endRun ..
  · rw [exec_waitMw hl, State.waitOp, State.onSpecial_of_special hw (by omega)]
    dsimp only
    rw [if_neg (Nat.not_le.2 hc), if_pos h]
    rfl
  · rw [exec_waitMw hl, State.waitOp, State.onSpecial_of_special hw (by omega)]
    dsimp only
    rw [if_neg (Nat.not_le.2 hc), if_neg (by simpa using h)]
  case loop =>
    refine ⟨_, exec_loopLoad hl l, ?_⟩
    rw [State.loopLoadOp, State.onSpecial_of_special hw (by omega), State.nextWord_lane, State.setLane_same]
    split <;> rfl
  · refine ⟨_, exec_latchLoad hl l, ?_⟩
    rw [State.latchLoadOp, State.onSpecial_of_special hw (by omega), State.nextWord_lane, State.setLane_same]
  · rw [exec_postSummary hl, State.postOp, State.onSpecial_of_special hw (by omega)]
    rfl
  case ctu =>
    refine ⟨_, exec_nextCtu hl l, ?_⟩
    obtain ⟨v, g, n, h⟩ := s.advanceCtu_lane l.val
    rw [State.nextCtuOp, State.onSpecial_of_special hw (by omega), State.nextWord_lane, h]
    exact ⟨rfl, rfl⟩
  · rw [exec_drainMw hl, State.drainOp, State.onSpecial_of_special hw (by omega), if_neg Bool.false_ne_true]
  · rw [exec_drainMw hl, State.drainOp, State.onSpecial_of_special hw (by omega), if_pos rfl]
    rfl

end Sys2Proof.Machine
end

section
/-! SUPPORT. Micro-traps (R111 to R113): the pending cause that is served, and the frame that TRAP_RETURN restores. -/

namespace Sys2Proof.Machine

open Sys2Proof

/-! ### A cause arises (R111, R113) -/

theorem setBit_zero (c : Fin 4) : setBit 0 c.val = 2 ^ c.val := by revert c; decide

theorem find_only_bit (c : Fin 4) : (List.range 4).find? (fun i => tb (2 ^ c.val) i) = some c.val := by revert c; decide

theorem only_bit_cleared (c : Fin 4) : (if tb (2 ^ c.val) c.val then 2 ^ c.val - 2 ^ c.val else 2 ^ c.val) = 0 := by revert c; decide

/-- A cause of a lane that fetches; NEIGHBOUR only in a carriageway. -/
theorem State.trapOp_eq {s : State} {l c : Nat} (hf : (s.lane l).fetching = true) (hc : c = 2 → 1 < (s.lane l).cwSize) :
    s.trapOp l c =
      if (s.lane l).atomic then
        if c = 1 then s.sliceStall l
        else if c = 0 then s.setLane l { s.lane l with
          memStall := s.readPending l, trapDeferred := satAdd (s.lane l).trapDeferred 1 0xFFFF }
        else if tb (s.lane l).trapPending c then s
        else s.setLane l { s.lane l with
          trapPending := setBit (s.lane l).trapPending c, trapDeferred := satAdd (s.lane l).trapDeferred 1 0xFFFF }
      else (s.setLane l { s.lane l with trapPending := setBit (s.lane l).trapPending c }).servePending l false := by
  have hgo : (!(s.lane l).fetching || (decide (c = 2) && decide ((s.lane l).cwSize ≤ 1))) = false := by
    by_cases h : c = 2
    · simp [hf, h, hc h]
    · simp [hf, h]
  unfold State.trapOp
  dsimp only
  rw [hgo, if_neg Bool.false_ne_true]

/-- NEIGHBOUR on a lane that stands alone. -/
theorem State.trapOp_alone {s : State} {l : Nat} (hw : (s.lane l).cwSize ≤ 1) : s.trapOp l 2 = s := by
  simp [State.trapOp, hw]

/-- The only pending cause is taken unless a handler of its priority or above runs. -/
theorem State.servePending_only {s : State} {l : Nat} {c : Fin 4} (hp : (s.lane l).trapPending = 2 ^ c.val) (boundary : Bool) :
    s.servePending l boundary =
      if (s.lane l).busyTrap c.val || (s.lane l).atomic || decide (4 ≤ (s.lane l).frames.length) then s else s.takeTrap l c.val boundary := by
  unfold State.servePending
  dsimp only
  rw [hp, find_only_bit]

theorem State.servePending_empty {s : State} {l : Nat} (hp : (s.lane l).trapPending = 0) (boundary : Bool) : s.servePending l boundary = s := by
  have hnone : (List.range 4).find? (fun i => tb 0 i) = none := by decide
  unfold State.servePending
  dsimp only
  rw [hp, hnone]

section Cause

variable {s : State} {l : Nat} {c : Fin 4} (hf : (s.lane l).fetching = true) (hc : c.val = 2 → 1 < (s.lane l).cwSize)
  (ha : (s.lane l).atomic = false) (hp : (s.lane l).trapPending = 0)
include hf hc ha hp

/-- Outside an atomic region the cause is pending, and is served at once. -/
theorem State.trapOp_serves : s.trapOp l c.val =
    if (s.lane l).busyTrap c.val || decide (4 ≤ (s.lane l).frames.length) then s.setLane l { s.lane l with trapPending := 2 ^ c.val }
    else (s.setLane l { s.lane l with trapPending := 2 ^ c.val }).takeTrap l c.val false := by
  have hlane := State.setLane_same s l { s.lane l with trapPending := 2 ^ c.val }
  rw [State.trapOp_eq hf hc, ha, if_neg Bool.false_ne_true, hp, setBit_zero, State.servePending_only (c := c) (by rw [hlane]), hlane]
  have hfree : ((s.lane l).busyTrap c.val || (s.lane l).atomic || decide (4 ≤ (s.lane l).frames.length))
      = ((s.lane l).busyTrap c.val || decide (4 ≤ (s.lane l).frames.length)) := by
    rw [ha, Bool.or_false]
  exact if_congr (by rw [← hfree]; rfl) rfl rfl

end Cause

/-! ### TRAP_RETURN (R112) -/

theorem tb_sub_bit {v i : Nat} (h : tb v i = true) : tb (v - 2 ^ i) i = false := by
  have hdiv := Nat.sub_mul_div v (2 ^ i) 1
  rw [Nat.mul_one] at hdiv
  simp only [tb, fld, Nat.pow_one, beq_iff_eq, beq_eq_false_iff_ne] at h ⊢
  omega

/-- The lane with its newest frame `f` restored and the frames `r` left. -/
def Lane.returned (x : Lane) (f : TrapFrame) (r : List TrapFrame) : Lane :=
  { x with frames := r, upc := f.upc, rep := if f.rep = 0 then none else some f.rep,
           loop0 := f.loop0, loop1 := f.loop1, latches := f.latches,
           stack := x.stack.drop (x.stack.length - f.sp),
           trapActive := if tb x.trapActive f.cause then x.trapActive - 2 ^ f.cause else x.trapActive,
           ms := if !r.isEmpty then .trap else if f.boundary then .idle else .run }

theorem Lane.returned_inactive (x : Lane) (f : TrapFrame) (r : List TrapFrame) : tb (x.returned f r).trapActive f.cause = false := by
  unfold Lane.returned
  dsimp only
  split
  next h => exact tb_sub_bit h
  next h => simpa using h

theorem Lane.returned_runs (x : Lane) (f : TrapFrame) (r : List TrapFrame) : (x.returned f r).ms ≠ .halted := by
  unfold Lane.returned
  dsimp only
  repeat' split
  all_goals decide

/-- A good nanoword issued again works its stages; what it counts, its row and the counters hold. -/
theorem State.reissue_lane {s : State} {l i : Nat} (hp : nanoSyndrome (Tbl.get 0 (s.lane l).nano i) = 0) :
    ∃ u o, (s.reissue l i).lane l = { s.lane l with
      stages := stagesOf (s.lane l).stages (Tbl.get 0 (s.lane l).nano i), lastNano := some i, run := u, pmcOvf := o } := by
  unfold State.reissue
  dsimp only
  rw [if_neg (not_not_intro hp)]
  split
  · rw [State.setLane_same]
    exact ⟨_, _, rfl⟩
  · rw [State.setLane_same]
    obtain ⟨o, ho⟩ := State.pmcEvent_lane (State.setLane (s.setLane l _) l _) l 0x011
    rw [ho, State.setLane_same]
    exact ⟨_, o, rfl⟩

/-- The frame restored, with the nanoword issued again that it names. -/
def State.restored (s : State) (l : Nat) (f : TrapFrame) (r : List TrapFrame) : State :=
  match f.nano with
  | some i => (s.setLane l ((s.lane l).returned f r)).reissue l i
  | none => s.setLane l ((s.lane l).returned f r)

theorem State.trapRet_eq {s : State} {l v : Nat} {f : TrapFrame} {r : List TrapFrame} (hw : s.special l 1 = some v)
    (hfr : (s.lane l).frames = f :: r) :
    s.trapRet l = if ((s.restored l f r).lane l).ms = .halted then s.restored l f r else (s.restored l f r).servePending l f.boundary := by
  rw [State.trapRet, State.onSpecial_of_special hw (by omega)]
  dsimp only
  rw [hfr]
  rfl

theorem State.restored_lane {s : State} {l : Nat} {f : TrapFrame} (r : List TrapFrame)
    (hn : ∀ i, f.nano = some i → nanoSyndrome (Tbl.get 0 (s.lane l).nano i) = 0) :
    ∃ g n u o, (s.restored l f r).lane l = { (s.lane l).returned f r with stages := g, lastNano := n, run := u, pmcOvf := o } ∧
      ∀ i, f.nano = some i → g = stagesOf (s.lane l).stages (Tbl.get 0 (s.lane l).nano i) := by
  have hlane := State.setLane_same s l ((s.lane l).returned f r)
  unfold State.restored
  split
  next i hi =>
    obtain ⟨u, o, h⟩ := State.reissue_lane (s := s.setLane l ((s.lane l).returned f r)) (l := l) (i := i)
      (by rw [hlane]; exact hn i hi)
    rw [hlane] at h
    refine ⟨_, _, u, o, h, fun k hk => ?_⟩
    cases Option.some.inj (hi.symm.trans hk)
    rfl
  next hi => exact ⟨_, _, _, _, hlane, fun i h => absurd (hi.symm.trans h) nofun⟩

/-- Nothing pends that the return would serve (R112). -/
theorem State.trapRet_restored {s : State} {l v : Nat} {f : TrapFrame} {r : List TrapFrame} (hw : s.special l 1 = some v)
    (hfr : (s.lane l).frames = f :: r) (hp : (s.lane l).trapPending = 0)
    (hn : ∀ i, f.nano = some i → nanoSyndrome (Tbl.get 0 (s.lane l).nano i) = 0) : s.trapRet l = s.restored l f r := by
  obtain ⟨g, n, u, o, h, -⟩ := State.restored_lane r hn
  have hms : ((s.restored l f r).lane l).ms ≠ .halted := by
    rw [h]
    exact (s.lane l).returned_runs f r
  have hpt : ((s.restored l f r).lane l).trapPending = 0 := by
    rw [h]
    exact hp
  rw [State.trapRet_eq hw hfr, if_neg hms, State.servePending_empty hpt]

section Commands

variable {s : State} (hl : s.live = true) (l : LaneId)
include hl

theorem exec_microTrap (c : Fin 4) : exec (.microTrap l c) s = .next (s.after (s.trapOp l.val c.val)) := by
  show execMicroTrap l c s = _
  exact act_of hl _ s

theorem exec_trapReturn : exec (.trapReturn l) s = .next (s.after (s.trapRet l.val)) := by
  show execTrapReturn l s = _
  exact act_of hl _ s

end Commands

/-- Settles O12: a cause outside an atomic region is served or waits, inside one it stalls or is deferred, and TRAP_RETURN restores its frame. -/
theorem microTrapsAnswer : Obligations.MicroTrapsAnswer := by
  unfold Obligations.MicroTrapsAnswer
  intro l c s hl hf x
  refine ⟨fun h2 hw => ?_, fun hc => ⟨fun ha hp hb => ?_, fun ha hp hb hn => ?taken, fun ha h0 => ?_, fun ha h1 => ?_, fun ha h2 hp => ?_,
    fun ha h2 hp => ?_⟩, fun v f r hw hfr hp hn => ?ret⟩
  · rw [exec_microTrap hl, h2, State.trapOp_alone hw]
  · have hbusy : ((s.lane l.val).busyTrap c.val || decide (4 ≤ (s.lane l.val).frames.length)) = true := by
      simpa using hb
    rw [exec_microTrap hl, State.trapOp_serves hf hc ha hp, if_pos hbusy]
  case taken =>
    refine ⟨_, exec_microTrap hl l c, ?_⟩
    have hfree : ¬ ((s.lane l.val).busyTrap c.val || decide (4 ≤ (s.lane l.val).frames.length)) = true := by
      simpa using ⟨hb, hn⟩
    obtain ⟨o, a, h⟩ := State.takeTrap_lane (s.setLane l.val { s.lane l.val with trapPending := 2 ^ c.val }) l.val c.val false
    rw [State.trapOp_serves hf hc ha hp, if_neg hfree, h, State.setLane_same]
    exact ⟨rfl, rfl, tb_setBit _ _, only_bit_cleared c, rfl⟩
  · rw [exec_microTrap hl, State.trapOp_eq hf hc, if_pos ha, h0]
    rfl
  · rw [exec_microTrap hl, State.trapOp_eq hf hc, if_pos ha, if_pos h1]
  · rw [exec_microTrap hl, State.trapOp_eq hf hc, if_pos ha, if_neg (by omega), if_neg (by omega), hp, if_neg Bool.false_ne_true, setBit, hp,
      if_neg Bool.false_ne_true]
  · rw [exec_microTrap hl, State.trapOp_eq hf hc, if_pos ha, if_neg (by omega), if_neg (by omega), hp, if_pos rfl]
  case ret =>
    refine ⟨_, exec_trapReturn hl l, ?_⟩
    obtain ⟨g, n, u, o, h, hg⟩ := State.restored_lane (s := s) (l := l.val) r hn
    rw [State.trapRet_restored hw hfr hp hn, h]
    refine ⟨rfl, rfl, rfl, rfl, rfl, rfl, hg, ?_, (s.lane l.val).returned_inactive f r⟩
    show (if !r.isEmpty then MsState.trap else if f.boundary then .idle else .run) = _
    cases r <;> rfl

end Sys2Proof.Machine
end

section
/-! SUPPORT. A port's link (R310 to R313): what synchronisation, a lasting loss and the PHY's control word write of the port. -/

namespace Sys2Proof.Machine

open Sys2Proof

/-! ### A port that is no longer UP (R282, R310) -/

theorem State.toPhase_not_up {s : State} {p : Nat} (h : (s.port p).ph ≠ .up) (ph : LinkPh) :
    s.toPhase p ph = s.setPort p { s.port p with ph := ph, lossAt := none } := by
  unfold State.toPhase State.leaveUp
  rw [if_neg h]

theorem State.toPhase_lossAt (s : State) (p : Nat) (ph : LinkPh) : ((s.toPhase p ph).port p).lossAt = none := by
  unfold State.toPhase
  dsimp only
  rw [State.setPort_same]

/-- The frame in transmission of a port that is flushed is aborted. -/
theorem State.flushDest_tx (s : State) {d : Nat} (hd : d < 256) : ((s.flushDest d).port d).tx = none := by
  unfold State.flushDest
  dsimp only
  generalize List.foldl _ _ (List.range 8) = w
  rw [if_pos hd]
  split
  next t _ => exact congrArg Port.tx (w.txAborted_port d t).2
  next h => exact h

theorem State.leaveUp_idle {s : State} {p : Nat} (h : (s.port p).ph = .up) (hp : p < 256) :
    ((s.leaveUp p).port p).tx = none ∧ ((s.leaveUp p).port p).pauses = [] := by
  rw [State.leaveUp_of_up h, State.port_of_prt (State.event_prt ..), State.port_of_prt (State.bumpU_prt ..)]
  refine ⟨(s.portDropped p).flushDest_tx hp, ?_⟩
  obtain ⟨-, x, hx⟩ := (s.portDropped p).flushDest_port p
  refine (congrArg Port.pauses hx).trans ?_
  rw [State.portDropped, State.setPort_same]

theorem State.toPhase_idle {s : State} {p : Nat} (h : (s.port p).ph = .up) (hp : p < 256) (ph : LinkPh) :
    ((s.toPhase p ph).port p).tx = none ∧ ((s.toPhase p ph).port p).pauses = [] := by
  unfold State.toPhase
  dsimp only
  rw [State.setPort_same]
  exact State.leaveUp_idle h hp

/-! ### The operations of a link (R311 to R313) -/

theorem State.signalDetect_trains {s : State} {p : Nat} (he : s.portEn p = true) (hm : (s.port p).mapped = false) (ho : s.portOff p = false)
    (hd : (s.port p).ph = .down) : s.signalDetect p = s.setPort p { s.port p with ph := .training, lossAt := none } := by
  rw [State.signalDetect, he, hm, ho, hd]
  exact State.toPhase_not_up (by rw [hd]; decide) _

theorem State.signalDetect_ignored {s : State} {p : Nat}
    (h : s.portEn p = false ∨ (s.port p).mapped = true ∨ s.portOff p = true ∨ (s.port p).ph ≠ .down) : s.signalDetect p = s := by
  refine if_neg ?_
  rcases h with h | h | h | h <;> simp [h]

theorem State.pcsSync_negotiating {s : State} {p : Nat} (h : (s.port p).ph = .training ∨ (s.port p).ph = .retrain) (n : NegResult) :
    s.pcsSync p n = if s.negBad p n then s.setPort p { s.port p with negFail := true }
      else s.setPort p { s.port p with
        ph := .hold, holdDue := s.ns + 10 * ms, negFail := false,
        pauseOk := (if s.portMode p = 1 ∧ s.portAn p then n.pauseOk else true), lossAt := none } := by
  unfold State.pcsSync
  rcases h with h | h <;> simp only [h]

theorem State.pcsSync_again {s : State} {p : Nat} (h : (s.port p).ph = .up ∨ (s.port p).ph = .hold) (n : NegResult) :
    s.pcsSync p n = s.setPort p { s.port p with lossAt := none } := by
  unfold State.pcsSync
  rcases h with h | h <;> simp only [h]

section Sgmii

variable {s : State} {p : Nat} (hm : s.portMode p = 0) (hx : (s.port p).mapped = false) (he : s.portEn p = true)
include hm hx he

/-- The PHY of a port that SGMII serves is heard (R312). -/
theorem State.sgmii_heard : ¬ (s.portMode p ≠ 0 ∨ (s.port p).mapped = true ∨ s.portEn p = false) := by simp [hm, hx, he]

theorem State.sgmii_half (hu : (s.port p).ph ≠ .up) (hh : (s.port p).ph ≠ .hold) (up : Bool) (speed : Nat) :
    s.sgmii p up speed false = s.setPort p { s.port p with negFail := true } := by
  rw [State.sgmii, if_neg (State.sgmii_heard hm hx he), if_pos (Bool.not_false)]
  dsimp only
  rw [if_neg (not_or.2 ⟨hu, hh⟩)]

theorem State.sgmii_down (h : (s.port p).ph = .up ∨ (s.port p).ph = .hold) (speed : Nat) :
    s.sgmii p false speed true = s.toPhase p .training := by
  rw [State.sgmii, if_neg (State.sgmii_heard hm hx he), if_neg (by decide), if_pos (Bool.not_false), if_pos h]

theorem State.sgmii_training (ht : (s.port p).ph = .training) (speed : Nat) :
    (s.sgmii p true speed true).port p =
      { s.port p with negFail := false, speed := speed, pauseOk := true, ph := .hold, holdDue := s.ns + 10 * ms } := by
  have hport := s.setPort_same p { s.port p with negFail := false, speed := speed, pauseOk := true }
  rw [State.sgmii, if_neg (State.sgmii_heard hm hx he), if_neg (by decide), if_neg (by decide)]
  dsimp only
  rw [hport, if_pos (.inl ht), State.setPort_same]
  rfl

end Sgmii

/-! ### The commands of a live module -/

section Commands

variable {s : State} (hl : s.live = true) (p : PortId)
include hl

theorem exec_signalDetect (hb : Tbl.get false s.plt.blockOn (p.val / 8) = true) :
    exec (.signalDetect p) s = .next (s.after (s.signalDetect p.val)) := by
  show execSignalDetect p s = _
  exact act_of (by rw [hl, hb]; rfl) _ s

theorem exec_pcsSync (hb : Tbl.get false s.plt.blockOn (p.val / 8) = true) (n : NegResult) :
    exec (.pcsSync p n) s = .next (s.after (s.pcsSync p.val n)) := by
  show execPcsSync p n s = _
  exact act_of (by rw [hl, hb]; rfl) _ s

theorem exec_linkHoldExpire : exec (.linkHoldExpire p) s = .next (s.after (s.holdExpireLink p.val)) := by
  show execLinkHoldExpire p s = _
  exact act_of hl _ s

theorem exec_pcsSyncLoss : exec (.pcsSyncLoss p) s = .next (s.after (s.syncLoss p.val)) := by
  show execPcsSyncLoss p s = _
  exact act_of hl _ s

theorem exec_linkLossTimeout : exec (.linkLossTimeout p) s = .next (s.after (s.lossTimeout p.val)) := by
  show execLinkLossTimeout p s = _
  exact act_of hl _ s

theorem exec_sgmiiControlWordChange (up : Bool) (speed : BitVec 2) (full : Bool) :
    exec (.sgmiiControlWordChange p up speed full) s = .next (s.after (s.sgmii p.val up speed.toNat full)) := by
  show execSgmiiControlWordChange p up speed full s = _
  exact act_of hl _ s

end Commands

/-- Settles O28: each command is its operation, by the port's phase and the times that run. -/
theorem linkStateAnswers : Obligations.LinkStateAnswers := by
  unfold Obligations.LinkStateAnswers
  refine ⟨fun p s hl hb => ⟨fun he hm ho hd => ⟨_, exec_signalDetect hl p hb, ?_⟩, fun h => ?_⟩,
    fun p n s hl hb => ⟨fun h hn => ?_, fun h hn => ?_, fun h => ?_⟩,
    fun p s hl => ⟨fun h hd => ?_, fun h => ?_, fun h => ?_, fun t0 h hd => ⟨_, exec_linkLossTimeout hl p, ?lost⟩, fun t0 h hd => ?_⟩,
    fun p speed s hl hm hx he => ⟨fun up hu hh => ?_, fun ht => ⟨_, exec_sgmiiControlWordChange hl p _ _ _, ?_⟩,
      fun h => ⟨_, exec_sgmiiControlWordChange hl p _ _ _, ?_⟩⟩⟩
  · rw [State.signalDetect_trains he hm ho hd, State.setPort_same]
  · rw [exec_signalDetect hl p hb, State.signalDetect_ignored h]
  · rw [exec_pcsSync hl p hb, State.pcsSync_negotiating h, if_pos hn]
  · rw [exec_pcsSync hl p hb, State.pcsSync_negotiating h, hn, if_neg Bool.false_ne_true]
  · rw [exec_pcsSync hl p hb, State.pcsSync_again h]
  · rw [exec_linkHoldExpire hl, State.holdExpireLink, if_pos (by simp [h, hd])]
  · have hno : ¬ (decide ((s.port p.val).ph = .hold) && decide ((s.port p.val).holdDue ≤ s.ns)) = true := by
      simpa [imp_iff_not_or] using h
    rw [exec_linkHoldExpire hl, State.holdExpireLink, if_neg hno]
  · rw [exec_pcsSyncLoss hl, State.syncLoss, if_pos h]
  case lost =>
    have hop : s.lossTimeout p.val = s.toPhase p.val .training := by
      simp only [State.lossTimeout, h, hd, if_true]
    rw [hop]
    exact ⟨(s.toPhase_port p.val .training).2.1, s.toPhase_lossAt p.val .training, fun hu => State.toPhase_idle hu p.isLt .training⟩
  · have hop : s.lossTimeout p.val = s := by
      simp only [State.lossTimeout, h, Nat.not_le.2 hd, if_false]
    rw [exec_linkLossTimeout hl, hop]
  · rw [exec_sgmiiControlWordChange hl, State.sgmii_half hm hx he hu hh]
  · exact State.sgmii_training hm hx he ht _
  · rw [State.sgmii_down hm hx he h]
    exact (s.toPhase_port p.val .training).2.1

end Sys2Proof.Machine
end

section
/-! SUPPORT. Bring-up of an Imnunis link (R327, R329, R331): the credits and the digest of a link that comes UP, and what a link that goes down
keeps; the time that a module follows (R333). -/

namespace Sys2Proof.Machine

open Sys2Proof

/-! ### The credits of a link that comes UP (R45, R330) -/

theorem setAt_getAt {α : Type} (d : α) (l : List α) (i : Nat) : setAt l i (getAt d l i) = l := by
  unfold setAt getAt
  split
  next h => rw [List.append_nil, List.take_of_length_le (List.drop_eq_nil_iff.1 h)]
  next a r h => rw [h, List.headD_cons, ← h, List.take_append_drop]

/-- Link `l` of the state is `y`, and the board is that of `s`. -/
def State.linkIs (s : State) (l : Nat) (y : CasLink) (t : State) : Prop := t.link l = y ∧ t.plt = s.plt

theorem State.linkIs_initChannel {s t : State} {l : Nat} {y : CasLink} {c : DepChan} (hy : y.credits = [16, 64, 64, 256])
    (hc : ofLink l c = true) (h : s.linkIs l y t) : s.linkIs l y (t.initChannel c) := by
  obtain ⟨hl, hp⟩ := h
  cases c with
  | cells => exact absurd hc Bool.false_ne_true
  | queue => exact absurd hc Bool.false_ne_true
  | link k vc =>
    cases of_decide_eq_true hc
    refine ⟨(State.setLink_same ..).trans ?_, hp⟩
    rw [hl, ← hy, setAt_getAt, hy]
    cases y
    cases hy
    rfl

/-- The channels of the link that are initialised hold the credits that the link has at its entry. -/
theorem State.linkIs_startCredits {s : State} {l : Nat} (h : (s.link l).credits = [16, 64, 64, 256]) :
    s.linkIs l (s.link l) (s.startCredits (ofLink l)) := by
  unfold State.startCredits
  dsimp only
  generalize hn : List.filter _ (depOrder ..) = order
  have hfold := List.foldlRecOn (motive := s.linkIs l (s.link l)) order (fun t n => t.initChannel (Config.depChan n)) (b := s) ⟨rfl, rfl⟩
    fun t ht n hmem => State.linkIs_initChannel h (by rw [← hn] at hmem; exact (List.mem_filter.1 hmem).2) ht
  exact hfold

theorem State.resend_plt (s : State) (l : Nat) : (s.resend l).plt = s.plt := by
  have hfold : ∀ (x : List ReplayFrame) (e : Nat), (x.foldl (fun s f => s.emit (.linkFrame l f.vc false f.seq e 0 0 f.payload)) s).plt = s.plt :=
    fun x e => foldl_keeps State.plt (fun s f => s.emit (.linkFrame l f.vc false f.seq e 0 0 f.payload)) (fun _ _ => rfl) x s
  unfold State.resend
  dsimp only
  rw [State.setLink_plt, hfold]

/-! ### A payload given to a link that is UP (R328, R330) -/

section Send

variable {s : State} {l : Nat} {b : Bytes} (hu : (s.link l).ph = .up) (hq : (s.link l).txq = []) (hc : 0 < getAt 0 (s.link l).credits 0)
include hu hq hc

/-- The only frame that waits is sent, or stays while the replay buffer is full. -/
theorem State.linkSend_one : ((s.linkSend l 0 b).link l).ph = .up ∧ ((s.link l).replay.length < 1024 →
    ((s.linkSend l 0 b).link l).credits = setAt (s.link l).credits 0 (getAt 0 (s.link l).credits 0 - 1) ∧
    ((s.linkSend l 0 b).link l).nextSeq = ((s.link l).nextSeq + 1) % 4096) := by
  have hleast : leastBy (fun e : Nat × Bytes => e.1) ([(0, b)].filter (fun e => decide (0 < getAt 0 (s.link l).credits e.1) &&
      !((s.link l).mediaClosed && decide (e.1 = 3)))) = some (0, b) := by
    simp [hc, leastBy]
  unfold State.linkSend
  dsimp only
  rw [hq]
  show ((State.linkPump _ l (0 + 1)).link l).ph = .up ∧ (_ → ((State.linkPump _ l (0 + 1)).link l).credits = _ ∧
    ((State.linkPump _ l (0 + 1)).link l).nextSeq = _)
  unfold State.linkPump
  dsimp only
  rw [State.setLink_same]
  simp only [List.nil_append, hleast, hu, ne_eq, not_true_eq_false, false_or]
  split
  next hfull => exact ⟨by rw [State.setLink_same], fun h => absurd h (Nat.not_lt.2 hfull)⟩
  next hroom =>
    generalize hw : State.setLink (State.setLink s l _) l _ = w
    have hlink := congrArg (fun t => State.link t l) hw
    rw [State.setLink_same] at hlink
    have hsent := w.credited_link l
    rw [← hlink] at hsent
    exact ⟨congrArg CasLink.ph hsent, fun _ => ⟨congrArg CasLink.credits hsent, congrArg CasLink.nextSeq hsent⟩⟩

end Send

/-- The link as it enters UP (R330). -/
def CasLink.entered (x : CasLink) : CasLink :=
  { x with ph := .up, step := 7, retrainDue := none, retryDue := none, credits := [16, 64, 64, 256], returns := [0, 0, 0, 0], owed := 0 }

/-- The link in UP, with its frames resent, before any digest. -/
def State.entered (s : State) (l : Nat) : State := ((s.setLink l (s.link l).entered).startCredits (ofLink l)).resend l

theorem State.entered_link (s : State) (l : Nat) : ∃ r, r.length = (s.link l).replay.length ∧
    s.linkIs l { (s.link l).entered with replay := r } (s.entered l) := by
  obtain ⟨hl, hp⟩ := State.linkIs_startCredits (s := s.setLink l (s.link l).entered) (l := l) (by rw [State.setLink_same]; rfl)
  rw [State.setLink_same] at hl
  have hsent := State.resend_link ((s.setLink l (s.link l).entered).startCredits (ofLink l)) l
  rw [hl] at hsent
  exact ⟨_, List.length_map .., hsent, (State.resend_plt ..).trans hp⟩

/-- With nothing waiting, a link enters UP and sends its digest if it leads to module 0 (R46). -/
theorem State.linkUp_eq {s : State} {l : Nat} (hq : (s.link l).txq = []) : s.linkUp l =
    if (s.entered l).plt.cascId ≠ 0 ∧ peerOf (s.entered l).plt.cascId l = 0
    then (s.entered l).linkSend l 0 (Config.meshOut (.digest (s.entered l).way.digest)) else s.entered l := by
  have hnone : (s.link l).txq.length = 0 := by rw [hq]; rfl
  unfold State.linkUp
  dsimp only
  rw [hnone]
  rfl

theorem State.linkUp_link {s : State} {l : Nat} (hq : (s.link l).txq = []) : ((s.linkUp l).link l).ph = .up ∧
    ((s.plt.cascId = 0 ∨ peerOf s.plt.cascId l ≠ 0) → ((s.linkUp l).link l).credits = [16, 64, 64, 256]) ∧
    (s.plt.cascId ≠ 0 → peerOf s.plt.cascId l = 0 → (s.link l).replay.length < 1024 →
      ((s.linkUp l).link l).credits = [15, 64, 64, 256] ∧ ((s.linkUp l).link l).nextSeq = ((s.link l).nextSeq + 1) % 4096) := by
  obtain ⟨r, hr, hl, hp⟩ := s.entered_link l
  rw [State.linkUp_eq hq, hp]
  by_cases hz : s.plt.cascId ≠ 0 ∧ peerOf s.plt.cascId l = 0
  · obtain ⟨hu, hsent⟩ := State.linkSend_one (s := s.entered l) (l := l) (b := Config.meshOut (.digest (s.entered l).way.digest))
      (by rw [hl]; rfl) (by rw [hl]; exact hq) (by rw [hl]; exact Nat.zero_lt_succ 15)
    rw [if_pos hz]
    refine ⟨hu, fun h => absurd h (not_or.2 ⟨hz.1, not_not_intro hz.2⟩), fun _ _ hroom => ?_⟩
    obtain ⟨hc, hn⟩ := hsent (by rw [hl]; exact hr.trans_lt hroom)
    rw [hc, hn, hl]
    exact ⟨rfl, rfl⟩
  · rw [if_neg hz, hl]
    exact ⟨rfl, fun _ => rfl, fun h0 h1 => absurd ⟨h0, h1⟩ hz⟩

/-! ### A link that goes down (R335), and the time followed (R333) -/

theorem State.flushDest_cas (s : State) {d : Nat} (hd : 256 ≤ d) : (s.flushDest d).cas = s.cas := by
  rcases s.flushDest_cases d with h | ⟨hlt, -⟩
  · rw [h, s.copyOnly_waitingDropped d]
  · omega

theorem State.linkDown_link (s : State) (l : Nat) : (s.linkDown l).link l =
    { s.link l with ph := .down, step := 0, replay := [], txq := [], rxq := [], frames := [], retrainDue := none, inUse := 0 } := by
  rw [State.linkDown, State.link, State.event_cas, State.flushDest_cas _ (by omega)]
  exact State.setLink_same ..

theorem State.timeLost_link (s : State) (l : Nat) : s.timeLost.link l = s.link l := by
  unfold State.timeLost
  split
  · rw [State.link, State.event_cas]
    rfl
  · rfl

theorem clampI_bounds {lo hi : Int} (h : lo ≤ hi) (x : Int) : lo ≤ clampI lo hi x ∧ clampI lo hi x ≤ hi := by
  unfold clampI
  omega

/-- A module whose direct link to module 0 is UP follows it over that link. -/
theorem State.timeExchange_direct {s : State} (h0 : s.plt.cascId ≠ 0) (h4 : s.plt.cascId < 4) (hu : (s.link (3 - s.plt.cascId)).ph = .up)
    (hh : s.cas.holdover = false) (off : Int) :
    s.timeExchange s.timeLink off =
      { s with cas := { s.cas with locked := true, holdover := false, path := 3 - s.plt.cascId, offset := off },
               clk := { s.clk with slew := clampI (-250000) 250000 (Config.servo off) } } := by
  have hlink : s.timeLink = 3 - s.plt.cascId := by
    have hmod : (3 - s.plt.cascId) % 4 = 3 - s.plt.cascId := Nat.mod_eq_of_lt (by omega)
    rw [State.timeLink, hmod]
    exact if_pos hu
  have hpeer : peerOf s.plt.cascId (3 - s.plt.cascId) = 0 := by
    unfold peerOf
    omega
  rw [hlink, State.timeExchange, if_neg h0, if_neg (by simp [hu]), hpeer]
  simp [hh]

section Commands

variable {s : State} (hl : s.live = true) (l : LinkId)
include hl

theorem exec_casTrainStepComplete (r : TrainResult) : exec (.casTrainStepComplete l r) s = .next (s.after (s.trainStep l.val r)) := by
  show execCasTrainStepComplete l r s = _
  exact act_of hl _ s

theorem exec_casPeerRetry : exec (.casPeerRetry l) s = .next (s.after (s.peerRetry l.val)) := by
  show execCasPeerRetry l s = _
  exact act_of hl _ s

theorem exec_casRetrainTimeout : exec (.casRetrainTimeout l) s = .next (s.after (s.casRetrainTimeout l.val)) := by
  show execCasRetrainTimeout l s = _
  exact act_of hl _ s

theorem exec_casTimeExchange (off : Int) : exec (.casTimeExchange off) s = .next (s.after (s.timeExchange s.timeLink off)) := by
  show execCasTimeExchange off s = _
  exact act_of hl _ s

end Commands

/-! ### A training step (R327, R331) -/

section Train

variable {s : State} {l : Nat} {r : TrainResult} (ht : (s.link l).ph = .training ∨ (s.link l).ph = .retrain)
include ht

/-- Lanes that failed are excluded; a link left with none stops. -/
theorem State.trainStep_lanes (h3 : (s.link l).step ≤ 3) (hb : r.lanesBad.toNat ≠ 0) :
    s.trainStep l r =
      let e := s.excludeLanes l r.lanesBad.toNat
      if (e.link l).inUse = 0 then e.setLink l { e.link l with ph := if (e.link l).out = 15 then .failed else .down, step := 0 }
      else e.setLink l { e.link l with step := 1 } := by
  rw [State.trainStep, if_neg (by simpa [imp_iff_not_or] using ht), if_pos ⟨h3, hb⟩]

/-- A step whose lanes are good. -/
theorem State.trainStep_good (hb : 3 < (s.link l).step ∨ r.lanesBad.toNat = 0) :
    s.trainStep l r =
      if !r.ok then s.setLink l { s.link l with step := 1 }
      else if (s.link l).step = 4 then
        if r.peerId.toNat ≠ peerOf s.plt.cascId l ∨ r.peerCasc.toNat ≠ s.cas.size then
          (s.setLink l { s.link l with ph := .down, step := 0, miswire := true, peer := r.peerId.toNat }).raise fCasMiswire l r.peerId.toNat
        else s.setLink l { s.link l with step := 5, peer := r.peerId.toNat }
      else if (s.link l).step = 5 then (s.digestOp l r).setLink l { (s.digestOp l r).link l with step := 6 }
      else if (s.link l).step = 6 then s.linkUp l
      else s.setLink l { s.link l with step := (s.link l).step + 1 } := by
  rw [State.trainStep, if_neg (by simpa [imp_iff_not_or] using ht), if_neg (by omega)]

end Train

theorem State.digestOp_alike {s : State} {r : TrainResult} (h : r.peerDigest = s.way.digest) (l : Nat) :
    s.digestOp l r = s.setLink l { s.link l with mediaClosed := false } := by
  simp [State.digestOp, State.digestCompare, h]

theorem State.peerRetry_trains {s : State} {l : Nat} (hr : s.running (linkKey l) = true) (hp : (s.link l).ph = .down ∨ (s.link l).ph = .training)
    (hm : (s.link l).miswire = false) (hd : ∀ t0 : Nat, (s.link l).retryDue = some t0 → t0 ≤ s.ns) : s.peerRetry l = s.linkTrain l := by
  rw [State.peerRetry, if_pos (by simpa [hr, hm] using hp)]
  split
  next t0 h => exact if_pos (hd t0 h)
  next => rfl

theorem State.linkTrain_eq {s : State} {l : Nat} (hp : (s.link l).ph ≠ .retrain) : s.linkTrain l =
    s.setLink l { s.link l with ph := .training, step := 1, inUse := 15 - (s.link l).out, retryDue := some (s.ns + 100 * ms) } := by
  unfold State.linkTrain
  dsimp only
  rw [if_neg hp]

/-- Settles O31: a training step by its number; a link that goes down loses its frames, and the time is that of the direct link. -/
theorem cascadeBringUpAnswers : Obligations.CascadeBringUpAnswers := by
  unfold Obligations.CascadeBringUpAnswers
  refine ⟨fun l r s hl ht => ?train, fun l s hl hr hp hm hd => ?retry, fun l t0 s hl hd hdue hu => ⟨_, exec_casRetrainTimeout hl l, ?down⟩,
    fun off s hl h0 h4 hu hh => ⟨_, exec_casTimeExchange hl off, ?time⟩⟩
  case train =>
    refine ⟨fun h3 hb => ⟨fun hn => ?_, fun hn => ⟨_, exec_casTrainStepComplete hl l r, ?_⟩⟩, fun hb hok => ?_, fun h1 h3 hb hok => ?_,
      fun h4 hok hw => ⟨_, exec_casTrainStepComplete hl l r, ?wrong⟩, fun h4 hok hi hc => ?_,
      fun h5 hok hd => ⟨_, exec_casTrainStepComplete hl l r, ?_⟩, fun h6 hok hq => ⟨_, exec_casTrainStepComplete hl l r, ?_⟩⟩
    · rw [exec_casTrainStepComplete hl, State.trainStep_lanes ht h3 hb]
      dsimp only
      rw [if_neg hn]
    · rw [State.trainStep_lanes ht h3 hb]
      dsimp only
      rw [if_pos hn, State.setLink_same]
    · rw [exec_casTrainStepComplete hl, State.trainStep_good ht hb, hok, if_pos (Bool.not_false)]
    · rw [exec_casTrainStepComplete hl, State.trainStep_good ht (.inr hb), hok, if_neg (by decide), if_neg (by omega), if_neg (by omega),
        if_neg (by omega)]
    case wrong =>
      rw [State.trainStep_good ht (.inl (by omega)), hok, if_neg (by decide), if_pos h4, peerOf, if_pos hw]
      refine ⟨?_, ?_, State.raise_sticky ..⟩ <;> rw [State.link, State.raise_cas] <;> exact congrArg _ (State.setLink_same ..)
    · rw [exec_casTrainStepComplete hl, State.trainStep_good ht (.inl (by omega)), hok, if_neg (by decide), if_pos h4, peerOf,
        if_neg (not_or.2 ⟨not_not_intro hi, not_not_intro hc⟩)]
    · rw [State.trainStep_good ht (.inl (by omega)), hok, if_neg (by decide), if_neg (by omega), if_pos h5, State.digestOp_alike hd,
        State.setLink_same, State.setLink_same]
    · rw [State.trainStep_good ht (.inl (by omega)), hok, if_neg (by decide), if_neg (by omega), if_neg (by omega), if_pos h6]
      exact State.linkUp_link hq
  case retry =>
    have hne : (s.link l.val).ph ≠ .retrain := by
      rcases hp with h | h <;> rw [h] <;> decide
    rw [exec_casPeerRetry hl, State.peerRetry_trains hr hp hm hd, State.linkTrain_eq hne]
  case down =>
    have hop : s.casRetrainTimeout l.val = (s.linkDown l.val).timeLost := by
      rw [State.casRetrainTimeout, hd]
      exact if_pos ⟨hdue, hu⟩
    rw [hop, State.timeLost_link, State.linkDown_link]
    exact ⟨rfl, rfl, rfl⟩
  case time =>
    obtain ⟨hlo, hhi⟩ := clampI_bounds (lo := -250000) (hi := 250000) (by decide) (Config.servo off)
    rw [State.timeExchange_direct h0 h4 hu hh]
    exact ⟨rfl, rfl, rfl, hlo, hhi, rfl⟩

end Sys2Proof.Machine
end

section
/-! SUPPORT. What a job and its buffers leave of a lane's service and of LANE_GOLDEN (R115, R116, R449): the pool manager, the decoder's
pictures, the rows of an input flow, the return of a job to its queue. -/

namespace Sys2Proof.Machine

open Sys2Proof

/-- What a lane's service decides of it. -/
def Lane.service (x : Lane) : Option LaneRun × MsState × List (Bool × Nat) × Bool × Bool × Bool :=
  (x.run, x.ms, x.record, x.quarantined, x.mapped, x.rebuild)

/-- The service of lane `l`, and the fault source of a golden copy. -/
def State.upkeep (s : State) (l : Nat) : (Option LaneRun × MsState × List (Bool × Nat) × Bool × Bool × Bool) × FltSrc :=
  ((s.lane l).service, s.fltSrc fLaneGolden)

theorem State.upkeep_of {t u : State} {l : Nat} (hl : u.lanes = t.lanes) (hf : u.flt.srcs = t.flt.srcs) : u.upkeep l = t.upkeep l := by
  simp only [State.upkeep, State.lane, State.fltSrc, hl, hf]

@[simp] theorem State.upkeep_ite (a b : State) (l : Nat) (c : Prop) [Decidable c] :
    (if c then a else b).upkeep l = if c then a.upkeep l else b.upkeep l := apply_ite (fun s => s.upkeep l) c a b

/-- A choice between an operation that keeps the lane and nothing. -/
theorem State.upkeep_if {a b : State} {l : Nat} {c : Prop} [Decidable c] (h : a.upkeep l = b.upkeep l) :
    (if c then a else b).upkeep l = b.upkeep l := by
  rw [State.upkeep_ite, h, ite_self]

@[simp] theorem State.upkeep_foldl {α : Type} (f : State → α → State) (l : Nat) (xs : List α) (t : State)
    (h : ∀ (u : State) (a : α), (f u a).upkeep l = u.upkeep l) : (xs.foldl f t).upkeep l = t.upkeep l :=
  foldl_keeps (fun s : State => s.upkeep l) f h xs t

section Updates

variable (t : State) (l : Nat)

@[simp] theorem State.upkeep_draw : (t.draw).upkeep l = t.upkeep l := State.upkeep_of rfl rfl
@[simp] theorem State.upkeep_emit (o : Output) : (t.emit o).upkeep l = t.upkeep l := State.upkeep_of rfl rfl
@[simp] theorem State.upkeep_bump (b n : Nat) : (t.bump b n).upkeep l = t.upkeep l := State.upkeep_of rfl rfl
@[simp] theorem State.upkeep_setCtx (r o : Nat) (b : Bytes) : (t.setCtx r o b).upkeep l = t.upkeep l := State.upkeep_of rfl rfl
@[simp] theorem State.upkeep_setCf (r o n v : Nat) : (t.setCf r o n v).upkeep l = t.upkeep l := State.upkeep_of rfl rfl
@[simp] theorem State.upkeep_incCf (r o n v : Nat) : (t.incCf r o n v).upkeep l = t.upkeep l := State.upkeep_of rfl rfl
@[simp] theorem State.upkeep_setEnc (r : Nat) (x : EncSt) : (t.setEnc r x).upkeep l = t.upkeep l := State.upkeep_of rfl rfl
@[simp] theorem State.upkeep_setDec (r : Nat) (x : DecSt) : (t.setDec r x).upkeep l = t.upkeep l := State.upkeep_of rfl rfl
@[simp] theorem State.upkeep_store (a : Nat) (b : Bytes) : (t.store a b).upkeep l = t.upkeep l := State.upkeep_of rfl rfl
@[simp] theorem State.upkeep_setBuf (k : Nat) (b : Buf) : (t.setBuf k b).upkeep l = t.upkeep l := State.upkeep_of rfl rfl
@[simp] theorem State.upkeep_setPool (p : Nat) (x : Pool) : (t.setPool p x).upkeep l = t.upkeep l := State.upkeep_of rfl rfl
@[simp] theorem State.upkeep_setFrame (h : W32) (f : FrameD) : (t.setFrame h f).upkeep l = t.upkeep l := State.upkeep_of rfl rfl
@[simp] theorem State.upkeep_bpm (x : BpmSt) : ({ t with bpm := x } : State).upkeep l = t.upkeep l := State.upkeep_of rfl rfl
@[simp] theorem State.upkeep_msc (x : MscSt) : ({ t with msc := x } : State).upkeep l = t.upkeep l := State.upkeep_of rfl rfl
@[simp] theorem State.upkeep_setDj (f : Nat) (x : DjQ) : (t.setDj f x).upkeep l = t.upkeep l := State.upkeep_of rfl rfl
@[simp] theorem State.upkeep_putJob (j : Job) : (t.putJob j).upkeep l = t.upkeep l := State.upkeep_of rfl rfl
@[simp] theorem State.upkeep_glb (x : GlbSt) : ({ t with glb := x } : State).upkeep l = t.upkeep l := State.upkeep_of rfl rfl
@[simp] theorem State.upkeep_setHealth (b : Nat) : (t.setHealth b).upkeep l = t.upkeep l := State.upkeep_of rfl rfl
@[simp] theorem State.upkeep_assertReplace : (t.assertReplace).upkeep l = t.upkeep l := State.upkeep_of rfl rfl
@[simp] theorem State.upkeep_logFault (a b c d e : Nat) : (t.logFault a b c d e).upkeep l = t.upkeep l := State.upkeep_of rfl rfl
@[simp] theorem State.upkeep_event (e : Ev) (c d : Nat) : (t.event e c d).upkeep l = t.upkeep l :=
  State.upkeep_of (State.event_lanes ..) (congrArg FltSt.srcs (State.event_flt ..))
theorem State.upkeep_of_evOnly {u : State} (h : t.evOnly u) : u.upkeep l = t.upkeep l := by
  unfold State.evOnly at h
  rw [h]
  rfl
@[simp] theorem State.upkeep_assertSrc (n a b c : Nat) : (t.assertSrc n a b c).upkeep l = t.upkeep l := State.upkeep_of_evOnly t l (by simp)
@[simp] theorem State.upkeep_deassertSrc (n : Nat) : (t.deassertSrc n).upkeep l = t.upkeep l := State.upkeep_of_evOnly t l (by simp)

end Updates

/-! ### Faults of other sources (R450, R451) -/

section Faults

variable (t : State) (l : Nat) {n : Nat} (hn : n ≠ fLaneGolden)
include hn

theorem State.upkeep_setFltSrc (f : FltSrc) : (t.setFltSrc n f).upkeep l = t.upkeep l := by
  rw [State.upkeep, State.setFltSrc_other _ _ _ _ hn.symm]
  rfl

theorem State.upkeep_react (unit cfg : Nat) : (t.react n unit cfg).upkeep l = t.upkeep l := by
  unfold State.react
  dsimp only
  rw [State.upkeep_if (State.upkeep_setFltSrc _ _ hn _), State.upkeep_if, State.upkeep_if] <;> rfl

theorem State.upkeep_raise (unit part : Nat) : (t.raise n unit part).upkeep l = t.upkeep l := by
  unfold State.raise State.raiseWith
  dsimp only
  cases fltEvent n unit <;> simp [State.upkeep_react _ _ hn, State.upkeep_setFltSrc _ _ hn]

theorem State.upkeep_decideFault (unit : Nat) (b : Bool) : (t.decideFault n unit b).upkeep l = t.upkeep l := by
  unfold State.decideFault
  cases b <;> simp [State.upkeep_react _ _ hn, State.upkeep_setFltSrc _ _ hn]

end Faults

/-! ### The pool manager (R342 to R350) -/

@[simp] theorem State.upkeep_thresholds (t : State) (l p : Nat) : (t.thresholds p).upkeep l = t.upkeep l := by
  simp [State.thresholds, State.poolLevels]

@[simp] theorem State.upkeep_bpmLogAdd (t : State) (l k o a : Nat) (h : W32) : (t.bpmLogAdd k o a h).upkeep l = t.upkeep l := by
  unfold State.bpmLogAdd
  simp

@[simp] theorem State.upkeep_doubleFree (t : State) (l o a : Nat) (h : W32) : (t.doubleFree o a h).upkeep l = t.upkeep l := by
  rw [State.doubleFree, State.upkeep_raise _ _ (by decide), State.upkeep_bump, State.upkeep_bpmLogAdd]

@[simp] theorem State.upkeep_wrongOwner (t : State) (l o a : Nat) (h : W32) : (t.wrongOwner o a h).upkeep l = t.upkeep l := by
  rw [State.wrongOwner, State.upkeep_raise _ _ (by decide), State.upkeep_bump, State.upkeep_bpmLogAdd]

@[simp] theorem State.upkeep_alloc (t : State) (l a p n : Nat) (b : Bool) : (t.alloc a p n b).1.upkeep l = t.upkeep l := by
  unfold State.alloc
  dsimp only
  split
  · simp
  · split <;> simp

@[simp] theorem State.upkeep_freeBuf (t : State) (l : Nat) (h : W32) : (t.freeBuf h).upkeep l = t.upkeep l := by
  simp [State.freeBuf]

@[simp] theorem State.upkeep_incRef (t : State) (l : Nat) (b : Bool) (h : W32) : (t.incRef b h).1.upkeep l = t.upkeep l := by
  unfold State.incRef
  dsimp only
  split <;> simp

@[simp] theorem State.upkeep_dropRef (t : State) (l : Nat) (h : W32) : (t.dropRef h).upkeep l = t.upkeep l := by
  simp [State.dropRef]

@[simp] theorem State.upkeep_decRef (t : State) (l a : Nat) (h : W32) : (t.decRef a h).upkeep l = t.upkeep l := by
  simp [State.decRef]

@[simp] theorem State.upkeep_freeRef (t : State) (l a : Nat) (h : W32) : (t.freeRef a h).upkeep l = t.upkeep l := by
  simp [State.freeRef]

@[simp] theorem State.upkeep_xferRef (t : State) (l a : Nat) (h : W32) (o : Nat) : (t.xferRef a h o).upkeep l = t.upkeep l := by
  simp [State.xferRef]

@[simp] theorem State.upkeep_setMark (t : State) (l a : Nat) (h : W32) (m : Nat) : (t.setMark a h m).upkeep l = t.upkeep l := by
  simp [State.setMark]

@[simp] theorem State.upkeep_clrMark (t : State) (l a : Nat) (h : W32) (m : Nat) : (t.clrMark a h m).upkeep l = t.upkeep l := by
  simp [State.clrMark]

/-! ### Frame buffers (R148, R342) -/

@[simp] theorem State.upkeep_aliasGone (t : State) (l a : Nat) (h : W32) : (t.aliasGone a h).upkeep l = t.upkeep l := by
  simp [State.aliasGone]

@[simp] theorem State.upkeep_freeing (s t : State) (l a : Nat) (h : W32) : (s.freeing t a h).upkeep l = t.upkeep l := by
  simp [State.freeing]

@[simp] theorem State.upkeep_clrMarkA (t : State) (l a : Nat) (h : W32) (m : Nat) : (t.clrMarkA a h m).upkeep l = t.upkeep l := by
  simp [State.clrMarkA]

@[simp] theorem State.upkeep_decRefA (t : State) (l a : Nat) (h : W32) : (t.decRefA a h).upkeep l = t.upkeep l := by
  simp [State.decRefA]

@[simp] theorem State.upkeep_freeRefA (t : State) (l a : Nat) (h : W32) : (t.freeRefA a h).upkeep l = t.upkeep l := by
  simp [State.freeRefA]

@[simp] theorem State.upkeep_unmark (t : State) (l a : Nat) (h : W32) (m : Nat) : (t.unmark a h m).upkeep l = t.upkeep l := by
  simp [State.unmark]

@[simp] theorem State.upkeep_freeIdle (t : State) (l : Nat) (h : W32) : (t.freeIdle h).upkeep l = t.upkeep l := by
  simp [State.freeIdle]

@[simp] theorem State.upkeep_newFrame (t : State) (l a c p w h d n : Nat) (poc : W32) (x : Nat) :
    (t.newFrame a c p w h d n poc x).1.upkeep l = t.upkeep l := by
  have k : (t.alloc a p 0 false).1.upkeep l = t.upkeep l := by simp
  unfold State.newFrame
  split
  next u hd e =>
    rw [e] at k
    split <;> simpa using k

/-! ### Jobs and the rows of an input flow (R171, R174, R226) -/

@[simp] theorem State.upkeep_freeJob (t : State) (l : Nat) (j : Job) : (t.freeJob j).upkeep l = t.upkeep l := by
  simp [State.freeJob]

@[simp] theorem State.upkeep_createJob (t : State) (l : Nat) (j : Job) : (t.createJob j).upkeep l = t.upkeep l := by
  unfold State.createJob
  split
  next u h =>
    obtain ⟨m, rfl, -⟩ := State.newJob_some (Option.ite_none_right_eq_some.1 h).2
    exact State.upkeep_msc ..
  next =>
    dsimp only
    rw [State.upkeep_if ((State.upkeep_event ..).trans (State.upkeep_msc ..)), State.upkeep_bump, State.upkeep_msc]

@[simp] theorem State.upkeep_createDecode (t : State) (l r w : Nat) (h : W32) (b : Bool) (n : Nat) :
    (t.createDecode r w h b n).upkeep l = t.upkeep l := by
  simp [State.createDecode]

@[simp] theorem State.upkeep_releaseRows (t : State) (l f n fuel : Nat) : (t.releaseRows f n fuel).upkeep l = t.upkeep l := by
  induction fuel generalizing t with
  | zero => rfl
  | succ fuel ih =>
    unfold State.releaseRows
    dsimp only
    split
    · rfl
    · simp [ih]

@[simp] theorem State.upkeep_guardRow (t : State) (l f : Nat) : (t.guardRow f).upkeep l = t.upkeep l := by
  simp [State.guardRow]

@[simp] theorem State.upkeep_inputRowEnd (t : State) (l : Nat) (j : Job) (b : Nat) : (t.inputRowEnd j b).upkeep l = t.upkeep l := by
  unfold State.inputRowEnd
  split <;> simp

/-! ### The decoder's pictures (R148, R150, R152, R154, R156 to R158) -/

@[simp] theorem State.upkeep_applyStaged (t : State) (l r : Nat) (x : List (Nat × Byte)) : (t.applyStaged r x).upkeep l = t.upkeep l := by
  simp [State.applyStaged]

@[simp] theorem State.upkeep_setRefs (t : State) (l r : Nat) (x : List W32) : (t.setRefs r x).upkeep l = t.upkeep l := by
  simp [State.setRefs, State.showDpb]

@[simp] theorem State.upkeep_setWaiting (t : State) (l r : Nat) (x : List W32) : (t.setWaiting r x).upkeep l = t.upkeep l := by
  simp [State.setWaiting, State.showDpb]

@[simp] theorem State.upkeep_writeOutRow (t : State) (l r : Nat) (w : W32) (n : Nat) : (t.writeOutRow r w n).upkeep l = t.upkeep l := by
  simp [State.writeOutRow]

@[simp] theorem State.upkeep_writeOut (t : State) (l r k : Nat) (h : W32) : (t.writeOut r k h).upkeep l = t.upkeep l := by
  unfold State.writeOut
  dsimp only
  split
  · split <;> simp
  · rfl

@[simp] theorem State.upkeep_releasePic (t : State) (l r k : Nat) (h : W32) : (t.releasePic r k h).upkeep l = t.upkeep l := by
  unfold State.releasePic
  dsimp only
  split
  · rfl
  · cases (t.dec r).released <;> simp

@[simp] theorem State.upkeep_bumpOut (t : State) (l r k : Nat) (x : List W32) : (t.bumpOut r k x).upkeep l = t.upkeep l := by
  induction x generalizing t with
  | nil => simp [State.bumpOut]
  | cons p x ih =>
    unfold State.bumpOut
    split
    · simp [ih]
    · split
      · split <;> simp [ih]
      · exact ih t

@[simp] theorem State.upkeep_noteDamage (t : State) (l r k : Nat) : (t.noteDamage r k).upkeep l = t.upkeep l := by
  unfold State.noteDamage
  dsimp only
  split <;> simp

@[simp] theorem State.upkeep_decRowWritten (t : State) (l r n : Nat) : (t.decRowWritten r n).upkeep l = t.upkeep l := by
  unfold State.decRowWritten State.frameRow
  dsimp only
  split <;> simp

@[simp] theorem State.upkeep_decRowDone (t : State) (l r k n a b : Nat) (x : List Nat) (m : List (Option (Int × Int))) :
    (t.decRowDone r k n a b x m).upkeep l = t.upkeep l := by
  simp [State.decRowDone, State.concealRow]

@[simp] theorem State.upkeep_moveGood (t : State) (l r k : Nat) (h : W32) : (t.moveGood r k h).upkeep l = t.upkeep l := by
  unfold State.moveGood
  dsimp only
  split
  · cases (t.dec r).lastGood <;> simp
  · simp

@[simp] theorem State.upkeep_decPicDone (t : State) (l r k : Nat) : (t.decPicDone r k).upkeep l = t.upkeep l := by
  by_cases hs : (t.dec r).skipping = true
  · simp [State.decPicDone, hs]
  · unfold State.decPicDone
    dsimp only
    -- outermost operation first
    rw [if_neg hs, State.upkeep_if (State.upkeep_freeIdle ..).symm, State.upkeep_freeIdle,
      State.upkeep_bumpOut, State.upkeep_if (State.upkeep_moveGood ..).symm, State.upkeep_moveGood, State.upkeep_incCf,
      State.upkeep_setDec, State.upkeep_if (State.upkeep_setWaiting ..),
      State.upkeep_if ((State.upkeep_setRefs ..).trans (State.upkeep_setMark ..)), State.upkeep_if (State.upkeep_incCf ..)]
    cases (t.dec r).out <;> simp

/-! ### A failed job (R115, R453) -/

@[simp] theorem State.upkeep_concealJob (t : State) (l k : Nat) (j : Job) : (t.concealJob j k).upkeep l = t.upkeep l := by
  unfold State.concealJob
  simp

@[simp] theorem State.upkeep_abandonRow (t : State) (l k : Nat) (j : Job) : (t.abandonRow j k).upkeep l = t.upkeep l := by
  have hraise : (t.raise fRowAbandoned j.ctx j.row).upkeep l = t.upkeep l := State.upkeep_raise _ _ (by decide) ..
  unfold State.abandonRow State.restartRefresh
  dsimp only
  split <;> simp [hraise]

@[simp] theorem State.upkeep_setLane (t : State) (l k : Nat) (x : Lane) (h : x.service = (t.lane k).service) :
    (t.setLane k x).upkeep l = t.upkeep l := by
  unfold State.upkeep
  by_cases hk : l = k
  · subst hk
    rw [State.setLane_same, h]
    rfl
  · rw [State.setLane_other _ _ _ _ hk]
    rfl

@[simp] theorem State.upkeep_wakeLane (t : State) (l k : Nat) : (t.wakeLane k).upkeep l = t.upkeep l := by
  unfold State.wakeLane
  split
  · exact State.upkeep_setLane _ _ _ _ rfl
  · rfl

@[simp] theorem State.upkeep_prefetchNext (t : State) (l k : Nat) : (t.prefetchNext k).upkeep l = t.upkeep l := by
  unfold State.prefetchNext
  dsimp only
  split
  · split
    · exact State.upkeep_setLane _ _ _ _ rfl
    · rfl
  · rfl

@[simp] theorem State.upkeep_enqueueJob (t : State) (l k : Nat) (j : Job) : (t.enqueueJob k j).upkeep l = t.upkeep l := by
  unfold State.enqueueJob
  dsimp only
  rw [State.upkeep_prefetchNext]
  refine (State.upkeep_setLane _ _ _ _ ?_).trans ((State.upkeep_setLane _ _ _ _ ?_).trans ?_)
  · rfl
  · rfl
  · rw [State.upkeep_wakeLane, State.upkeep_wakeLane, State.upkeep_putJob]

@[simp] theorem State.upkeep_retryJob (t : State) (l k : Nat) (j : Job) : (t.retryJob j k).upkeep l = t.upkeep l := by
  unfold State.retryJob
  dsimp only
  split <;> simp


end Sys2Proof.Machine
end

section
/-! SUPPORT. Machine checks (R104, R114 to R116): the lane that halts, its reload and its release, and a lane mapped out; and a patch's loads
(R118 to R121). -/

namespace Sys2Proof.Machine

open Sys2Proof

/-! ### A check (R104, R114) -/

/-- Members halted leave a halted lane as it was. -/
theorem State.halt_lane {s : State} {l : Nat} (h : (s.lane l).ms = .halted) (ms : List Nat) :
    (ms.foldl (fun s m => s.setLane m { s.lane m with ms := .halted }) s).lane l = s.lane l := by
  refine List.foldlRecOn (motive := fun t : State => t.lane l = s.lane l) ms _ rfl fun t ht m _ => ?_
  by_cases hm : l = m
  · subst hm
    rw [State.setLane_same, ht]
    generalize s.lane l = x at h
    cases x
    cases h
    rfl
  · rw [State.setLane_other _ _ _ _ hm, ht]

theorem State.machineCheck_lane (s : State) (l : Nat) (nano : Bool) (addr syn cause : Nat) :
    (s.machineCheck l nano addr syn cause).lane l = { s.lane l with
      ms := .halted, mchk := b2n nano * 2 ^ 29 + cause * 2 ^ 27 + syn % 256 * 2 ^ 13 + addr % 8192,
      mchkTotal := satAdd (s.lane l).mchkTotal 1 0xFFFF, outcome := .none, check := true } := by
  unfold State.machineCheck
  dsimp only
  rw [State.lane_raise, State.halt_lane (by rw [State.setLane_same]), State.setLane_same]

/-- The check that a command of its kind makes. -/
def State.checked (s : State) (l : Nat) : MchkKind → State
  | .parity nano a syn => s.machineCheck l nano a.toNat syn.toNat cPARITY
  | .stack a => s.machineCheck l false a.toNat 0 cSTACK
  | .illegal a => s.machineCheck l false a.toNat 0 cILLEGAL

theorem State.mchkOp_eq {s : State} {l : Nat} (hf : (s.lane l).fetching = true) (k : MchkKind) : s.mchkOp l k = s.checked l k := by
  unfold State.mchkOp
  rw [hf]
  cases k <;> rfl

/-- A lane that fetches a word of bad parity. -/
theorem State.onWord_bad {s : State} {l : Nat} (hf : (s.lane l).fetching = true)
    (hp : microSyndrome (Tbl.get 0 (s.lane l).micro (s.lane l).upc) ≠ 0) (k : Nat) (f : State → Nat → State) :
    s.onWord l k f = s.machineCheck l false (s.lane l).upc (microSyndrome (Tbl.get 0 (s.lane l).micro (s.lane l).upc)) cPARITY := by
  rw [State.onWord, hf]
  exact if_pos hp

/-! ### A lane mapped out (R115, R455) -/

/-- The rows and the queues of the lane's carriageway back with the scheduler. -/
def State.emptied (s : State) (l : Nat) : State := (s.members l).foldl (fun s m => (s.returnRun m).unqueue m) s

@[simp] theorem State.upkeep_returnJob (t : State) (l : Nat) (j : Job) : (t.returnJob j).upkeep l = t.upkeep l := by
  simp [State.returnJob]

@[simp] theorem State.upkeep_unqueue (t : State) (l k : Nat) : (t.unqueue k).upkeep l = t.upkeep l := by
  unfold State.unqueue
  dsimp only
  rw [State.upkeep_foldl _ _ _ _ fun u j => State.upkeep_returnJob ..]
  exact State.upkeep_setLane _ _ _ _ rfl

@[simp] theorem State.upkeep_promotePatch (t : State) (l : Nat) : t.promotePatch.upkeep l = t.upkeep l := by
  unfold State.promotePatch
  split
  · split
    · dsimp only
      generalize List.range 64 = lanes
      rw [State.upkeep_foldl]
      · exact State.upkeep_of rfl rfl
      · exact fun u m => State.upkeep_setLane _ _ _ _ rfl
    · rfl
  · rfl

@[simp] theorem State.upkeep_showMc (t : State) (l : Nat) : t.showMc.upkeep l = t.upkeep l := by
  unfold State.showMc
  dsimp only
  split <;> exact State.upkeep_of rfl rfl

/-- Whether a lane is in service. -/
def State.standing (s : State) (l : Nat) : (Bool × Bool × Bool) × FltSrc :=
  (((s.lane l).quarantined, (s.lane l).mapped, (s.lane l).rebuild), s.fltSrc fLaneGolden)

theorem State.standing_of_upkeep {s t : State} {l : Nat} (h : t.upkeep l = s.upkeep l) : t.standing l = s.standing l :=
  congrArg (fun v => (v.1.2.2.2, v.2)) h

theorem State.standing_setLane {s : State} {k : Nat} {x : Lane} (h : (x.quarantined, x.mapped, x.rebuild) =
    ((s.lane k).quarantined, (s.lane k).mapped, (s.lane k).rebuild)) (l : Nat) : (s.setLane k x).standing l = s.standing l := by
  unfold State.standing
  by_cases hk : l = k
  · subst hk
    rw [State.setLane_same, h]
    rfl
  · rw [State.setLane_other _ _ _ _ hk]
    rfl

theorem State.standing_returnRun (s : State) (l k : Nat) : (s.returnRun k).standing l = s.standing l := by
  have hend : (s.endRun k).standing l = s.standing l := by
    unfold State.endRun
    refine State.standing_setLane ?_ l
    rfl
  unfold State.returnRun
  split
  · dsimp only
    split
    · exact hend
    · exact (State.standing_of_upkeep (State.upkeep_returnJob ..)).trans hend
  · rfl

theorem State.standing_emptied (s : State) (l k : Nat) : (s.emptied k).standing l = s.standing l :=
  foldl_keeps (fun s : State => s.standing l) _
    (fun _ _ => (State.standing_of_upkeep (State.upkeep_unqueue ..)).trans (State.standing_returnRun ..)) _ s

theorem State.returnRun_run (s : State) (l : Nat) : ((s.returnRun l).lane l).run = none := by
  have hend : ((s.endRun l).lane l).run = none := congrArg Lane.run (State.setLane_same ..)
  unfold State.returnRun
  split
  · dsimp only
    split
    · exact hend
    · exact (congrArg (fun v => v.1.1) (State.upkeep_returnJob ..)).trans hend
  next h => exact h

/-- A lane that stands alone has no row once it is emptied. -/
theorem State.emptied_run {s : State} {l : Nat} (hw : (s.lane l).cwSize ≤ 1) : ((s.emptied l).lane l).run = none := by
  have hone : s.members l = [l] := if_pos hw
  rw [State.emptied, hone]
  exact (congrArg (fun v => v.1.1) (State.upkeep_unqueue ..)).trans (s.returnRun_run l)

/-- The lane out of service. -/
def Lane.outOfService (y : Lane) (halted : Bool) : Lane :=
  { y with quarantined := true, mapped := true, outcome := .lasting, failed := none, rebuild := false, check := false,
           ms := if halted then .halted else .idle, frames := [], trapActive := 0, trapPending := 0 }

theorem State.upkeep_quarantine (s : State) (l k : Nat) : (s.quarantine k).upkeep l =
    ((s.emptied k).setLane k (((s.emptied k).lane k).outOfService (decide ((s.lane k).ms = .halted)))).upkeep l := by
  unfold State.quarantine
  dsimp only
  rw [State.upkeep_showMc, State.upkeep_promotePatch, State.upkeep_setHealth]
  rfl

theorem State.quarantine_same (s : State) (l : Nat) : (s.quarantine l).standing l = ((true, true, false), s.fltSrc fLaneGolden) := by
  rw [State.standing_of_upkeep (s.upkeep_quarantine l l), State.standing, State.setLane_same]
  exact congrArg (fun v => ((true, true, false), v)) (congrArg Prod.snd (s.standing_emptied l l))

theorem State.quarantine_run {s : State} {l : Nat} (hw : (s.lane l).cwSize ≤ 1) : ((s.quarantine l).lane l).run = none := by
  have h := congrArg (fun v => v.1.1) (s.upkeep_quarantine l l)
  refine h.trans ?_
  show (State.lane (State.setLane _ _ _) l).run = none
  rw [State.setLane_same]
  exact State.emptied_run hw

theorem State.quarantine_other {s : State} {l k : Nat} (h : l ≠ k) : (s.quarantine k).standing l = s.standing l := by
  rw [State.standing_of_upkeep (s.upkeep_quarantine l k), ← s.standing_emptied l k, State.standing, State.setLane_other _ _ _ _ h]
  rfl

/-! ### The failed job (R115, steps 6 and 7) -/

theorem State.afterCheck_first {s : State} {f : Option Job} (h : ∀ j, f = some j → j.retry = false) (l k : Nat) :
    (s.afterCheck k f).upkeep l = s.upkeep l := by
  unfold State.afterCheck
  split
  · rfl
  next j =>
    rw [h j rfl, if_neg Bool.false_ne_true, State.upkeep_retryJob]

/-- A lane out of service stays so, whatever becomes of the job: another lane may follow it. -/
theorem State.afterCheck_standing {s : State} {l : Nat} (h : (s.lane l).quarantined = true) (f : Option Job) (k : Nat) :
    (s.afterCheck k f).standing l = s.standing l := by
  unfold State.afterCheck
  split
  · rfl
  next j =>
    split
    · dsimp only
      rw [State.standing_of_upkeep (State.upkeep_abandonRow ..)]
      split
      next ho =>
        have hne : l ≠ j.fromLane := fun he => ho.2 (he ▸ h)
        rw [State.quarantine_other hne, State.standing_of_upkeep (State.upkeep_decideFault _ _ (by decide) ..)]
      next => rfl
    · exact State.standing_of_upkeep (State.upkeep_retryJob ..)

/-! ### SVP's service (R115, steps 1 to 5) -/

theorem State.reload_lane (s : State) (l : Nat) (nano : Bool) (a : Nat) (b : Bool) :
    ∃ m n, (s.reload l nano a b).1.lane l = { s.lane l with micro := m, nano := n } := by
  unfold State.reload
  dsimp only
  split <;> exact ⟨_, _, State.setLane_same ..⟩

/-- The failed address of a check, as it is recorded. -/
def Lane.checkAddr (x : Lane) : Bool × Nat := (tb x.mchk 29, fld x.mchk 0 13)

/-- A service that fails, and one that releases the lane. -/
def State.serviced (s : State) (l : Nat) (b : Bool) : State :=
  let u := (s.reload l (s.lane l).checkAddr.1 (s.lane l).checkAddr.2 b).1
  if (s.reload l (s.lane l).checkAddr.1 (s.lane l).checkAddr.2 b).2 = true ∧ (s.lane l).checkAddr ∉ (s.lane l).record then
    (u.setLane l { u.lane l with record := (s.lane l).record ++ [(s.lane l).checkAddr], outcome := .pending }).releaseLane l
  else (u.decideFault fLaneMchk l true).quarantine l

theorem State.serveCheck_eq (s : State) (l : Nat) (b : Bool) : s.serveCheck l b = (s.serviced l b).afterCheck l (s.failedJob l) := by
  have hcond : (!(s.reload l (s.lane l).checkAddr.1 (s.lane l).checkAddr.2 b).2 || (s.lane l).record.contains (s.lane l).checkAddr) = true ↔
      ¬ ((s.reload l (s.lane l).checkAddr.1 (s.lane l).checkAddr.2 b).2 = true ∧ (s.lane l).checkAddr ∉ (s.lane l).record) := by
    simp [imp_iff_not_or]
  unfold State.serviced
  dsimp only
  rw [← ite_not, ← if_congr hcond rfl rfl]
  rfl

/-- A lane that stands alone goes on with no row. -/
theorem State.releaseLane_alone {s : State} {l : Nat} (hw : (s.lane l).cwSize ≤ 1) :
    ((s.releaseLane l).lane l).run = none ∧ ((s.releaseLane l).lane l).ms = .idle ∧
    ((s.releaseLane l).lane l).record = (s.lane l).record ∧ ((s.releaseLane l).lane l).quarantined = (s.lane l).quarantined := by
  have hone : ∀ (u : State), (u.lane l).cwSize ≤ 1 → u.members l = [l] := fun u h => if_pos h
  have hlane := (s.endRun l).setLane_same l
    { (s.endRun l).lane l with frames := [], trapActive := 0, trapPending := 0, check := false, ms := .halted }
  have hend : (s.endRun l).lane l = { s.lane l with
      run := none, ms := .idle, upc := 0, rep := none, stack := [], atomic := false, memStall := false, idleAt := none } := State.setLane_same ..
  unfold State.releaseLane
  dsimp only
  generalize State.setLane (s.endRun l) l _ = u at hlane ⊢
  rw [hend] at hlane
  rw [hone u (by rw [hlane]; exact hw), List.any_cons, hlane]
  simp only [List.any_nil, Bool.or_false, List.foldl_cons, List.foldl_nil, hlane, if_true, Bool.false_eq_true, if_false, State.setLane_same]
  exact ⟨rfl, rfl, rfl, rfl⟩

/-- A lane that is not released is out of service. -/
theorem State.serviced_failed {s : State} {l : Nat} {b : Bool}
    (h : ¬ ((s.reload l (s.lane l).checkAddr.1 (s.lane l).checkAddr.2 b).2 = true ∧ (s.lane l).checkAddr ∉ (s.lane l).record)) :
    ((s.serviced l b).standing l).1 = (true, true, false) := by
  unfold State.serviced
  dsimp only
  rw [if_neg h, State.quarantine_same]

theorem State.serviced_run {s : State} {l : Nat} (hw : (s.lane l).cwSize ≤ 1) (b : Bool) : ((s.serviced l b).lane l).run = none := by
  obtain ⟨m, n, hlane⟩ := s.reload_lane l (s.lane l).checkAddr.1 (s.lane l).checkAddr.2 b
  unfold State.serviced
  dsimp only
  generalize (s.reload l (s.lane l).checkAddr.1 (s.lane l).checkAddr.2 b).1 = u at hlane ⊢
  have hu : (u.lane l).cwSize ≤ 1 := by rw [hlane]; exact hw
  split
  · exact (State.releaseLane_alone (by rw [State.setLane_same]; exact hu)).1
  · refine State.quarantine_run ?_
    have hkept : (u.decideFault fLaneMchk l true).lanes = u.lanes := (State.bufOnly_of_fltOnly (by simp)).lanes
    rwa [State.lane, hkept]

theorem State.serviced_released {s : State} {l : Nat} {b : Bool} (hw : (s.lane l).cwSize ≤ 1)
    (h : (s.reload l (s.lane l).checkAddr.1 (s.lane l).checkAddr.2 b).2 = true ∧ (s.lane l).checkAddr ∉ (s.lane l).record) :
    ((s.serviced l b).lane l).ms = .idle ∧ ((s.serviced l b).lane l).record = (s.lane l).record ++ [(s.lane l).checkAddr] ∧
    ((s.serviced l b).lane l).quarantined = (s.lane l).quarantined := by
  obtain ⟨m, n, hlane⟩ := s.reload_lane l (s.lane l).checkAddr.1 (s.lane l).checkAddr.2 b
  unfold State.serviced
  dsimp only
  rw [if_pos h]
  generalize (s.reload l (s.lane l).checkAddr.1 (s.lane l).checkAddr.2 b).1 = u at hlane ⊢
  have hset := u.setLane_same l { u.lane l with record := (s.lane l).record ++ [(s.lane l).checkAddr], outcome := .pending }
  obtain ⟨-, hms, hrec, hq⟩ := State.releaseLane_alone (s := u.setLane l _) (l := l) (by rw [hset, hlane]; exact hw)
  rw [hms, hrec, hq, hset, hlane]
  exact ⟨rfl, rfl, rfl⟩

/-- The service of the one check that waits. -/
theorem State.mchkServe_eq {s : State} {l : Nat} (hh : (s.lane l).ms = .halted) (hc : (s.lane l).check = true)
    (hr : s.lanes.any (fun e => e.2.rebuild) = false) (golden b : Bool) :
    s.mchkServe l golden b = if golden then s.serveCheck l b else s.setLane l { s.lane l with rebuild := true } := by
  unfold State.mchkServe
  dsimp only
  rw [hh, hc, hr]
  exact if_pos rfl

/-! ### A golden copy rebuilt (R116) -/

/-- The rebuild that has found no image in flash. -/
theorem State.rebuildDone_none {s : State} {l : Nat} (hr : (s.lane l).rebuild = true) {a : Bool}
    (h : s.flashImage (s.lane l).mc = none ∨ a = false) (b : Bool) :
    s.rebuildDone l a b =
      (((((s.setLane l { s.lane l with rebuild := false }).decideFault fLaneMchk l true).quarantine l).raise fLaneGolden l 0).afterCheck l
        ((s.setLane l { s.lane l with rebuild := false }).failedJob l)) := by
  have hnone : (if a then (s.setLane l { s.lane l with rebuild := false }).flashImage (s.lane l).mc else none) = none := by
    rcases h with h | rfl
    · exact (ite_eq_right_iff.2 fun _ => h)
    · rfl
  unfold State.rebuildDone
  dsimp only
  rw [hr, if_neg (by decide), hnone]

theorem State.rebuildDone_standing {s : State} {l : Nat} (hr : (s.lane l).rebuild = true) {a : Bool}
    (h : s.flashImage (s.lane l).mc = none ∨ a = false) (b : Bool) :
    ((s.rebuildDone l a b).standing l).1 = (true, true, false) ∧ ((s.rebuildDone l a b).fltSrc fLaneGolden).sticky = true := by
  rw [State.rebuildDone_none hr h]
  generalize s.setLane l _ = u
  have hq : (((u.decideFault fLaneMchk l true).quarantine l).raise fLaneGolden l 0).lane l = ((u.decideFault fLaneMchk l true).quarantine l).lane l :=
    State.lane_raise ..
  have hout := congrArg Prod.fst ((u.decideFault fLaneMchk l true).quarantine_same l)
  have hst := State.afterCheck_standing (s := ((u.decideFault fLaneMchk l true).quarantine l).raise fLaneGolden l 0) (l := l)
    (by rw [hq]; exact congrArg Prod.fst hout) (u.failedJob l) l
  refine ⟨(congrArg Prod.fst hst).trans ?_, (congrArg (fun v => v.2.sticky) hst).trans (State.raise_sticky ..)⟩
  rw [State.standing, hq]
  exact hout

/-- A rebuild whose readback fails, whatever the flash held. -/
theorem State.rebuildDone_unread {s : State} {l : Nat} (hr : (s.lane l).rebuild = true) (a : Bool) :
    ((s.rebuildDone l a false).standing l).1 = (true, true, false) := by
  have hbad : ∀ u : State, ((u.serveCheck l false).standing l).1 = (true, true, false) := fun u => by
    have hfail := State.serviced_failed (s := u) (l := l) (b := false) (by unfold State.reload; dsimp only; split <;> simp)
    rw [State.serveCheck_eq, State.afterCheck_standing (congrArg Prod.fst hfail)]
    exact hfail
  by_cases h : s.flashImage (s.lane l).mc = none ∨ a = false
  · exact (State.rebuildDone_standing hr h false).1
  · obtain ⟨hi, ha⟩ := not_or.1 h
    obtain ⟨img, himg⟩ := Option.ne_none_iff_exists'.1 hi
    have hflash : (s.setLane l { s.lane l with rebuild := false }).flashImage (s.lane l).mc = some img := himg
    unfold State.rebuildDone
    dsimp only
    rw [hr, if_neg (by decide), if_pos (by simpa using ha), hflash]
    exact hbad _

/-! ### Patches (R118 to R121) -/

/-- What a patch shows of a lane, and the lanes that it has still to load. -/
def State.patchView (s : State) (l : Nat) : (Bool × Nat × McId) × List Nat :=
  (((s.lane l).loading, (s.lane l).loadResult, (s.lane l).mc), s.golden.loads)

theorem State.patchView_of {s t : State} (hl : t.lanes = s.lanes) (hg : t.golden = s.golden) (l : Nat) : t.patchView l = s.patchView l := by
  simp only [State.patchView, State.lane, hl, hg]

theorem State.patchView_setLane {s : State} {k : Nat} {x : Lane} (h : (x.loading, x.loadResult, x.mc) =
    ((s.lane k).loading, (s.lane k).loadResult, (s.lane k).mc)) (l : Nat) : (s.setLane k x).patchView l = s.patchView l := by
  unfold State.patchView
  by_cases hk : l = k
  · subst hk
    rw [State.setLane_same, h]
    rfl
  · rw [State.setLane_other _ _ _ _ hk]
    rfl

theorem State.patchView_of_fltOnly {s t : State} (h : s.fltOnly t) (l : Nat) : t.patchView l = s.patchView l := by
  unfold State.fltOnly at h
  rw [h]
  rfl

theorem State.patchView_returnJob (s : State) (j : Job) (l : Nat) : (s.returnJob j).patchView l = s.patchView l := by
  unfold State.returnJob
  split <;> rfl

theorem State.patchView_returnRun (s : State) (k l : Nat) : (s.returnRun k).patchView l = s.patchView l := by
  have hend : (s.endRun k).patchView l = s.patchView l := by
    unfold State.endRun
    dsimp only
    refine State.patchView_setLane ?_ l
    rfl
  unfold State.returnRun
  split
  · dsimp only
    split
    · exact hend
    · exact (State.patchView_returnJob ..).trans hend
  · rfl

theorem State.patchView_unqueue (s : State) (k l : Nat) : (s.unqueue k).patchView l = s.patchView l := by
  unfold State.unqueue
  dsimp only
  refine (foldl_keeps (fun s : State => s.patchView l) _ (fun u j => u.patchView_returnJob j l) _ _).trans (State.patchView_setLane ?_ l)
  rfl

theorem State.patchView_emptied (s : State) (k l : Nat) : (s.emptied k).patchView l = s.patchView l :=
  foldl_keeps (fun s : State => s.patchView l) _ (fun _ _ => (State.patchView_unqueue ..).trans (State.patchView_returnRun ..)) _ s

theorem State.patchView_promotePatch (s : State) (l : Nat) : s.promotePatch.patchView l = s.patchView l := by
  unfold State.promotePatch
  split
  · split
    · dsimp only
      generalize List.range 64 = lanes
      refine (foldl_keeps (fun s : State => s.patchView l) _ (fun u m => ?_) lanes _).trans rfl
      refine State.patchView_setLane ?_ l
      rfl
    · rfl
  · rfl

theorem State.patchView_showMc (s : State) (l : Nat) : s.showMc.patchView l = s.patchView l := by
  unfold State.showMc
  dsimp only
  split <;> exact State.patchView_of rfl rfl l

theorem State.patchView_quarantine (s : State) (k l : Nat) : (s.quarantine k).patchView l = s.patchView l := by
  have hset : ((s.emptied k).setLane k (((s.emptied k).lane k).outOfService (decide ((s.lane k).ms = .halted)))).patchView l = s.patchView l := by
    refine (State.patchView_setLane ?_ l).trans (s.patchView_emptied k l)
    rfl
  unfold State.quarantine
  dsimp only
  rw [State.patchView_showMc, State.patchView_promotePatch, ← hset]
  rfl

theorem State.patchView_failLoad (s : State) (k l : Nat) : (s.failLoad k).patchView l = s.patchView l := by
  rw [State.failLoad, State.patchView_quarantine]
  exact State.patchView_of_fltOnly (by simp) l

theorem State.finish_lanes (s : State) (h : CmdRef) (st d : Nat) (b : Bytes) : (s.finish h st d b).lanes = s.lanes := by
  unfold State.finish
  split
  · rw [(State.evOnly_complete s s ..).2 rfl]
  · rfl

theorem State.patchEnd_lane (s : State) (l : Nat) : (s.patchEnd.patchView l).1 = (s.patchView l).1 := by
  have hend : ∀ u : State, (u.promotePatch.showMc.patchView l).1 = (u.patchView l).1 := fun u => by
    rw [State.patchView_showMc, State.patchView_promotePatch]
  unfold State.patchEnd
  dsimp only
  split
  · rw [State.patchView, State.lane, State.finish_lanes]
    exact hend _
  · exact hend _

/-- A lane's own load, ended with result `r`. -/
theorem State.patched_same (s : State) (l r : Nat) :
    (s.patched l r).patchView l = ((false, r, (s.lane l).mc), s.golden.loads.drop 1) := by
  have h := s.setLane_same l { s.lane l with loading := false, loadResult := r }
  exact congrArg (fun x : Lane => ((x.loading, x.loadResult, x.mc), s.golden.loads.drop 1)) h

theorem State.patched_other {s : State} {l k : Nat} (h : l ≠ k) (r : Nat) :
    (s.patched k r).patchView l = ((s.patchView l).1, s.golden.loads.drop 1) := by
  have h := s.setLane_other k { s.lane k with loading := false, loadResult := r } l h
  exact congrArg (fun x : Lane => ((x.loading, x.loadResult, x.mc), s.golden.loads.drop 1)) h

/-- The lanes that follow leave the others' loads as they were: by induction on their number. -/
theorem State.patchNext_lane {s : State} {l : Nat} (fuel : Nat) (h : l ∉ s.golden.loads) :
    ((s.patchNext fuel).patchView l).1 = (s.patchView l).1 := by
  induction fuel generalizing s with
  | zero => rfl
  | succ fuel ih =>
    unfold State.patchNext
    split
    · exact s.patchEnd_lane l
    next k r hloads =>
      obtain ⟨hne, hr⟩ := not_or.1 (mt List.mem_cons.2 (hloads ▸ h))
      have hnext : ∀ n, ((State.patchNext (s.patched k n) fuel).patchView l).1 = (s.patchView l).1 := fun n => by
        have hv := State.patched_other (s := s) hne n
        rw [ih (by
          rw [show (s.patched k n).golden.loads = _ from congrArg Prod.snd hv, hloads]
          exact hr), hv]
      split
      · exact hnext 8
      · split
        · exact hnext 7
        · exact congrArg (fun x : Lane => (x.loading, x.loadResult, x.mc)) (State.setLane_other _ _ _ _ hne)

/-- Stores that read back. -/
theorem State.loadStores_good {s : State} {l : Nat} {img : Bytes} {ok : Bool} (h : (ok && readsBack img) = true) (id : McId) (c : Bool) :
    (s.loadStores l img id c ok).2 = true ∧ (s.loadStores l img id c ok).1.patchView l = (((s.lane l).loading, 0, id), s.golden.loads) := by
  unfold State.loadStores
  dsimp only
  rw [if_pos h]
  refine ⟨rfl, ?_⟩
  rw [State.setLane_same]
  generalize hu : State.setLane (State.setLane s l _) l _ = u
  have hv : u.patchView l = (((s.lane l).loading, 0, id), s.golden.loads) := by
    rw [← hu, State.patchView, State.setLane_same]
    rfl
  split
  · refine Eq.trans ?_ hv
    unfold State.initLane
    refine State.patchView_setLane ?_ l
    rfl
  · exact hv

/-- Stores that do not. -/
theorem State.loadStores_bad {s : State} {l : Nat} {img : Bytes} {ok : Bool} (h : ¬ (ok && readsBack img) = true) (id : McId) (c : Bool) :
    (s.loadStores l img id c ok).2 = false ∧
    (s.loadStores l img id c ok).1.patchView l = (((s.lane l).loading, lLOADFAIL, (s.lane l).mc), s.golden.loads) := by
  unfold State.loadStores
  dsimp only
  rw [if_neg h]
  refine ⟨rfl, ?_⟩
  rw [State.patchView, State.setLane_same, State.setLane_same]
  rfl

section Load

variable {s : State} {l : Nat} {ls : List Nat} (hl : s.golden.loads = l :: ls) (hls : l ∉ ls) (hp : s.golden.patching = true)
  (hload : (s.lane l).loading = true) (hd : s.golden.due ≤ s.ns)
include hl hls hp hload hd

/-- The load in turn, when its time has passed. -/
theorem State.patchLoad_lane :
    (s.patchLoad.lane l).loading = false ∧
      if readsBack (if s.golden.toBase then s.golden.image else s.golden.patchImage) = true ∧ l ∉ s.golden.failing
      then (s.patchLoad.lane l).loadResult = 0 ∧ (s.patchLoad.lane l).mc = (if s.golden.toBase then s.golden.base else s.golden.patch.getD {})
      else (s.patchLoad.lane l).loadResult = 9 ∧ (s.patchLoad.lane l).mc = (s.lane l).mc := by
  have hgo : (s.golden.patching && (s.lane l).loading && decide (s.golden.due ≤ s.ns)) = true := by simp [hp, hload, hd]
  have hnext : ∀ (u : State) (n : Nat), u.golden.loads = s.golden.loads →
      let v := (u.patched l n).patchNext ((u.patched l n).golden.loads.length + 1)
      (v.lane l).loading = false ∧ (v.lane l).loadResult = n ∧ (v.lane l).mc = (u.lane l).mc := fun u n hu => by
    have hv := u.patched_same l n
    have hrest : (u.patched l n).golden.loads = ls := (congrArg Prod.snd hv).trans (by rw [hu, hl]; rfl)
    have hdone := State.patchNext_lane ((u.patched l n).golden.loads.length + 1) (s := u.patched l n) (l := l) (by rw [hrest]; exact hls)
    rw [hv] at hdone
    exact ⟨congrArg Prod.fst hdone, congrArg (fun v => v.2.1) hdone, congrArg (fun v => v.2.2) hdone⟩
  unfold State.patchLoad
  rw [hl]
  dsimp only
  rw [if_pos hgo]
  generalize (if s.golden.toBase then s.golden.image else s.golden.patchImage) = img
  generalize (if s.golden.toBase then s.golden.base else s.golden.patch.getD {}) = id
  have hcond : (!s.golden.failing.contains l && readsBack img) = true ↔ readsBack img = true ∧ l ∉ s.golden.failing := by
    simp [and_comm]
  by_cases h : (!s.golden.failing.contains l && readsBack img) = true
  · obtain ⟨hok, hv⟩ := State.loadStores_good h id (!s.golden.toBase)
    obtain ⟨hd, hr, hm⟩ := hnext _ 0 (congrArg Prod.snd hv)
    rw [if_pos (hcond.1 h), hok, if_pos rfl, hd, hr, hm]
    exact ⟨rfl, rfl, congrArg (fun v => v.1.2.2) hv⟩
  · obtain ⟨hok, hv⟩ := State.loadStores_bad h id (!s.golden.toBase)
    have hf := (State.patchView_failLoad (s.loadStores l img id _ _).1 l l).trans hv
    obtain ⟨hd, hr, hm⟩ := hnext _ lLOADFAIL (congrArg Prod.snd hf)
    rw [if_neg (fun k => h (hcond.2 k)), hok, if_neg Bool.false_ne_true, hd, hr, hm]
    exact ⟨rfl, rfl, congrArg (fun v => v.1.2.2) hf⟩

end Load

/-- No patch runs where no structural operation does. -/
theorem State.patchOp_fresh {s : State} (hst : s.structural = false) (h : CmdRef) : ¬ (s.golden.patching && decide (s.golden.cmd = some h)) = true := by
  unfold State.structural at hst
  simp only [Bool.or_eq_false_iff] at hst
  simp [hst.2]

/-- A patch of one lane that can be loaded begins its load. -/
theorem State.patchNext_begins {s : State} {l : Nat} (hl : s.golden.loads = [l]) (hq : (s.lane l).quarantined = false)
    (hf : s.laneFree l = true) : s.patchNext ([l].length + 1) =
      { s.setLane l { s.lane l with loading := true } with golden := { s.golden with due := s.ns + loadTime } } := by
  have hm : (s.lane l).mapped = false := by
    unfold State.laneFree at hf
    simp only [Bool.and_eq_true, Bool.not_eq_true'] at hf
    exact hf.1.2
  unfold State.patchNext
  rw [hl]
  dsimp only
  rw [hq, hm, hf, if_neg (by decide), if_neg (by decide)]

/-- The image verified and written where it is not the base. -/
def State.patchWritten (s : State) (id : McId) (b : Bytes) : State :=
  if decide ((s.verified true).golden.base = id) then s.verified true else
    { (s.verified true).storeGolden (s.verified true).golden.at1 (patchComponent b) with
      golden := { (s.verified true).golden with patch := some id, patchImage := patchComponent b, patchSvn := imgSvn b },
      sec := { (s.verified true).sec with mc2Digest := Config.shake256 (patchComponent b) 64 } }

/-- The patch accepted for lane `l`, before its load. -/
def State.patchReady (s : State) (h : CmdRef) (l : Nat) (b : Bytes) (fl : List LaneId) : State :=
  let t := s.patchWritten (mcIdOf (imgVer b) (patchComponent b)) b
  { t with golden := { t.golden with patching := true, loads := [l],
                                     toBase := decide ((s.verified true).golden.base = mcIdOf (imgVer b) (patchComponent b)),
                                     results := [], cmd := some h, failing := fl.map (fun (f : LaneId) => f.val) } }

/-- An accepted patch leaves the lanes and the time as they were, and whether the lane can be loaded. -/
theorem State.patchReady_kept (s : State) (h : CmdRef) (l : Nat) (b : Bytes) (fl : List LaneId) :
    (s.patchReady h l b fl).lane l = s.lane l ∧ (s.patchReady h l b fl).laneFree l = s.laneFree l ∧ (s.patchReady h l b fl).ns = s.ns := by
  unfold State.patchReady State.patchWritten State.storeGolden
  dsimp only
  split
  · exact ⟨rfl, rfl, rfl⟩
  · split <;> exact ⟨rfl, rfl, rfl⟩

section Patch

variable {s : State} {h : CmdRef} {e : SubEntry} (hs : s.serves 0 = true) (hc : s.command h 0x73 = some e) (hst : s.structural = false)
include hs hc hst

theorem State.patchOp_unread (fl : List LaneId) : s.patchOp h none fl = s.finish h cHOST_DMA 0 [] := by
  refine State.runCmd_answers hs hc ?_
  dsimp only
  rw [if_neg (State.patchOp_fresh hst h), hst]
  rfl

theorem State.patchOp_refused {b : Bytes} (hb : s.hqe.bme = true)
    (hr : s.patchCode (b.take e.len.toNat) (lanesOf (e.param 0 8)) ≠ 0) (fl : List LaneId) :
    s.patchOp h (some b) fl = (s.verified (decide (s.patchCode (b.take e.len.toNat) (lanesOf (e.param 0 8)) ≠ 1))).finish h cREJECTED
      (s.patchCode (b.take e.len.toNat) (lanesOf (e.param 0 8))) [] := by
  refine State.runCmd_answers hs hc ?_
  dsimp only
  rw [if_neg (State.patchOp_fresh hst h), hst, if_neg Bool.false_ne_true]
  unfold State.withData
  dsimp only
  rw [if_pos hb, if_pos hr]
  rfl

theorem State.patchOp_begins {b : Bytes} (hb : s.hqe.bme = true)
    (hr : s.patchCode (b.take e.len.toNat) (lanesOf (e.param 0 8)) = 0) {l : Nat} (hl : lanesOf (e.param 0 8) = [l])
    (hq : (s.lane l).quarantined = false) (hf : s.laneFree l = true) (fl : List LaneId) :
    ((s.patchOp h (some b) fl).lane l).loading = true ∧ (s.patchOp h (some b) fl).golden.patching = true ∧
    (s.patchOp h (some b) fl).golden.loads = [l] ∧ (s.patchOp h (some b) fl).golden.due = s.ns + 1500 * us ∧
    (s.patchOp h (some b) fl).golden.cmd = some h := by
  have hop : s.patchOp h (some b) fl = (s.patchReady h l (b.take e.len.toNat) fl).patchNext ([l].length + 1) := by
    refine State.runCmd_goes_on hs hc ?_
    dsimp only
    rw [if_neg (State.patchOp_fresh hst h), hst, if_neg Bool.false_ne_true]
    unfold State.withData
    dsimp only
    rw [if_pos hb, hr, if_neg (not_not_intro rfl), hl]
    rfl
  obtain ⟨hlane, hfree, hns⟩ := s.patchReady_kept h l (b.take e.len.toNat) fl
  have hbegun := State.patchNext_begins (s := s.patchReady h l (b.take e.len.toNat) fl) (l := l) rfl (by rw [hlane]; exact hq)
    (by rw [hfree]; exact hf)
  rw [hop, hbegun, hns]
  exact ⟨congrArg Lane.loading (State.setLane_same ..), rfl, rfl, rfl, rfl⟩

end Patch

section Commands

variable {s : State} (hl : s.live = true) (l : LaneId)
include hl

theorem exec_machineCheck (k : MchkKind) : exec (.machineCheck l k) s = .next (s.after (s.mchkOp l.val k)) := by
  show execMachineCheck l k s = _
  exact act_of hl _ s

theorem exec_mchkService (golden b : Bool) : exec (.mchkService l golden b) s = .next (s.after (s.mchkServe l.val golden b)) := by
  show execMchkService l golden b s = _
  exact act_of hl _ s

theorem exec_goldenRebuildDone (a b : Bool) : exec (.goldenRebuildDone l a b) s = .next (s.after (s.rebuildDone l.val a b)) := by
  show execGoldenRebuildDone l a b s = _
  exact act_of hl _ s

end Commands

theorem exec_mcPatch {s : State} (hr : s.cmdsRun = true) (h : CmdRef) (d : HostData) (fl : List LaneId) :
    exec (.mcPatch h d fl) s = .next (s.after (s.patchOp h d fl)) := by
  show execMcPatch h d fl s = _
  exact act_of hr _ s

/-- Each kind of check halts the lane and records where. -/
theorem State.checked_lane (s : State) (l : Nat) (k : MchkKind) : ((s.checked l k).lane l).ms = .halted ∧
    ((s.checked l k).lane l).check = true ∧ ((s.checked l k).lane l).outcome = .none ∧ ((s.checked l k).fltSrc fLaneMchk).sticky = true ∧
    ((s.checked l k).lane l).mchk = (match k with
      | .parity nano a syn => b2n nano * 2 ^ 29 + syn.toNat * 2 ^ 13 + a.toNat
      | .stack a => 1 * 2 ^ 27 + a.toNat
      | .illegal a => 2 * 2 ^ 27 + a.toNat) := by
  cases k with
  | parity nano a syn =>
    rw [State.checked, State.machineCheck_lane]
    refine ⟨rfl, rfl, rfl, State.raise_sticky .., ?_⟩
    have ha := a.isLt
    have hs := syn.isLt
    simp only [cPARITY]
    omega
  | stack a =>
    rw [State.checked, State.machineCheck_lane]
    refine ⟨rfl, rfl, rfl, State.raise_sticky .., ?_⟩
    have ha := a.isLt
    simp only [cSTACK, b2n, Bool.false_eq_true, if_false]
    omega
  | illegal a =>
    rw [State.checked, State.machineCheck_lane]
    refine ⟨rfl, rfl, rfl, State.raise_sticky .., ?_⟩
    have ha := a.isLt
    simp only [cILLEGAL, b2n, Bool.false_eq_true, if_false]
    omega

/-- Settles O13: a check by its cause, its service by what is read back, and a patch by its verification. -/
theorem machineChecksAnswer : Obligations.MachineChecksAnswer := by
  unfold Obligations.MachineChecksAnswer
  refine ⟨fun l k s hl hf => ?check, fun l w s hl => ⟨fun hw ht hn => ?_, fun hw ht hr => ?_, fun hw hc b => ?_, fun hw hc => ?_⟩,
    fun l s hl hf => ?_, fun l s hl hh hc hr => ⟨fun b => ?_, fun b hw hj => ?service⟩, fun l a b s hl hr => ⟨fun h => ?rebuild, ?unread⟩,
    fun h d fl e s hcr hs hc hst hb => ⟨fun hd => ?_, fun b hd => ⟨fun hr => ?_, fun l hr hl hq hf => ?_⟩⟩,
    fun s l ls hl hls hp hload hd => ?load⟩
  case check =>
    refine ⟨_, exec_machineCheck hl l k, ?_⟩
    rw [State.mchkOp_eq hf]
    exact s.checked_lane l.val k
  · rw [exec_callMw hl, State.callOp, State.onWord_of_mword hw]
    simp only [ht, Bool.false_eq_true, if_false]
    rw [if_pos hn]
  · rw [exec_returnMw hl, State.returnOp, State.onWord_of_mword hw]
    simp only [ht, Bool.not_true, Bool.false_eq_true, if_false]
    rw [hr]
  · rw [exec_branchMw hl, State.branchOp, State.onWord_of_mword hw]
    dsimp only
    rw [if_pos hc]
  · rw [exec_endJob hl, State.endJobOp, State.onSpecial, State.onWord_of_mword hw, if_pos hc]
  · intro w hp b
    rw [exec_branchMw hl, State.branchOp, State.onWord_bad hf hp]
  · rw [exec_mchkService hl, State.mchkServe_eq hh hc hr, if_neg Bool.false_ne_true]
  case service =>
    refine ⟨_, exec_mchkService hl l true b, ?_⟩
    rw [State.mchkServe_eq hh hc hr, if_pos rfl, State.serveCheck_eq]
    have hkept := State.afterCheck_first (s := s.serviced l.val b) hj l.val l.val
    refine ⟨(congrArg (fun v => v.1.1) hkept).trans (State.serviced_run hw b), ?_⟩
    split
    next h =>
      obtain ⟨hms, hrec, hq⟩ := State.serviced_released hw h
      exact ⟨(congrArg (fun v => v.1.2.1) hkept).trans hms, (congrArg (fun v => v.1.2.2.1) hkept).trans hrec,
        (congrArg (fun v => v.1.2.2.2.1) hkept).trans hq⟩
    next h =>
      have hout := State.serviced_failed h
      exact ⟨(congrArg (fun v => v.1.2.2.2.1) hkept).trans (congrArg Prod.fst hout),
        (congrArg (fun v => v.1.2.2.2.2.1) hkept).trans (congrArg (fun v => v.2.1) hout)⟩
  case rebuild =>
    refine ⟨_, exec_goldenRebuildDone hl l a b, ?_⟩
    obtain ⟨hout, hsticky⟩ := State.rebuildDone_standing hr h b
    exact ⟨congrArg Prod.fst hout, hsticky⟩
  case unread =>
    refine ⟨_, exec_goldenRebuildDone hl l a false, ?_⟩
    have hout := State.rebuildDone_unread hr a
    exact ⟨congrArg Prod.fst hout, congrArg (fun v => v.2.2) hout⟩
  · rw [exec_mcPatch hcr, hd, State.patchOp_unread hs hc hst]
  · rw [exec_mcPatch hcr, hd, State.patchOp_refused hs hc hst hb hr]
  · exact ⟨_, exec_mcPatch hcr h d fl, by rw [hd]; exact State.patchOp_begins hs hc hst hb hr hl hq hf fl⟩
  case load => exact State.patchLoad_lane hl hls hp hload hd

end Sys2Proof.Machine
end

section
/-! SUPPORT. The counter of flushed copies (R291) at a command's end: of all that settles there, nothing counts in it. Events, completions,
buffers and copies first. -/

namespace Sys2Proof.Machine

open Sys2Proof

/-! ### The counter, and the counters beside it (R69, R291) -/

/-- The counter of the copies that QUEUE_CLOSE flushes: TMG counter 12. -/
def flushKey : Nat := cntKey bTMG 0 12

@[simp] abbrev State.flushes (s : State) : Nat := Tbl.get 0 s.cnt flushKey

theorem State.flushes_eq (s : State) : s.flushes = s.cntOf bTMG 0 12 := rfl

@[simp] theorem State.flushes_ite (a b : State) (c : Prop) [Decidable c] :
    (if c then a else b).flushes = if c then a.flushes else b.flushes := apply_ite State.flushes c a b

/-- A step of a fold that leaves the counter as it was. -/
def keepsFlushes {α : Type} (f : State → α → State) : Prop := ∀ (u : State) (a : α), (f u a).flushes = u.flushes

@[simp] theorem keepsFlushes_iff {α : Type} (f : State → α → State) :
    keepsFlushes f ↔ ∀ (u : State) (a : α), (f u a).flushes = u.flushes := Iff.rfl

@[simp] theorem State.flushes_foldl {α : Type} (f : State → α → State) (xs : List α) (t : State) (h : keepsFlushes f) :
    (xs.foldl f t).flushes = t.flushes :=
  foldl_keeps State.flushes f h xs t

theorem State.flushes_of_cntKept {s t : State} (h : s.cntKept t) : t.flushes = s.flushes := h.cntOf (b := bTMG) (u := 0) (n := 12) (.inr (by decide))

theorem State.flushes_bumpU (s : State) {b u n : Nat} (h : flushKey ≠ cntKey b u n) (k : Nat) : (s.bumpU b u n k).flushes = s.flushes :=
  Tbl.get_put_other 0 s.cnt _ h

/-- A counter of a block that comes before TMG. -/
theorem State.flushes_bumpU_before (s : State) {b n : Nat} (hb : b < bTMG) (hn : n < 64) (k : Nat) : (s.bumpU b 0 n k).flushes = s.flushes := by
  refine s.flushes_bumpU (fun h => ?_) k
  simp only [flushKey, cntKey, bTMG] at h hb
  omega

/-- A counter of a unit of a block that comes after TMG. -/
theorem State.flushes_bumpU_after (s : State) {b : Nat} (hb : bTMG < b) (u n k : Nat) : (s.bumpU b u n k).flushes = s.flushes := by
  refine s.flushes_bumpU (fun h => ?_) k
  simp only [flushKey, cntKey, bTMG] at h hb
  omega

section Blocks

variable (s : State) {n : Nat} (hn : n < 64) (u k : Nat)

@[simp] theorem State.flushes_bumpU_prt (m : Nat) : (s.bumpU bPRT u m k).flushes = s.flushes := s.flushes_bumpU_after (by decide) u m k
@[simp] theorem State.flushes_bumpU_cas (m : Nat) : (s.bumpU bCAS u m k).flushes = s.flushes := s.flushes_bumpU_after (by decide) u m k
@[simp] theorem State.flushes_bump_asm (m : Nat) : (s.bump bASM m).flushes = s.flushes := s.flushes_bumpU_after (by decide) 0 m 1
@[simp] theorem State.flushes_bump_msc (m : Nat) : (s.bump bMSC m).flushes = s.flushes := s.flushes_bumpU_after (by decide) 0 m 1
@[simp] theorem State.flushes_bump_tmg11 : (s.bump bTMG 11).flushes = s.flushes := s.flushes_bumpU (by decide) 1
@[simp] theorem State.flushes_bumpU_swc0 : (s.bumpU bSWC 0 0 k).flushes = s.flushes := s.flushes_bumpU_before (by decide) (by decide) k
@[simp] theorem State.flushes_bumpU_dma0 : (s.bumpU bDMA 0 0 k).flushes = s.flushes := s.flushes_bumpU_before (by decide) (by decide) k

include hn

@[simp] theorem State.flushes_bump_plt : (s.bump bPLT n).flushes = s.flushes := s.flushes_bumpU_before (by decide) hn 1
@[simp] theorem State.flushes_bump_sec : (s.bump bSEC n).flushes = s.flushes := s.flushes_bumpU_before (by decide) hn 1
@[simp] theorem State.flushes_bump_hqe : (s.bump bHQE n).flushes = s.flushes := s.flushes_bumpU_before (by decide) hn 1
@[simp] theorem State.flushes_bump_evc : (s.bump bEVC n).flushes = s.flushes := s.flushes_bumpU_before (by decide) hn 1
@[simp] theorem State.flushes_bump_dma : (s.bump bDMA n).flushes = s.flushes := s.flushes_bumpU_before (by decide) hn 1
@[simp] theorem State.flushes_bump_bpm : (s.bump bBPM n).flushes = s.flushes := s.flushes_bumpU_before (by decide) hn 1
@[simp] theorem State.flushes_bump_swc : (s.bump bSWC n).flushes = s.flushes := s.flushes_bumpU_before (by decide) hn 1

end Blocks

/-! ### Events, faults and completions (R376, R396, R450) -/

section Posts

variable (s : State)

@[simp] theorem State.flushes_event (e : Ev) (c d : Nat) : (s.event e c d).flushes = s.flushes := State.flushes_of_cntKept (by simp)
@[simp] theorem State.flushes_deassertSrc (n : Nat) : (s.deassertSrc n).flushes = s.flushes := State.flushes_of_cntKept (by simp)
@[simp] theorem State.flushes_assign (n : Nat) : (s.assign n).flushes = s.flushes := State.flushes_of_cntKept (by simp)
@[simp] theorem State.flushes_deliver (k n : Nat) : (s.deliver k n).flushes = s.flushes := State.flushes_of_cntKept (by simp)
@[simp] theorem State.flushes_raise (a b c : Nat) : (s.raise a b c).flushes = s.flushes := State.flushes_of_cntKept (by simp)
@[simp] theorem State.flushes_decideFault (a b : Nat) (c : Bool) : (s.decideFault a b c).flushes = s.flushes := State.flushes_of_cntKept (by simp)
@[simp] theorem State.flushes_thresholds (p : Nat) : (s.thresholds p).flushes = s.flushes := State.flushes_of_cntKept (by simp)
@[simp] theorem State.flushes_eqPost (q a b c d e : Nat) : (s.eqPost q a b c d e).flushes = s.flushes := State.flushes_of_cntKept (by simp)
@[simp] theorem State.flushes_eqStat (q : Nat) : (s.eqStat q).flushes = s.flushes := State.flushes_of_cntKept (by simp)
@[simp] theorem State.flushes_toHost (a : Nat) (b : Bytes) : (s.toHost a b).flushes = s.flushes := State.flushes_of_cntKept (by simp)
@[simp] theorem State.flushes_assertReplace : s.assertReplace.flushes = s.flushes := rfl

@[simp] theorem State.flushes_ringStat (r : Nat) : (s.ringStat r).flushes = s.flushes := by
  simp [State.ringStat]

@[simp] theorem State.flushes_complete0 (r : Nat) (e : SubEntry) (st d : Nat) (b : Bytes) : (s.complete0 r e st d b).flushes = s.flushes := by
  simp [State.complete0, State.writeCpl]

@[simp] theorem State.flushes_stopRing (r n : Nat) : (s.stopRing r n).flushes = s.flushes := by
  simp [State.stopRing]

end Posts

@[simp] theorem State.flushes_pumpN (s : State) (r fuel : Nat) : (s.pumpN r fuel).flushes = s.flushes := by
  induction fuel generalizing s with
  | zero => rfl
  | succ fuel ih =>
    unfold State.pumpN
    dsimp only
    split
    · rfl
    · split <;> simp
    · split
      · rfl
      · split
        · simp
        · split
          · rfl
          · rw [ih]
            simp

section Completions

variable (s : State)

@[simp] theorem State.flushes_complete (r : Nat) (e : SubEntry) (st d : Nat) (b : Bytes) : (s.complete r e st d b).flushes = s.flushes := by
  simp [State.complete, State.pump]

@[simp] theorem State.flushes_finish (c : CmdRef) (st d : Nat) (b : Bytes) : (s.finish c st d b).flushes = s.flushes := by
  unfold State.finish
  split <;> simp

@[simp] theorem State.flushes_holdRings : s.holdRings.flushes = s.flushes := by
  simp [State.holdRings]

end Completions

/-! ### Buffers (R342 to R350) -/

section Buffers

variable (s : State)

@[simp] theorem State.flushes_doubleFree (o a : Nat) (h : W32) : (s.doubleFree o a h).flushes = s.flushes := by
  simp [State.doubleFree]

@[simp] theorem State.flushes_alloc (a p n : Nat) (b : Bool) : (s.alloc a p n b).1.flushes = s.flushes := by
  unfold State.alloc
  dsimp only
  split
  · simp
  · split <;> simp

@[simp] theorem State.flushes_takeMany (a p c : Nat) (b : Bool) (n : Nat) : (s.takeMany a p c b n).1.flushes = s.flushes := by
  induction n generalizing s with
  | zero => rfl
  | succ n ih =>
    unfold State.takeMany
    dsimp only
    split
    · simp
    · exact (ih _).trans (s.flushes_alloc ..)

@[simp] theorem State.flushes_allocMany (a p c : Nat) (b : Bool) (n : Nat) : (s.allocMany a p c b n).1.flushes = s.flushes := by
  unfold State.allocMany
  dsimp only
  split <;> simp [State.nullReturn]

@[simp] theorem State.flushes_decRef (a : Nat) (h : W32) : (s.decRef a h).flushes = s.flushes := by
  simp [State.decRef, State.dropRef, State.freeBuf]

@[simp] theorem State.flushes_aliasGone (a : Nat) (h : W32) : (s.aliasGone a h).flushes = s.flushes := by
  simp [State.aliasGone, State.setFrame]

@[simp] theorem State.flushes_decRefA (a : Nat) (h : W32) : (s.decRefA a h).flushes = s.flushes := by
  simp [State.decRefA, State.freeing]

@[simp] theorem State.flushes_withhold (pg : Nat) : (s.withhold pg).flushes = s.flushes := by
  simp [State.withhold]

@[simp] theorem State.flushes_store (a : Nat) (b : Bytes) : (s.store a b).flushes = s.flushes := rfl

end Buffers

/-! ### Copies, queues and the resequencer (R275 to R285) -/

section Copies

variable (s : State)

@[simp] theorem State.flushes_writeCells (n : Nat) (h b : List W32) (k : Bool) : (s.writeCells n h b k).flushes = s.flushes := by
  unfold State.writeCells
  dsimp only
  rw [State.flushes_bumpU_swc0]

@[simp] theorem State.flushes_pfcSync (p : Nat) : (s.pfcSync p).flushes = s.flushes := by
  unfold State.pfcSync
  simp

@[simp] theorem State.flushes_returnCredit (c : Copy) : (s.returnCredit c).flushes = s.flushes := by
  unfold State.returnCredit
  split <;> rfl

@[simp] theorem State.flushes_subIng (p c n : Nat) : (s.subIng p c n).flushes = s.flushes := rfl

@[simp] theorem State.flushes_dropAcct (c : Copy) : (s.dropAcct c).flushes = s.flushes := by
  simp [State.dropAcct]

@[simp] theorem State.flushes_releaseCells (c : Copy) : (s.releaseCells c).flushes = s.flushes := by
  simp [State.releaseCells]

@[simp] theorem State.flushes_dropCopy (i : Nat) : (s.dropCopy i).flushes = s.flushes := by
  unfold State.dropCopy
  dsimp only
  rw [State.flushes_releaseCells, State.flushes_dropAcct]
  split <;> rfl

@[simp] theorem State.flushes_discardCopy (i : Nat) : (s.discardCopy i).flushes = s.flushes := by
  unfold State.discardCopy
  dsimp only
  split <;> simp [State.setHeld]

@[simp] theorem State.flushes_discardDown (i : Nat) : (s.discardDown i).flushes = s.flushes := by
  simp [State.discardDown]

@[simp] theorem State.flushes_join (i : Nat) (a : Bool × Nat × Nat) : (s.join i a).flushes = s.flushes := by
  unfold State.join State.addAcct
  dsimp only
  split <;> simp

@[simp] theorem State.flushes_arrive (i : Nat) : (s.arrive i).1.flushes = s.flushes := by
  unfold State.arrive
  dsimp only
  split
  · rfl
  · split
    · simp
    · split
      · simp
      · split
        · simp
        · split <;> split <;> simp [State.setLayby]

@[simp] theorem State.flushes_leaveLayby (d c i : Nat) : (s.leaveLayby d c i).flushes = s.flushes := rfl

@[simp] theorem State.flushes_flushDest (d : Nat) : (s.flushDest d).flushes = s.flushes := by
  unfold State.flushDest
  dsimp only
  split
  · split <;> simp
  · simp

@[simp] theorem State.flushes_dropMedia (d : Nat) : (s.dropMedia d).flushes = s.flushes := by
  unfold State.dropMedia
  refine State.flushes_foldl _ _ _ fun u i => ?_
  dsimp only
  split
  · rfl
  · split <;> simp

@[simp] theorem State.flushes_rsqDiscard (k i : Nat) : (s.rsqDiscard k i).flushes = s.flushes := by
  simp [State.rsqDiscard]

@[simp] theorem State.flushes_rsqPass (k : Nat) (c : SeqCell) : (s.rsqPass k c).flushes = s.flushes := by
  unfold State.rsqPass
  simp

@[simp] theorem State.flushes_rsqDrain (k fuel : Nat) : (s.rsqDrain k fuel).flushes = s.flushes := by
  induction fuel generalizing s with
  | zero => rfl
  | succ fuel ih =>
    unfold State.rsqDrain
    dsimp only
    split
    · rw [ih]
      simp
    · rfl

@[simp] theorem State.flushes_rsqTimer (k : Nat) : (s.rsqTimer k).flushes = s.flushes := rfl

@[simp] theorem State.flushes_rsqDeclare (k e : Nat) : (s.rsqDeclare k e).flushes = s.flushes := by
  simp [State.rsqDeclare]

@[simp] theorem State.flushes_rsqGap (k : Nat) : (s.rsqGap k).flushes = s.flushes := by
  unfold State.rsqGap
  dsimp only
  split <;> simp

@[simp] theorem State.flushes_rsqTreat (k : Nat) (c : SeqCell) (fuel : Nat) : (s.rsqTreat k c fuel).flushes = s.flushes := by
  induction fuel generalizing s with
  | zero => rfl
  | succ fuel ih =>
    unfold State.rsqTreat
    simp [ih]

@[simp] theorem State.flushes_rsqCell (c : SeqCell) : (s.rsqCell c).flushes = s.flushes := by
  simp [State.rsqCell]

@[simp] theorem State.flushes_closeIfEmpty (q : Nat) : (s.closeIfEmpty q).flushes = s.flushes := by
  unfold State.closeIfEmpty
  dsimp only
  split
  · split
    · split <;> simp
    · simp
  · rfl

@[simp] theorem State.flushes_closeEmpty : s.closeEmpty.flushes = s.flushes := by
  simp [State.closeEmpty]

end Copies

end Sys2Proof.Machine
end

section
/-! SUPPORT. The counter of flushed copies (R291), continued: the Imnunis links, ports, lanes, pictures, sessions and transfers. -/

namespace Sys2Proof.Machine

open Sys2Proof

/-! ### Links and ports (R310, R328, R335) -/

section Links

variable (s : State)

@[simp] theorem State.flushes_initChannel (c : DepChan) : (s.initChannel c).flushes = s.flushes := by
  cases c <;> rfl

@[simp] theorem State.flushes_startCredits (f : DepChan → Bool) : (s.startCredits f).flushes = s.flushes := by
  simp [State.startCredits]

@[simp] theorem State.flushes_leaveUp (p : Nat) : (s.leaveUp p).flushes = s.flushes := by
  simp [State.leaveUp]

@[simp] theorem State.flushes_toPhase (p : Nat) (ph : LinkPh) : (s.toPhase p ph).flushes = s.flushes := by
  simp [State.toPhase]

@[simp] theorem State.flushes_wakeBlock (b : Nat) : (s.wakeBlock b).flushes = s.flushes := by
  simp [State.wakeBlock]

@[simp] theorem State.flushes_credited (l : Nat) : (s.credited l).flushes = s.flushes := rfl

@[simp] theorem State.flushes_linkPump (l fuel : Nat) : (s.linkPump l fuel).flushes = s.flushes := by
  induction fuel generalizing s with
  | zero => rfl
  | succ fuel ih =>
    unfold State.linkPump
    dsimp only
    split
    · rfl
    · split
      · rfl
      · rw [ih]
        simp [State.bumpLink]

@[simp] theorem State.flushes_tell (l vc : Nat) (m : MeshMsg) : (s.tell l vc m).flushes = s.flushes := by
  simp [State.tell, State.linkSend]

@[simp] theorem State.flushes_tellStream (d : Nat) (b : Bool) : (s.tellStream d b).flushes = s.flushes := by
  simp [State.tellStream]

theorem State.flushes_mediaCopy {s t : State} {l i : Nat} {m : MediaCell} (h : s.mediaCopy l m = some (t, i)) : t.flushes = s.flushes := by
  unfold State.mediaCopy at h
  dsimp only at h
  split at h
  · cases h
    rfl
  · split at h
    · cases h
    · cases h
      simp [State.newCopy]

theorem State.flushes_mediaRx {s t : State} {l : Nat} {m : MediaCell} (h : s.mediaRx l m = some t) : t.flushes = s.flushes := by
  unfold State.mediaRx at h
  split at h
  · cases h
  next u i hcopy =>
    cases h
    rw [State.flushes_rsqCell, ← State.flushes_mediaCopy hcopy]
    simp

@[simp] theorem State.flushes_mediaTake (l fuel : Nat) : (s.mediaTake l fuel).flushes = s.flushes := by
  induction fuel generalizing s with
  | zero => rfl
  | succ fuel ih =>
    unfold State.mediaTake
    split
    · rfl
    · split
      · rfl
      next u hrx => rw [ih, ← State.flushes_mediaRx hrx]; rfl

@[simp] theorem State.flushes_linkReturn (l : Nat) : (s.linkReturn l).flushes = s.flushes := by
  simp [State.linkReturn, State.mediaFreed, State.linkAck]

@[simp] theorem State.flushes_digestCompare (l : Nat) (b : Bool) : (s.digestCompare l b).flushes = s.flushes := by
  simp [State.digestCompare]

@[simp] theorem State.flushes_linkTrain (l : Nat) : (s.linkTrain l).flushes = s.flushes := rfl

@[simp] theorem State.flushes_linkDown (l : Nat) : (s.linkDown l).flushes = s.flushes := by
  simp [State.linkDown]

end Links

/-! ### Lanes and their jobs (R74, R109, R115) -/

section Lanes

variable (s : State)

@[simp] theorem State.flushes_wakeLane (l : Nat) : (s.wakeLane l).flushes = s.flushes := by
  simp [State.wakeLane]

@[simp] theorem State.flushes_gateLane (l : Nat) : (s.gateLane l).flushes = s.flushes := by
  simp [State.gateLane]

@[simp] theorem State.flushes_endRun (l : Nat) : (s.endRun l).flushes = s.flushes := rfl

@[simp] theorem State.flushes_initLane (l : Nat) : (s.initLane l).flushes = s.flushes := rfl

@[simp] theorem State.flushes_loadStores (l : Nat) (b : Bytes) (i : McId) (c ok : Bool) : (s.loadStores l b i c ok).1.flushes = s.flushes := by
  unfold State.loadStores
  dsimp only
  split <;> simp

@[simp] theorem State.flushes_showMc : s.showMc.flushes = s.flushes := by
  unfold State.showMc
  dsimp only
  split <;> rfl

@[simp] theorem State.flushes_promotePatch : s.promotePatch.flushes = s.flushes := by
  unfold State.promotePatch
  split
  · simp
  · rfl

@[simp] theorem State.flushes_putJob (j : Job) : (s.putJob j).flushes = s.flushes := rfl

@[simp] theorem State.flushes_returnJob (j : Job) : (s.returnJob j).flushes = s.flushes := by
  simp [State.returnJob]

@[simp] theorem State.flushes_unqueue (l : Nat) : (s.unqueue l).flushes = s.flushes := by
  simp [State.unqueue]

@[simp] theorem State.flushes_returnRun (l : Nat) : (s.returnRun l).flushes = s.flushes := by
  unfold State.returnRun
  split <;> simp

@[simp] theorem State.flushes_quarantine (l : Nat) : (s.quarantine l).flushes = s.flushes := by
  simp [State.quarantine]

@[simp] theorem State.flushes_failLoad (l : Nat) : (s.failLoad l).flushes = s.flushes := by
  simp [State.failLoad]

end Lanes

/-! ### Contexts (R135, R155, R166, R181) -/

section Contexts

variable (s : State)

@[simp] theorem State.flushes_incCf (r o n k : Nat) : (s.incCf r o n k).flushes = s.flushes := rfl

@[simp] theorem State.flushes_setCfI (r o n : Nat) (x : Int) : (s.setCfI r o n x).flushes = s.flushes := rfl

@[simp] theorem State.flushes_restartRefresh (r : Nat) : (s.restartRefresh r).flushes = s.flushes := by
  simp [State.restartRefresh]

@[simp] theorem State.flushes_restartFor (d r : Nat) : (s.restartFor d r).flushes = s.flushes := by
  simp [State.restartFor]

@[simp] theorem State.flushes_showSusp (d : Nat) : (s.showSusp d).flushes = s.flushes := by
  unfold State.showSusp
  dsimp only
  split <;> simp

@[simp] theorem State.flushes_suspFrom (d : Nat) : (s.suspFrom d).flushes = s.flushes := by
  simp [State.suspFrom]

@[simp] theorem State.flushes_suspEnd (d : Nat) : (s.suspEnd d).flushes = s.flushes := by
  simp [State.suspEnd]

@[simp] theorem State.flushes_replaceAll : s.replaceAll.flushes = s.flushes := by
  unfold State.replaceAll
  rw [State.flushes_event]
  refine State.flushes_foldl _ _ _ fun u r => ?_
  extract_lets old u' pick v
  have hv : v.flushes = u.flushes := by simp [v, u']
  rw [State.flushes_ite]
  split
  · exact hv
  · generalize pick = o
    cases o <;> simpa using hv

@[simp] theorem State.flushes_setSuspended (r : Nat) (b : Bool) : (s.setSuspended r b).flushes = s.flushes := by
  simp [State.setSuspended]

@[simp] theorem State.flushes_resume (r : Nat) : (s.resume r).flushes = s.flushes := by
  simp [State.resume]

end Contexts

/-! ### Segments held and assembled (R222, R246) -/

section Assembly

variable (s : State)

@[simp] theorem State.flushes_dropShare (u : Nat) (p : PktD) : (s.dropShare u p).flushes = s.flushes := by
  unfold State.dropShare
  split <;> simp

@[simp] theorem State.flushes_releaseHold (k : Nat) : (s.releaseHold k).flushes = s.flushes := by
  unfold State.releaseHold
  split
  · rfl
  · dsimp only
    split <;> simp

@[simp] theorem State.flushes_releaseHolds (d : Nat) : (s.releaseHolds d).flushes = s.flushes := by
  simp [State.releaseHolds]

@[simp] theorem State.flushes_dropSegs (d : Nat) : (s.dropSegs d).flushes = s.flushes := by
  simp [State.dropSegs]

@[simp] theorem State.flushes_earlyRelease (fuel : Nat) : (s.earlyRelease fuel).flushes = s.flushes := by
  induction fuel generalizing s with
  | zero => rfl
  | succ fuel ih =>
    unfold State.earlyRelease
    split
    · rfl
    · split
      · rfl
      · rw [ih]
        simp

@[simp] theorem State.flushes_rtxPressure : s.rtxPressure.flushes = s.flushes := by
  simp [State.rtxPressure]

@[simp] theorem State.flushes_setDests (t : Nat) (l : List Dest) : (s.setDests t l).flushes = s.flushes := rfl

@[simp] theorem State.flushes_countMembers : s.countMembers.flushes = s.flushes := by
  simp [State.countMembers]

@[simp] theorem State.flushes_leaveTiles (d : Nat) : (s.leaveTiles d).flushes = s.flushes := by
  simp [State.leaveTiles]

@[simp] theorem State.flushes_rejoin (d : Nat) : (s.rejoin d).flushes = s.flushes := by
  unfold State.rejoin State.joinAt
  split <;> simp

@[simp] theorem State.flushes_applyLayout (d : Nat) (l : List (Nat × Bytes)) : (s.applyLayout d l).flushes = s.flushes := by
  simp [State.applyLayout]

end Assembly

/-! ### Erelm sessions (R246 to R248) -/

section Sessions

variable (s : State)

@[simp] theorem State.flushes_esCount (d i k : Nat) : (s.esCount d i k).flushes = s.flushes := rfl

@[simp] theorem State.flushes_sendRaw (d t q : Nat) (u : Bool) (p : Bytes) : (s.sendRaw d t q u p).flushes = s.flushes := by
  unfold State.sendRaw State.newCopy
  dsimp only
  split <;> simp

@[simp] theorem State.flushes_pumpEs (d fuel : Nat) : (s.pumpEs d fuel).flushes = s.flushes := by
  induction fuel generalizing s with
  | zero => rfl
  | succ fuel ih =>
    unfold State.pumpEs
    dsimp only
    split
    · rfl
    · split
      · rfl
      · rw [ih]
        simp

@[simp] theorem State.flushes_sendRel (d t : Nat) (p : Bytes) : (s.sendRel d t p).flushes = s.flushes := by
  simp [State.sendRel]

@[simp] theorem State.flushes_closeDone (d : Nat) : (s.closeDone d).flushes = s.flushes := by
  unfold State.closeDone
  dsimp only
  split
  · split
    · split
      · rw [State.flushes_complete]
        split <;> simp
      · split <;> simp
    · split <;> simp
  · simp

@[simp] theorem State.flushes_endStream (d : Nat) : (s.endStream d).flushes = s.flushes := by
  simp [State.endStream]

@[simp] theorem State.flushes_commitTo (d a r : Nat) : (s.commitTo d a r).flushes = s.flushes := by
  simp [State.commitTo, State.commitSlack]

@[simp] theorem State.flushes_dueLayouts : s.dueLayouts.flushes = s.flushes := by
  simp [State.dueLayouts]

@[simp] theorem State.flushes_closeEs (d r : Nat) (c : Option CmdRef) : (s.closeEs d r c).flushes = s.flushes := by
  simp [State.closeEs]

end Sessions

/-! ### Transfers (R404 to R410) -/

section Transfers

variable (s : State)

@[simp] theorem State.flushes_dmaRelease (c : Nat) : (s.dmaRelease c).flushes = s.flushes := by
  simp [State.dmaRelease]

@[simp] theorem State.flushes_dmaMove (c n : Nat) (b : Bytes) : (s.dmaMove c n b).flushes = s.flushes := by
  simp [State.dmaMove]

@[simp] theorem State.flushes_dmaStop (c n : Nat) : (s.dmaStop c n).flushes = s.flushes := by
  simp [State.dmaStop]

@[simp] theorem State.flushes_dmaPace : s.dmaPace.flushes = s.flushes := by
  unfold State.dmaPace
  refine State.flushes_foldl _ _ _ fun u e => ?_
  dsimp only
  split
  · rfl
  · split <;> simp

end Transfers

end Sys2Proof.Machine
end

section
/-! SUPPORT. The counter of flushed copies (R291), continued: resets of units, start-up and the module's own resets. -/

namespace Sys2Proof.Machine

open Sys2Proof

/-! ### Reset of one unit (R57) -/

section UnitResets

variable (s : State)

theorem flushKey_ne_lane (l n : Nat) (hn : n < 64) : flushKey ≠ cntKey bLAN l n := by
  intro h
  simp only [flushKey, cntKey, bTMG, bLAN] at h
  omega

@[simp] theorem State.flushes_resetLane (l : Nat) : (s.resetLane l).flushes = s.flushes := by
  unfold State.resetLane
  dsimp only
  have step : ∀ (u : State) (xs : List Nat), (∀ n ∈ xs, n < 8) →
      (xs.foldl (fun s n => { s with cnt := Tbl.put s.cnt (cntKey bLAN (l + 1) n) 0 }) u).flushes = u.flushes := by
    intro u xs hxs
    induction xs generalizing u with
    | nil => rfl
    | cons n xs ih =>
      have hn := hxs n (by simp)
      rw [List.foldl_cons, ih _ fun m hm => hxs m (by simp [hm])]
      exact Tbl.get_put_other 0 u.cnt _ (flushKey_ne_lane _ _ (by omega))
  rw [step _ _ fun n => List.mem_range.mp]
  simp

@[simp] theorem State.flushes_resetPipe (p : Nat) : (s.resetPipe p).flushes = s.flushes := by
  unfold State.resetPipe
  split <;> simp

@[simp] theorem State.flushes_resetPort (p : Nat) : (s.resetPort p).flushes = s.flushes := by
  simp [State.resetPort]

@[simp] theorem State.flushes_resetChan (c : Nat) : (s.resetChan c).flushes = s.flushes := rfl

@[simp] theorem State.flushes_resetLink (l : Nat) : (s.resetLink l).flushes = s.flushes := by
  simp [State.resetLink]

@[simp] theorem State.flushes_resetHqe : s.resetHqe.flushes = s.flushes := by
  simp [State.resetHqe]

@[simp] theorem State.flushes_resetMem : s.resetMem.flushes = s.flushes := by
  simp [State.resetMem]

@[simp] theorem State.flushes_resetBpm : s.resetBpm.flushes = s.flushes := rfl

@[simp] theorem State.flushes_pfcSyncAll : s.pfcSyncAll.flushes = s.flushes := by
  simp [State.pfcSyncAll]

@[simp] theorem State.flushes_resetSwc : s.resetSwc.flushes = s.flushes := by
  simp [State.resetSwc]

@[simp] theorem State.flushes_resetTmg : s.resetTmg.flushes = s.flushes := by
  simp [State.resetTmg]

@[simp] theorem State.flushes_resetMsc : s.resetMsc.flushes = s.flushes := by
  unfold State.resetMsc
  dsimp only
  rw [State.flushes_foldl _ _ _ fun u e => by split <;> simp]
  simp

@[simp] theorem State.flushes_resetAsm : s.resetAsm.flushes = s.flushes := by
  have slices (a : Nat) (hs : List W32) (u : State) : (hs.foldl (fun s h => s.decRef a h) u).flushes = u.flushes := by simp
  simp [State.resetAsm, slices]

@[simp] theorem State.flushes_resetSec : s.resetSec.flushes = s.flushes := rfl

@[simp] theorem State.flushes_unitReset (k : Nat) : (s.unitReset k).flushes = s.flushes := by
  simp [State.unitReset]

@[simp] theorem State.flushes_restartState (k : Nat) : (s.restartState k).flushes = s.flushes := by
  simp [State.restartState]

@[simp] theorem State.flushes_resetUnits : s.resetUnits.flushes = s.flushes := by
  simp [State.resetUnits]

end UnitResets

/-! ### The waymap's sections (R415, R418) -/

section Waymap

variable (s : State)

@[simp] theorem State.flushes_writeFlash (a n : Nat) (b : Bytes) : (s.writeFlash a n b).flushes = s.flushes := rfl

@[simp] theorem State.flushes_reassign : s.reassign.flushes = s.flushes := by
  unfold State.reassign
  refine State.flushes_foldl _ _ _ fun u n => ?_
  split
  · split <;> simp
  · rfl

@[simp] theorem State.flushes_applyPools (a b : Bytes) : (s.applyPools a b).flushes = s.flushes := by
  unfold State.applyPools
  dsimp only
  rw [State.flushes_foldl _ _ _ fun u r => by split <;> simp]

@[simp] theorem State.flushes_applyLane (b : Bytes) (l : Nat) : (s.applyLane b l).flushes = s.flushes := rfl

@[simp] theorem State.flushes_applyBlock (b : Bytes) (i : Nat) : (s.applyBlock b i).flushes = s.flushes := by
  simp [State.applyBlock]

@[simp] theorem State.flushes_applySwbuf (b : Bytes) : (s.applySwbuf b).flushes = s.flushes := rfl

@[simp] theorem State.flushes_applyEvents (b : Bytes) : (s.applyEvents b).flushes = s.flushes := by
  simp [State.applyEvents]

@[simp] theorem State.flushes_applyServices (b : Bytes) : (s.applyServices b).flushes = s.flushes := by
  simp [State.applyServices, State.setCpu]

@[simp] theorem State.flushes_applyCascade (c : Nat) : (s.applyCascade c).flushes = s.flushes := rfl

@[simp] theorem State.flushes_applyChandep (b : Bytes) : (s.applyChandep b).flushes = s.flushes := by
  simp [State.applyChandep]

@[simp] theorem State.flushes_applySections (l : List WmSec) (m c : Nat) (d : Option (Bytes × Bytes)) :
    (s.applySections l m c d).flushes = s.flushes := by
  unfold State.applySections
  cases d <;> simp

@[simp] theorem State.flushes_publishWm (b : Bytes) : (s.publishWm b).flushes = s.flushes := rfl

@[simp] theorem State.flushes_applyFallback : s.applyFallback.flushes = s.flushes := by
  simp [State.applyFallback]

@[simp] theorem State.flushes_startLinks : s.startLinks.flushes = s.flushes := by
  simp [State.startLinks]

@[simp] theorem State.flushes_applySlot (k : Nat) : (s.applySlot_ k).flushes = s.flushes := by
  unfold State.applySlot_
  dsimp only
  split
  · simp
  · split <;> simp

@[simp] theorem State.flushes_bump_b2n (b : Bool) : (s.bump bSEC (b2n b)).flushes = s.flushes :=
  s.flushes_bump_sec (by cases b <;> decide)

@[simp] theorem State.flushes_selectSlot : s.selectSlot.flushes = s.flushes := by
  unfold State.selectSlot
  dsimp only
  split <;> simp

end Waymap

/-! ### Start-up and the module's own reset (R411, R432, R461) -/

section StartUp

variable (s : State)

@[simp] theorem State.flushes_bootVerify : s.bootVerify.flushes = s.flushes := by
  simp [State.bootVerify]

@[simp] theorem State.flushes_memStart (f : List ChanId) : (s.memStart f).flushes = s.flushes := by
  simp [State.memStart]

@[simp] theorem State.flushes_storeGolden (a : Nat) (b : Bytes) : (s.storeGolden a b).flushes = s.flushes := by
  simp [State.storeGolden]

@[simp] theorem State.flushes_placeBase : s.placeBase.flushes = s.flushes := by
  simp [State.placeBase]

@[simp] theorem State.flushes_microStart (f : List LaneId) : (s.microStart f).flushes = s.flushes := by
  simp [State.microStart]

@[simp] theorem State.flushes_hostStart : s.hostStart.flushes = s.flushes := by
  simp [State.hostStart]

@[simp] theorem State.flushes_bootFrom2 (b : BoardInputs) : (s.bootFrom2 b).flushes = s.flushes := by
  simp [State.bootFrom2]

/-- The counters of all blocks but the platform's are cleared. -/
@[simp] theorem State.flushes_blank : s.blank.flushes = 0 := by
  have none : Tbl.find s.blank.cnt flushKey = none := by
    refine Option.eq_none_iff_forall_ne_some.mpr fun v hv => ?_
    have kept := (List.mem_filter.mp (Tbl.mem_of_find hv)).2
    exact absurd kept (by simp [flushKey, cntKey, bTMG, bPLT, bSEC])
  simp [Tbl.get, none]

@[simp] theorem State.flushes_moduleReset (b : BoardInputs) : (s.moduleReset b).flushes = 0 := by
  simp [State.moduleReset, - State.flushes]

theorem State.flushes_resetDue (h : s.flushes = 0) : s.resetDue.flushes = 0 := by
  unfold State.resetDue
  split
  · exact s.flushes_moduleReset _
  · exact h

@[simp] theorem State.flushes_replaceDue : s.replaceDue.flushes = s.flushes := by
  simp [State.replaceDue]

theorem State.flushes_settle (h : s.flushes = 0) : s.settle.flushes = 0 := by
  refine State.flushes_resetDue _ ?_
  simpa using h

end StartUp

end Sys2Proof.Machine
end

section
/-! SUPPORT. The counter of flushed copies (R291), continued: detours, idle timers, power states and the messages between modules, and the
end of a command, which leaves it 0 where it was. -/

namespace Sys2Proof.Machine

open Sys2Proof

/-! ### Detours and idle timers (R423, R441) -/

section Detours

variable (s : State)

@[simp] theorem State.flushes_verified (ok : Bool) : (s.verified ok).flushes = s.flushes :=
  s.flushes_bump_sec (by cases ok <;> decide)

@[simp] theorem State.flushes_setDet (p r : Nat) : (s.setDet p r).flushes = s.flushes := rfl

@[simp] theorem State.flushes_startDetour (b : Bytes) (c : Option CmdRef) : (s.startDetour b c).1.flushes = s.flushes := by
  unfold State.startDetour
  split <;> simp

@[simp] theorem State.flushes_enableDeferred (p : Nat) : (s.enableDeferred p).flushes = s.flushes := by
  simp [State.enableDeferred]

@[simp] theorem State.flushes_detourAbort : s.detourAbort.flushes = s.flushes := by
  unfold State.detourAbort
  dsimp only
  split
  · rfl
  · split <;> simp

@[simp] theorem State.flushes_detourWatch : s.detourWatch.flushes = s.flushes := by
  simp [State.detourWatch]

@[simp] theorem State.flushes_idleLane (l : Nat) : (s.idleLane l).flushes = s.flushes := by
  simp [State.idleLane]

@[simp] theorem State.flushes_idlePipe (p : Nat) : (s.idlePipe p).flushes = s.flushes := by
  simp [State.idlePipe]

@[simp] theorem State.flushes_idleTimers : s.idleTimers.flushes = s.flushes := by
  simp [State.idleTimers]

end Detours

/-! ### Power states (R438 to R445) -/

section Power

variable (s : State)

@[simp] theorem State.flushes_restartUnits (l : List Nat) : (s.restartUnits l).flushes = s.flushes := by
  simp [State.restartUnits]

@[simp] theorem State.flushes_askBlock (b : Nat) : (s.askBlock b).flushes = s.flushes := by
  simp [State.askBlock]

@[simp] theorem State.flushes_restartBlock (b : Nat) : (s.restartBlock b).flushes = s.flushes := by
  simp [State.restartBlock]

@[simp] theorem State.flushes_restartBlocks (l : List Nat) : (s.restartBlocks l).flushes = s.flushes :=
  State.flushes_foldl _ _ _ fun u b => u.flushes_restartBlock b

@[simp] theorem State.flushes_keepMapped (t : State) : (t.keepMapped s).flushes = t.flushes := by
  simp [State.keepMapped]

@[simp] theorem State.flushes_rebuild : s.rebuild.flushes = 0 := by
  unfold State.rebuild
  dsimp only
  rw [State.flushes_showMc, State.flushes_holdRings]
  change State.flushes (ite _ _ _) = 0
  rw [State.flushes_ite, State.flushes_startLinks, ite_self, State.flushes_foldl _ _ _ fun u p => by split <;> rfl,
    State.flushes_publishWm, State.flushes_applySections, State.flushes_foldl _ _ _ fun u i => ?_]
  · simp
  · generalize (if (s.lane i).copy1 = true then s.golden.patch else none) = o
    cases o <;> simp

@[simp] theorem State.flushes_resumeDeep : s.resumeDeep.flushes = 0 := by
  unfold State.resumeDeep
  dsimp only
  split
  · exact State.flushes_rebuild _
  · split <;> simp

theorem State.flushes_rise (h : s.flushes = 0) (t : Nat) : (s.rise t).flushes = 0 := by
  unfold State.rise
  dsimp only
  split
  · exact State.flushes_resumeDeep _
  · simpa using h

theorem State.flushes_wakeTo (h : s.flushes = 0) (n : Nat) : (s.wakeTo n).flushes = 0 := by
  simpa [State.wakeTo] using s.flushes_rise h 0

@[simp] theorem State.flushes_enter : s.enter.flushes = s.flushes := by
  simp [State.enter]

theorem State.flushes_begin (h : s.flushes = 0) (t : Nat) (c : Option CmdRef) : (s.begin_ t c).flushes = 0 := by
  have awake := s.flushes_wakeTo h
  have risen := s.flushes_rise h t
  unfold State.begin_
  cases c <;> simp [h, awake, risen]

theorem State.flushes_evalPend (h : s.flushes = 0) : s.evalPend.flushes = 0 := by
  unfold State.evalPend
  split
  · exact h
  split
  · refine State.flushes_begin _ ?_ _ _
    simpa using h
  · exact h

end Power

/-! ### Drains and the messages between modules (R88, R333, R424) -/

section Messages

variable (s : State)

@[simp] theorem State.flushes_drainStep : s.drainStep.flushes = s.flushes := by
  unfold State.drainStep
  refine State.flushes_foldl _ _ _ fun u e => ?_
  dsimp only
  split
  · split <;> rfl
  · rfl

@[simp] theorem State.flushes_drainsDone : s.drainsDone.flushes = s.flushes := by
  unfold State.drainsDone
  refine State.flushes_foldl _ _ _ fun u c => ?_
  dsimp only
  split
  · rfl
  · split <;> simp

@[simp] theorem State.flushes_serveStream (l : Nat) (o : Bool) (a b k : Nat) : (s.serveStream l o a b k).flushes = s.flushes := by
  simp [State.serveStream]

@[simp] theorem State.flushes_leadDetour (k : Nat) : (s.leadDetour k).flushes = s.flushes := by
  simp [State.leadDetour]

@[simp] theorem State.flushes_followDetour (l : Nat) : (s.followDetour l).flushes = s.flushes := by
  unfold State.followDetour
  split
  · simp
  have kept := State.flushes_startDetour { s with free := s.free + 1 } (Config.ledImage s.free) none
  split <;> simp_all

@[simp] theorem State.flushes_detourAnswer : s.detourAnswer.flushes = s.flushes := by
  simp [State.detourAnswer]

@[simp] theorem State.flushes_meshServe (l : Nat) (b : Bytes) : (s.meshServe l b).flushes = s.flushes := by
  unfold State.meshServe
  dsimp only
  split
  case h_5 c _ =>
    split
    case h_1 t ht => exact State.flushes_mediaRx ht
    case h_2 => rfl
  all_goals simp

@[simp] theorem State.flushes_casServe : s.casServe.flushes = s.flushes := by
  simp [State.casServe]

end Messages

/-! ### The end of a command (R53) -/

theorem State.flushes_ended {s : State} (h : s.flushes = 0) : s.ended.flushes = 0 := by
  refine State.flushes_evalPend _ ?_
  simpa using s.flushes_settle h

theorem State.flushes_after (s : State) {t : State} (h : t.flushes = 0) : (s.after t).flushes = 0 := by
  simpa [State.after] using State.flushes_ended h

end Sys2Proof.Machine
end

section
/-! THE REFUTATION OF O48. A flush adds one to the counter for each copy, wrapped to 48 bits, and of a queue without copies it leaves the counter
as it stands; the statement has it wrapped there too. -/

namespace Sys2Proof.Machine

open Sys2Proof

/-- QUEUE_CLOSE with FLUSH of queue 9. -/
def flushEntry : SubEntry :=
  { sseq := 1, opcode := 0x51, flags := 0, tag := 0, target := 9, addr := 0, len := 0, params := 1 :: zeros 27 }

def flushRef : CmdRef := { ring := 0, sseq := 1 }

/-- The flush waits its turn on ring 0; queue 9 is enabled and without copies, and the counter of flushed copies reads 2^48. -/
def flushEmpty : State :=
  { plt := { up := true, firmware := true, blockOn := [(0, true)] },
    units := (List.range 17).map (fun k => (k, { en := true, running := true })),
    cpus := [(0, { ph := .run, services := 32 }), (1, { ph := .run, services := 1 })],
    hqe := { bme := true, attached := true,
             rings := [(0, { ph := .run, kind := kCMD, size := 16, consumed := 1, flight := [{ ord := 0, e := flushEntry }] })] },
    tmg := { queues := [(9, { en := true })] },
    cnt := [(flushKey, 2 ^ 48)] }

theorem flushEmpty_premises : flushEmpty.cmdsRun = true ∧ flushEmpty.serves 0 = true ∧
    flushEmpty.command flushRef 0x51 = some flushEntry ∧ flushEntry.param 0 1 = 1 ∧ (flushEmpty.queue 9).en = true := by
  decide +kernel

/-- The counter that a command leaves, where it answers. -/
def flushesLeft (c : Instr) (s : State) : Option Nat :=
  match exec c s with
  | .next t => some t.flushes
  | _ => none

/-- The statement's count of the copies flushed: 2^48 + 0, wrapped. -/
theorem flushEmpty_count : (flushEmpty.cntOf bTMG 0 12 + (flushEmpty.queue 9).copies.length) % 2 ^ 48 = 0 := by decide +kernel

/-- The model's run leaves 2^48. -/
theorem flushesLeft_flushEmpty : flushesLeft (.queueCloseFlush flushRef) flushEmpty = some (2 ^ 48) := by decide +kernel

/-- What finishes with the counter at 0 leaves it at 0. -/
theorem flushesLeft_finish {c : Instr} {s t : State} {h : CmdRef} (he : exec c s = .next (s.after (t.finish h cOK 0 [])))
    (ht : t.flushes = 0) : flushesLeft c s = some 0 := by
  have ended : (s.after (t.finish h cOK 0 [])).flushes = 0 := s.flushes_after (by simpa using ht)
  simp only [flushesLeft, he, ended]

/-- Refutes O48: a flush of an empty queue (R291) leaves a counter of 2^48 as it is, where the statement has it wrapped to 0. -/
theorem not_queueLaneAndLogCommandsAnswer : ¬ Obligations.QueueLaneAndLogCommandsAnswer := by
  unfold Obligations.QueueLaneAndLogCommandsAnswer
  intro all
  obtain ⟨hcmds, hserves, hcommand, hparam, hen⟩ := flushEmpty_premises
  obtain ⟨-, -, -, flush, -⟩ := all flushRef flushEntry flushEmpty hcmds hserves
  obtain ⟨t, hexec, -, -, -, hcount⟩ := flush hcommand (by decide) hparam hen
  have zero : t.flushes = 0 := t.flushes_eq.trans (hcount.trans flushEmpty_count)
  have differ := flushesLeft_flushEmpty.symm.trans (flushesLeft_finish hexec zero)
  exact absurd differ (by decide)

end Sys2Proof.Machine
end
